-- ==== Sys2Proof/Word.lean ====
section
/-! DEFINITION. The word types of the register window and of the byte-wide memories. -/

namespace Sys2Proof

/-- A 32-bit word of the register window (R35, R57). -/
abbrev Word := BitVec 32

/-- A byte of Reel memory, of a packet or of a message. -/
abbrev Byte := BitVec 8

/-- Bytes in order of their addresses or of their transmission. -/
abbrev Bytes := List Byte

end Sys2Proof
end

