-- ==== Sys2Proof/Syntax.lean ====
section
/-! DEFINITION. The commands of the hub: one constructor of Instr for each row of the opcode table, and the types of their
operands. The table gives its rows no bits; the operands are what the command's rule needs to be performed. A command that is
an access names its requester first; one that the spec's clock or a partner causes carries what the outside contributes. -/

namespace Sys2Proof

/-- A requester of the register window (R366): a slice, a Miller core, the BMC or JTAG. -/
inductive Req where
  | slice (s : Fin 4)
  | miller (c : Fin 4)
  | bmc
  | jtag
  deriving DecidableEq, Repr

/-- The bytes that a read of the register window asks for: the address of the first and how many enabled bytes follow each other (R348, R351). -/
structure Span where
  addr : Word
  size : Nat
  deriving DecidableEq, Repr

/-- A wake source of SHELF (R530). -/
inductive WakeSource where
  | vin
  | pin
  | vbus (n : Fin 4)
  deriving DecidableEq, Repr

/-- What a path of a connection manager ends at or enters (R79). A dpAux path is the AUX path of a DP adapter, of class 0. -/
inductive CmKind where
  | dpOut | dpAux | dpIn | pcie | usb3 | transit
  deriving DecidableEq, Repr

/-- Main stream attributes of a DP stream (R235, R239): active size, encoding (0 RGB, 1 4:4:4, 2 4:2:2, 3 4:2:0), the
code of its bits per component, the DSC rate in 1/16 bit per pixel (0: none), DSC slices per line, kilopixels per second
of active pixels, payload in Mbit/s, and the colour matrix and range that the MSA or the VSC SDP names. -/
structure Msa where
  h : Nat
  v : Nat
  colour : Nat
  bpc : Nat
  dscBpp : Nat
  slices : Nat
  kpps : Nat
  mbps : Nat
  matrix : Nat
  deriving DecidableEq, Repr

/-- A region of a selective update: first line and number of lines, first column and number of columns. -/
structure Region where
  y : Nat
  lines : Nat
  x : Nat
  columns : Nat
  deriving DecidableEq, Repr

/-- A pixel that a Gate takes from a packet, as the stream codes it: R, or Y; then G and B, or Cb and Cr, of the one chroma sample
that holds for the pixel, or of the samples around it between which R240 interpolates. -/
structure SrcPixel where
  x : Nat
  y : Nat
  c0 : Nat
  c1 : List Nat
  c2 : List Nat
  deriving DecidableEq, Repr

/-- A secondary-data packet: an audio SDP or another one (R235). -/
structure Sdp where
  audio : Bool
  bytes : Bytes
  deriving DecidableEq, Repr

/-- What a Gate takes from the packet that outlet 20 delivers to it: pixels in raster order, or bytes of the compressed stream
(R242), and SDPs. The packing of DP streams into packets is USB4's and not the spec's. -/
structure GateData where
  pixels : List SrcPixel
  coded : Bytes
  sdps : List Sdp
  deriving DecidableEq, Repr

/-- A DP AUX request to a Gate (R236, R237). -/
inductive AuxReq where
  | dpcdRead (addr len : Nat)
  | dpcdWrite (addr : Nat) (bytes : Bytes)
  | edidRead (offset len : Nat)
  deriving DecidableEq, Repr

/-- How a stream at a Gate ends (R239). -/
inductive StreamEnd where
  | ended | msaChange | linkLost
  deriving DecidableEq, Repr

/-- What a monitor advertises to a DP transmitter (R299, R304, R305): an MST branch, Adaptive-Sync, DSC decode with the most
slices per line and the range of rates in 1/16 bit per pixel; its highest link rate, in the encoding of R265, and lane count; and the
output ports of the branch that another branch is attached to, by bit. -/
structure SinkCaps where
  mst : Bool
  adaptive : Bool
  dsc : Bool
  dscSlices : Nat
  dscMinBpp : Nat
  dscMaxBpp : Nat
  maxRate : Nat
  maxLanes : Nat
  deep : Nat
  deriving DecidableEq, Repr

/-- A hub that a Leat link reaches, as the control channel reports it (R614, R620, R624): number, whether it is a head
candidate that is not in Quarantine for DUP_ID, FEATURES, FW_VER.MAJOR, Quarantine, and hops from this hub. -/
structure FabricHub where
  id : Nat
  candidate : Bool
  features : Nat
  major : Nat
  quarantine : Bool
  hops : Nat
  deriving DecidableEq, Repr

/-- What training teaches of the peer (R629): CASC_ID, Leat number and strapped role. -/
structure LeatPeer where
  id : Nat
  leat : Nat
  role : Nat
  deriving DecidableEq, Repr

/-- What the control channel of a Leat link reports of the other end: the peer is in Quarantine (R627), has the link SECURE
(R635), has armed a key (R632), has RX_FULL set (R634), and the hubs that the link reaches. -/
structure LeatStatus where
  quarantine : Bool
  secure : Bool
  armed : Bool
  rxFull : Bool
  hubs : List FabricHub
  deriving DecidableEq, Repr

/-- A sync word (R619); `delay` is the accumulated delay in 1/16 tick, `hops` the links to the head. -/
structure SyncWord where
  ftime : Nat
  epoch : Nat
  phase : Nat
  gen : Nat
  headId : Nat
  cfgHash : Nat
  fwMajor : Nat
  fwMinor : Nat
  features : Nat
  members : Nat
  quarMap : Nat
  route : Nat
  delay : Nat
  hops : Nat
  deriving DecidableEq, Repr

/-- A piece of a chain in a Leat frame (R629, R210): hop, colour, packets, whether the chain ends with it, and the path
under whose credit its packets were sent. -/
structure LeatPiece where
  hop : Nat
  colour : Nat
  packets : List Bytes
  closed : Bool
  credit : Option Nat
  deriving DecidableEq, Repr

/-- A path that a connection manager sets valid (R79): the slice, the ingress point with its hop number, the outlet with
the hop number written there, what the path serves, the number of its DP OUT or DP IN adapter, its USB4 Priority, its
USB4 Weight, and the bandwidth allocation of a DP path in Mbit/s. -/
structure PathReq where
  slice : Fin 4
  ingress : Nat
  hop : Nat
  outlet : Nat
  outHop : Nat
  kind : CmKind
  adapter : Nat
  prio : Nat
  weight : Nat
  mbps : Nat
  deriving DecidableEq, Repr

/-- What a host asks of the dock function on endpoint 0: a standard request (R407), a vendor request that R407 does not list, a PING
(R412). `get` is GET_DESCRIPTOR by descriptor type; `getStatus` names an endpoint by its address with bit 7 as bit 4, none the device;
`linkFeature` is U1_ENABLE or U2_ENABLE. -/
inductive StdReq where
  | setAddress (addr : Nat)
  | setConfiguration (value : Nat)
  | setInterface (num alt : Nat)
  | remoteWake (on : Bool)
  | get (kind len : Nat)
  | getStatus (endpoint : Option Nat)
  | getConfiguration
  | getInterface (num : Nat)
  | endpointHalt (endpoint : Nat) (on : Bool)
  | functionSuspend (suspend wake : Bool)
  | linkFeature (u2 on : Bool)
  | setSel (bytes : Bytes)
  | isochDelay (ns : Nat)
  | synchFrame (endpoint : Nat)
  | vendor (request : Nat)
  | ping
  deriving DecidableEq, Repr

/-- A class request (R398, R418): hub requests to the USB 2.0 hub (`three` false) or the USB 3.2 hub, whose ports carry the numbers 1–9 (R397); requests to the clock
source, whose rate codes are those of DOCKFN.STATUS.RATE. `configure` is the host's configuration of a hub itself, `linkPower` its request for L1, or for U1 or U2. -/
inductive ClassReq where
  | configure (on : Bool)
  | portStatus (three : Bool) (port : Nat)
  | portPower (three : Bool) (port : Nat) (on : Bool)
  | portSuspend (three : Bool) (port : Nat) (on : Bool)
  | clearConnection (three : Bool) (port : Nat)
  | clearOverCurrent (three : Bool) (port : Nat)
  | setRate (code : Nat)
  | getRate
  | hubDescriptor (three : Bool)
  | linkPower (three : Bool)
  | rateRange
  deriving DecidableEq, Repr

/-- What of a slice suspends or is resumed by its host (R413, R415). -/
inductive UsbUnit where
  | hub2 | hub3 | dock
  deriving DecidableEq, Repr

/-- What a port sees on its CC pins (R437, R438): Rd or Rp on one pin, or the same on both. -/
inductive CcSeen where
  | rd | rp | double
  deriving DecidableEq, Repr

/-- A partner's answer to a message sequence of the hub's own (R442). -/
inductive AmsAnswer where
  | accept | reject | wait | psRdy
  deriving DecidableEq, Repr

/-- A structured VDM from the partner, with its SVID (R456). -/
inductive Vdm where
  | identity
  | svids
  | modes (svid : Nat)
  | enter (svid : Nat)
  | exit (svid : Nat)
  deriving DecidableEq, Repr

/-- An answer in the discovery of a device-port partner or a cable (R446, R455, R457): the cable's code of STATUS.CABLE; VID,
PID and whether the UFP VDO reports USB4; whether SVID 0xFF01 and SVID 0x3BD2 are listed; whether a UFP_D mode is offered
and multi-function preferred; ACK or NAK of an entry or a DP command. -/
inductive DiscAnswer where
  | cable (code : Nat)
  | identity (vid pid : Nat) (usb4 : Bool)
  | svids (dp fy9 : Bool)
  | modes (ufpD multi : Bool)
  | ack
  | nak
  deriving DecidableEq, Repr

/-- A PD message from the partner that the hub answers (R442). -/
inductive PdMsg where
  | getSourceCap | getSinkCap | prSwap | drSwap | vconnSwap | eprEnter | eprExit | eprKeepAlive | enterUsb
  | vdm (v : Vdm)
  | request (rdo : BitVec 32)
  | getRevision | other
  deriving DecidableEq, Repr

/-- The early-warning conditions of W12 (R496). -/
inductive EwCause where
  | uv | slope | rev
  deriving DecidableEq, Repr

/-- A frame of the shared SAR (R476): for each channel in order the code of its voltage and the signed code of its shunt, in
the direction of the closed path, and the values of slots 28–31 in the units of MON0 and MON1. -/
structure SarFrame where
  channels : List (Nat × Int)
  vin : Nat
  vkeep : Nat
  temp : Nat
  vio33 : Nat
  deriving DecidableEq, Repr

/-- What the logic of a Type-C link reports (R72, R73, R108, R109): it has trained in a mode of R74; its partner presents itself as
a USB4 host router; the trained link is in CL0, CL0s, CL1 or CL2 (0–3); symbols that FEC corrected, and blocks that it could not.
The table has one row for the reports of a link (assumption log 100). -/
inductive LinkReport where
  | trained (mode : Nat)
  | hostRouter
  | idle (cl : Nat)
  | errors (corrected uncorrectable : Nat)
  deriving DecidableEq, Repr

/-- A token bucket that earns tokens (R204): the flow of a path at an outlet, or the shaper of class 0 or 1 of an outlet. -/
inductive Shaper where
  | flow (path : Fin 1024) (outlet : Fin 24)
  | cls (outlet : Fin 24) (c : Fin 2)
  deriving DecidableEq, Repr

/-- An isochronous packet of the dock function (R421–R423): frames from the host on EP2 OUT, each a list of samples by
channel, or a number of frames due on EP3 IN. -/
inductive IsoPacket where
  | play (frames : List (List Nat))
  | capture (frames : Nat)
  deriving DecidableEq, Repr

/-- The commands, in the order of the opcode table. -/
inductive Instr where
  /-- REGISTER_WRITE (R53). A write to a register that has no row of its own passes the checks of R53 and stores the value
  under its access type. -/
  | registerWrite (req : Req) (addr : Word) (size : Nat) (value : BitVec 64)
  /-- WAKE_TIMEOUT (R53). An access whose block is not ready within 1 ms completes with 0xFFFF_FFFF, or is logged as a
  wake timeout. -/
  | wakeTimeout (k : Nat)
  /-- INT_FORCE (R44). A write of 1 to an INT_FORCE bit sets the matching EVENT bit whatever INT_EN holds. -/
  | intForce (req : Req) (page : Fin 216) (bits : Word)
  /-- COMMIT_GO (R64). A write of 1 to COMMIT.GO arms the page's shadow set; on PROJ pages the set is first checked under
  R276. -/
  | commitGo (req : Req) (page : Fin 216) (hold : Bool)
  /-- BLOCK_RESET (R646). A write of 1 to RESET_CTL.BLOCK_RESET starts a reset of the page, waking its domain first if
  needed. -/
  | blockReset (req : Req) (page : Fin 216)
  /-- BLOCK_RESET_COMPLETE (R46). A block reset ends with the page's class N, D and L fields at reset; COMMIT returns to 0
  and BLOCK_RESET reads 0. -/
  | blockResetComplete (page : Fin 216)
  /-- OWNER_WRITE (R51). A write to OWNER is checked under R83 and R84, stored as pending and sets PENDING. -/
  | ownerWrite (req : Req) (page : Fin 216) (value : Word)
  /-- PAD_RELEASE (R524). A write of 1 to EDGE_MODE.PAD_RELEASE hands held pads back to the block's drive and clears HELD. -/
  | padRelease (req : Req) (page : Fin 216) (hold : Bool)
  /-- PAIR_LO_READ (R59). A read of the _LO register of a 40-bit pair returns bits [31:0] and snapshots bits [39:32] for
  the requester. -/
  | pairLoRead (req : Req) (span : Span)
  /-- PAIR_HI_WRITE (R60). A write to the _HI register of a 40-bit pair stores bits [7:0] in the requester's staging
  register. -/
  | pairHiWrite (req : Req) (addr : Word) (value : Word)
  /-- PAIR_LO_WRITE (R60). A write to the _LO register of a 40-bit pair updates all 40 bits together with the staged bits
  and empties the staging register. -/
  | pairLoWrite (req : Req) (addr : Word) (value : Word)
  /-- PATH_SET_VALID (R79). A connection manager sets a path valid at an adapter, and the hub stages a path table entry
  with the defaults. -/
  | pathSetValid (q : PathReq)
  /-- WEIGHT_CHANGE (R80). A connection manager changes a path's USB4 Weight, and the hub rewrites WEIGHT for the next
  refill point. -/
  | weightChange (slice : Fin 4) (ingress : Nat) (hop : Nat) (weight : Nat)
  /-- ASYMMETRIC_TRANSITION_REQUEST (R77). A connection manager's request for an asymmetric link is accepted or refused
  under LINK_CTL. -/
  | asymmetricTransitionRequest (n : Fin 12) (tx3 : Bool)
  /-- RETRAIN (R78). A write of 1 to LINK_CTL.RETRAIN starts a training of a Type-C link at once, and traffic on the link
  stops. `by_` is none where the link itself starts the training. -/
  | retrain (by_ : Option Req) (n : Fin 12) (ctl : Word)
  /-- LINK_UP (R109). A Type-C link completes training, and its MODE and CAP are updated for the Sluice. `mode` is what
  the link reports: the mode it has trained in, or what else its logic tells the hub (log 100). -/
  | linkUp (n : Fin 12) (mode : LinkReport) (ms : Nat)
  /-- LINK_DOWN (R97). A Type-C link is lost; a lost host link resets its slice. -/
  | linkDown (n : Fin 12)
  /-- RELEASE (R88). A write of 1 to SLICE.RELEASE signals an unplug of the unit to its slice and starts its disconnect
  hold. -/
  | release (req : Req) (slice : Fin 4) (units : BitVec 16)
  /-- RELEASE_DONE (R89). Once the unit's paths are discarded and their VALID cleared, RELEASED is set and RELEASE_DONE is
  raised. -/
  | releaseDone (slice : Fin 4) (u : Fin 16)
  /-- ATTACH (R91). A write of 1 to SLICE.ATTACH starts the attach of a unit to the new owner once PENDING has cleared. -/
  | attach (req : Req) (slice : Fin 4) (units : BitVec 16)
  /-- DISC_HOLD_END (R93). The disconnect hold of a released unit expires, and a pending attach starts training the unit's
  link. -/
  | discHoldEnd (u : Fin 16)
  /-- ATTACH_TIMEOUT (R95). A link that does not train within its limit ends the attach, and the unit is reported as not
  connected. -/
  | attachTimeout (u : Fin 16)
  /-- DP_OUT_BIND (R690). A write of a DP OUT adapter binding is evaluated under R86 and R690 and may present or withdraw
  a sink. -/
  | dpOutBind (req : Req) (slice : Fin 4) (value : Word)
  /-- DP_IN_SRC (R87). A write of a DP IN adapter source selects a Projector stream, or sets FAULT. -/
  | dpInSrc (req : Req) (slice : Fin 4) (value : Word)
  /-- ROUTER_RESET (R97). A connection manager's router reset request resets its slice. -/
  | routerReset (slice : Fin 4)
  /-- SLICE_RESET (R98). A write of 1 to SLICE_CTL.SLICE_RESET resets the slice with the effects of R98. -/
  | sliceReset (req : Req) (slice : Fin 4)
  /-- SLICE_RESET_COMPLETE (R691). A slice reset completes, and stalled accesses to the slice's pages are performed. -/
  | sliceResetComplete (slice : Fin 4)
  /-- PROFILE_REENTRY (R103). Within 1 ms of the end of the sink contract, the hub re-enters the profile and retrains
  links above its limits. -/
  | profileReentry
  /-- CHAIN_ARRIVAL (R116). A chain arrives at a Forebay and is accepted if there is room; a LOSSY chain without room is
  discarded. -/
  | chainArrival (ingress : Fin 24) (hop : Nat) (packets : List Bytes) (closed : Bool) (bad : Bool) (colour : Nat) (credit : Option Nat)
  /-- ADMIT (R118). The chain at a Forebay head is looked up, policed, judged by WRED and either stored and enqueued or
  discarded. -/
  | admitIngress (ingress : Fin 24)
  /-- CREDIT_GRANT (R131). The hub grants a credit on a CREDITED path by reserving one free cell, within the path's
  window. -/
  | creditGrant (path : Fin 1024)
  /-- OUTLET_SELECT (R196). An outlet that can start a packet or chain selects the next flow by strict priority and WFQ
  and reads its cell. -/
  | outletSelect (outlet : Fin 24)
  /-- DEPARTURE (R555). The unit side reads a copy from the TX half of its crossing, and the copy counts as departed. -/
  | departure (outlet : Fin 24) (tag : Option Nat) (data : GateData)
  /-- CUT_THROUGH_TIMEOUT (R140). An ETH egress that has waited 2 µs for the next cell ends the frame with its FCS
  inverted. -/
  | cutThroughTimeout (outlet : Fin 24)
  /-- PATROL_SCRUB (R148). The patrol scrub reads a Hopper row and writes it back when it corrected a bit. -/
  | patrolScrub (cell : Nat) (row : Nat)
  /-- AUDIT_GO (R151). A write of 1 to AUDIT.GO starts an audit of the Hopper cells. -/
  | auditGo (req : Req) (auto : Bool)
  /-- AUDIT_DONE (R151). An audit returns unreachable cells to FREE, counts them and raises AUDIT_DONE. -/
  | auditDone
  /-- INJECT_SINGLE (R152). HOPPER.INJECT.SINGLE arms a single-bit corruption of the next cell written. -/
  | injectSingle (req : Req)
  /-- INJECT_DOUBLE (R152). HOPPER.INJECT.DOUBLE arms a double-bit corruption of the next cell written. -/
  | injectDouble (req : Req)
  /-- INJECT_LINK (R152). HOPPER.INJECT.LINK arms a corruption of the next cell's link word. -/
  | injectLink (req : Req)
  /-- PATH_ENTRY_WRITE (R124). A write to a path table entry lands in its staged copy; a write to CTL sets PENDING. -/
  | pathEntryWrite (req : Req) (path : Fin 1024) (word : Fin 16) (long : Bool) (value : BitVec 64)
  /-- MCAST_WRITE (R142). A write to an MCAST entry is staged; a write to BITMAP sets PENDING. -/
  | mcastWrite (req : Req) (group : Fin 256) (word : Fin 4) (long : Bool) (value : BitVec 64)
  /-- PROFILE_WRITE (R228). A write to a policer or WRED profile is staged; a write to CTL sets PENDING. -/
  | profileWrite (req : Req) (addr : Word) (long : Bool) (value : BitVec 64)
  /-- COUNTER_WRITE (R154). A write to a PATH_STATS or profile counter sets the live counter at once. -/
  | counterWrite (req : Req) (addr : Word) (long : Bool) (value : BitVec 64)
  /-- GROUPS_ACTIVE_WRITE (R132). A write of HOPPER.GROUPS.ACTIVE changes the groups in which cells are allocated, and
  CAPACITY. -/
  | groupsActiveWrite (req : Req) (groups : Byte)
  /-- FOREBAY_HWM (R155). A read of MILL.FOREBAY_HWM returns the mark and restarts it from the present occupancy. -/
  | forebayHwm (req : Req)
  /-- FREE_LWM (R157). A read of HOPPER.FREE_LWM returns the low-water mark and reloads the current FREE. -/
  | freeLwm (req : Req)
  /-- TURN_BOUNDARY (R161). At a turn boundary of fabric time, demand is frozen, the turn number advances and the
  computation starts. -/
  | turnBoundary
  /-- ALLOTMENT_COMPUTED (R180). The computation of the next rates completes, and DEMAND and PATH_NEXT become visible. -/
  | allotmentComputed (ns : Nat)
  /-- REFILL_POINT (R162). At the refill point the shapers take the new rates, ALLOT updates, and staged entries and
  shadows apply. -/
  | refillPoint
  /-- TURN_PHASE_WRITE (R694). A write of TURN_PHASE on a head or standalone hub moves the turn boundaries from the next
  tick. -/
  | turnPhaseWrite (req : Req) (ticks : Word)
  /-- COMPUTE_MAX (R189). A read of SLUICE.COMPUTE_MAX returns the longest computation and restarts the mark. -/
  | computeMax (req : Req)
  /-- TOKEN_EARNED (R204). A shaper's accumulator reaches 2,048,000 and converts it into one token, capped under R206. -/
  | tokenEarned (shaper : Shaper)
  /-- DEPTH_HWM (R225). A read of SLUICE_OUT.DEPTH_HWM returns the mark and restarts it from the present depth. -/
  | depthHwm (req : Req) (outlet : Fin 24)
  /-- PAUSE_RECEIVED (R328). A received PFC or 802.3x pause frame pauses classes at the MAC's outlet. -/
  | pauseReceived (mac : Fin 2) (pfc : Bool) (xoff : Byte) (xon : Byte)
  /-- PAUSE_EXPIRY (R328). The pause time of a paused class ends, and the class is eligible again. -/
  | pauseExpiry (mac : Fin 2) (prio : Option (Fin 8))
  /-- GATE_ENABLE (R245). A write of GATE.CTL.EN checks the takes and enables or disables the Gate. -/
  | gateEnable (req : Req) (gate : Fin 4) (ctl : Word)
  /-- EDID_VALID (R238). A change of EDID_CTL.VALID from 0 to 1 while HPD is high starts an HPD low pulse of 100 ms. -/
  | edidValid (req : Req) (gate : Fin 4) (ctl : Word)
  /-- HPD_PULSE_END (R238). The 100 ms HPD low pulse ends, and HPD rises again. -/
  | hpdPulseEnd (gate : Fin 4)
  /-- AUX_REQUEST (R236). A Gate answers a DP AUX request from its DPCD or EDID. -/
  | auxRequest (gate : Fin 4) (q : AuxReq)
  /-- LINK_TRAINING (R235). The host trains the Gate's emulated DP link, which is accepted at the first attempt. -/
  | linkTraining (gate : Fin 4) (rate : Nat) (lanes : Nat)
  /-- STREAM_UP (R239). The first valid MSA starts a stream, or refuses it, and requests bandwidth when BW_AUTO = 1. -/
  | streamUp (gate : Fin 4) (msa : Msa)
  /-- STREAM_DOWN (R239). The stream ends, its MSA changes or the link is lost, and any frame being written is abandoned. -/
  | streamDown (gate : Fin 4) (why : StreamEnd)
  /-- FRAME_START (R246). At the start of a frame, the Gate chooses the take it will write. -/
  | frameStart (gate : Fin 4) (su : Bool) (regions : List Region)
  /-- CLAPPER (R247). A frame completes in its take; the take becomes newest, bands are marked dirty and the signature is
  reported. -/
  | clapper (gate : Fin 4)
  /-- PR_ENTER (R239). The host enters Panel Replay, and the Gate goes to STATIC and starts catch-up. -/
  | prEnter (gate : Fin 4)
  /-- PR_EXIT (R239). The host leaves Panel Replay, and the Gate returns to STREAMING. -/
  | prExit (gate : Fin 4)
  /-- CATCH_UP_BAND (R250). The catch-up engine completes the copy of one dirty band from the newest take and marks it
  clean. -/
  | catchUpBand (gate : Fin 4)
  /-- BW_IDLE_DECREASE (R253). After BW.IDLE_MS in STATIC, the Gate requests a decrease to BW.FLOOR. -/
  | bwIdleDecrease (gate : Fin 4)
  /-- BW_GRANT (R254). The host grants bandwidth, and the hub sets the path's RESERVED_RATE. -/
  | bwGrant (gate : Fin 4) (mbps : Nat)
  /-- REEL_PATROL (R268). The Reel patrol scrub reads and corrects a block of Reel memory. -/
  | reelPatrol (block : Nat)
  /-- REEL_INJECT_SINGLE (R268). REEL.INJECT.SINGLE arms a single-bit corruption of the next 64-byte block written. -/
  | reelInjectSingle (req : Req)
  /-- REEL_INJECT_DOUBLE (R268). REEL.INJECT.DOUBLE arms a double-bit corruption of the next 64-byte block written. -/
  | reelInjectDouble (req : Req)
  /-- UTIL_HWM (R268). A read of REEL.UTIL_HWM returns the mark and restarts it from the present UTIL. -/
  | utilHwm (req : Req)
  /-- VBLANK (R274). At the start of vertical blank a head applies its shadow set, latches takes and raises VBLANK. -/
  | vblank (head : Fin 4)
  /-- PROJ_ENABLE (R277). A write of PROJ.CTL.EN = 1 checks the active copy and starts the head at line V_ACTIVE. -/
  | projEnable (req : Req) (head : Fin 4) (ctl : Word)
  /-- PROJ_DISABLE (R279). Clearing PROJ.CTL.EN stops the head after the line in progress and releases its latched takes. -/
  | projDisable (req : Req) (head : Fin 4) (ctl : Word)
  /-- V_TOTAL_MAX_REACHED (R280). An extended frame reaches V_TOTAL_MAX lines and continues without latching again. -/
  | vTotalMaxReached (head : Fin 4)
  /-- UNDERRUN (R289). A pixel slot arrives before its fetch has returned; the head sends BG_COLOR for the rest of the
  line. -/
  | underrun (head : Fin 4) (line : Nat) (pixel : Nat)
  /-- OUTPUT_STALL (R290). The head's output buffer is full for want of credit, and the line is treated as an underrun. -/
  | outputStall (head : Fin 4) (line : Nat) (pixel : Nat)
  /-- FRAME_END (R294). At the end of a frame the head computes OUT_SIG and applies the continuity check. -/
  | frameEnd (head : Fin 4)
  /-- DP_TRAINING_COMPLETE (R304). A DP transmitter toward a monitor finishes training or fails, and the port is UP or
  SHORT. -/
  | dpTrainingComplete (port : Fin 10) (ok : Bool) (rate : Nat) (lanes : Nat) (caps : SinkCaps) (ms : Nat)
  /-- HPD_IRQ (R304). An HPD IRQ reporting loss of lock starts a retraining of the port. -/
  | hpdIrq (port : Fin 10) (lost : Bool)
  /-- PROJ_RETRAIN (R304). A write of 1 to PROJ.LINK_CTL.RETRAIN retrains the device ports the head masters. -/
  | projRetrain (req : Req) (head : Fin 4) (ctl : Word)
  /-- DPO_RETRAIN (R304). A write of 1 to DPO.CTL.RETRAIN retrains the DPO in retained use. -/
  | dpoRetrain (req : Req) (dpo : Fin 2) (ctl : Word)
  /-- DPO_HPD_CHANGE (R312). The HPD ball of a DPO changes level. -/
  | dpoHpdChange (dpo : Fin 2) (high : Bool)
  /-- SIG_POP (R292). A read of PROJ.SIG_POP pops the oldest queued signature. -/
  | sigPop (req : Req) (head : Fin 4)
  /-- ETH_FRAME_RECEIVE (R315). A MAC receives a frame and discards it for length or FCS, or delivers it as a chain. -/
  | ethFrameReceive (mac : Fin 2) (frame : Bytes) (late : Bool)
  /-- ETH_LINK_UP (R342). A MAC link comes up. -/
  | ethLinkUp (mac : Fin 2) (speed : Nat)
  /-- ETH_LINK_DOWN (R342). A MAC link goes down. -/
  | ethLinkDown (mac : Fin 2)
  /-- SWITCH_FORWARD (R318). The Tailrace switch tags, filters, learns and forwards a frame to NICs and wire ports. -/
  | switchForward
  /-- AGE_OUT (R319). A dynamic FDB entry unseen for AGE seconds is removed. -/
  | ageOut (index : Fin 4096)
  /-- FDB_READ (R341). FDB_CMD.OP = 1 reads an FDB entry. -/
  | fdbRead (req : Req) (index : Fin 4096)
  /-- FDB_WRITE (R338). FDB_CMD.OP = 2 writes an FDB entry, or is dropped when it names an absent port. -/
  | fdbWrite (req : Req) (index : Fin 4096) (fixed : Bool)
  /-- FDB_DELETE (R341). FDB_CMD.OP = 3 deletes an FDB entry. -/
  | fdbDelete (req : Req) (index : Fin 4096)
  /-- FDB_FLUSH_DYNAMIC (R341). FDB_CMD.OP = 4 removes every dynamic FDB entry. -/
  | fdbFlushDynamic (req : Req)
  /-- NIC_TRANSMIT (R323). A NIC handles a transmit descriptor, fetches the frame and sends it to the switch. -/
  | nicTransmit (slice : Fin 4) (ring : Fin 4) (addr : Nat) (len : Nat)
  /-- NIC_RECEIVE (R325). A NIC writes a received frame to its ring buffers and writes back the descriptors, or drops it
  for want of a buffer. -/
  | nicReceive (slice : Fin 4) (buffers : List Nat)
  /-- ITR_EXPIRY (R325). The ITR interval ends, and a ring's deferred interrupt bit is raised. -/
  | itrExpiry (slice : Fin 4) (ring : Fin 8)
  /-- XOFF_REPEAT (R327). Half of the sent quanta elapses while the condition holds, and the MAC repeats the XOFF. -/
  | xoffRepeat (mac : Fin 2)
  /-- PCIE_TLP_RECEIVE (R332). A TLP from the endpoint enters ingress 16 + x with its hop number. -/
  | pcieTlpReceive (port : Fin 2) (kind : Fin 3) (tag : Nat) (packets : List Bytes) (credit : Option Nat)
  /-- PCIE_PRESENCE_CHANGE (R331). PRSNT_N changes level, and surprise hot-plug is reported. -/
  | pciePresenceChange (port : Fin 2) (present : Bool)
  /-- PCIE_LINK_UP (R331). A PCIe downstream link trains. -/
  | pcieLinkUp (port : Fin 2) (gen : Nat) (width : Nat) (ms : Nat)
  /-- PCIE_LINK_DOWN (R336). A PCIe downstream link is lost, and outstanding requests complete with UR. -/
  | pcieLinkDown (port : Fin 2)
  /-- PERST_RELEASE (R335). PERST# is released once none of its causes holds, at least 100 µs after REFCLK is stable. -/
  | perstRelease (port : Fin 2)
  /-- REEL_WINDOW_READ (R350). A read of the Reel window is split at 64-byte boundaries and performed. -/
  | reelWindowRead (req : Req) (addr : Nat) (len : Nat)
  /-- REEL_WINDOW_WRITE (R350). A write to the Reel window is performed in parts. -/
  | reelWindowWrite (req : Req) (addr : Nat) (data : List (Option Byte))
  /-- ATOMICOP (R346). An AtomicOp request to function 0 completes with status UR. -/
  | atomicop (slice : Fin 4)
  /-- FLR_FUNCTION_0 (R347). An FLR of function 0 discards the slice's pending requests and empties its prefetch buffer. -/
  | flrFunction0 (slice : Fin 4)
  /-- FLR_FUNCTION_1 (R343). An FLR of function 1 clears every NIC register of the slice. -/
  | flrFunction1 (slice : Fin 4)
  /-- INTERNAL_TIMEOUT (R355). An access not completed 64 µs after dispatch is ended with 0xFFFF_FFFF, or logged. -/
  | internalTimeout (k : Nat)
  /-- OUTBOUND_COMPLETION (R373). A completion of an outbound read arrives into its reserved space, and the space returns. -/
  | outboundCompletion (slice : Fin 4) (k : Nat) (data : Bytes)
  /-- OUTBOUND_READ_TIMEOUT (R374). An outbound read unanswered for 50 ms is ended and reported to its master. -/
  | outboundReadTimeout (slice : Fin 4) (k : Nat)
  /-- LOG_CLEAR (R364). A write of 1 to LOG_CTL.CLEAR empties the posted-write error log. -/
  | logClear (req : Req)
  /-- WORD_SAMPLE (R377). Every PERIOD µs, Tally samples the source register of a KIND 1 entry. -/
  | wordSample (w : Fin 256)
  /-- WORD_WRITE (R379). A write to TALLY.WORD sets VALUE of a KIND 2 entry, or is dropped as an owner fault. -/
  | wordWrite (req : Req) (w : Fin 256) (value : Word)
  /-- WORD_SEND (R380). Tally sends a changed word value to its slot once the send interval has passed. -/
  | wordSend (w : Fin 256)
  /-- SLOT_RECEIVE (R381). A slot takes a received word value with its source and sequence count. -/
  | slotReceive (slot : Fin 256) (value : Word) (word : Fin 256) (hub : Fin 4) (reader : Nat)
  /-- EVENT_RAISE (R383). A write to EVENT_RAISE, or a hardware event, raises an event that Tally routes. `by_` is none
  for an event of the hardware. -/
  | eventRaise (by_ : Option Req) (id : BitVec 12) (arg : BitVec 16)
  /-- EVENT_ARRIVAL (R385). An event arriving from another hub enters its inbox, or is dropped when the inbox is full. -/
  | eventArrival (target : Fin 6) (id : BitVec 12) (arg : BitVec 16) (hub : Fin 4) (kind : Fin 4)
  /-- INBOX_READ (R386). A read of TALLY.INBOX by its reader pops the oldest event. -/
  | inboxRead (req : Req) (target : Fin 6)
  /-- CONNECT (R404). Setting DOCKFN.CTL.CONNECT connects the dock function on port 8. -/
  | connect (req : Req) (slice : Fin 4) (ctl : Word)
  /-- DISCONNECT (R405). Clearing CONNECT disconnects the dock function within 1 ms. -/
  | disconnect (req : Req) (slice : Fin 4) (ctl : Word)
  /-- STANDARD_REQUEST (R407). The hub answers a standard USB request to the dock function itself. -/
  | standardRequest (slice : Fin 4) (q : StdReq)
  /-- GET_INFO (R407). Vendor request GET_INFO returns variant, slice, hub number and firmware version. -/
  | getInfo (slice : Fin 4) (len : Nat)
  /-- REG_READ (R408). Vendor request REG_READ performs a 4-byte register read through Penstock. -/
  | regRead (slice : Fin 4) (offset : BitVec 25) (len : Nat)
  /-- REG_WRITE (R409). Vendor request REG_WRITE performs a 4-byte register write when its status stage completes. -/
  | regWrite (slice : Fin 4) (offset : BitVec 25) (len : Nat) (value : Word) (complete : Bool)
  /-- MAILBOX_OUT (R409). Vendor request MAILBOX_OUT delivers data to MBOX_OUT and sets OUT_FULL at its status stage. -/
  | mailboxOut (slice : Fin 4) (data : Bytes) (complete : Bool)
  /-- MAILBOX_IN (R411). Vendor request MAILBOX_IN returns MBOX_IN data and clears IN_READY at its status stage. -/
  | mailboxIn (slice : Fin 4) (len : Nat) (complete : Bool)
  /-- VREQ_TIMEOUT (R410). A mailbox request without progress for VREQ_TIMEOUT.MS is STALLed and counted. -/
  | vreqTimeout (slice : Fin 4)
  /-- SUSPEND (R413). A hub or dock function whose upstream has been idle for 3 ms enters suspend. -/
  | suspend (slice : Fin 4) (unit : UsbUnit)
  /-- REMOTE_WAKE (R414). A write of 1 to DOCKFN.WAKE.REQ, or a pending HID report, signals resume upstream. -/
  | remoteWake (req : Req) (slice : Fin 4)
  /-- RESUME_K_END (R414). The hub's resume K ends after 10 ms. -/
  | resumeKEnd (slice : Fin 4)
  /-- HOST_RESUME (R415). The host begins resume signalling; the hub stops its own K, and the wake is absorbed. -/
  | hostResume (slice : Fin 4) (unit : UsbUnit)
  /-- BUS_RESET (R416). A USB bus reset or hot or warm reset returns the dock function's USB state to defaults. -/
  | busReset (slice : Fin 4)
  /-- HID_SEND (R429). A write of 1 to DOCKFN.HID.SEND offers the report to the host. `by_` is none where the host polls
  EP4. -/
  | hidSend (by_ : Option Req) (slice : Fin 4) (report : BitVec 16)
  /-- NOTIFY (R429). A write to DOCKFN.NOTIFY queues a notification for EP1, or is counted as lost. `by_` is none where
  the host polls EP1. -/
  | notify (by_ : Option Req) (slice : Fin 4) (value : Word)
  /-- FEEDBACK (R420). The feedback endpoint sends the measured samples per microframe. -/
  | feedback (slice : Fin 4) (clocks : Word)
  /-- AUDIO_BLOCK (R423). The AUD port takes its next block, or sends zeros when the mixer is late. -/
  | audioBlock (delivered : Nat) (input : List (List Nat))
  /-- AUD_LOCK (R424). In slave mode, after 10 ms within 500 ppm, the AUD port reports LOCK. -/
  | audLock
  /-- CC_ATTACH_SEEN (R438). A port sees Rp or Rd and enters an AttachWait state. -/
  | ccAttachSeen (port : Fin 12) (seen : CcSeen) (pin2 : Bool) (ra : Bool)
  /-- TERMINATION_LOST (R438). Rp or Rd is lost during AttachWait or BUDGET_WAIT, and the port returns to unattached. -/
  | terminationLost (port : Fin 12)
  /-- CC_DEBOUNCE (R438). The CC debounce completes, and the port attaches, tries source or enters BUDGET_WAIT. -/
  | ccDebounce (port : Fin 12) (vbus : Bool)
  /-- DRP_TOGGLE (R448). A DRP port toggles to the other unattached role. -/
  | drpToggle (port : Fin 12)
  /-- TRY_DEBOUNCE (R448). Rd held for the Try debounce in TRY_SRC attaches the port as source. -/
  | tryDebounce (port : Fin 12)
  /-- TRY_PERIOD_END (R448). The Try period ends, moving to TRYWAIT_SNK or UNATTACHED_SNK. -/
  | tryPeriodEnd (port : Fin 12)
  /-- CC_OPEN (R464). CC open for 1 ms on a source port enters DISCHARGE and takes the detach actions. -/
  | ccOpen (port : Fin 12)
  /-- VBUS_DISCHARGED (R464). VBUS falls below 0.8 V, the port becomes unattached and its reservation is released. -/
  | vbusDischarged (port : Fin 12)
  /-- DISCHARGE_SLOW (R464). VBUS is still at or above 0.8 V after 650 ms; DISCHARGE_SLOW is raised. -/
  | dischargeSlow (port : Fin 12)
  /-- ERROR_RECOVERY_END (R438). After 25 ms in ERROR_RECOVERY the port enters its unattached state. -/
  | errorRecoveryEnd (port : Fin 12)
  /-- VBUS_LOST (R438). VBUS falls below vSinkDisconnect on a sink port, and the port becomes unattached. -/
  | vbusLost (port : Fin 12)
  /-- SOURCE_CAPABILITIES (R447). As sink, the hub receives Source_Capabilities and requests a PDO. -/
  | sourceCapabilities (port : Fin 12) (pdos : List Word)
  /-- REQUEST (R443). As source, the hub answers a Request or EPR_Request in hardware with Accept or Reject. -/
  | request (port : Fin 12) (rdo : Word)
  /-- AMS_ANSWER (R442). An Accept, Reject, Wait or PS_RDY from the partner completes the hub's own AMS. -/
  | amsAnswer (port : Fin 12) (answer : AmsAnswer)
  /-- GET_SOURCE_CAP (R442). A received Get_Source_Cap is answered with the committed source set. -/
  | getSourceCap (port : Fin 12)
  /-- GET_SINK_CAP_MESSAGE (R442). A received Get_Sink_Cap is answered with Sink_Capabilities or Not_Supported. -/
  | getSinkCapMessage (port : Fin 12)
  /-- SINK_CAPABILITIES (R442). Received Sink_Capabilities are stored in PARTNER_PDO and set PARTNER_FRS. -/
  | sinkCapabilities (port : Fin 12) (pdos : List Word)
  /-- PR_SWAP (R458). A partner's PR_Swap is rejected. -/
  | prSwap (port : Fin 12)
  /-- DR_SWAP (R458). A partner's DR_Swap is rejected. -/
  | drSwap (port : Fin 12)
  /-- VCONN_SWAP_MESSAGE (R458). A partner's VCONN_Swap is accepted inside a VCONN window and rejected outside one. -/
  | vconnSwapMessage (port : Fin 12)
  /-- FR_SWAP (R462). The partner's FR_Swap message is accepted, and the port becomes sink. -/
  | frSwap (port : Fin 12)
  /-- SOFT_RESET_MESSAGE (R442). A received Soft_Reset is handled as PD prescribes and opens a VCONN window. -/
  | softResetMessage (port : Fin 12)
  /-- HARD_RESET_RECEIVED (R467). A received Hard Reset abandons any transition, sends CONV_SAFE and restores vSafe5V. -/
  | hardResetReceived (port : Fin 12)
  /-- EPR_MODE (R444). An EPR_Mode Enter is accepted or answered Enter Failed. -/
  | eprMode (port : Fin 12) (enter : Bool)
  /-- EPR_KEEPALIVE (R442). An EPR_KeepAlive is answered with EPR_KeepAlive_Ack. -/
  | eprKeepalive (port : Fin 12)
  /-- ENTER_USB (R442). An Enter_USB on a host port is accepted or rejected by LINK_CTL.USB4_EN. -/
  | enterUsb (port : Fin 12)
  /-- STRUCTURED_VDM (R456). A structured VDM received on a host port is answered as a UFP PDUSB Hub. -/
  | structuredVdm (port : Fin 12) (v : Vdm)
  /-- GET_REVISION (R442). A Get_Revision is answered with Revision 3.2. -/
  | getRevision (port : Fin 12)
  /-- NOT_SUPPORTED (R442). Any other PD message is answered with Not_Supported. -/
  | notSupported (port : Fin 12)
  /-- SEND_SRC_CAP (R450). CMD.OP = 1 checks the set against the ledger and port limits, commits it and sends
  Source_Capabilities. -/
  | sendSrcCap (req : Req) (port : Fin 12)
  /-- PS_RDY (R443). CMD.OP = 2 sends PS_RDY when the Weir measures VBUS within ±5 %, else refuses it. -/
  | psRdy (req : Req) (port : Fin 12)
  /-- GET_SINK_CAP (R470). CMD.OP = 3 sends Get_Sink_Cap to the partner. -/
  | getSinkCap (req : Req) (port : Fin 12)
  /-- VCONN_SWAP (R458). CMD.OP = 4 starts a VCONN swap inside a window, else is refused. -/
  | vconnSwap (req : Req) (port : Fin 12)
  /-- SOFT_RESET (R470). CMD.OP = 5 sends Soft_Reset. -/
  | softReset (req : Req) (port : Fin 12)
  /-- HARD_RESET (R465). CMD.OP = 6 sends Hard Reset, with the CONV_SAFE write as source. -/
  | hardReset (req : Req) (port : Fin 12)
  /-- DISCOVER (R455). CMD.OP = 7 repeats discovery and mode entry on a device port. -/
  | discover (req : Req) (port : Fin 12)
  /-- EXIT_MODE (R470). CMD.OP = 8 exits the alternate mode. -/
  | exitMode (req : Req) (port : Fin 12)
  /-- ERROR_RECOVERY (R470). CMD.OP = 9 enters ERROR_RECOVERY. -/
  | errorRecovery (req : Req) (port : Fin 12)
  /-- TRANSITION_TIMEOUT (R443). No PS_RDY 440 ms, or 820 ms in EPR, after an Accept; the hub sends Hard Reset. -/
  | transitionTimeout (port : Fin 12)
  /-- EPR_SINK_TIMEOUT (R444). No message from the sink for 900 ms in EPR mode; the hub sends Hard Reset. -/
  | eprSinkTimeout (port : Fin 12)
  /-- SOURCE_CAPABILITIES_REPEAT (R448). Source_Capabilities without GoodCRC are repeated after about 150 ms. -/
  | sourceCapabilitiesRepeat (port : Fin 12)
  /-- RESPONSE_TIMEOUT (R448). The hub's wait for an answer to its own message expires. -/
  | responseTimeout (port : Fin 12)
  /-- EARLY_WARNING (R496). A W12 early-warning condition drives PFW_N low, sends the FR_Swap signal and may open W12. -/
  | earlyWarning (cause : EwCause)
  /-- FRS_RETURN (R463). A port that became sink by Fast Role Swap sends PR_Swap to return to source, and retries. -/
  | frsReturn (port : Fin 12)
  /-- SAMPLE (R476). A Weir SAR frame delivers V and I samples, updating measurements, energy and the breaker timers. -/
  | sample (frame : SarFrame)
  /-- FAST_TRIP (R483). The analog comparator sees current above FAST_MA and trips the channel. -/
  | fastTrip (ch : Fin 14)
  /-- FORCE_TRIP (R485). A write of 1 to CTL.FORCE_TRIP trips the channel with cause FORCED. -/
  | forceTrip (req : Req) (ch : Fin 14) (ctl : Word)
  /-- CH_EN (R487). A write of CH_EN permits closing or re-arms a tripped channel, or is ignored as too early. -/
  | chEn (req : Req) (ch : Fin 14) (ctl : Word)
  /-- OFF_MET (R487). 10 ms after a write of CH_EN = 0, OFF_MET reads 1. -/
  | offMet (ch : Fin 14)
  /-- RAMP_END (R480). The gate reaches WnSRC + 9 V, and the channel enters ON. -/
  | rampEnd (ch : Fin 14)
  /-- RAMP_TIMEOUT (R481). A ramp still running after RAMP_MAX.MS trips the channel. -/
  | rampTimeout (ch : Fin 14)
  /-- ENERGY_CLR (R478). A write of 1 to CTL.ENERGY_CLR sets ENERGY and its fraction to 0. -/
  | energyClr (req : Req) (ch : Fin 14) (ctl : Word)
  /-- DEAD_BATTERY_SINK_CLOSE (R494). With VIN absent and a host VBUS above 4.0 V for 10 ms, the hub closes that port's
  sink path. -/
  | deadBatterySinkClose (ports : List Nat)
  /-- INPUT_SWITCHOVER (R495). While W12 is power-good, sink paths open and W12 closes 10 µs later. -/
  | inputSwitchover
  /-- PFW_RELEASE (R497). After HOLD_MS of power-good without early warning, PFW_N is released. -/
  | pfwRelease
  /-- EXTREMES (R501). A read of WEIR.EXTREMES returns the peak current and lowest voltage and reloads them. -/
  | extremes (req : Req) (ch : Fin 14)
  /-- DOZE_ENTRY (R508). A domain idle for 32 cycles of its slowest clock enters DOZE. -/
  | dozeEntry (domain : Fin 43)
  /-- IDLE_TIMEOUT (R508). A domain idle for PWR_POLICY.IDLE µs starts entering its deepest permitted state. -/
  | idleTimeout (domain : Fin 43)
  /-- LOW_POWER_ENTRY_COMPLETE (R514). Entry to NAP or OFF completes, with pads held or floated. -/
  | lowPowerEntryComplete (domain : Fin 43)
  /-- DOMAIN_READY (R513). A waking domain becomes ready, and its stalled accesses are performed. -/
  | domainReady (domain : Fin 43)
  /-- WAKE_FAIL (R515). A domain not ready 1 ms after a wake cause is recorded, and WAKE_FAIL is raised. -/
  | wakeFail (domain : Fin 43)
  /-- PWR_POLICY_WRITE (R506). A write of PWR_POLICY or GROUP_POLICY by firmware changes the states a domain may enter.
  `group` names a GROUP_POLICY; none: PWR_POLICY of the page. -/
  | pwrPolicyWrite (req : Req) (group : Option (Fin 8)) (page : Fin 216) (value : Word)
  /-- DVFS_TARGET_WRITE (R518). A write of DVFS_TARGET starts a change of each island toward its target where R519 allows. -/
  | dvfsTargetWrite (req : Req) (targets : Word)
  /-- DVFS_DONE (R518). An island's DVFS change completes, DVFS_STATE updates and DVFS_DONE is raised. -/
  | dvfsDone (island : Fin 4)
  /-- SHELF_ENTER (R526). A write of 1 to PWR.SHELF.ENTER is checked and starts the entry to SHELF, or is refused.
  `sources` are the wake sources that are asserted. -/
  | shelfEnter (req : Req) (sources : List WakeSource)
  /-- BMC_SHELF (R527). The BMC's key write opens the Weirs, resets the slices and enters SHELF without checks. -/
  | bmcShelf (req : Req) (key : BitVec 16)
  /-- SHELF_ENTRY_COMPLETE (R528). Every domain but ALWAYS and VAULT is OFF, and the conversion stage is in pulse mode. -/
  | shelfEntryComplete
  /-- SHELF_WAKE (R530). A wake source wakes the hub from SHELF and runs the boot sequence. -/
  | shelfWake (source : WakeSource)
  /-- MON_EXT (R535). A read of PWR.MON_EXT returns the lowest VIN and highest temperature and reloads them. -/
  | monExt (req : Req)
  /-- REF_SELECT (R539). A write of REF_CTL.SEL switches the Shaft reference, deferring the distiller until DIST_LOCK. -/
  | refSelect (req : Req) (ctl : Word)
  /-- DIST_LOCK (R538). The distiller output has stayed within ±200 ppm for 10 ms, and DIST_LOCK sets. -/
  | distLock
  /-- DIST_HOLD (R540). The distiller input stops or leaves the window, and the distiller holds its frequency. -/
  | distHold
  /-- HOLDOVER_EXPIRY (R540). HOLDOVER_MS passes without the input returning, and the reference falls back to the crystal. -/
  | holdoverExpiry
  /-- REF_FALLBACK (R541). The Leat receiver loses lock, and a switch to the crystal is requested within 1 µs. -/
  | refFallback (leat : Fin 2)
  /-- PLL_LOCK (R542). The Shaft PLL locks and sets LOCK. -/
  | pllLock
  /-- LOCK_LOSS (R542). The PLL loses lock; LOCK clears and LOCK_LOSSES increments. -/
  | lockLoss
  /-- MUX_SWITCH_COMPLETE (R543). A glitch-free mux passes the new clock. -/
  | muxSwitchComplete (mux : Fin 10)
  /-- MUX_RESCUE (R544). A mux not switched after 2,048 cycles is forced, and a core clock's domains are reset. -/
  | muxRescue (mux : Fin 10)
  /-- DOMSRC_WRITE (R546). A write of DOMSRC.SHAFT switches core clocks to Shaft division, ignored while LOCK = 0. -/
  | domsrcWrite (req : Req) (shaft : Byte)
  /-- METER_GO (R553). A write of 1 to METER_CTL.GO opens a 1 ms gate. -/
  | meterGo (req : Req) (src : Fin 32)
  /-- METER_DONE (R553). The meter gate closes, the count is written and METER_DONE is raised. -/
  | meterDone (edges : Nat)
  /-- XING_RESYNC (R557). Eight cycles after the reset side leaves reset, the half leaves FLUSH. -/
  | xingResync (xing : Fin 21) (tx : Bool)
  /-- FORCED_GATE (R559). Bus-quiet has not come within QUIET_LIMIT, so the gate is forced and accesses are ended. -/
  | forcedGate (domain : Fin 43)
  /-- FTIME_WRAP (R548). Fabric time wraps, and EPOCH increments. -/
  | ftimeWrap
  /-- FILTER (R565). A source's filtered level takes a new value after FILTER_N stable SLOW cycles. -/
  | filter (id : Fin 512)
  /-- ARBITRATE (R568). Every 4 REG cycles Cue selects BEST for each target and sets LINE. -/
  | arbitrate
  /-- CLAIM (R570). A read of CLAIM returns BEST, pushes it on the stack and marks it active. -/
  | claim (req : Req) (target : Fin 8)
  /-- COMPLETE (R573). A write of COMPLETE pops a matching top entry, or freezes the target. -/
  | complete (req : Req) (target : Fin 8) (id : Fin 512)
  /-- STACK_RESET (R574). A write of 1 to TCTL.STACK_RESET empties the stack and clears FROZEN. -/
  | stackReset (req : Req) (target : Fin 8) (ctl : Word)
  /-- DB_SET (R581). A write of 1 to DB_SET rings a software doorbell. -/
  | dbSet (req : Req) (w : Fin 7) (bells : Word)
  /-- DB_CLR (R581). A write of 1 to DB_CLR clears a doorbell latch. -/
  | dbClr (req : Req) (w : Fin 7) (bells : Word)
  /-- EXTEND (R592). Vault command EXTEND hashes a digest into a measurement register. -/
  | extend (req : Req) (m : Fin 4)
  /-- DERIVE (R595). Vault command DERIVE derives a key into a slot from the root and measurements. -/
  | derive (req : Req) (slot : Fin 32) (msel : Fin 16) (ecdsa : Bool)
  /-- GENERATE (R598). Vault command GENERATE creates a key in a slot from the DRBG. -/
  | generate (req : Req) (slot : Fin 32) (ecdsa : Bool)
  /-- GCM_ENC (R598). Vault command GCM_ENC encrypts IN with a slot's AES key. -/
  | gcmEnc (req : Req) (slot : Fin 32)
  /-- GCM_DEC (R598). Vault command GCM_DEC decrypts and authenticates IN. -/
  | gcmDec (req : Req) (slot : Fin 32)
  /-- SIGN (R598). Vault command SIGN signs a digest with an ECDSA slot other than slot 0. -/
  | sign (req : Req) (slot : Fin 32)
  /-- QUOTE (R600). Vault command QUOTE builds and signs a quote with slot 1. -/
  | quote (req : Req) (slot : Fin 32)
  /-- PUBKEY (R598). Vault command PUBKEY returns a slot's public key. -/
  | pubkey (req : Req) (slot : Fin 32)
  /-- ECDH (R598). Vault command ECDH derives an AES key into TSLOT from a peer point. -/
  | ecdh (req : Req) (slot : Fin 32) (tslot : Fin 32)
  /-- RANDOM (R598). Vault command RANDOM returns bytes from the DRBG. -/
  | random (req : Req)
  /-- CLEAR (R598). Vault command CLEAR empties a slot. -/
  | clear (req : Req) (slot : Fin 32)
  /-- PROVISION (R591). Vault command PROVISION creates the root, derives slot 0, signs the identity key and burns the
  enrolment key. -/
  | provision (req : Req)
  /-- ENDORSE (R598). Vault command ENDORSE signs the alias key and measurements with slot 0. -/
  | endorse (req : Req)
  /-- CMD_DONE (R597). A Vault command ends, setting RESULT and OUT_LEN, clearing BUSY and raising CMD_DONE. -/
  | cmdDone
  /-- MEAS_LOCK (R593). A write setting a MEAS_LOCK bit locks a measurement; lock bit 2 derives the alias key. -/
  | measLock (req : Req) (bits : Fin 16)
  /-- MASK_REWRITE (R589). Every 1 ms the Vault rewrites the masked root with a new mask. -/
  | maskRewrite
  /-- TAMPER (R603). A tamper sensor trips; the Vault zeroises, ends any command and writes a record. -/
  | tamper (sources : BitVec 6)
  /-- ENTROPY_FAIL (R601). A health test fails; ENTROPY_OK clears and HEALTH_FAILS increments. -/
  | entropyFail
  /-- RESEED (R601). The DRBG reseeds after 65,536 requests, or after one second. -/
  | reseed
  /-- TAMPER_LOCK (R605). A write of 1 to TAMPER_CTL.LOCK freezes the tamper modes. -/
  | tamperLock (req : Req) (modes : Fin 16)
  /-- TLOG_CLEAR (R604). A write of 1 to TLOG_CTL.CLEAR empties the tamper records. -/
  | tlogClear (req : Req)
  /-- SYNC_WORD (R621). A member receives a sync word, forwards it, compares time and configuration, and steps or
  quarantines. -/
  | syncWord (leat : Fin 2) (dt : Nat) (w : SyncWord)
  /-- ROUND_TRIP (R620). A Leat link measures its round trip and reports DELAY. -/
  | roundTrip (leat : Fin 2) (sixteenths : Nat) (status : LeatStatus)
  /-- LEAT_LINK_UP (R629). A Leat link trains and learns its peer. -/
  | leatLinkUp (leat : Fin 2) (peer : LeatPeer) (status : LeatStatus)
  /-- LEAT_LINK_DOWN (R629). A Leat link is lost. -/
  | leatLinkDown (leat : Fin 2)
  /-- CFG_HASH_WRITE (R623). A write of CFG_HASH_LO sets the hash compared with the head's. -/
  | cfgHashWrite (req : Req) (lo : Word)
  /-- HASH_GRACE_EXPIRY (R623). CFG_HASH has differed for HASH_GRACE.MS, and the member enters Quarantine with cause
  CONFIG. -/
  | hashGraceExpiry
  /-- KEY_SLOT_WRITE (R631). A write of SEC.KEY_SLOT loads the link key, or sets SEC_FAULT. -/
  | keySlotWrite (req : Req) (leat : Fin 2) (slot : Fin 32) (next_ : Fin 32)
  /-- ROLL (R632). A write of 1 to SEC.ROLL arms NEXT_SLOT. -/
  | roll (req : Req) (leat : Fin 2) (slot : Fin 32) (next_ : Fin 32)
  /-- FRAME_COUNTER_LIMIT (R632). The frame counter reaches 2^40, and SECURE clears. -/
  | frameCounterLimit (leat : Fin 2)
  /-- LEAT_FRAME_RECEIVE (R633). A Leat frame is received; a failed tag discards it, and 16 failures in a turn retrain the
  link. `tagOk` is the tag that the frame carries, none in clear; `pieces` is its clear content. -/
  | leatFrameReceive (leat : Fin 2) (tagOk : Option Bytes) (pieces : List LeatPiece)
  /-- TX_GO (R634). A write of 1 to MSG_CTL.TX_GO sends a message to the peer, waiting while its RX_FULL is 1. -/
  | txGo (req : Req) (leat : Fin 2) (len : Nat)
  /-- MSG_RX (R634). A message arrives in RX_MSG, and RX_FULL sets. -/
  | msgRx (leat : Fin 2) (message : Bytes)
  /-- POR (R643). VIN rises through 4.4 V; the whole die except VAULT resets and boots. -/
  | por (vkeepLost : Bool)
  /-- BOR (R643). VIN below 4.2 V for 2 µs resets the die as POR does. -/
  | bor (vkeepLost : Bool)
  /-- RESET_N (R644). RESET_N held low for at least 1 µs performs a chip reset. -/
  | resetN
  /-- WDT_WARN (R648). The first watchdog expiry reloads it, sets WARNED and raises WDT_WARN. -/
  | wdtWarn
  /-- WDT (R648). A second watchdog expiry before a kick performs a WDT chip reset. -/
  | wdt
  /-- WDT_KICK (R648). A key write to WDT_KICK reloads the watchdog and clears WARNED. -/
  | wdtKick (req : Req) (key : BitVec 16)
  /-- WDT_CTL_WRITE (R648). A write of WDT_CTL stops or restarts the count, or sets the next timeout. -/
  | wdtCtlWrite (req : Req) (en : Bool) (ms : BitVec 16)
  /-- SOFT (R649). A key write of 0x50F7 to CHIP.SOFT_RESET performs a SOFT chip reset. -/
  | soft (req : Req) (key : BitVec 16)
  /-- CORE_RESET (R647). A write of 1 to MILLER.CTL.CORE_RESET restarts one core and discards its pending accesses. -/
  | coreReset (req : Req) (core : Fin 4) (run : Bool)
  /-- RUN (R653). A write of MILLER.CTL.RUN releases a core from reset. -/
  | run (req : Req) (core : Fin 4) (run : Bool)
  /-- BOOT (R653). The boot sequence measures and checks an image and starts the loader. -/
  | boot (imageA : Bytes) (imageB : Bytes) (readA : Bool) (readB : Bool)
  /-- LOAD_START (R665). A write of 1 to LOAD_CTL.START empties the load buffer. -/
  | loadStart (req : Req)
  /-- LOAD_DATA (R665). A write to LOAD_DATA appends four bytes to the streamed image. -/
  | loadData (req : Req) (value : Word)
  /-- LOAD_DONE (R657). A write of 1 to LOAD_CTL.DONE checks the streamed image under R655. -/
  | loadDone (req : Req)
  /-- RECOVERY_IMAGE (R657). The ROM receives an image over the H0 USB 2.0 bulk endpoint in recovery mode. -/
  | recoveryImage (image : Bytes)
  /-- BIST_GO (R660). A write of 1 to BIST.CMD.GO runs the selected tests, or refuses the whole command. -/
  | bistGo (req : Req) (kind : Fin 4)
  /-- ABORT (R662). A write of 1 to BIST.CMD.ABORT ends the run and releases the domains. -/
  | abort (req : Req) (kind : Fin 4)
  /-- BIST_DONE (R662). A BIST run completes; results are recorded and DONE or FAIL are raised. -/
  | bistDone (ms : Nat) (signatures : List (Nat × Nat))
  /-- GPIO_EDGE (R683). A rising edge of a GPIO's level sets GPIO_EDGE when EDGE_EN is 1. -/
  | gpioEdge (gpio : Fin 32) (high : Bool)
  /-- BUS_GO (R682). A write of 1 to BUS_CMD.GO starts an I2C, I3C or PWR-bus transfer. -/
  | busGo (req : Req) (bus : Fin 2) (cmd : Word)
  /-- BUS_DONE (R682). A bus transfer ends, setting DONE or NACK. -/
  | busDone (bus : Fin 2) (nack : Bool) (data : Bytes)
  /-- SPI_GO (R682). A write of 1 to SPI_CMD.GO starts a flash command. -/
  | spiGo (req : Req) (cmd : Word)
  /-- SPI_DONE (R682). A flash command ends, and GO reads 0. -/
  | spiDone (data : Bytes)
  /-- UART_TX (R682). A write to UART_TX queues a byte, dropped while TX_FULL. `sent` bytes of the FIFO have gone out
  since the last command. -/
  | uartTx (req : Req) (byte : Byte) (sent : Nat)
  /-- UART_RECEIVE (R682). The UART receives a byte into its FIFO, or sets OVERRUN. -/
  | uartReceive (byte : Byte)
  /-- BUS_RX (R682). A read of BUS_RX pops a received byte. -/
  | busRx (req : Req) (bus : Fin 2)
  /-- SPI_RX (R682). A read of SPI_RX pops four received bytes. -/
  | spiRx (req : Req)
  /-- UART_RX (R682). A read of UART_RX pops a received byte. -/
  | uartRx (req : Req)
  /-- BMC_ACCESS (R685). An I2C transfer to the BMC target performs one 4-byte register access, or is ignored. -/
  | bmcAccess (bytes : Bytes) (readBytes : Nat)
  /-- ATTENTION (R75). A DP Alt Mode partner on a device port sends an Attention or DP Status that reports a change of its
  HPD state, and the port's DP lanes start or stop. -/
  | attention (port : Fin 12) (hpd : Bool)
  /-- DISCOVERY_RESPONSE (R455). A device-port partner or cable answers the hub's Discover Identity, SVIDs, Modes or Enter
  Mode, and the hub records it and proceeds to the next stage of mode entry. -/
  | discoveryResponse (port : Fin 12) (answer : DiscAnswer)
  /-- CONNECT_CHANGE (R399). A USB 2.0 device connects to or disconnects from a device port's D+/D- pair, and the owning
  slice's USB 2.0 hub port reports the change. -/
  | connectChange (port : Fin 8) (speed : Nat)
  /-- CLASS_REQUEST (R398). A host sends a USB hub class request to a slice's hub, or a UAC 2.0 class request to the dock
  function's clock source, and the hub answers it. -/
  | classRequest (slice : Fin 4) (q : ClassReq)
  /-- ISOCHRONOUS_PACKET (R423). An isochronous audio packet arrives from the host on EP2 OUT, or is due on EP3 IN, and
  its samples pass to or from the Foley mixer buffers. -/
  | isochronousPacket (slice : Fin 4) (p : IsoPacket)
  /-- AUD_LOCK_LOSS (R424). In slave mode the measured rate of the board's BCLK or frame clock leaves the 500 ppm window
  or stops, LOCK clears and the port sends zeros. -/
  | audLockLoss
  /-- ENTROPY_RECOVERY (R601). The entropy source passes its health tests again, and ENTROPY_OK sets. -/
  | entropyRecovery
  /-- DIST_RESUME (R540). The distiller's input returns within the ±200 ppm window before HOLDOVER_MS expires, and the
  distiller leaves DIST_HOLD and tracks again. -/
  | distResume
  /-- PATH_SET_INVALID (R81). A connection manager clears a path's Valid bit at an adapter of its slice, and the hub
  removes the entry and decreases PATH_QUOTA.USED. -/
  | pathSetInvalid (slice : Fin 4) (ingress : Nat) (hop : Nat)
  /-- ENUMERATED (R105). A host's connection manager completes its enumeration of the slice's router, STATUS.ROUTER moves
  from 2 to 3 and ENUMERATED is raised. -/
  | enumerated (slice : Fin 4)
  /-- SINK_TX_OK (R461). As sink, the hub sees the source change Rp to SinkTxOK, and a command waiting for it starts its
  own AMS. -/
  | sinkTxOk (port : Fin 12)
  deriving DecidableEq, Repr

end Sys2Proof
end

