-- ==== Sys2Proof/Decode.lean ====
section
/-! DEFINITION. The command that a word spells. No row of the opcode table has bits, so no word spells any. -/

namespace Sys2Proof

/-- The table gives none of its rows an encoding: a command reaches the hub as a bus access, a message or an event. -/
def decodeTableWord (_ _ : Nat) : Option Instr := none

end Sys2Proof
end

