-- ==== Sys2Proof/Config.lean ====
section
/-! DEFINITION. What an implementation fixes and the spec leaves open, as constants without a body: nothing can be proved
of their values, so a claim holds for every one of them. The first argument of a free value is the state's own counter
`fresh` where each use draws a new one. -/

namespace Sys2Proof.Config

/-- The 16-bit draw of the WRED generator for a copy (R219: implementation-defined). -/
opaque freeDraw : Nat → BitVec 16

/-- The bank group in which a new cell is allocated, among those allowed, and the place within it (R692). -/
opaque freeGroup : Nat → Nat
opaque freeCell : Nat → Nat

/-- NEXT in the link word of the last cell of a queue, by the chain's number (R128: undefined at the tail). -/
opaque freeNext : Nat → Nat

/-- What the Gate's DPCD has at an address (R236): 0 nothing that R236 names, 1 a field that it answers, 2 a field that the host writes,
as those of link configuration. The addresses are DisplayPort's and not the spec's. -/
opaque dpcdField : Nat → Nat

/-- A byte of a DPCD field that the Gate answers, from what R235 presents: the spec gives the capabilities and not their codes. The
list holds DP_CAP, CTL, MAX_SIZE, the trained link, the state, and what the host has written. -/
opaque freeDpcd : Nat → List Nat → Byte

/-- The RGB components of a YCbCr pixel: matrix and range, code of the bits per component, Y, Cb, Cr. The coefficients and the
rounding are not stated (R240). -/
opaque freeRgb : Nat → Nat → Nat → Nat → Nat → BitVec 30

/-- A chroma component between the samples around a pixel: the place of the pixel among them and the rounding are not stated (R240). -/
opaque freeChroma : List Nat → Nat

/-- The pixels that DSC 1.2a decodes from more bytes of a compressed frame: rate, bits per component, encoding, size, slices; the
frame's bytes before, and the new ones (R242: the algorithm is the DSC standard's). -/
opaque dscDecode : List Nat → Bytes → Bytes → List (Nat × Nat × Nat × Nat × Nat)

/-- A 12-bit component that rounds to 1,024, which no 10-bit component holds (R240). -/
opaque freeRound : Nat → BitVec 10

/-- Bilinear interpolation of one component (R284): the four neighbours and the fractions of x and y, each with its denominator. How
the result is rounded is not stated. -/
opaque freeBilinear : List Nat → Nat → Nat → Nat → Nat → Nat

/-- A 10-bit component that rounds to 256, which no 8-bit component holds (R287). -/
opaque freeRound8 : Nat → BitVec 8

/-- Mvid and Nvid for a ratio of pixel rate and symbol rate: the precision of their fields is DisplayPort's (R273). -/
opaque freeMvid : Nat → Nat → Nat × Nat

/-- Byte i of a line's stream packets: its pixels packed at a code of OUT.BPC, as DisplayPort does it (R296); what DSC 1.2a makes of a
line and of those above it at a rate, slices per line and bits per component (R306). -/
opaque packPixels : Nat → List (Nat × Nat × Nat) → Nat → Byte
opaque dscEncode : List Nat → List (List (Nat × Nat × Nat)) → Nat → Byte

/-- The entries of the forwarding database that a MAC address and a VID may take: its hash set (R319). -/
opaque freeFdbSet : Nat → Nat → List Nat

/-- The bytes with which a NIC pads a short frame (R323). -/
opaque freePad : Nat → Nat → Byte

/-- Algorithms that the spec takes from other standards and does not state: byte i of SHA-384 and of HMAC-SHA-384 of a
key and a message (R592, R595); of the AES-256-GCM key stream of a key and an IV, and of the tag of a key, IV, AAD and
ciphertext (R598); of the P-384 public key of a private key, of an ECDSA signature of key, digest and nonce, and of the
x of an ECDH of key and peer point; and whether a point is on P-384. -/
opaque sha384 : Bytes → Nat → Byte
opaque hmac384 : Bytes → Bytes → Nat → Byte
opaque gcmStream : Bytes → Bytes → Nat → Byte
opaque gcmTag : Bytes → Bytes → Bytes → Bytes → Nat → Byte
opaque p384Public : Bytes → Nat → Byte
opaque p384Sign : Bytes → Bytes → Bytes → Nat → Byte
opaque p384Shared : Bytes → Bytes → Nat → Byte
opaque p384OnCurve : Bytes → Bool

/-- Whether a P-384 signature verifies: public key, digest, signature (R655). -/
opaque p384Verify : Bytes → Bytes → Bytes → Bool

/-- Bytes of the DRBG and of the entropy source (R601). -/
opaque freeRandom : Nat → Nat → Byte

/-- Byte i of a USB descriptor beside those whose content R406 gives: its type and what it depends on. -/
opaque freeDescriptor : Nat → List Nat → Nat → Byte

/-- The Container ID of a slice's hubs and dock function (R398). -/
opaque containerId : Nat → BitVec 128

/-- What GET_STATUS answers beside the bits that R407 and R414 define: its draw. -/
opaque freeStatus : Nat → BitVec 16

/-- Endpoint 0 of a dock function can hold another packet of maximum size (R412 does not say how many it holds). -/
opaque freeEp0Room : Nat → Bool

/-- A sample that the sample-rate converter gives: draw, frame, channel (R418). -/
opaque freeAudio : Nat → Nat → Nat → BitVec 24

/-- A current in mA that R477 does not give: code and shunt, where the shunt is 0 or the quotient exceeds its 16 bits. -/
opaque freeCurrent : Int → Nat → BitVec 16

/-- A power in mW that the 21 bits of POWER do not hold (R477, R501). -/
opaque freePower : Int → BitVec 21

end Sys2Proof.Config
end

