-- ==== Sys2Proof/Machine/Registers.lean ====
section
/-! DEFINITION. The registers of the window: the address of every register (A.), every field (F.) and the rows of
the spec's register tables (offset, access type of R12, retention class of R18, reset value).
A name is the spec's PAGE.REGISTER.FIELD with underscores: GATE.CTL.EN is F.gate_CTL_EN g. -/

namespace Sys2Proof.Machine

/-- A field of a register: the window address of its word, its lowest bit and its width (R12). -/
structure Fld where
  addr : Nat
  lo : Nat
  w : Nat
  deriving DecidableEq, Repr

/-- The key under which a field is held: one home for each field of the window. -/
def Fld.key (f : Fld) : Nat := f.addr * 32 + f.lo

/-- The access types of R12. -/
inductive Acc where
  | ro | rw | w1c | w1s | wo | rc | rwf
  deriving DecidableEq, Repr

/-- The retention classes of R18. -/
inductive Cls where
  | v | a | s | n | d | l
  deriving DecidableEq, Repr

/-- A row of a register table: `cnt` words from offset `off`, `stride` bytes apart, each with the field at bit `lo`
of width `w`; `shadowed` marks a field with a shadow copy (R63). -/
structure Row where
  off : Nat
  cnt : Nat
  stride : Nat
  lo : Nat
  w : Nat
  acc : Acc
  cls : Cls
  reset : Nat
  shadowed : Bool
  deriving DecidableEq, Repr

/-! ## Addresses -/

/-! ### hdr (R39) -/
def A.hdr_PAGE_ID (page : Nat) : Nat := page + 0
def A.hdr_PAGE_CAP (page : Nat) : Nat := page + 4
def A.hdr_PWR_POLICY (page : Nat) : Nat := page + 8
def A.hdr_PWR_STATE (page : Nat) : Nat := page + 0xC
def A.hdr_INT_STAT (page : Nat) : Nat := page + 0x10
def A.hdr_INT_EN (page : Nat) : Nat := page + 0x14
def A.hdr_INT_FORCE (page : Nat) : Nat := page + 0x18
def A.hdr_INT_LINE (page : Nat) : Nat := page + 0x1C
def A.hdr_COMMIT (page : Nat) : Nat := page + 0x20
def A.hdr_RESET_CTL (page : Nat) : Nat := page + 0x24
def A.hdr_OWNER (page : Nat) : Nat := page + 0x28
def A.hdr_EDGE_MODE (page : Nat) : Nat := page + 0x2C

/-! ### slice (R105) -/
def A.slice_STATUS (i : Nat) : Nat := 0x80040 + 0x1000 * i
def A.slice_OWNED (i : Nat) : Nat := 0x80044 + 0x1000 * i
def A.slice_RELEASE (i : Nat) : Nat := 0x80048 + 0x1000 * i
def A.slice_RELEASED (i : Nat) : Nat := 0x8004C + 0x1000 * i
def A.slice_ATTACH (i : Nat) : Nat := 0x80050 + 0x1000 * i
def A.slice_DISC_HOLD (i : Nat) : Nat := 0x80054 + 0x1000 * i
def A.slice_DP_OUT_BIND (i : Nat) : Nat := 0x80058 + 0x1000 * i
def A.slice_DP_IN_SRC (i : Nat) : Nat := 0x8005C + 0x1000 * i
def A.slice_PATH_QUOTA (i : Nat) : Nat := 0x80060 + 0x1000 * i
def A.slice_WEIGHT_SCALE (i : Nat) : Nat := 0x80064 + 0x1000 * i
def A.slice_PRIO_MAP (i : Nat) : Nat := 0x80068 + 0x1000 * i
def A.slice_SLICE_CTL (i : Nat) : Nat := 0x8006C + 0x1000 * i
def A.slice_RESET_CAUSE (i : Nat) : Nat := 0x80070 + 0x1000 * i
def A.slice_HO_DURATION (i : Nat) : Nat := 0x80074 + 0x1000 * i
def A.slice_PATHS_REFUSED (i : Nat) : Nat := 0x80078 + 0x1000 * i

/-! ### link (R108) -/
def A.link_LINK_STATUS (i : Nat) : Nat := 0x20040 + 0x1000 * i
def A.link_CAP (i : Nat) : Nat := 0x20044 + 0x1000 * i
def A.link_LINK_CTL (i : Nat) : Nat := 0x20048 + 0x1000 * i
def A.link_TRAIN_TIME (i : Nat) : Nat := 0x2004C + 0x1000 * i
def A.link_FEC_CORR_LO (i : Nat) : Nat := 0x20050 + 0x1000 * i
def A.link_FEC_CORR_HI (i : Nat) : Nat := 0x20054 + 0x1000 * i
def A.link_ERR (i : Nat) : Nat := 0x20058 + 0x1000 * i

/-! ### path (R122) -/
def A.path_CTL (i : Nat) : Nat := 0x100000 + 0x40 * i
def A.path_ROUTE (i : Nat) : Nat := 0x100004 + 0x40 * i
def A.path_SHAPE (i : Nat) : Nat := 0x100008 + 0x40 * i
def A.path_RATE (i : Nat) : Nat := 0x10000C + 0x40 * i
def A.path_MIN (i : Nat) : Nat := 0x100010 + 0x40 * i
def A.path_MAX (i : Nat) : Nat := 0x100014 + 0x40 * i
def A.path_RSV (i : Nat) : Nat := 0x100018 + 0x40 * i
def A.path_CRED (i : Nat) : Nat := 0x10001C + 0x40 * i
def A.path_ALLOT (i : Nat) : Nat := 0x100030 + 0x40 * i
def A.path_DEMAND (i : Nat) : Nat := 0x100034 + 0x40 * i
def A.path_QUEUE (i : Nat) : Nat := 0x100038 + 0x40 * i
def A.path_CREDIT (i : Nat) : Nat := 0x10003C + 0x40 * i

/-! ### mcast (R141) -/
def A.mcast_BITMAP (i : Nat) : Nat := 0x120000 + 0x10 * i
def A.mcast_ALT_MASK (i : Nat) : Nat := 0x120004 + 0x10 * i
def A.mcast_HOP (i : Nat) : Nat := 0x120008 + 0x10 * i
def A.mcast_EMPTY_DROPS (i : Nat) : Nat := 0x12000C + 0x10 * i

/-! ### stats (R154) -/
def A.stats_PKT_IN (i : Nat) : Nat := 0x110000 + 0x40 * i
def A.stats_PKT_IN_HI (i : Nat) : Nat := 0x110004 + 0x40 * i
def A.stats_PKT_OUT (i : Nat) : Nat := 0x110008 + 0x40 * i
def A.stats_PKT_OUT_HI (i : Nat) : Nat := 0x11000C + 0x40 * i
def A.stats_DROP_GREEN (i : Nat) : Nat := 0x110010 + 0x40 * i
def A.stats_DROP_GREEN_HI (i : Nat) : Nat := 0x110014 + 0x40 * i
def A.stats_DROP_YELLOW (i : Nat) : Nat := 0x110018 + 0x40 * i
def A.stats_DROP_YELLOW_HI (i : Nat) : Nat := 0x11001C + 0x40 * i
def A.stats_DROP_RED (i : Nat) : Nat := 0x110020 + 0x40 * i
def A.stats_DROP_RED_HI (i : Nat) : Nat := 0x110024 + 0x40 * i
def A.stats_TAILMARKED (i : Nat) : Nat := 0x110028 + 0x40 * i
def A.stats_TAILMARKED_HI (i : Nat) : Nat := 0x11002C + 0x40 * i
def A.stats_BYTES_IN (i : Nat) : Nat := 0x110030 + 0x40 * i
def A.stats_BYTES_IN_HI (i : Nat) : Nat := 0x110034 + 0x40 * i

/-! ### mill (R155) -/
def A.mill_CTL : Nat := 0x40040
def A.mill_CRED_DEFAULT : Nat := 0x40044
def A.mill_FOREBAY_SEL : Nat := 0x40048
def A.mill_FOREBAY_OCC : Nat := 0x4004C
def A.mill_FOREBAY_DROPS : Nat := 0x40050
def A.mill_MISS_LAST : Nat := 0x40054
def A.mill_MISS_COUNT : Nat := 0x40058
def A.mill_DUP_LAST : Nat := 0x4005C
def A.mill_CFG_FAULT_COUNT : Nat := 0x40060
def A.mill_MCAST_EMPTY_COUNT : Nat := 0x40064
def A.mill_UTIL_WR : Nat := 0x40068
def A.mill_UTIL_RD : Nat := 0x4006C
def A.mill_TAILMARKED_LO (k : Nat) : Nat := 0x40100 + 8 * k
def A.mill_TAILMARKED_HI (k : Nat) : Nat := 0x40104 + 8 * k
def A.mill_FOREBAY_HWM : Nat := 0x40F00

/-! ### hopper (R157) -/
def A.hopper_GROUPS : Nat := 0x41040
def A.hopper_CAPACITY : Nat := 0x41044
def A.hopper_FREE : Nat := 0x41048
def A.hopper_OCC_LOSSY : Nat := 0x4104C
def A.hopper_OCC_CRED : Nat := 0x41050
def A.hopper_LOSSY_LIMIT : Nat := 0x41054
def A.hopper_CRED_FLOOR : Nat := 0x41058
def A.hopper_LIMIT_DROPS : Nat := 0x4105C
def A.hopper_ECC_CORR_LO : Nat := 0x41060
def A.hopper_ECC_CORR_HI : Nat := 0x41064
def A.hopper_ECC_UNCORR : Nat := 0x41068
def A.hopper_ECC_LAST : Nat := 0x4106C
def A.hopper_LINK_ERR : Nat := 0x41070
def A.hopper_AUDIT : Nat := 0x41074
def A.hopper_AUDIT_RECLAIMED : Nat := 0x41078
def A.hopper_SCRUB : Nat := 0x4107C
def A.hopper_INJECT : Nat := 0x41080
def A.hopper_FREE_LWM : Nat := 0x41F00

/-! ### sluice (R189) -/
def A.sluice_CTL : Nat := 0x50040
def A.sluice_TURN_PHASE : Nat := 0x50044
def A.sluice_TURN_TICK : Nat := 0x50048
def A.sluice_TURN_LO : Nat := 0x5004C
def A.sluice_TURN_HI : Nat := 0x50050
def A.sluice_IDLE_FLOOR : Nat := 0x50054
def A.sluice_GROW : Nat := 0x50058
def A.sluice_GROW_MIN : Nat := 0x5005C
def A.sluice_CORE_BUDGET : Nat := 0x50060
def A.sluice_OVERBOOK_TX : Nat := 0x50064
def A.sluice_OVERBOOK_RX : Nat := 0x50068
def A.sluice_STAT : Nat := 0x5006C
def A.sluice_COMPUTE_TIME : Nat := 0x50070
def A.sluice_LATE_COUNT : Nat := 0x50074
def A.sluice_FIXED_DEFAULT : Nat := 0x50078
def A.sluice_PATH_SEL : Nat := 0x5007C
def A.sluice_PATH_INFO : Nat := 0x50080
def A.sluice_PATH_RAW : Nat := 0x50084
def A.sluice_PATH_NEXT : Nat := 0x50088
def A.sluice_CAP (k : Nat) : Nat := 0x50100 + 4 * k
def A.sluice_LIMIT (k : Nat) : Nat := 0x50180 + 4 * k
def A.sluice_COMPUTE_MAX : Nat := 0x50F00

/-! ### sluiceOut (R225) -/
def A.sluiceOut_C0_SHAPE (i : Nat) : Nat := 0xC0040 + 0x1000 * i
def A.sluiceOut_C0_BURST (i : Nat) : Nat := 0xC0044 + 0x1000 * i
def A.sluiceOut_C1_SHAPE (i : Nat) : Nat := 0xC0048 + 0x1000 * i
def A.sluiceOut_C1_BURST (i : Nat) : Nat := 0xC004C + 0x1000 * i
def A.sluiceOut_CW23 (i : Nat) : Nat := 0xC0050 + 0x1000 * i
def A.sluiceOut_CW45 (i : Nat) : Nat := 0xC0054 + 0x1000 * i
def A.sluiceOut_CW67 (i : Nat) : Nat := 0xC0058 + 0x1000 * i
def A.sluiceOut_LAG (i : Nat) : Nat := 0xC005C + 0x1000 * i
def A.sluiceOut_TOKENS (i : Nat) : Nat := 0xC0060 + 0x1000 * i
def A.sluiceOut_VT_SEL (i : Nat) : Nat := 0xC0064 + 0x1000 * i
def A.sluiceOut_VT_LO (i : Nat) : Nat := 0xC0068 + 0x1000 * i
def A.sluiceOut_VT_HI (i : Nat) : Nat := 0xC006C + 0x1000 * i
def A.sluiceOut_QUEUED (i c : Nat) : Nat := 0xC0070 + 0x1000 * i + 4 * c
def A.sluiceOut_WRED_AVG (i w : Nat) : Nat := 0xC0090 + 0x1000 * i + 4 * w
def A.sluiceOut_SENT_LO (i : Nat) : Nat := 0xC0100 + 0x1000 * i
def A.sluiceOut_SENT_HI (i : Nat) : Nat := 0xC0104 + 0x1000 * i
def A.sluiceOut_WRED_DROPS_LO (i : Nat) : Nat := 0xC0108 + 0x1000 * i
def A.sluiceOut_WRED_DROPS_HI (i : Nat) : Nat := 0xC010C + 0x1000 * i
def A.sluiceOut_RED_HELD_LO (i : Nat) : Nat := 0xC0110 + 0x1000 * i
def A.sluiceOut_RED_HELD_HI (i : Nat) : Nat := 0xC0114 + 0x1000 * i
def A.sluiceOut_DEPTH_HWM (i : Nat) : Nat := 0xC0F00 + 0x1000 * i

/-! ### policer (R229) -/
def A.policer_CTL (i : Nat) : Nat := 0x122000 + 0x40 * i
def A.policer_CIR (i : Nat) : Nat := 0x122004 + 0x40 * i
def A.policer_PIR (i : Nat) : Nat := 0x122008 + 0x40 * i
def A.policer_CBS (i : Nat) : Nat := 0x12200C + 0x40 * i
def A.policer_PBS (i : Nat) : Nat := 0x122010 + 0x40 * i
def A.policer_TC (i : Nat) : Nat := 0x122014 + 0x40 * i
def A.policer_TP (i : Nat) : Nat := 0x122018 + 0x40 * i
def A.policer_GREEN (i : Nat) : Nat := 0x122020 + 0x40 * i
def A.policer_GREEN_HI (i : Nat) : Nat := 0x122024 + 0x40 * i
def A.policer_YELLOW (i : Nat) : Nat := 0x122028 + 0x40 * i
def A.policer_YELLOW_HI (i : Nat) : Nat := 0x12202C + 0x40 * i
def A.policer_RED (i : Nat) : Nat := 0x122030 + 0x40 * i
def A.policer_RED_HI (i : Nat) : Nat := 0x122034 + 0x40 * i

/-! ### wred (R230) -/
def A.wred_CTL (i : Nat) : Nat := 0x121000 + 0x100 * i
def A.wred_MIN (i c : Nat) : Nat := 0x121010 + 0x100 * i + 0x10 * c
def A.wred_MAX (i c : Nat) : Nat := 0x121014 + 0x100 * i + 0x10 * c
def A.wred_MAXP (i c : Nat) : Nat := 0x121018 + 0x100 * i + 0x10 * c
def A.wred_DROPS_GREEN (i : Nat) : Nat := 0x121040 + 0x100 * i
def A.wred_DROPS_GREEN_HI (i : Nat) : Nat := 0x121044 + 0x100 * i
def A.wred_DROPS_YELLOW (i : Nat) : Nat := 0x121048 + 0x100 * i
def A.wred_DROPS_YELLOW_HI (i : Nat) : Nat := 0x12104C + 0x100 * i
def A.wred_DROPS_RED (i : Nat) : Nat := 0x121050 + 0x100 * i
def A.wred_DROPS_RED_HI (i : Nat) : Nat := 0x121054 + 0x100 * i

/-! ### gate (R264) -/
def A.gate_CTL (i : Nat) : Nat := 0x60040 + 0x1000 * i
def A.gate_MAX_SIZE (i : Nat) : Nat := 0x60044 + 0x1000 * i
def A.gate_DP_CAP (i : Nat) : Nat := 0x60048 + 0x1000 * i
def A.gate_EDID_CTL (i : Nat) : Nat := 0x6004C + 0x1000 * i
def A.gate_TAKE_BASE (i t : Nat) : Nat := 0x60050 + 0x1000 * i + 4 * t
def A.gate_PITCH (i : Nat) : Nat := 0x60060 + 0x1000 * i
def A.gate_TAKE_SIZE (i : Nat) : Nat := 0x60064 + 0x1000 * i
def A.gate_STATUS (i : Nat) : Nat := 0x60068 + 0x1000 * i
def A.gate_FRAME_SIZE (i : Nat) : Nat := 0x6006C + 0x1000 * i
def A.gate_SRC_FMT (i : Nat) : Nat := 0x60070 + 0x1000 * i
def A.gate_DIRTY01 (i : Nat) : Nat := 0x60074 + 0x1000 * i
def A.gate_DIRTY23 (i : Nat) : Nat := 0x60078 + 0x1000 * i
def A.gate_BW (i : Nat) : Nat := 0x6007C + 0x1000 * i
def A.gate_BW_REQ (i : Nat) : Nat := 0x60080 + 0x1000 * i
def A.gate_BW_GRANT (i : Nat) : Nat := 0x60084 + 0x1000 * i
def A.gate_CLAP_COUNT (i : Nat) : Nat := 0x60088 + 0x1000 * i
def A.gate_CLAP_TIME_LO (i : Nat) : Nat := 0x6008C + 0x1000 * i
def A.gate_CLAP_TIME_HI (i : Nat) : Nat := 0x60090 + 0x1000 * i
def A.gate_ING_SIG (i : Nat) : Nat := 0x60094 + 0x1000 * i
def A.gate_SIG_INFO (i : Nat) : Nat := 0x60098 + 0x1000 * i
def A.gate_ABANDONED (i : Nat) : Nat := 0x6009C + 0x1000 * i
def A.gate_BIND (i : Nat) : Nat := 0x600A0 + 0x1000 * i
def A.gate_EDID (i w : Nat) : Nat := 0x60400 + 0x1000 * i + 4 * w
def A.gate_SDP (i w : Nat) : Nat := 0x60600 + 0x1000 * i + 4 * w

/-! ### reel (R268) -/
def A.reel_STAT : Nat := 0x70040
def A.reel_PSTK_CAP : Nat := 0x70044
def A.reel_COPY_CAP : Nat := 0x70048
def A.reel_SCRUB : Nat := 0x7004C
def A.reel_ECC_CORR_LO : Nat := 0x70050
def A.reel_ECC_CORR_HI : Nat := 0x70054
def A.reel_ECC_UNCORR : Nat := 0x70058
def A.reel_ECC_ADDR : Nat := 0x7005C
def A.reel_ECC_LAST : Nat := 0x70060
def A.reel_UTIL : Nat := 0x70064
def A.reel_INJECT : Nat := 0x70068
def A.reel_UTIL_HWM : Nat := 0x70F00

/-! ### proj (R310) -/
def A.proj_CTL (i : Nat) : Nat := 0x68040 + 0x1000 * i
def A.proj_TIMING_H (i : Nat) : Nat := 0x68044 + 0x1000 * i
def A.proj_HSYNC (i : Nat) : Nat := 0x68048 + 0x1000 * i
def A.proj_TIMING_V (i : Nat) : Nat := 0x6804C + 0x1000 * i
def A.proj_VSYNC (i : Nat) : Nat := 0x68050 + 0x1000 * i
def A.proj_V_TOTAL_MAX (i : Nat) : Nat := 0x68054 + 0x1000 * i
def A.proj_SPROCKET_NUM (i : Nat) : Nat := 0x68058 + 0x1000 * i
def A.proj_SPROCKET_DEN (i : Nat) : Nat := 0x6805C + 0x1000 * i
def A.proj_BG_LO (i : Nat) : Nat := 0x68060 + 0x1000 * i
def A.proj_BG_HI (i : Nat) : Nat := 0x68064 + 0x1000 * i
def A.proj_OUT (i : Nat) : Nat := 0x68068 + 0x1000 * i
def A.proj_DSC (i : Nat) : Nat := 0x6806C + 0x1000 * i
def A.proj_CONT (i : Nat) : Nat := 0x68070 + 0x1000 * i
def A.proj_NEED (i : Nat) : Nat := 0x68074 + 0x1000 * i
def A.proj_STATUS (i : Nat) : Nat := 0x68078 + 0x1000 * i
def A.proj_PORT_STAT (i : Nat) : Nat := 0x6807C + 0x1000 * i
def A.proj_FRAME_COUNT (i : Nat) : Nat := 0x68080 + 0x1000 * i
def A.proj_LATCHED (i : Nat) : Nat := 0x68084 + 0x1000 * i
def A.proj_UNDERRUNS (i : Nat) : Nat := 0x68088 + 0x1000 * i
def A.proj_UNDER_FIRST (i : Nat) : Nat := 0x6808C + 0x1000 * i
def A.proj_OUT_SIG (i : Nat) : Nat := 0x68090 + 0x1000 * i
def A.proj_CONT_STAT (i : Nat) : Nat := 0x68094 + 0x1000 * i
def A.proj_FAULT (i : Nat) : Nat := 0x68098 + 0x1000 * i
def A.proj_LINK_CTL (i : Nat) : Nat := 0x6809C + 0x1000 * i
def A.proj_PORT_DISCARDS (i : Nat) : Nat := 0x680A0 + 0x1000 * i
def A.proj_PSRC (i p : Nat) : Nat := 0x68100 + 0x1000 * i + 0x40 * p
def A.proj_SURF_BASE (i p : Nat) : Nat := 0x68104 + 0x1000 * i + 0x40 * p
def A.proj_SURF_PITCH (i p : Nat) : Nat := 0x68108 + 0x1000 * i + 0x40 * p
def A.proj_SRC_POS (i p : Nat) : Nat := 0x6810C + 0x1000 * i + 0x40 * p
def A.proj_SRC_SIZE (i p : Nat) : Nat := 0x68110 + 0x1000 * i + 0x40 * p
def A.proj_DST_POS (i p : Nat) : Nat := 0x68114 + 0x1000 * i + 0x40 * p
def A.proj_DST_SIZE (i p : Nat) : Nat := 0x68118 + 0x1000 * i + 0x40 * p
def A.proj_GALPHA (i p : Nat) : Nat := 0x6811C + 0x1000 * i + 0x40 * p
def A.proj_SIG_POP (i : Nat) : Nat := 0x68F00 + 0x1000 * i
def A.proj_SIG_LEVEL (i : Nat) : Nat := 0x68F04 + 0x1000 * i

/-! ### dpo (R312) -/
def A.dpo_CTL (i : Nat) : Nat := 0x6C040 + 0x1000 * i
def A.dpo_STATUS (i : Nat) : Nat := 0x6C044 + 0x1000 * i
def A.dpo_USERS (i : Nat) : Nat := 0x6C048 + 0x1000 * i
def A.dpo_SLOTS (i : Nat) : Nat := 0x6C04C + 0x1000 * i
def A.dpo_TRAIN_TIME (i : Nat) : Nat := 0x6C050 + 0x1000 * i
def A.dpo_ERR (i : Nat) : Nat := 0x6C054 + 0x1000 * i

/-! ### tailrace (R341) -/
def A.tailrace_CTL : Nat := 0x90040
def A.tailrace_AGE : Nat := 0x90044
def A.tailrace_PVID (k : Nat) : Nat := 0x90048 + 4 * k
def A.tailrace_PCP_CLASS : Nat := 0x90068
def A.tailrace_NIC_TX_LIMIT : Nat := 0x9006C
def A.tailrace_VLAN_SEL : Nat := 0x90070
def A.tailrace_VLAN_DATA : Nat := 0x90074
def A.tailrace_FDB_CMD : Nat := 0x90078
def A.tailrace_FDB_MAC_LO : Nat := 0x9007C
def A.tailrace_FDB_KEY : Nat := 0x90080
def A.tailrace_DROPS : Nat := 0x90084

/-! ### ethmac (R342) -/
def A.ethmac_CTL (i : Nat) : Nat := 0x91040 + 0x1000 * i
def A.ethmac_MAX_FRAME (i : Nat) : Nat := 0x91044 + 0x1000 * i
def A.ethmac_STATUS (i : Nat) : Nat := 0x91048 + 0x1000 * i
def A.ethmac_PFC_CTL (i : Nat) : Nat := 0x9104C + 0x1000 * i
def A.ethmac_THRESH (i : Nat) : Nat := 0x91050 + 0x1000 * i
def A.ethmac_RX_FRAMES_LO (i : Nat) : Nat := 0x91054 + 0x1000 * i
def A.ethmac_RX_FRAMES_HI (i : Nat) : Nat := 0x91058 + 0x1000 * i
def A.ethmac_TX_FRAMES_LO (i : Nat) : Nat := 0x9105C + 0x1000 * i
def A.ethmac_TX_FRAMES_HI (i : Nat) : Nat := 0x91060 + 0x1000 * i
def A.ethmac_ERR (i : Nat) : Nat := 0x91064 + 0x1000 * i
def A.ethmac_PAUSE_CNT (i : Nat) : Nat := 0x91068 + 0x1000 * i

/-! ### BAR4 of function 0 (R345, R579) -/
def A.msix_ADDR_LO (i v : Nat) : Nat := 0x2100000 + 0x10000 * i + 0x10 * v
def A.msix_ADDR_HI (i v : Nat) : Nat := 0x2100004 + 0x10000 * i + 0x10 * v
def A.msix_DATA (i v : Nat) : Nat := 0x2100008 + 0x10000 * i + 0x10 * v
def A.msix_VECTOR_CTL (i v : Nat) : Nat := 0x210000C + 0x10000 * i + 0x10 * v
def A.msix_PBA (i : Nat) : Nat := 0x2108000 + 0x10000 * i
def A.msix_CTL (i : Nat) : Nat := 0x210FFFC + 0x10000 * i

/-! ### nic (R343) -/
def A.nic_NIC_CTL (i : Nat) : Nat := 0x2000000 + 0x1000 * i
def A.nic_MAC_LO (i : Nat) : Nat := 0x2000004 + 0x1000 * i
def A.nic_MAC_HI (i : Nat) : Nat := 0x2000008 + 0x1000 * i
def A.nic_RX_MAP (i : Nat) : Nat := 0x200000C + 0x1000 * i
def A.nic_ITR (i : Nat) : Nat := 0x2000010 + 0x1000 * i
def A.nic_INT_STAT (i : Nat) : Nat := 0x2000014 + 0x1000 * i
def A.nic_INT_EN (i : Nat) : Nat := 0x2000018 + 0x1000 * i
def A.nic_RX_NOBUF (i : Nat) : Nat := 0x200001C + 0x1000 * i
def A.nic_BASE_LO (i r : Nat) : Nat := 0x2000100 + 0x1000 * i + 0x20 * r
def A.nic_BASE_HI (i r : Nat) : Nat := 0x2000104 + 0x1000 * i + 0x20 * r
def A.nic_PTR (i r : Nat) : Nat := 0x2000108 + 0x1000 * i + 0x20 * r
def A.nic_RING_CTL (i r : Nat) : Nat := 0x200010C + 0x1000 * i + 0x20 * r

/-! ### pciedn (R344) -/
def A.pciedn_CTL (i : Nat) : Nat := 0x98040 + 0x1000 * i
def A.pciedn_STATUS (i : Nat) : Nat := 0x98044 + 0x1000 * i
def A.pciedn_PERST_CTL (i : Nat) : Nat := 0x98048 + 0x1000 * i
def A.pciedn_TRAIN_TIME (i : Nat) : Nat := 0x9804C + 0x1000 * i
def A.pciedn_ERR (i : Nat) : Nat := 0x98050 + 0x1000 * i

/-! ### pstk (R391) -/
def A.pstk_CTL : Nat := 0x8040
def A.pstk_STAT : Nat := 0x8044
def A.pstk_LOG_CTL : Nat := 0x8048
def A.pstk_LOG_LOST : Nat := 0x804C
def A.pstk_ABSENT_ACCESS : Nat := 0x8050
def A.pstk_OWNER_FAULT : Nat := 0x8054
def A.pstk_NP_ERR : Nat := 0x8058
def A.pstk_NP_LAST_ADDR : Nat := 0x805C
def A.pstk_NP_LAST : Nat := 0x8060
def A.pstk_OUT_PATH : Nat := 0x8064
def A.pstk_QUEUES (s : Nat) : Nat := 0x8068 + 4 * s
def A.pstk_OUT_RSV (s : Nat) : Nat := 0x8078 + 4 * s
def A.pstk_YIELDS : Nat := 0x8088
def A.pstk_OUT_TIMEOUTS : Nat := 0x808C
def A.pstk_CALM_CTL (k : Nat) : Nat := 0x8100 + 0x10 * k
def A.pstk_CALM_BASE (k : Nat) : Nat := 0x8104 + 0x10 * k
def A.pstk_CALM_LIMIT (k : Nat) : Nat := 0x8108 + 0x10 * k
def A.pstk_LOG_ADDR (i : Nat) : Nat := 0x8200 + 0x10 * i
def A.pstk_LOG_INFO (i : Nat) : Nat := 0x8204 + 0x10 * i
def A.pstk_LOG_TIME_LO (i : Nat) : Nat := 0x8208 + 0x10 * i
def A.pstk_LOG_TIME_HI (i : Nat) : Nat := 0x820C + 0x10 * i

/-! ### tally (R393) -/
def A.tally_CTL : Nat := 0x9040
def A.tally_DEST_IVL (t : Nat) : Nat := 0x9044 + 4 * t
def A.tally_HUB_IVL (h : Nat) : Nat := 0x905C + 4 * h
def A.tally_EVENT_RAISE : Nat := 0x906C
def A.tally_DROPS : Nat := 0x9070
def A.tally_INBOX_FULL : Nat := 0x9074
def A.tally_SENT : Nat := 0x9078
def A.tally_SUPERSEDED : Nat := 0x907C
def A.tally_INBOX_LEVEL : Nat := 0x9080
def A.tally_MAP_FAULT : Nat := 0x9084
def A.tally_WORD (w : Nat) : Nat := 0x9400 + 4 * w
def A.tally_INBOX (t : Nat) : Nat := 0x9F00 + 4 * t

/-! ### tallyTab (R396) -/
def A.tallyTab_MAP_CTL (w : Nat) : Nat := 0x130000 + 0x10 * w
def A.tallyTab_MAP_SRC (w : Nat) : Nat := 0x130004 + 0x10 * w
def A.tallyTab_MAP_RATE (w : Nat) : Nat := 0x130008 + 0x10 * w
def A.tallyTab_MAP_VALUE (w : Nat) : Nat := 0x13000C + 0x10 * w
def A.tallyTab_ROUTE_KEY (i : Nat) : Nat := 0x131000 + 8 * i
def A.tallyTab_ROUTE_DEST (i : Nat) : Nat := 0x131004 + 8 * i
def A.tallyTab_SLOT_VALUE (r : Nat) : Nat := 0x131400 + 8 * r
def A.tallyTab_SLOT_INFO (r : Nat) : Nat := 0x131404 + 8 * r

/-! ### usbhub (R427) -/
def A.usbhub_CTL (i : Nat) : Nat := 0x88040 + 0x1000 * i
def A.usbhub_PATH_WEIGHT (i : Nat) : Nat := 0x88044 + 0x1000 * i
def A.usbhub_CONN (i : Nat) : Nat := 0x88048 + 0x1000 * i
def A.usbhub_PORT_SEL (i : Nat) : Nat := 0x8804C + 0x1000 * i
def A.usbhub_PORT_INFO (i : Nat) : Nat := 0x88050 + 0x1000 * i
def A.usbhub_STATUS (i : Nat) : Nat := 0x88054 + 0x1000 * i
def A.usbhub_OC_COUNT (i : Nat) : Nat := 0x88058 + 0x1000 * i

/-! ### dockfn (R429) -/
def A.dockfn_CTL (i : Nat) : Nat := 0x8C040 + 0x1000 * i
def A.dockfn_IDS (i : Nat) : Nat := 0x8C044 + 0x1000 * i
def A.dockfn_BCD (i : Nat) : Nat := 0x8C048 + 0x1000 * i
def A.dockfn_STATUS (i : Nat) : Nat := 0x8C04C + 0x1000 * i
def A.dockfn_FEEDBACK (i : Nat) : Nat := 0x8C050 + 0x1000 * i
def A.dockfn_WAKE (i : Nat) : Nat := 0x8C054 + 0x1000 * i
def A.dockfn_MBOX (i : Nat) : Nat := 0x8C058 + 0x1000 * i
def A.dockfn_NOTIFY (i : Nat) : Nat := 0x8C05C + 0x1000 * i
def A.dockfn_HID (i : Nat) : Nat := 0x8C060 + 0x1000 * i
def A.dockfn_BB (i : Nat) : Nat := 0x8C064 + 0x1000 * i
def A.dockfn_VREQ_TIMEOUT (i : Nat) : Nat := 0x8C068 + 0x1000 * i
def A.dockfn_CTRL_ERR (i : Nat) : Nat := 0x8C06C + 0x1000 * i
def A.dockfn_MBOX_OUT (i w : Nat) : Nat := 0x8C400 + 0x1000 * i + 4 * w
def A.dockfn_MBOX_IN (i w : Nat) : Nat := 0x8C600 + 0x1000 * i + 4 * w

/-! ### aud (R431) -/
def A.aud_CTL : Nat := 0xA8040
def A.aud_GAIN (s : Nat) : Nat := 0xA8044 + 4 * s
def A.aud_CAP_PAIR : Nat := 0xA8054
def A.aud_STATUS : Nat := 0xA8058
def A.aud_MIX_STAT : Nat := 0xA805C
def A.aud_BLOCKS : Nat := 0xA8060

/-! ### typec (R469) -/
def A.typec_CFG (i : Nat) : Nat := 0x10040 + 0x1000 * i
def A.typec_STATUS (i : Nat) : Nat := 0x10044 + 0x1000 * i
def A.typec_CONTRACT (i : Nat) : Nat := 0x10048 + 0x1000 * i
def A.typec_RDO (i : Nat) : Nat := 0x1004C + 0x1000 * i
def A.typec_SRC_CAP_CTL (i : Nat) : Nat := 0x10050 + 0x1000 * i
def A.typec_PORT_MAX (i : Nat) : Nat := 0x10054 + 0x1000 * i
def A.typec_RESERVATION (i : Nat) : Nat := 0x10058 + 0x1000 * i
def A.typec_SNK_CTL (i : Nat) : Nat := 0x1005C + 0x1000 * i
def A.typec_MODE_POLICY (i : Nat) : Nat := 0x10060 + 0x1000 * i
def A.typec_CMD (i : Nat) : Nat := 0x10064 + 0x1000 * i
def A.typec_PARTNER_ID (i : Nat) : Nat := 0x10068 + 0x1000 * i
def A.typec_CONV_SAFE (i : Nat) : Nat := 0x1006C + 0x1000 * i
def A.typec_COUNTS (i : Nat) : Nat := 0x10070 + 0x1000 * i
def A.typec_LEDGER (i : Nat) : Nat := 0x10074 + 0x1000 * i
def A.typec_LEDGER_PROFILE (i : Nat) : Nat := 0x10078 + 0x1000 * i
def A.typec_LEDGER_USED (i : Nat) : Nat := 0x1007C + 0x1000 * i
def A.typec_SRC_PDO (i j : Nat) : Nat := 0x10100 + 0x1000 * i + 4 * j
def A.typec_EPR_PDO (i j : Nat) : Nat := 0x10120 + 0x1000 * i + 4 * j
def A.typec_PARTNER_PDO (i j : Nat) : Nat := 0x10140 + 0x1000 * i + 4 * j

/-! ### weir (R501) -/
def A.weir_CTL (i : Nat) : Nat := 0x30040 + 0x1000 * i
def A.weir_SETUP (i : Nat) : Nat := 0x30044 + 0x1000 * i
def A.weir_SOA (i : Nat) : Nat := 0x30048 + 0x1000 * i
def A.weir_LIMITS (i : Nat) : Nat := 0x3004C + 0x1000 * i
def A.weir_PG_WIN (i : Nat) : Nat := 0x30050 + 0x1000 * i
def A.weir_PG_TIME (i : Nat) : Nat := 0x30054 + 0x1000 * i
def A.weir_RAMP_MAX (i : Nat) : Nat := 0x30058 + 0x1000 * i
def A.weir_CURVE_T (i k : Nat) : Nat := 0x30080 + 0x1000 * i + 8 * k
def A.weir_CURVE_A (i k : Nat) : Nat := 0x30084 + 0x1000 * i + 8 * k
def A.weir_STATUS (i : Nat) : Nat := 0x300C0 + 0x1000 * i
def A.weir_MEAS (i : Nat) : Nat := 0x300C4 + 0x1000 * i
def A.weir_POWER (i : Nat) : Nat := 0x300C8 + 0x1000 * i
def A.weir_ENERGY_LO (i : Nat) : Nat := 0x300CC + 0x1000 * i
def A.weir_ENERGY_HI (i : Nat) : Nat := 0x300D0 + 0x1000 * i
def A.weir_TRIP_SNAP (i : Nat) : Nat := 0x300D4 + 0x1000 * i
def A.weir_COUNTS (i : Nat) : Nat := 0x300D8 + 0x1000 * i
def A.weir_EW_CTL (i : Nat) : Nat := 0x300E0 + 0x1000 * i
def A.weir_EW_LEVEL (i : Nat) : Nat := 0x300E4 + 0x1000 * i
def A.weir_EW_REV (i : Nat) : Nat := 0x300E8 + 0x1000 * i
def A.weir_EW_STAT (i : Nat) : Nat := 0x300EC + 0x1000 * i
def A.weir_EXTREMES (i : Nat) : Nat := 0x30F00 + 0x1000 * i

/-! ### pwr (R535) -/
def A.pwr_CHIP_STATE : Nat := 0x1040
def A.pwr_SHELF : Nat := 0x1044
def A.pwr_BMC_SHELF : Nat := 0x1048
def A.pwr_SHELF_STAT : Nat := 0x104C
def A.pwr_SHELF_CFG : Nat := 0x1050
def A.pwr_DOM_SEL : Nat := 0x1054
def A.pwr_DOM_INFO : Nat := 0x1058
def A.pwr_DOM_RUN0 : Nat := 0x105C
def A.pwr_DOM_RUN1 : Nat := 0x1060
def A.pwr_WAKE_FAIL : Nat := 0x1064
def A.pwr_DVFS_TARGET : Nat := 0x1068
def A.pwr_DVFS_STATE : Nat := 0x106C
def A.pwr_THERM : Nat := 0x1070
def A.pwr_MON0 : Nat := 0x1074
def A.pwr_MON1 : Nat := 0x1078
def A.pwr_VKEEP_CTL : Nat := 0x107C
def A.pwr_GROUP_POLICY (g : Nat) : Nat := 0x1080 + 4 * g
def A.pwr_MON_EXT : Nat := 0x1F00

/-! ### clk (R562) -/
def A.clk_REF_CTL : Nat := 0x2040
def A.clk_REF_STAT : Nat := 0x2044
def A.clk_DIST_CTL : Nat := 0x2048
def A.clk_DIST_RATIO : Nat := 0x204C
def A.clk_DOMSRC : Nat := 0x2050
def A.clk_RESCUE : Nat := 0x2054
def A.clk_CLKOUT : Nat := 0x2058
def A.clk_METER_CTL : Nat := 0x205C
def A.clk_METER_COUNT : Nat := 0x2060
def A.clk_FTIME_LO : Nat := 0x2064
def A.clk_FTIME_HI : Nat := 0x2068
def A.clk_EPOCH : Nat := 0x206C
def A.clk_XING_SEL : Nat := 0x2070
def A.clk_XING_STAT : Nat := 0x2074
def A.clk_XING_DROPS : Nat := 0x2078
def A.clk_GATING : Nat := 0x207C

/-! ### cue0 (R586) -/
def A.cue0_CTL : Nat := 0x3040
def A.cue0_TCTL (t : Nat) : Nat := 0x3100 + 0x20 * t
def A.cue0_TSTAT (t : Nat) : Nat := 0x3104 + 0x20 * t
def A.cue0_BEST (t : Nat) : Nat := 0x3108 + 0x20 * t
def A.cue0_COMPLETE (t : Nat) : Nat := 0x310C + 0x20 * t
def A.cue0_FAULT (t : Nat) : Nat := 0x3110 + 0x20 * t
def A.cue0_COUNTS (t : Nat) : Nat := 0x3114 + 0x20 * t
def A.cue0_STACK (t d : Nat) : Nat := 0x3400 + 0x40 * t + 4 * d
def A.cue0_CLAIM (t : Nat) : Nat := 0x3F00 + 4 * t

/-! ### cue1 (R586) -/
def A.cue1_SRC (i : Nat) : Nat := 0x4100 + 4 * i

/-! ### cue2 (R586) -/
def A.cue2_LEVEL (w : Nat) : Nat := 0x5100 + 4 * w
def A.cue2_PENDING (w : Nat) : Nat := 0x5140 + 4 * w
def A.cue2_ACTIVE (w : Nat) : Nat := 0x5180 + 4 * w

/-! ### cue3 (R586) -/
def A.cue3_DB_SET (w : Nat) : Nat := 0x6100 + 4 * w
def A.cue3_DB_CLR (w : Nat) : Nat := 0x6120 + 4 * w

/-! ### vault (R608) -/
def A.vault_STATUS : Nat := 0xA040
def A.vault_CMD : Nat := 0xA044
def A.vault_LEN : Nat := 0xA048
def A.vault_OUT_LEN : Nat := 0xA04C
def A.vault_MEAS_LOCK : Nat := 0xA050
def A.vault_SLOT_SEL : Nat := 0xA054
def A.vault_SLOT_INFO : Nat := 0xA058
def A.vault_USE_NEXT : Nat := 0xA05C
def A.vault_TAMPER_CTL : Nat := 0xA060
def A.vault_TAMPER_STAT : Nat := 0xA064
def A.vault_TLOG_CTL : Nat := 0xA068
def A.vault_TLOG_CAUSE (i : Nat) : Nat := 0xA070 + 8 * i
def A.vault_TLOG_TIME (i : Nat) : Nat := 0xA074 + 8 * i
def A.vault_VTIME : Nat := 0xA090
def A.vault_ENTROPY : Nat := 0xA094
def A.vault_MEAS (m j : Nat) : Nat := 0xA100 + 0x30 * m + 4 * j
def A.vault_MEAS_COUNT (m : Nat) : Nat := 0xA1C0 + 4 * m
def A.vault_IN (w : Nat) : Nat := 0xA400 + 4 * w
def A.vault_OUT (w : Nat) : Nat := 0xA800 + 4 * w

/-! ### leat (R639) -/
def A.leat_CTL (i : Nat) : Nat := 0xA0040 + 0x1000 * i
def A.leat_STATUS (i : Nat) : Nat := 0xA0044 + 0x1000 * i
def A.leat_SEC (i : Nat) : Nat := 0xA0048 + 0x1000 * i
def A.leat_DELAY (i : Nat) : Nat := 0xA004C + 0x1000 * i
def A.leat_CAP (i : Nat) : Nat := 0xA0050 + 0x1000 * i
def A.leat_ERR (i : Nat) : Nat := 0xA0054 + 0x1000 * i
def A.leat_MSG_CTL (i : Nat) : Nat := 0xA0058 + 0x1000 * i
def A.leat_TX_MSG (i w : Nat) : Nat := 0xA0400 + 0x1000 * i + 4 * w
def A.leat_RX_MSG (i w : Nat) : Nat := 0xA0600 + 0x1000 * i + 4 * w

/-! ### fabric (R641) -/
def A.fabric_STRAP : Nat := 0xA4040
def A.fabric_CTL : Nat := 0xA4044
def A.fabric_STATE : Nat := 0xA4048
def A.fabric_GEN : Nat := 0xA404C
def A.fabric_CFG_HASH_LO : Nat := 0xA4050
def A.fabric_CFG_HASH_HI : Nat := 0xA4054
def A.fabric_FW_VER : Nat := 0xA4058
def A.fabric_FEATURES : Nat := 0xA405C
def A.fabric_FEAT_AGREED : Nat := 0xA4060
def A.fabric_HASH_GRACE : Nat := 0xA4064
def A.fabric_OFFSET : Nat := 0xA4068
def A.fabric_ROUTE : Nat := 0xA406C
def A.fabric_CONFLICT : Nat := 0xA4070
def A.fabric_QUAR_COUNT : Nat := 0xA4074

/-! ### chip (R664) -/
def A.chip_VARIANT : Nat := 0x40
def A.chip_RESET_CAUSE : Nat := 0x44
def A.chip_BOOT_STAT : Nat := 0x48
def A.chip_BOOT_TIME : Nat := 0x4C
def A.chip_FW_VER : Nat := 0x50
def A.chip_SVN : Nat := 0x54
def A.chip_SOFT_RESET : Nat := 0x58
def A.chip_WDT_CTL : Nat := 0x5C
def A.chip_WDT_KICK : Nat := 0x60
def A.chip_WDT_LEFT : Nat := 0x64

/-! ### miller (R665) -/
def A.miller_CTL (c : Nat) : Nat := 0xC040 + 0x10 * c
def A.miller_ENTRY_LO (c : Nat) : Nat := 0xC044 + 0x10 * c
def A.miller_ENTRY_HI (c : Nat) : Nat := 0xC048 + 0x10 * c
def A.miller_STATUS (c : Nat) : Nat := 0xC04C + 0x10 * c
def A.miller_LOAD_CTL : Nat := 0xC100
def A.miller_LOAD_DATA : Nat := 0xC104
def A.miller_LOAD_COUNT : Nat := 0xC108

/-! ### bist (R666) -/
def A.bist_CMD : Nat := 0xB040
def A.bist_DOMAINS_LO : Nat := 0xB044
def A.bist_DOMAINS_HI : Nat := 0xB048
def A.bist_REFUSE : Nat := 0xB04C
def A.bist_RES_SEL : Nat := 0xB050
def A.bist_RESULT : Nat := 0xB054
def A.bist_MISR_LO : Nat := 0xB058
def A.bist_MISR_HI : Nat := 0xB05C
def A.bist_GOLDEN_LO : Nat := 0xB060
def A.bist_GOLDEN_HI : Nat := 0xB064

/-! ### misc (R682) -/
def A.misc_GPIO_OUT : Nat := 0xB0040
def A.misc_GPIO_OE : Nat := 0xB0044
def A.misc_GPIO_IN : Nat := 0xB0048
def A.misc_GPIO_POL : Nat := 0xB004C
def A.misc_GPIO_EDGE_EN : Nat := 0xB0050
def A.misc_GPIO_EDGE : Nat := 0xB0054
def A.misc_BUS_CTL (n : Nat) : Nat := 0xB0060 + 0x10 * n
def A.misc_BUS_CMD (n : Nat) : Nat := 0xB0064 + 0x10 * n
def A.misc_BUS_STAT (n : Nat) : Nat := 0xB0068 + 0x10 * n
def A.misc_BUS_TX (n : Nat) : Nat := 0xB006C + 0x10 * n
def A.misc_SPI_CTL : Nat := 0xB0080
def A.misc_SPI_CMD : Nat := 0xB0084
def A.misc_SPI_ADDR : Nat := 0xB0088
def A.misc_SPI_TX : Nat := 0xB008C
def A.misc_UART_CTL : Nat := 0xB00A0
def A.misc_UART_STAT : Nat := 0xB00A4
def A.misc_UART_TX : Nat := 0xB00A8
def A.misc_BMC_TGT : Nat := 0xB00B0
def A.misc_BUS_RX (n : Nat) : Nat := 0xB0F00 + 4 * n
def A.misc_SPI_RX : Nat := 0xB0F08
def A.misc_UART_RX : Nat := 0xB0F0C

/-! ## Fields -/

/-! ### hdr (R39) -/
def F.hdr_PAGE_ID_TYPE (page : Nat) : Fld := ⟨A.hdr_PAGE_ID page, 16, 16⟩
def F.hdr_PAGE_ID_INSTANCE (page : Nat) : Fld := ⟨A.hdr_PAGE_ID page, 8, 8⟩
def F.hdr_PAGE_ID_VERSION (page : Nat) : Fld := ⟨A.hdr_PAGE_ID page, 0, 8⟩
def F.hdr_PAGE_CAP_PRESENT (page : Nat) : Fld := ⟨A.hdr_PAGE_CAP page, 0, 1⟩
def F.hdr_PAGE_CAP_SHADOWED (page : Nat) : Fld := ⟨A.hdr_PAGE_CAP page, 1, 1⟩
def F.hdr_PAGE_CAP_RS_ZONE (page : Nat) : Fld := ⟨A.hdr_PAGE_CAP page, 2, 1⟩
def F.hdr_PAGE_CAP_SOURCES (page : Nat) : Fld := ⟨A.hdr_PAGE_CAP page, 4, 4⟩
def F.hdr_PAGE_CAP_BLOCK_CAP (page : Nat) : Fld := ⟨A.hdr_PAGE_CAP page, 16, 16⟩
def F.hdr_PWR_POLICY_ALLOW_DOZE (page : Nat) : Fld := ⟨A.hdr_PWR_POLICY page, 0, 1⟩
def F.hdr_PWR_POLICY_ALLOW_NAP (page : Nat) : Fld := ⟨A.hdr_PWR_POLICY page, 1, 1⟩
def F.hdr_PWR_POLICY_ALLOW_OFF (page : Nat) : Fld := ⟨A.hdr_PWR_POLICY page, 2, 1⟩
def F.hdr_PWR_POLICY_IDLE (page : Nat) : Fld := ⟨A.hdr_PWR_POLICY page, 8, 16⟩
def F.hdr_PWR_STATE_STATE (page : Nat) : Fld := ⟨A.hdr_PWR_STATE page, 0, 2⟩
def F.hdr_PWR_STATE_WAKING (page : Nat) : Fld := ⟨A.hdr_PWR_STATE page, 2, 1⟩
def F.hdr_INT_STAT_EVENT (page : Nat) : Fld := ⟨A.hdr_INT_STAT page, 0, 32⟩
def F.hdr_INT_EN_EN (page : Nat) : Fld := ⟨A.hdr_INT_EN page, 0, 32⟩
def F.hdr_INT_FORCE_FORCE (page : Nat) : Fld := ⟨A.hdr_INT_FORCE page, 0, 32⟩
def F.hdr_INT_LINE_LINE (page : Nat) : Fld := ⟨A.hdr_INT_LINE page, 0, 4⟩
def F.hdr_COMMIT_GO (page : Nat) : Fld := ⟨A.hdr_COMMIT page, 0, 1⟩
def F.hdr_COMMIT_HOLD (page : Nat) : Fld := ⟨A.hdr_COMMIT page, 1, 1⟩
def F.hdr_RESET_CTL_BLOCK_RESET (page : Nat) : Fld := ⟨A.hdr_RESET_CTL page, 0, 1⟩
def F.hdr_OWNER_SLICES (page : Nat) : Fld := ⟨A.hdr_OWNER page, 0, 4⟩
def F.hdr_OWNER_FW (page : Nat) : Fld := ⟨A.hdr_OWNER page, 4, 1⟩
def F.hdr_OWNER_BMC (page : Nat) : Fld := ⟨A.hdr_OWNER page, 5, 1⟩
def F.hdr_OWNER_PENDING (page : Nat) : Fld := ⟨A.hdr_OWNER page, 8, 1⟩
def F.hdr_EDGE_MODE_HOLD (page : Nat) : Fld := ⟨A.hdr_EDGE_MODE page, 0, 1⟩
def F.hdr_EDGE_MODE_PAD_RELEASE (page : Nat) : Fld := ⟨A.hdr_EDGE_MODE page, 1, 1⟩
def F.hdr_EDGE_MODE_HELD (page : Nat) : Fld := ⟨A.hdr_EDGE_MODE page, 2, 1⟩

/-! ### slice (R105) -/
def F.slice_STATUS_ROUTER (i : Nat) : Fld := ⟨A.slice_STATUS i, 0, 3⟩
def F.slice_STATUS_BUS_POWERED (i : Nat) : Fld := ⟨A.slice_STATUS i, 3, 1⟩
def F.slice_OWNED_UNITS (i : Nat) : Fld := ⟨A.slice_OWNED i, 0, 16⟩
def F.slice_RELEASE_UNITS (i : Nat) : Fld := ⟨A.slice_RELEASE i, 0, 16⟩
def F.slice_RELEASED_UNITS (i : Nat) : Fld := ⟨A.slice_RELEASED i, 0, 16⟩
def F.slice_ATTACH_UNITS (i : Nat) : Fld := ⟨A.slice_ATTACH i, 0, 16⟩
def F.slice_DISC_HOLD_MS (i : Nat) : Fld := ⟨A.slice_DISC_HOLD i, 0, 7⟩
def F.slice_DP_OUT_BIND_TARGET (i n : Nat) : Fld := ⟨A.slice_DP_OUT_BIND i, 0 + 8 * n, 5⟩
def F.slice_DP_OUT_BIND_FAULT (i n : Nat) : Fld := ⟨A.slice_DP_OUT_BIND i, 7 + 8 * n, 1⟩
def F.slice_DP_IN_SRC_SRC (i n : Nat) : Fld := ⟨A.slice_DP_IN_SRC i, 0 + 4 * n, 3⟩
def F.slice_DP_IN_SRC_FAULT (i n : Nat) : Fld := ⟨A.slice_DP_IN_SRC i, 3 + 4 * n, 1⟩
def F.slice_PATH_QUOTA_QUOTA (i : Nat) : Fld := ⟨A.slice_PATH_QUOTA i, 0, 11⟩
def F.slice_PATH_QUOTA_USED (i : Nat) : Fld := ⟨A.slice_PATH_QUOTA i, 16, 11⟩
def F.slice_WEIGHT_SCALE_SCALE (i : Nat) : Fld := ⟨A.slice_WEIGHT_SCALE i, 0, 8⟩
def F.slice_PRIO_MAP_CLASS (i p : Nat) : Fld := ⟨A.slice_PRIO_MAP i, 0 + 3 * p, 3⟩
def F.slice_SLICE_CTL_SLICE_RESET (i : Nat) : Fld := ⟨A.slice_SLICE_CTL i, 0, 1⟩
def F.slice_RESET_CAUSE_CAUSE (i : Nat) : Fld := ⟨A.slice_RESET_CAUSE i, 0, 4⟩
def F.slice_HO_DURATION_US (i : Nat) : Fld := ⟨A.slice_HO_DURATION i, 0, 20⟩
def F.slice_PATHS_REFUSED_COUNT (i : Nat) : Fld := ⟨A.slice_PATHS_REFUSED i, 0, 16⟩

/-! ### link (R108) -/
def F.link_LINK_STATUS_MODE (i : Nat) : Fld := ⟨A.link_LINK_STATUS i, 0, 4⟩
def F.link_LINK_STATUS_LSTATE (i : Nat) : Fld := ⟨A.link_LINK_STATUS i, 4, 3⟩
def F.link_LINK_STATUS_EMU (i : Nat) : Fld := ⟨A.link_LINK_STATUS i, 8, 2⟩
def F.link_CAP_CAP_TX (i : Nat) : Fld := ⟨A.link_CAP i, 0, 16⟩
def F.link_CAP_CAP_RX (i : Nat) : Fld := ⟨A.link_CAP i, 16, 16⟩
def F.link_LINK_CTL_MAX_GEN (i : Nat) : Fld := ⟨A.link_LINK_CTL i, 0, 2⟩
def F.link_LINK_CTL_ALLOW_ASYM (i : Nat) : Fld := ⟨A.link_LINK_CTL i, 2, 1⟩
def F.link_LINK_CTL_ALLOW_CL0S (i : Nat) : Fld := ⟨A.link_LINK_CTL i, 3, 1⟩
def F.link_LINK_CTL_ALLOW_CL1 (i : Nat) : Fld := ⟨A.link_LINK_CTL i, 4, 1⟩
def F.link_LINK_CTL_ALLOW_CL2 (i : Nat) : Fld := ⟨A.link_LINK_CTL i, 5, 1⟩
def F.link_LINK_CTL_USB4_EN (i : Nat) : Fld := ⟨A.link_LINK_CTL i, 6, 1⟩
def F.link_LINK_CTL_RETRAIN (i : Nat) : Fld := ⟨A.link_LINK_CTL i, 7, 1⟩
def F.link_TRAIN_TIME_MS (i : Nat) : Fld := ⟨A.link_TRAIN_TIME i, 0, 16⟩
def F.link_FEC_CORR_LO_COUNT (i : Nat) : Fld := ⟨A.link_FEC_CORR_LO i, 0, 32⟩
def F.link_FEC_CORR_HI_COUNT (i : Nat) : Fld := ⟨A.link_FEC_CORR_HI i, 0, 8⟩
def F.link_ERR_RETRAINS (i : Nat) : Fld := ⟨A.link_ERR i, 0, 16⟩
def F.link_ERR_UNCORR (i : Nat) : Fld := ⟨A.link_ERR i, 16, 16⟩

/-! ### path (R122) -/
def F.path_CTL_VALID (i : Nat) : Fld := ⟨A.path_CTL i, 0, 1⟩
def F.path_CTL_MODE (i : Nat) : Fld := ⟨A.path_CTL i, 1, 1⟩
def F.path_CTL_CUT (i : Nat) : Fld := ⟨A.path_CTL i, 2, 1⟩
def F.path_CTL_MCAST (i : Nat) : Fld := ⟨A.path_CTL i, 3, 1⟩
def F.path_CTL_RATE_MODE (i : Nat) : Fld := ⟨A.path_CTL i, 4, 1⟩
def F.path_CTL_PENDING (i : Nat) : Fld := ⟨A.path_CTL i, 5, 1⟩
def F.path_CTL_HUB (i : Nat) : Fld := ⟨A.path_CTL i, 6, 2⟩
def F.path_CTL_CLASS (i : Nat) : Fld := ⟨A.path_CTL i, 8, 3⟩
def F.path_CTL_OWNER (i : Nat) : Fld := ⟨A.path_CTL i, 12, 3⟩
def F.path_CTL_IN_OUTLET (i : Nat) : Fld := ⟨A.path_CTL i, 16, 5⟩
def F.path_CTL_IN_HOP (i : Nat) : Fld := ⟨A.path_CTL i, 21, 11⟩
def F.path_ROUTE_OUT_OUTLET (i : Nat) : Fld := ⟨A.path_ROUTE i, 0, 5⟩
def F.path_ROUTE_OUT_HOP (i : Nat) : Fld := ⟨A.path_ROUTE i, 5, 11⟩
def F.path_ROUTE_MCAST_GROUP (i : Nat) : Fld := ⟨A.path_ROUTE i, 16, 8⟩
def F.path_ROUTE_POLICE_PROFILE (i : Nat) : Fld := ⟨A.path_ROUTE i, 24, 6⟩
def F.path_SHAPE_WEIGHT (i : Nat) : Fld := ⟨A.path_SHAPE i, 0, 12⟩
def F.path_SHAPE_WRED_PROFILE (i : Nat) : Fld := ⟨A.path_SHAPE i, 12, 4⟩
def F.path_SHAPE_SHAPE_BURST (i : Nat) : Fld := ⟨A.path_SHAPE i, 16, 16⟩
def F.path_RATE_SHAPE_RATE (i : Nat) : Fld := ⟨A.path_RATE i, 0, 24⟩
def F.path_MIN_MIN_ALLOT (i : Nat) : Fld := ⟨A.path_MIN i, 0, 24⟩
def F.path_MAX_MAX_ALLOT (i : Nat) : Fld := ⟨A.path_MAX i, 0, 24⟩
def F.path_RSV_RESERVED_RATE (i : Nat) : Fld := ⟨A.path_RSV i, 0, 24⟩
def F.path_CRED_CRED_WINDOW (i : Nat) : Fld := ⟨A.path_CRED i, 0, 12⟩
def F.path_ALLOT_ALLOT (i : Nat) : Fld := ⟨A.path_ALLOT i, 0, 24⟩
def F.path_DEMAND_DEMAND (i : Nat) : Fld := ⟨A.path_DEMAND i, 0, 24⟩
def F.path_QUEUE_QUEUED (i : Nat) : Fld := ⟨A.path_QUEUE i, 0, 17⟩
def F.path_CREDIT_CRED_OUT (i : Nat) : Fld := ⟨A.path_CREDIT i, 0, 12⟩

/-! ### mcast (R141) -/
def F.mcast_BITMAP_OUTLETS (i : Nat) : Fld := ⟨A.mcast_BITMAP i, 0, 32⟩
def F.mcast_ALT_MASK_OUTLETS (i : Nat) : Fld := ⟨A.mcast_ALT_MASK i, 0, 32⟩
def F.mcast_HOP_ALT_HOP (i : Nat) : Fld := ⟨A.mcast_HOP i, 0, 11⟩
def F.mcast_HOP_COPIES (i : Nat) : Fld := ⟨A.mcast_HOP i, 16, 5⟩
def F.mcast_HOP_PENDING (i : Nat) : Fld := ⟨A.mcast_HOP i, 21, 1⟩
def F.mcast_EMPTY_DROPS_COUNT (i : Nat) : Fld := ⟨A.mcast_EMPTY_DROPS i, 0, 32⟩

/-! ### stats (R154) -/
def F.stats_PKT_IN_COUNT_LO (i : Nat) : Fld := ⟨A.stats_PKT_IN i, 0, 32⟩
def F.stats_PKT_IN_COUNT_HI (i : Nat) : Fld := ⟨A.stats_PKT_IN_HI i, 0, 8⟩
def F.stats_PKT_OUT_COUNT_LO (i : Nat) : Fld := ⟨A.stats_PKT_OUT i, 0, 32⟩
def F.stats_PKT_OUT_COUNT_HI (i : Nat) : Fld := ⟨A.stats_PKT_OUT_HI i, 0, 8⟩
def F.stats_DROP_GREEN_COUNT_LO (i : Nat) : Fld := ⟨A.stats_DROP_GREEN i, 0, 32⟩
def F.stats_DROP_GREEN_COUNT_HI (i : Nat) : Fld := ⟨A.stats_DROP_GREEN_HI i, 0, 8⟩
def F.stats_DROP_YELLOW_COUNT_LO (i : Nat) : Fld := ⟨A.stats_DROP_YELLOW i, 0, 32⟩
def F.stats_DROP_YELLOW_COUNT_HI (i : Nat) : Fld := ⟨A.stats_DROP_YELLOW_HI i, 0, 8⟩
def F.stats_DROP_RED_COUNT_LO (i : Nat) : Fld := ⟨A.stats_DROP_RED i, 0, 32⟩
def F.stats_DROP_RED_COUNT_HI (i : Nat) : Fld := ⟨A.stats_DROP_RED_HI i, 0, 8⟩
def F.stats_TAILMARKED_COUNT_LO (i : Nat) : Fld := ⟨A.stats_TAILMARKED i, 0, 32⟩
def F.stats_TAILMARKED_COUNT_HI (i : Nat) : Fld := ⟨A.stats_TAILMARKED_HI i, 0, 8⟩
def F.stats_BYTES_IN_COUNT_LO (i : Nat) : Fld := ⟨A.stats_BYTES_IN i, 0, 32⟩
def F.stats_BYTES_IN_COUNT_HI (i : Nat) : Fld := ⟨A.stats_BYTES_IN_HI i, 0, 8⟩

/-! ### mill (R155) -/
def F.mill_CTL_CUT_EN : Fld := ⟨A.mill_CTL, 0, 1⟩
def F.mill_CRED_DEFAULT_CELLS : Fld := ⟨A.mill_CRED_DEFAULT, 0, 12⟩
def F.mill_FOREBAY_SEL_INGRESS : Fld := ⟨A.mill_FOREBAY_SEL, 0, 5⟩
def F.mill_FOREBAY_OCC_BYTES : Fld := ⟨A.mill_FOREBAY_OCC, 0, 17⟩
def F.mill_FOREBAY_DROPS_COUNT : Fld := ⟨A.mill_FOREBAY_DROPS, 0, 32⟩
def F.mill_MISS_LAST_OUTLET : Fld := ⟨A.mill_MISS_LAST, 0, 5⟩
def F.mill_MISS_LAST_HOP : Fld := ⟨A.mill_MISS_LAST, 5, 11⟩
def F.mill_MISS_COUNT_COUNT : Fld := ⟨A.mill_MISS_COUNT, 0, 32⟩
def F.mill_DUP_LAST_PATH : Fld := ⟨A.mill_DUP_LAST, 0, 10⟩
def F.mill_CFG_FAULT_COUNT_COUNT : Fld := ⟨A.mill_CFG_FAULT_COUNT, 0, 32⟩
def F.mill_MCAST_EMPTY_COUNT_COUNT : Fld := ⟨A.mill_MCAST_EMPTY_COUNT, 0, 32⟩
def F.mill_UTIL_WR_CELLS : Fld := ⟨A.mill_UTIL_WR, 0, 17⟩
def F.mill_UTIL_RD_CELLS : Fld := ⟨A.mill_UTIL_RD, 0, 17⟩
def F.mill_TAILMARKED_LO_COUNT (k : Nat) : Fld := ⟨A.mill_TAILMARKED_LO k, 0, 32⟩
def F.mill_TAILMARKED_HI_COUNT (k : Nat) : Fld := ⟨A.mill_TAILMARKED_HI k, 0, 8⟩
def F.mill_FOREBAY_HWM_BYTES : Fld := ⟨A.mill_FOREBAY_HWM, 0, 17⟩

/-! ### hopper (R157) -/
def F.hopper_GROUPS_ACTIVE : Fld := ⟨A.hopper_GROUPS, 0, 8⟩
def F.hopper_GROUPS_ON : Fld := ⟨A.hopper_GROUPS, 8, 8⟩
def F.hopper_GROUPS_DRAINED : Fld := ⟨A.hopper_GROUPS, 16, 8⟩
def F.hopper_CAPACITY_CELLS : Fld := ⟨A.hopper_CAPACITY, 0, 17⟩
def F.hopper_FREE_CELLS : Fld := ⟨A.hopper_FREE, 0, 17⟩
def F.hopper_OCC_LOSSY_CELLS : Fld := ⟨A.hopper_OCC_LOSSY, 0, 17⟩
def F.hopper_OCC_CRED_CELLS : Fld := ⟨A.hopper_OCC_CRED, 0, 17⟩
def F.hopper_LOSSY_LIMIT_CELLS : Fld := ⟨A.hopper_LOSSY_LIMIT, 0, 17⟩
def F.hopper_CRED_FLOOR_CELLS : Fld := ⟨A.hopper_CRED_FLOOR, 0, 17⟩
def F.hopper_LIMIT_DROPS_COUNT : Fld := ⟨A.hopper_LIMIT_DROPS, 0, 32⟩
def F.hopper_ECC_CORR_LO_COUNT : Fld := ⟨A.hopper_ECC_CORR_LO, 0, 32⟩
def F.hopper_ECC_CORR_HI_COUNT : Fld := ⟨A.hopper_ECC_CORR_HI, 0, 8⟩
def F.hopper_ECC_UNCORR_COUNT : Fld := ⟨A.hopper_ECC_UNCORR, 0, 32⟩
def F.hopper_ECC_LAST_CELL : Fld := ⟨A.hopper_ECC_LAST, 0, 17⟩
def F.hopper_ECC_LAST_ROW : Fld := ⟨A.hopper_ECC_LAST, 17, 2⟩
def F.hopper_ECC_LAST_WORD : Fld := ⟨A.hopper_ECC_LAST, 19, 3⟩
def F.hopper_ECC_LAST_UNCORR : Fld := ⟨A.hopper_ECC_LAST, 22, 1⟩
def F.hopper_LINK_ERR_COUNT : Fld := ⟨A.hopper_LINK_ERR, 0, 16⟩
def F.hopper_AUDIT_GO : Fld := ⟨A.hopper_AUDIT, 0, 1⟩
def F.hopper_AUDIT_AUTO : Fld := ⟨A.hopper_AUDIT, 1, 1⟩
def F.hopper_AUDIT_BUSY : Fld := ⟨A.hopper_AUDIT, 2, 1⟩
def F.hopper_AUDIT_RECLAIMED_CELLS : Fld := ⟨A.hopper_AUDIT_RECLAIMED, 0, 17⟩
def F.hopper_SCRUB_PERIOD_MS : Fld := ⟨A.hopper_SCRUB, 0, 16⟩
def F.hopper_INJECT_SINGLE : Fld := ⟨A.hopper_INJECT, 0, 1⟩
def F.hopper_INJECT_DOUBLE : Fld := ⟨A.hopper_INJECT, 1, 1⟩
def F.hopper_INJECT_LINK : Fld := ⟨A.hopper_INJECT, 2, 1⟩
def F.hopper_FREE_LWM_CELLS : Fld := ⟨A.hopper_FREE_LWM, 0, 17⟩

/-! ### sluice (R189) -/
def F.sluice_CTL_RUN : Fld := ⟨A.sluice_CTL, 0, 1⟩
def F.sluice_CTL_SPREAD : Fld := ⟨A.sluice_CTL, 1, 1⟩
def F.sluice_CTL_SUSPEND_EN : Fld := ⟨A.sluice_CTL, 2, 1⟩
def F.sluice_TURN_PHASE_TICKS : Fld := ⟨A.sluice_TURN_PHASE, 0, 13⟩
def F.sluice_TURN_TICK_TICK : Fld := ⟨A.sluice_TURN_TICK, 0, 13⟩
def F.sluice_TURN_LO_COUNT : Fld := ⟨A.sluice_TURN_LO, 0, 32⟩
def F.sluice_TURN_HI_COUNT : Fld := ⟨A.sluice_TURN_HI, 0, 8⟩
def F.sluice_IDLE_FLOOR_RATE : Fld := ⟨A.sluice_IDLE_FLOOR, 0, 24⟩
def F.sluice_GROW_SHIFT : Fld := ⟨A.sluice_GROW, 0, 4⟩
def F.sluice_GROW_DECAY : Fld := ⟨A.sluice_GROW, 4, 4⟩
def F.sluice_GROW_MIN_RATE : Fld := ⟨A.sluice_GROW_MIN, 0, 24⟩
def F.sluice_CORE_BUDGET_CELLS : Fld := ⟨A.sluice_CORE_BUDGET, 0, 17⟩
def F.sluice_OVERBOOK_TX_OUTLETS : Fld := ⟨A.sluice_OVERBOOK_TX, 0, 24⟩
def F.sluice_OVERBOOK_RX_INGRESS : Fld := ⟨A.sluice_OVERBOOK_RX, 0, 24⟩
def F.sluice_STAT_OVERBOOK_CORE : Fld := ⟨A.sluice_STAT, 0, 1⟩
def F.sluice_STAT_LATE_LAST : Fld := ⟨A.sluice_STAT, 1, 1⟩
def F.sluice_COMPUTE_TIME_NS : Fld := ⟨A.sluice_COMPUTE_TIME, 0, 13⟩
def F.sluice_LATE_COUNT_COUNT : Fld := ⟨A.sluice_LATE_COUNT, 0, 32⟩
def F.sluice_FIXED_DEFAULT_RATE : Fld := ⟨A.sluice_FIXED_DEFAULT, 0, 24⟩
def F.sluice_PATH_SEL_PATH : Fld := ⟨A.sluice_PATH_SEL, 0, 10⟩
def F.sluice_PATH_INFO_LIMITED : Fld := ⟨A.sluice_PATH_INFO, 0, 1⟩
def F.sluice_PATH_INFO_BACKLOGGED : Fld := ⟨A.sluice_PATH_INFO, 1, 1⟩
def F.sluice_PATH_INFO_SUSPENDED : Fld := ⟨A.sluice_PATH_INFO, 2, 1⟩
def F.sluice_PATH_INFO_PROVISIONAL : Fld := ⟨A.sluice_PATH_INFO, 3, 1⟩
def F.sluice_PATH_INFO_STOP : Fld := ⟨A.sluice_PATH_INFO, 8, 7⟩
def F.sluice_PATH_RAW_RATE : Fld := ⟨A.sluice_PATH_RAW, 0, 24⟩
def F.sluice_PATH_NEXT_RATE : Fld := ⟨A.sluice_PATH_NEXT, 0, 24⟩
def F.sluice_CAP_TX (k : Nat) : Fld := ⟨A.sluice_CAP k, 0, 16⟩
def F.sluice_CAP_RX (k : Nat) : Fld := ⟨A.sluice_CAP k, 16, 16⟩
def F.sluice_LIMIT_TX (k : Nat) : Fld := ⟨A.sluice_LIMIT k, 0, 16⟩
def F.sluice_LIMIT_RX (k : Nat) : Fld := ⟨A.sluice_LIMIT k, 16, 16⟩
def F.sluice_COMPUTE_MAX_NS : Fld := ⟨A.sluice_COMPUTE_MAX, 0, 13⟩

/-! ### sluiceOut (R225) -/
def F.sluiceOut_C0_SHAPE_RATE (i : Nat) : Fld := ⟨A.sluiceOut_C0_SHAPE i, 0, 24⟩
def F.sluiceOut_C0_BURST_PACKETS (i : Nat) : Fld := ⟨A.sluiceOut_C0_BURST i, 0, 16⟩
def F.sluiceOut_C1_SHAPE_RATE (i : Nat) : Fld := ⟨A.sluiceOut_C1_SHAPE i, 0, 24⟩
def F.sluiceOut_C1_BURST_PACKETS (i : Nat) : Fld := ⟨A.sluiceOut_C1_BURST i, 0, 16⟩
def F.sluiceOut_CW23_W2 (i : Nat) : Fld := ⟨A.sluiceOut_CW23 i, 0, 12⟩
def F.sluiceOut_CW23_W3 (i : Nat) : Fld := ⟨A.sluiceOut_CW23 i, 16, 12⟩
def F.sluiceOut_CW45_W4 (i : Nat) : Fld := ⟨A.sluiceOut_CW45 i, 0, 12⟩
def F.sluiceOut_CW45_W5 (i : Nat) : Fld := ⟨A.sluiceOut_CW45 i, 16, 12⟩
def F.sluiceOut_CW67_W6 (i : Nat) : Fld := ⟨A.sluiceOut_CW67 i, 0, 12⟩
def F.sluiceOut_CW67_W7 (i : Nat) : Fld := ⟨A.sluiceOut_CW67 i, 16, 12⟩
def F.sluiceOut_LAG_PACKETS (i : Nat) : Fld := ⟨A.sluiceOut_LAG i, 0, 8⟩
def F.sluiceOut_TOKENS_C0 (i : Nat) : Fld := ⟨A.sluiceOut_TOKENS i, 0, 16⟩
def F.sluiceOut_TOKENS_C1 (i : Nat) : Fld := ⟨A.sluiceOut_TOKENS i, 16, 16⟩
def F.sluiceOut_VT_SEL_SEL (i : Nat) : Fld := ⟨A.sluiceOut_VT_SEL i, 0, 4⟩
def F.sluiceOut_VT_LO_V (i : Nat) : Fld := ⟨A.sluiceOut_VT_LO i, 0, 32⟩
def F.sluiceOut_VT_HI_V (i : Nat) : Fld := ⟨A.sluiceOut_VT_HI i, 0, 8⟩
def F.sluiceOut_QUEUED_CELLS (i c : Nat) : Fld := ⟨A.sluiceOut_QUEUED i c, 0, 17⟩
def F.sluiceOut_WRED_AVG_AVG (i w : Nat) : Fld := ⟨A.sluiceOut_WRED_AVG i w, 0, 25⟩
def F.sluiceOut_SENT_LO_COUNT (i : Nat) : Fld := ⟨A.sluiceOut_SENT_LO i, 0, 32⟩
def F.sluiceOut_SENT_HI_COUNT (i : Nat) : Fld := ⟨A.sluiceOut_SENT_HI i, 0, 8⟩
def F.sluiceOut_WRED_DROPS_LO_COUNT (i : Nat) : Fld := ⟨A.sluiceOut_WRED_DROPS_LO i, 0, 32⟩
def F.sluiceOut_WRED_DROPS_HI_COUNT (i : Nat) : Fld := ⟨A.sluiceOut_WRED_DROPS_HI i, 0, 8⟩
def F.sluiceOut_RED_HELD_LO_COUNT (i : Nat) : Fld := ⟨A.sluiceOut_RED_HELD_LO i, 0, 32⟩
def F.sluiceOut_RED_HELD_HI_COUNT (i : Nat) : Fld := ⟨A.sluiceOut_RED_HELD_HI i, 0, 8⟩
def F.sluiceOut_DEPTH_HWM_CELLS (i : Nat) : Fld := ⟨A.sluiceOut_DEPTH_HWM i, 0, 17⟩

/-! ### policer (R229) -/
def F.policer_CTL_COLOUR_AWARE (i : Nat) : Fld := ⟨A.policer_CTL i, 0, 1⟩
def F.policer_CTL_RED_DROP (i : Nat) : Fld := ⟨A.policer_CTL i, 1, 1⟩
def F.policer_CTL_PENDING (i : Nat) : Fld := ⟨A.policer_CTL i, 2, 1⟩
def F.policer_CIR_RATE (i : Nat) : Fld := ⟨A.policer_CIR i, 0, 24⟩
def F.policer_PIR_RATE (i : Nat) : Fld := ⟨A.policer_PIR i, 0, 24⟩
def F.policer_CBS_PACKETS (i : Nat) : Fld := ⟨A.policer_CBS i, 0, 16⟩
def F.policer_PBS_PACKETS (i : Nat) : Fld := ⟨A.policer_PBS i, 0, 16⟩
def F.policer_TC_TOKENS (i : Nat) : Fld := ⟨A.policer_TC i, 0, 32⟩
def F.policer_TP_TOKENS (i : Nat) : Fld := ⟨A.policer_TP i, 0, 32⟩
def F.policer_GREEN_COUNT_LO (i : Nat) : Fld := ⟨A.policer_GREEN i, 0, 32⟩
def F.policer_GREEN_COUNT_HI (i : Nat) : Fld := ⟨A.policer_GREEN_HI i, 0, 8⟩
def F.policer_YELLOW_COUNT_LO (i : Nat) : Fld := ⟨A.policer_YELLOW i, 0, 32⟩
def F.policer_YELLOW_COUNT_HI (i : Nat) : Fld := ⟨A.policer_YELLOW_HI i, 0, 8⟩
def F.policer_RED_COUNT_LO (i : Nat) : Fld := ⟨A.policer_RED i, 0, 32⟩
def F.policer_RED_COUNT_HI (i : Nat) : Fld := ⟨A.policer_RED_HI i, 0, 8⟩

/-! ### wred (R230) -/
def F.wred_CTL_K (i : Nat) : Fld := ⟨A.wred_CTL i, 0, 4⟩
def F.wred_CTL_PENDING (i : Nat) : Fld := ⟨A.wred_CTL i, 4, 1⟩
def F.wred_MIN_CELLS (i c : Nat) : Fld := ⟨A.wred_MIN i c, 0, 17⟩
def F.wred_MAX_CELLS (i c : Nat) : Fld := ⟨A.wred_MAX i c, 0, 17⟩
def F.wred_MAXP_P (i c : Nat) : Fld := ⟨A.wred_MAXP i c, 0, 8⟩
def F.wred_DROPS_GREEN_COUNT_LO (i : Nat) : Fld := ⟨A.wred_DROPS_GREEN i, 0, 32⟩
def F.wred_DROPS_GREEN_COUNT_HI (i : Nat) : Fld := ⟨A.wred_DROPS_GREEN_HI i, 0, 8⟩
def F.wred_DROPS_YELLOW_COUNT_LO (i : Nat) : Fld := ⟨A.wred_DROPS_YELLOW i, 0, 32⟩
def F.wred_DROPS_YELLOW_COUNT_HI (i : Nat) : Fld := ⟨A.wred_DROPS_YELLOW_HI i, 0, 8⟩
def F.wred_DROPS_RED_COUNT_LO (i : Nat) : Fld := ⟨A.wred_DROPS_RED i, 0, 32⟩
def F.wred_DROPS_RED_COUNT_HI (i : Nat) : Fld := ⟨A.wred_DROPS_RED_HI i, 0, 8⟩

/-! ### gate (R264) -/
def F.gate_CTL_EN (i : Nat) : Fld := ⟨A.gate_CTL i, 0, 1⟩
def F.gate_CTL_FORMAT (i : Nat) : Fld := ⟨A.gate_CTL i, 1, 2⟩
def F.gate_CTL_TAKES (i : Nat) : Fld := ⟨A.gate_CTL i, 3, 3⟩
def F.gate_CTL_DSC_CAP (i : Nat) : Fld := ⟨A.gate_CTL i, 6, 1⟩
def F.gate_CTL_PR_CAP (i : Nat) : Fld := ⟨A.gate_CTL i, 7, 1⟩
def F.gate_CTL_SU_CAP (i : Nat) : Fld := ⟨A.gate_CTL i, 8, 1⟩
def F.gate_CTL_BW_AUTO (i : Nat) : Fld := ⟨A.gate_CTL i, 9, 1⟩
def F.gate_MAX_SIZE_H (i : Nat) : Fld := ⟨A.gate_MAX_SIZE i, 0, 13⟩
def F.gate_MAX_SIZE_V (i : Nat) : Fld := ⟨A.gate_MAX_SIZE i, 16, 13⟩
def F.gate_DP_CAP_MAX_RATE (i : Nat) : Fld := ⟨A.gate_DP_CAP i, 0, 4⟩
def F.gate_DP_CAP_LANES (i : Nat) : Fld := ⟨A.gate_DP_CAP i, 4, 3⟩
def F.gate_EDID_CTL_BLOCKS (i : Nat) : Fld := ⟨A.gate_EDID_CTL i, 0, 3⟩
def F.gate_EDID_CTL_VALID (i : Nat) : Fld := ⟨A.gate_EDID_CTL i, 3, 1⟩
def F.gate_TAKE_BASE_PAGE (i t : Nat) : Fld := ⟨A.gate_TAKE_BASE i t, 0, 16⟩
def F.gate_PITCH_BYTES (i : Nat) : Fld := ⟨A.gate_PITCH i, 0, 18⟩
def F.gate_TAKE_SIZE_PAGES (i : Nat) : Fld := ⟨A.gate_TAKE_SIZE i, 0, 16⟩
def F.gate_STATUS_STATE (i : Nat) : Fld := ⟨A.gate_STATUS i, 0, 3⟩
def F.gate_STATUS_NEWEST (i : Nat) : Fld := ⟨A.gate_STATUS i, 3, 2⟩
def F.gate_STATUS_NEWEST_VALID (i : Nat) : Fld := ⟨A.gate_STATUS i, 5, 1⟩
def F.gate_STATUS_WRITING (i : Nat) : Fld := ⟨A.gate_STATUS i, 6, 2⟩
def F.gate_STATUS_WRITE_ACTIVE (i : Nat) : Fld := ⟨A.gate_STATUS i, 8, 1⟩
def F.gate_STATUS_LATCHED (i : Nat) : Fld := ⟨A.gate_STATUS i, 9, 4⟩
def F.gate_STATUS_CREDIT_HELD (i : Nat) : Fld := ⟨A.gate_STATUS i, 13, 1⟩
def F.gate_STATUS_DSC (i : Nat) : Fld := ⟨A.gate_STATUS i, 14, 1⟩
def F.gate_FRAME_SIZE_H (i : Nat) : Fld := ⟨A.gate_FRAME_SIZE i, 0, 13⟩
def F.gate_FRAME_SIZE_V (i : Nat) : Fld := ⟨A.gate_FRAME_SIZE i, 16, 13⟩
def F.gate_SRC_FMT_COLOUR (i : Nat) : Fld := ⟨A.gate_SRC_FMT i, 0, 3⟩
def F.gate_SRC_FMT_BPC (i : Nat) : Fld := ⟨A.gate_SRC_FMT i, 3, 2⟩
def F.gate_SRC_FMT_DSC_BPP (i : Nat) : Fld := ⟨A.gate_SRC_FMT i, 16, 10⟩
def F.gate_DIRTY01_TAKE0 (i : Nat) : Fld := ⟨A.gate_DIRTY01 i, 0, 9⟩
def F.gate_DIRTY01_TAKE1 (i : Nat) : Fld := ⟨A.gate_DIRTY01 i, 16, 9⟩
def F.gate_DIRTY23_TAKE2 (i : Nat) : Fld := ⟨A.gate_DIRTY23 i, 0, 9⟩
def F.gate_DIRTY23_TAKE3 (i : Nat) : Fld := ⟨A.gate_DIRTY23 i, 16, 9⟩
def F.gate_BW_IDLE_MS (i : Nat) : Fld := ⟨A.gate_BW i, 0, 16⟩
def F.gate_BW_FLOOR (i : Nat) : Fld := ⟨A.gate_BW i, 16, 16⟩
def F.gate_BW_REQ_MBPS (i : Nat) : Fld := ⟨A.gate_BW_REQ i, 0, 17⟩
def F.gate_BW_GRANT_MBPS (i : Nat) : Fld := ⟨A.gate_BW_GRANT i, 0, 17⟩
def F.gate_CLAP_COUNT_COUNT (i : Nat) : Fld := ⟨A.gate_CLAP_COUNT i, 0, 32⟩
def F.gate_CLAP_TIME_LO_TICKS (i : Nat) : Fld := ⟨A.gate_CLAP_TIME_LO i, 0, 32⟩
def F.gate_CLAP_TIME_HI_TICKS (i : Nat) : Fld := ⟨A.gate_CLAP_TIME_HI i, 0, 8⟩
def F.gate_ING_SIG_CRC (i : Nat) : Fld := ⟨A.gate_ING_SIG i, 0, 32⟩
def F.gate_SIG_INFO_FULL (i : Nat) : Fld := ⟨A.gate_SIG_INFO i, 0, 1⟩
def F.gate_SIG_INFO_CHANGED (i : Nat) : Fld := ⟨A.gate_SIG_INFO i, 1, 1⟩
def F.gate_ABANDONED_COUNT (i : Nat) : Fld := ⟨A.gate_ABANDONED i, 0, 16⟩
def F.gate_ABANDONED_REFUSED (i : Nat) : Fld := ⟨A.gate_ABANDONED i, 16, 16⟩
def F.gate_BIND_PATH (i : Nat) : Fld := ⟨A.gate_BIND i, 0, 10⟩
def F.gate_BIND_SLICE (i : Nat) : Fld := ⟨A.gate_BIND i, 10, 2⟩
def F.gate_BIND_ADAPTER (i : Nat) : Fld := ⟨A.gate_BIND i, 12, 2⟩
def F.gate_BIND_BOUND (i : Nat) : Fld := ⟨A.gate_BIND i, 14, 1⟩
def F.gate_EDID_BYTES (i w : Nat) : Fld := ⟨A.gate_EDID i w, 0, 32⟩
def F.gate_SDP_BYTES (i w : Nat) : Fld := ⟨A.gate_SDP i w, 0, 32⟩

/-! ### reel (R268) -/
def F.reel_STAT_READY : Fld := ⟨A.reel_STAT, 0, 1⟩
def F.reel_STAT_SELF_REFRESH : Fld := ⟨A.reel_STAT, 1, 1⟩
def F.reel_STAT_CONTENT_LOST : Fld := ⟨A.reel_STAT, 2, 1⟩
def F.reel_PSTK_CAP_GBPS : Fld := ⟨A.reel_PSTK_CAP, 0, 8⟩
def F.reel_COPY_CAP_GBPS : Fld := ⟨A.reel_COPY_CAP, 0, 6⟩
def F.reel_SCRUB_PERIOD_S : Fld := ⟨A.reel_SCRUB, 0, 16⟩
def F.reel_ECC_CORR_LO_COUNT : Fld := ⟨A.reel_ECC_CORR_LO, 0, 32⟩
def F.reel_ECC_CORR_HI_COUNT : Fld := ⟨A.reel_ECC_CORR_HI, 0, 8⟩
def F.reel_ECC_UNCORR_COUNT : Fld := ⟨A.reel_ECC_UNCORR, 0, 32⟩
def F.reel_ECC_ADDR_ADDR : Fld := ⟨A.reel_ECC_ADDR, 0, 32⟩
def F.reel_ECC_LAST_UNCORR : Fld := ⟨A.reel_ECC_LAST, 0, 1⟩
def F.reel_ECC_LAST_WORD : Fld := ⟨A.reel_ECC_LAST, 1, 3⟩
def F.reel_ECC_LAST_CLIENT : Fld := ⟨A.reel_ECC_LAST, 4, 3⟩
def F.reel_UTIL_BLOCKS : Fld := ⟨A.reel_UTIL, 0, 18⟩
def F.reel_INJECT_SINGLE : Fld := ⟨A.reel_INJECT, 0, 1⟩
def F.reel_INJECT_DOUBLE : Fld := ⟨A.reel_INJECT, 1, 1⟩
def F.reel_UTIL_HWM_BLOCKS : Fld := ⟨A.reel_UTIL_HWM, 0, 18⟩

/-! ### proj (R310) -/
def F.proj_CTL_EN (i : Nat) : Fld := ⟨A.proj_CTL i, 0, 1⟩
def F.proj_CTL_ADAPTIVE (i : Nat) : Fld := ⟨A.proj_CTL i, 1, 1⟩
def F.proj_CTL_SYNC_PLATE (i : Nat) : Fld := ⟨A.proj_CTL i, 2, 2⟩
def F.proj_CTL_STATIC_INTENT (i : Nat) : Fld := ⟨A.proj_CTL i, 4, 1⟩
def F.proj_TIMING_H_ACTIVE (i : Nat) : Fld := ⟨A.proj_TIMING_H i, 0, 13⟩
def F.proj_TIMING_H_TOTAL (i : Nat) : Fld := ⟨A.proj_TIMING_H i, 16, 14⟩
def F.proj_HSYNC_START (i : Nat) : Fld := ⟨A.proj_HSYNC i, 0, 14⟩
def F.proj_HSYNC_WIDTH (i : Nat) : Fld := ⟨A.proj_HSYNC i, 16, 14⟩
def F.proj_TIMING_V_ACTIVE (i : Nat) : Fld := ⟨A.proj_TIMING_V i, 0, 13⟩
def F.proj_TIMING_V_TOTAL (i : Nat) : Fld := ⟨A.proj_TIMING_V i, 16, 13⟩
def F.proj_VSYNC_START (i : Nat) : Fld := ⟨A.proj_VSYNC i, 0, 13⟩
def F.proj_VSYNC_WIDTH (i : Nat) : Fld := ⟨A.proj_VSYNC i, 16, 13⟩
def F.proj_V_TOTAL_MAX_LINES (i : Nat) : Fld := ⟨A.proj_V_TOTAL_MAX i, 0, 16⟩
def F.proj_SPROCKET_NUM_NUM (i : Nat) : Fld := ⟨A.proj_SPROCKET_NUM i, 0, 24⟩
def F.proj_SPROCKET_DEN_DEN (i : Nat) : Fld := ⟨A.proj_SPROCKET_DEN i, 0, 24⟩
def F.proj_BG_LO_COLOR (i : Nat) : Fld := ⟨A.proj_BG_LO i, 0, 32⟩
def F.proj_BG_HI_COLOR (i : Nat) : Fld := ⟨A.proj_BG_HI i, 0, 8⟩
def F.proj_OUT_PORTS (i : Nat) : Fld := ⟨A.proj_OUT i, 0, 10⟩
def F.proj_OUT_BPC (i : Nat) : Fld := ⟨A.proj_OUT i, 10, 2⟩
def F.proj_OUT_MST_PORT (i : Nat) : Fld := ⟨A.proj_OUT i, 12, 4⟩
def F.proj_DSC_EN (i : Nat) : Fld := ⟨A.proj_DSC i, 0, 1⟩
def F.proj_DSC_SLICES (i : Nat) : Fld := ⟨A.proj_DSC i, 1, 2⟩
def F.proj_DSC_BPP (i : Nat) : Fld := ⟨A.proj_DSC i, 3, 10⟩
def F.proj_CONT_LIMIT (i : Nat) : Fld := ⟨A.proj_CONT i, 0, 4⟩
def F.proj_NEED_PACKETS (i : Nat) : Fld := ⟨A.proj_NEED i, 0, 16⟩
def F.proj_NEED_FETCH (i : Nat) : Fld := ⟨A.proj_NEED i, 16, 16⟩
def F.proj_STATUS_PHASE (i : Nat) : Fld := ⟨A.proj_STATUS i, 0, 2⟩
def F.proj_STATUS_DARK (i : Nat) : Fld := ⟨A.proj_STATUS i, 2, 1⟩
def F.proj_STATUS_DSC_FAULT (i : Nat) : Fld := ⟨A.proj_STATUS i, 3, 1⟩
def F.proj_STATUS_AS_FAULT (i : Nat) : Fld := ⟨A.proj_STATUS i, 4, 1⟩
def F.proj_STATUS_TARGET_FAULT (i : Nat) : Fld := ⟨A.proj_STATUS i, 5, 1⟩
def F.proj_STATUS_LINE (i : Nat) : Fld := ⟨A.proj_STATUS i, 16, 16⟩
def F.proj_PORT_STAT_UP (i : Nat) : Fld := ⟨A.proj_PORT_STAT i, 0, 10⟩
def F.proj_PORT_STAT_SHORT (i : Nat) : Fld := ⟨A.proj_PORT_STAT i, 16, 10⟩
def F.proj_FRAME_COUNT_COUNT (i : Nat) : Fld := ⟨A.proj_FRAME_COUNT i, 0, 32⟩
def F.proj_LATCHED_TAKE (i p : Nat) : Fld := ⟨A.proj_LATCHED i, 0 + 4 * p, 2⟩
def F.proj_LATCHED_VALID (i p : Nat) : Fld := ⟨A.proj_LATCHED i, 2 + 4 * p, 1⟩
def F.proj_UNDERRUNS_COUNT (i : Nat) : Fld := ⟨A.proj_UNDERRUNS i, 0, 32⟩
def F.proj_UNDER_FIRST_LINE (i : Nat) : Fld := ⟨A.proj_UNDER_FIRST i, 0, 16⟩
def F.proj_UNDER_FIRST_FRAME (i : Nat) : Fld := ⟨A.proj_UNDER_FIRST i, 16, 14⟩
def F.proj_UNDER_FIRST_CAUSE (i : Nat) : Fld := ⟨A.proj_UNDER_FIRST i, 30, 1⟩
def F.proj_UNDER_FIRST_VALID (i : Nat) : Fld := ⟨A.proj_UNDER_FIRST i, 31, 1⟩
def F.proj_OUT_SIG_CRC (i : Nat) : Fld := ⟨A.proj_OUT_SIG i, 0, 32⟩
def F.proj_CONT_STAT_COUNT (i : Nat) : Fld := ⟨A.proj_CONT_STAT i, 0, 4⟩
def F.proj_CONT_STAT_ARMED (i : Nat) : Fld := ⟨A.proj_CONT_STAT i, 4, 1⟩
def F.proj_CONT_STAT_FROZEN (i : Nat) : Fld := ⟨A.proj_CONT_STAT i, 5, 1⟩
def F.proj_FAULT_CODE (i : Nat) : Fld := ⟨A.proj_FAULT i, 0, 4⟩
def F.proj_LINK_CTL_MAX_RATE (i : Nat) : Fld := ⟨A.proj_LINK_CTL i, 0, 4⟩
def F.proj_LINK_CTL_MAX_LANES (i : Nat) : Fld := ⟨A.proj_LINK_CTL i, 4, 3⟩
def F.proj_LINK_CTL_RETRAIN (i : Nat) : Fld := ⟨A.proj_LINK_CTL i, 7, 1⟩
def F.proj_PORT_DISCARDS_COUNT (i : Nat) : Fld := ⟨A.proj_PORT_DISCARDS i, 0, 32⟩
def F.proj_PSRC_KIND (i p : Nat) : Fld := ⟨A.proj_PSRC i p, 0, 3⟩
def F.proj_PSRC_FORMAT (i p : Nat) : Fld := ⟨A.proj_PSRC i p, 4, 2⟩
def F.proj_PSRC_FILTER (i p : Nat) : Fld := ⟨A.proj_PSRC i p, 6, 1⟩
def F.proj_PSRC_ALPHA_MODE (i p : Nat) : Fld := ⟨A.proj_PSRC i p, 8, 2⟩
def F.proj_SURF_BASE_PAGE (i p : Nat) : Fld := ⟨A.proj_SURF_BASE i p, 0, 16⟩
def F.proj_SURF_PITCH_BYTES (i p : Nat) : Fld := ⟨A.proj_SURF_PITCH i p, 0, 18⟩
def F.proj_SRC_POS_X (i p : Nat) : Fld := ⟨A.proj_SRC_POS i p, 0, 13⟩
def F.proj_SRC_POS_Y (i p : Nat) : Fld := ⟨A.proj_SRC_POS i p, 16, 13⟩
def F.proj_SRC_SIZE_W (i p : Nat) : Fld := ⟨A.proj_SRC_SIZE i p, 0, 13⟩
def F.proj_SRC_SIZE_H (i p : Nat) : Fld := ⟨A.proj_SRC_SIZE i p, 16, 13⟩
def F.proj_DST_POS_X (i p : Nat) : Fld := ⟨A.proj_DST_POS i p, 0, 14⟩
def F.proj_DST_POS_Y (i p : Nat) : Fld := ⟨A.proj_DST_POS i p, 16, 14⟩
def F.proj_DST_SIZE_W (i p : Nat) : Fld := ⟨A.proj_DST_SIZE i p, 0, 15⟩
def F.proj_DST_SIZE_H (i p : Nat) : Fld := ⟨A.proj_DST_SIZE i p, 16, 15⟩
def F.proj_GALPHA_ALPHA (i p : Nat) : Fld := ⟨A.proj_GALPHA i p, 0, 10⟩
def F.proj_SIG_POP_CRC (i : Nat) : Fld := ⟨A.proj_SIG_POP i, 0, 32⟩
def F.proj_SIG_LEVEL_COUNT (i : Nat) : Fld := ⟨A.proj_SIG_LEVEL i, 0, 5⟩

/-! ### dpo (R312) -/
def F.dpo_CTL_EN (i : Nat) : Fld := ⟨A.dpo_CTL i, 0, 1⟩
def F.dpo_CTL_MAX_RATE (i : Nat) : Fld := ⟨A.dpo_CTL i, 1, 4⟩
def F.dpo_CTL_MAX_LANES (i : Nat) : Fld := ⟨A.dpo_CTL i, 5, 3⟩
def F.dpo_CTL_RETRAIN (i : Nat) : Fld := ⟨A.dpo_CTL i, 8, 1⟩
def F.dpo_STATUS_HPD (i : Nat) : Fld := ⟨A.dpo_STATUS i, 0, 1⟩
def F.dpo_STATUS_LINK_UP (i : Nat) : Fld := ⟨A.dpo_STATUS i, 1, 1⟩
def F.dpo_STATUS_RATE (i : Nat) : Fld := ⟨A.dpo_STATUS i, 2, 4⟩
def F.dpo_STATUS_LANES (i : Nat) : Fld := ⟨A.dpo_STATUS i, 6, 3⟩
def F.dpo_STATUS_MODE (i : Nat) : Fld := ⟨A.dpo_STATUS i, 9, 2⟩
def F.dpo_STATUS_MST_SINK (i : Nat) : Fld := ⟨A.dpo_STATUS i, 11, 1⟩
def F.dpo_STATUS_DSC_SINK (i : Nat) : Fld := ⟨A.dpo_STATUS i, 12, 1⟩
def F.dpo_STATUS_AS_SINK (i : Nat) : Fld := ⟨A.dpo_STATUS i, 13, 1⟩
def F.dpo_USERS_HEADS (i : Nat) : Fld := ⟨A.dpo_USERS i, 0, 4⟩
def F.dpo_SLOTS_FREE (i : Nat) : Fld := ⟨A.dpo_SLOTS i, 0, 6⟩
def F.dpo_TRAIN_TIME_MS (i : Nat) : Fld := ⟨A.dpo_TRAIN_TIME i, 0, 16⟩
def F.dpo_ERR_RETRAINS (i : Nat) : Fld := ⟨A.dpo_ERR i, 0, 16⟩
def F.dpo_ERR_HPD_IRQ (i : Nat) : Fld := ⟨A.dpo_ERR i, 16, 16⟩

/-! ### tailrace (R341) -/
def F.tailrace_CTL_LEARN : Fld := ⟨A.tailrace_CTL, 0, 1⟩
def F.tailrace_CTL_INGRESS_FILTER : Fld := ⟨A.tailrace_CTL, 1, 1⟩
def F.tailrace_AGE_SECONDS : Fld := ⟨A.tailrace_AGE, 0, 16⟩
def F.tailrace_PVID_VID (k : Nat) : Fld := ⟨A.tailrace_PVID k, 0, 12⟩
def F.tailrace_PVID_PCP (k : Nat) : Fld := ⟨A.tailrace_PVID k, 12, 3⟩
def F.tailrace_PCP_CLASS_CLASS (p : Nat) : Fld := ⟨A.tailrace_PCP_CLASS, 0 + 3 * p, 3⟩
def F.tailrace_NIC_TX_LIMIT_CELLS : Fld := ⟨A.tailrace_NIC_TX_LIMIT, 0, 17⟩
def F.tailrace_VLAN_SEL_VID : Fld := ⟨A.tailrace_VLAN_SEL, 0, 12⟩
def F.tailrace_VLAN_DATA_MEMBERS : Fld := ⟨A.tailrace_VLAN_DATA, 0, 8⟩
def F.tailrace_VLAN_DATA_UNTAG : Fld := ⟨A.tailrace_VLAN_DATA, 8, 8⟩
def F.tailrace_VLAN_DATA_FG : Fld := ⟨A.tailrace_VLAN_DATA, 16, 6⟩
def F.tailrace_VLAN_DATA_VALID : Fld := ⟨A.tailrace_VLAN_DATA, 31, 1⟩
def F.tailrace_FDB_CMD_OP : Fld := ⟨A.tailrace_FDB_CMD, 0, 3⟩
def F.tailrace_FDB_CMD_BUSY : Fld := ⟨A.tailrace_FDB_CMD, 3, 1⟩
def F.tailrace_FDB_CMD_STATIC : Fld := ⟨A.tailrace_FDB_CMD, 4, 1⟩
def F.tailrace_FDB_CMD_INDEX : Fld := ⟨A.tailrace_FDB_CMD, 16, 12⟩
def F.tailrace_FDB_MAC_LO_ADDR : Fld := ⟨A.tailrace_FDB_MAC_LO, 0, 32⟩
def F.tailrace_FDB_KEY_ADDR : Fld := ⟨A.tailrace_FDB_KEY, 0, 16⟩
def F.tailrace_FDB_KEY_VID : Fld := ⟨A.tailrace_FDB_KEY, 16, 12⟩
def F.tailrace_FDB_KEY_PORT : Fld := ⟨A.tailrace_FDB_KEY, 28, 3⟩
def F.tailrace_FDB_KEY_VALID : Fld := ⟨A.tailrace_FDB_KEY, 31, 1⟩
def F.tailrace_DROPS_VLAN : Fld := ⟨A.tailrace_DROPS, 0, 16⟩
def F.tailrace_DROPS_LEARN_FULL : Fld := ⟨A.tailrace_DROPS, 16, 16⟩

/-! ### ethmac (R342) -/
def F.ethmac_CTL_EN (i : Nat) : Fld := ⟨A.ethmac_CTL i, 0, 1⟩
def F.ethmac_CTL_MODE (i : Nat) : Fld := ⟨A.ethmac_CTL i, 1, 2⟩
def F.ethmac_CTL_FEC (i : Nat) : Fld := ⟨A.ethmac_CTL i, 3, 2⟩
def F.ethmac_MAX_FRAME_BYTES (i : Nat) : Fld := ⟨A.ethmac_MAX_FRAME i, 0, 14⟩
def F.ethmac_STATUS_LINK_UP (i : Nat) : Fld := ⟨A.ethmac_STATUS i, 0, 1⟩
def F.ethmac_STATUS_SPEED (i : Nat) : Fld := ⟨A.ethmac_STATUS i, 1, 3⟩
def F.ethmac_STATUS_RX_PAUSED (i : Nat) : Fld := ⟨A.ethmac_STATUS i, 8, 8⟩
def F.ethmac_STATUS_XOFF_HELD (i : Nat) : Fld := ⟨A.ethmac_STATUS i, 16, 8⟩
def F.ethmac_PFC_CTL_MODE (i : Nat) : Fld := ⟨A.ethmac_PFC_CTL i, 0, 2⟩
def F.ethmac_PFC_CTL_HONOUR (i : Nat) : Fld := ⟨A.ethmac_PFC_CTL i, 2, 1⟩
def F.ethmac_PFC_CTL_NODROP (i : Nat) : Fld := ⟨A.ethmac_PFC_CTL i, 8, 8⟩
def F.ethmac_THRESH_XOFF (i : Nat) : Fld := ⟨A.ethmac_THRESH i, 0, 16⟩
def F.ethmac_THRESH_XON (i : Nat) : Fld := ⟨A.ethmac_THRESH i, 16, 16⟩
def F.ethmac_RX_FRAMES_LO_COUNT (i : Nat) : Fld := ⟨A.ethmac_RX_FRAMES_LO i, 0, 32⟩
def F.ethmac_RX_FRAMES_HI_COUNT (i : Nat) : Fld := ⟨A.ethmac_RX_FRAMES_HI i, 0, 8⟩
def F.ethmac_TX_FRAMES_LO_COUNT (i : Nat) : Fld := ⟨A.ethmac_TX_FRAMES_LO i, 0, 32⟩
def F.ethmac_TX_FRAMES_HI_COUNT (i : Nat) : Fld := ⟨A.ethmac_TX_FRAMES_HI i, 0, 8⟩
def F.ethmac_ERR_FCS (i : Nat) : Fld := ⟨A.ethmac_ERR i, 0, 16⟩
def F.ethmac_ERR_LENGTH (i : Nat) : Fld := ⟨A.ethmac_ERR i, 16, 16⟩
def F.ethmac_PAUSE_CNT_RX (i : Nat) : Fld := ⟨A.ethmac_PAUSE_CNT i, 0, 16⟩
def F.ethmac_PAUSE_CNT_TX (i : Nat) : Fld := ⟨A.ethmac_PAUSE_CNT i, 16, 16⟩

/-! ### BAR4 of function 0 (R345, R579) -/
def F.msix_ADDR_LO_ADDR (i v : Nat) : Fld := ⟨A.msix_ADDR_LO i v, 2, 30⟩
def F.msix_ADDR_HI_ADDR (i v : Nat) : Fld := ⟨A.msix_ADDR_HI i v, 0, 32⟩
def F.msix_DATA_DATA (i v : Nat) : Fld := ⟨A.msix_DATA i v, 0, 32⟩
def F.msix_VECTOR_CTL_MASK (i v : Nat) : Fld := ⟨A.msix_VECTOR_CTL i v, 0, 1⟩
def F.msix_PBA_PENDING (i : Nat) : Fld := ⟨A.msix_PBA i, 0, 32⟩
def F.msix_CTL_FUNC_MASK (i : Nat) : Fld := ⟨A.msix_CTL i, 14, 1⟩
def F.msix_CTL_ENABLE (i : Nat) : Fld := ⟨A.msix_CTL i, 15, 1⟩

/-! ### nic (R343) -/
def F.nic_NIC_CTL_EN (i : Nat) : Fld := ⟨A.nic_NIC_CTL i, 0, 1⟩
def F.nic_NIC_CTL_PROMISC (i : Nat) : Fld := ⟨A.nic_NIC_CTL i, 1, 1⟩
def F.nic_NIC_CTL_ALLMULTI (i : Nat) : Fld := ⟨A.nic_NIC_CTL i, 2, 1⟩
def F.nic_MAC_LO_ADDR (i : Nat) : Fld := ⟨A.nic_MAC_LO i, 0, 32⟩
def F.nic_MAC_HI_ADDR (i : Nat) : Fld := ⟨A.nic_MAC_HI i, 0, 16⟩
def F.nic_RX_MAP_RING (i p : Nat) : Fld := ⟨A.nic_RX_MAP i, 0 + 2 * p, 2⟩
def F.nic_ITR_US (i : Nat) : Fld := ⟨A.nic_ITR i, 0, 16⟩
def F.nic_INT_STAT_RING (i : Nat) : Fld := ⟨A.nic_INT_STAT i, 0, 8⟩
def F.nic_INT_STAT_RX_NOBUF (i : Nat) : Fld := ⟨A.nic_INT_STAT i, 8, 1⟩
def F.nic_INT_EN_EN (i : Nat) : Fld := ⟨A.nic_INT_EN i, 0, 9⟩
def F.nic_RX_NOBUF_COUNT (i : Nat) : Fld := ⟨A.nic_RX_NOBUF i, 0, 32⟩
def F.nic_BASE_LO_ADDR (i r : Nat) : Fld := ⟨A.nic_BASE_LO i r, 0, 32⟩
def F.nic_BASE_HI_ADDR (i r : Nat) : Fld := ⟨A.nic_BASE_HI i r, 0, 32⟩
def F.nic_PTR_TAIL (i r : Nat) : Fld := ⟨A.nic_PTR i r, 0, 12⟩
def F.nic_PTR_HEAD (i r : Nat) : Fld := ⟨A.nic_PTR i r, 16, 12⟩
def F.nic_RING_CTL_EN (i r : Nat) : Fld := ⟨A.nic_RING_CTL i r, 0, 1⟩
def F.nic_RING_CTL_PCP (i r : Nat) : Fld := ⟨A.nic_RING_CTL i r, 1, 3⟩
def F.nic_RING_CTL_BUF (i r : Nat) : Fld := ⟨A.nic_RING_CTL i r, 4, 6⟩
def F.nic_RING_CTL_SIZE (i r : Nat) : Fld := ⟨A.nic_RING_CTL i r, 10, 4⟩

/-! ### pciedn (R344) -/
def F.pciedn_CTL_MAX_GEN (i : Nat) : Fld := ⟨A.pciedn_CTL i, 0, 3⟩
def F.pciedn_CTL_MAX_WIDTH (i : Nat) : Fld := ⟨A.pciedn_CTL i, 3, 2⟩
def F.pciedn_CTL_ALLOW_L1 (i : Nat) : Fld := ⟨A.pciedn_CTL i, 5, 1⟩
def F.pciedn_CTL_ALLOW_L1SS (i : Nat) : Fld := ⟨A.pciedn_CTL i, 6, 1⟩
def F.pciedn_CTL_RETRAIN (i : Nat) : Fld := ⟨A.pciedn_CTL i, 7, 1⟩
def F.pciedn_STATUS_PRESENT (i : Nat) : Fld := ⟨A.pciedn_STATUS i, 0, 1⟩
def F.pciedn_STATUS_DLL_UP (i : Nat) : Fld := ⟨A.pciedn_STATUS i, 1, 1⟩
def F.pciedn_STATUS_GEN (i : Nat) : Fld := ⟨A.pciedn_STATUS i, 2, 3⟩
def F.pciedn_STATUS_WIDTH (i : Nat) : Fld := ⟨A.pciedn_STATUS i, 5, 3⟩
def F.pciedn_STATUS_PERST (i : Nat) : Fld := ⟨A.pciedn_STATUS i, 8, 1⟩
def F.pciedn_PERST_CTL_FORCE (i : Nat) : Fld := ⟨A.pciedn_PERST_CTL i, 0, 1⟩
def F.pciedn_TRAIN_TIME_MS (i : Nat) : Fld := ⟨A.pciedn_TRAIN_TIME i, 0, 16⟩
def F.pciedn_ERR_RECOVERIES (i : Nat) : Fld := ⟨A.pciedn_ERR i, 0, 16⟩
def F.pciedn_ERR_UR_CPL (i : Nat) : Fld := ⟨A.pciedn_ERR i, 16, 16⟩

/-! ### pstk (R391) -/
def F.pstk_CTL_PF_EN : Fld := ⟨A.pstk_CTL, 0, 1⟩
def F.pstk_CTL_PF_LIFE : Fld := ⟨A.pstk_CTL, 8, 8⟩
def F.pstk_STAT_CALM_CONFLICT : Fld := ⟨A.pstk_STAT, 0, 1⟩
def F.pstk_STAT_LOG_OVERFLOW : Fld := ⟨A.pstk_STAT, 1, 1⟩
def F.pstk_LOG_CTL_COUNT : Fld := ⟨A.pstk_LOG_CTL, 0, 5⟩
def F.pstk_LOG_CTL_CLEAR : Fld := ⟨A.pstk_LOG_CTL, 8, 1⟩
def F.pstk_LOG_LOST_COUNT : Fld := ⟨A.pstk_LOG_LOST, 0, 16⟩
def F.pstk_ABSENT_ACCESS_COUNT : Fld := ⟨A.pstk_ABSENT_ACCESS, 0, 32⟩
def F.pstk_OWNER_FAULT_COUNT : Fld := ⟨A.pstk_OWNER_FAULT, 0, 32⟩
def F.pstk_NP_ERR_COUNT : Fld := ⟨A.pstk_NP_ERR, 0, 32⟩
def F.pstk_NP_LAST_ADDR_ADDR : Fld := ⟨A.pstk_NP_LAST_ADDR, 0, 32⟩
def F.pstk_NP_LAST_CAUSE : Fld := ⟨A.pstk_NP_LAST, 0, 3⟩
def F.pstk_NP_LAST_WINDOW : Fld := ⟨A.pstk_NP_LAST, 3, 1⟩
def F.pstk_NP_LAST_REQ : Fld := ⟨A.pstk_NP_LAST, 4, 4⟩
def F.pstk_OUT_PATH_CLASS : Fld := ⟨A.pstk_OUT_PATH, 0, 3⟩
def F.pstk_OUT_PATH_WEIGHT : Fld := ⟨A.pstk_OUT_PATH, 16, 12⟩
def F.pstk_QUEUES_IN_P (s : Nat) : Fld := ⟨A.pstk_QUEUES s, 0, 7⟩
def F.pstk_QUEUES_IN_NP (s : Nat) : Fld := ⟨A.pstk_QUEUES s, 8, 6⟩
def F.pstk_QUEUES_OUT_P (s : Nat) : Fld := ⟨A.pstk_QUEUES s, 16, 6⟩
def F.pstk_QUEUES_OUT_NP (s : Nat) : Fld := ⟨A.pstk_QUEUES s, 24, 5⟩
def F.pstk_OUT_RSV_BYTES (s : Nat) : Fld := ⟨A.pstk_OUT_RSV s, 0, 14⟩
def F.pstk_YIELDS_COUNT : Fld := ⟨A.pstk_YIELDS, 0, 32⟩
def F.pstk_OUT_TIMEOUTS_COUNT : Fld := ⟨A.pstk_OUT_TIMEOUTS, 0, 16⟩
def F.pstk_CALM_CTL_EN (k : Nat) : Fld := ⟨A.pstk_CALM_CTL k, 0, 1⟩
def F.pstk_CALM_CTL_WINDOW (k : Nat) : Fld := ⟨A.pstk_CALM_CTL k, 1, 1⟩
def F.pstk_CALM_CTL_CONFLICT (k : Nat) : Fld := ⟨A.pstk_CALM_CTL k, 2, 1⟩
def F.pstk_CALM_BASE_BASE (k : Nat) : Fld := ⟨A.pstk_CALM_BASE k, 6, 26⟩
def F.pstk_CALM_LIMIT_LIMIT (k : Nat) : Fld := ⟨A.pstk_CALM_LIMIT k, 6, 26⟩
def F.pstk_LOG_ADDR_ADDR (i : Nat) : Fld := ⟨A.pstk_LOG_ADDR i, 0, 32⟩
def F.pstk_LOG_INFO_CAUSE (i : Nat) : Fld := ⟨A.pstk_LOG_INFO i, 0, 3⟩
def F.pstk_LOG_INFO_WINDOW (i : Nat) : Fld := ⟨A.pstk_LOG_INFO i, 3, 1⟩
def F.pstk_LOG_INFO_REQ (i : Nat) : Fld := ⟨A.pstk_LOG_INFO i, 4, 4⟩
def F.pstk_LOG_INFO_SIZE (i : Nat) : Fld := ⟨A.pstk_LOG_INFO i, 8, 10⟩
def F.pstk_LOG_TIME_LO_TICKS (i : Nat) : Fld := ⟨A.pstk_LOG_TIME_LO i, 0, 32⟩
def F.pstk_LOG_TIME_HI_TICKS (i : Nat) : Fld := ⟨A.pstk_LOG_TIME_HI i, 0, 8⟩

/-! ### tally (R393) -/
def F.tally_CTL_EN : Fld := ⟨A.tally_CTL, 0, 1⟩
def F.tally_DEST_IVL_US (t : Nat) : Fld := ⟨A.tally_DEST_IVL t, 0, 16⟩
def F.tally_HUB_IVL_US (h : Nat) : Fld := ⟨A.tally_HUB_IVL h, 0, 16⟩
def F.tally_EVENT_RAISE_ID : Fld := ⟨A.tally_EVENT_RAISE, 0, 12⟩
def F.tally_EVENT_RAISE_ARG : Fld := ⟨A.tally_EVENT_RAISE, 16, 16⟩
def F.tally_DROPS_UNROUTED : Fld := ⟨A.tally_DROPS, 0, 16⟩
def F.tally_DROPS_UNREACHABLE : Fld := ⟨A.tally_DROPS, 16, 16⟩
def F.tally_INBOX_FULL_COUNT : Fld := ⟨A.tally_INBOX_FULL, 0, 16⟩
def F.tally_SENT_COUNT : Fld := ⟨A.tally_SENT, 0, 32⟩
def F.tally_SUPERSEDED_COUNT : Fld := ⟨A.tally_SUPERSEDED, 0, 32⟩
def F.tally_INBOX_LEVEL_LEVEL (t : Nat) : Fld := ⟨A.tally_INBOX_LEVEL, 0 + 5 * t, 5⟩
def F.tally_MAP_FAULT_WORD : Fld := ⟨A.tally_MAP_FAULT, 0, 8⟩
def F.tally_WORD_VALUE (w : Nat) : Fld := ⟨A.tally_WORD w, 0, 32⟩
def F.tally_INBOX_ID (t : Nat) : Fld := ⟨A.tally_INBOX t, 0, 12⟩
def F.tally_INBOX_SRC_HUB (t : Nat) : Fld := ⟨A.tally_INBOX t, 12, 2⟩
def F.tally_INBOX_SRC_KIND (t : Nat) : Fld := ⟨A.tally_INBOX t, 14, 2⟩
def F.tally_INBOX_ARG (t : Nat) : Fld := ⟨A.tally_INBOX t, 16, 16⟩

/-! ### tallyTab (R396) -/
def F.tallyTab_MAP_CTL_KIND (w : Nat) : Fld := ⟨A.tallyTab_MAP_CTL w, 0, 2⟩
def F.tallyTab_MAP_CTL_READER (w : Nat) : Fld := ⟨A.tallyTab_MAP_CTL w, 2, 3⟩
def F.tallyTab_MAP_CTL_HUB (w : Nat) : Fld := ⟨A.tallyTab_MAP_CTL w, 5, 2⟩
def F.tallyTab_MAP_CTL_SLOT (w : Nat) : Fld := ⟨A.tallyTab_MAP_CTL w, 8, 8⟩
def F.tallyTab_MAP_CTL_EVENT_ID (w : Nat) : Fld := ⟨A.tallyTab_MAP_CTL w, 16, 12⟩
def F.tallyTab_MAP_SRC_ADDR (w : Nat) : Fld := ⟨A.tallyTab_MAP_SRC w, 0, 25⟩
def F.tallyTab_MAP_RATE_PERIOD (w : Nat) : Fld := ⟨A.tallyTab_MAP_RATE w, 0, 16⟩
def F.tallyTab_MAP_RATE_WRITERS (w : Nat) : Fld := ⟨A.tallyTab_MAP_RATE w, 16, 6⟩
def F.tallyTab_MAP_VALUE_VALUE (w : Nat) : Fld := ⟨A.tallyTab_MAP_VALUE w, 0, 32⟩
def F.tallyTab_ROUTE_KEY_MATCH (i : Nat) : Fld := ⟨A.tallyTab_ROUTE_KEY i, 0, 12⟩
def F.tallyTab_ROUTE_KEY_MASK (i : Nat) : Fld := ⟨A.tallyTab_ROUTE_KEY i, 16, 12⟩
def F.tallyTab_ROUTE_KEY_EN (i : Nat) : Fld := ⟨A.tallyTab_ROUTE_KEY i, 31, 1⟩
def F.tallyTab_ROUTE_DEST_TARGET (i : Nat) : Fld := ⟨A.tallyTab_ROUTE_DEST i, 0, 3⟩
def F.tallyTab_ROUTE_DEST_HUB (i : Nat) : Fld := ⟨A.tallyTab_ROUTE_DEST i, 5, 2⟩
def F.tallyTab_ROUTE_DEST_HITS (i : Nat) : Fld := ⟨A.tallyTab_ROUTE_DEST i, 16, 16⟩
def F.tallyTab_SLOT_VALUE_VALUE (r : Nat) : Fld := ⟨A.tallyTab_SLOT_VALUE r, 0, 32⟩
def F.tallyTab_SLOT_INFO_SRC_WORD (r : Nat) : Fld := ⟨A.tallyTab_SLOT_INFO r, 0, 8⟩
def F.tallyTab_SLOT_INFO_SRC_HUB (r : Nat) : Fld := ⟨A.tallyTab_SLOT_INFO r, 8, 2⟩
def F.tallyTab_SLOT_INFO_READER (r : Nat) : Fld := ⟨A.tallyTab_SLOT_INFO r, 10, 3⟩
def F.tallyTab_SLOT_INFO_SEQ (r : Nat) : Fld := ⟨A.tallyTab_SLOT_INFO r, 16, 16⟩

/-! ### usbhub (R427) -/
def F.usbhub_CTL_EN3 (i : Nat) : Fld := ⟨A.usbhub_CTL i, 0, 1⟩
def F.usbhub_CTL_LPM_EN (i : Nat) : Fld := ⟨A.usbhub_CTL i, 1, 1⟩
def F.usbhub_CTL_U12_EN (i : Nat) : Fld := ⟨A.usbhub_CTL i, 2, 1⟩
def F.usbhub_PATH_WEIGHT_WEIGHT (i : Nat) : Fld := ⟨A.usbhub_PATH_WEIGHT i, 0, 12⟩
def F.usbhub_CONN_USB2 (i : Nat) : Fld := ⟨A.usbhub_CONN i, 0, 9⟩
def F.usbhub_CONN_USB3 (i : Nat) : Fld := ⟨A.usbhub_CONN i, 16, 9⟩
def F.usbhub_PORT_SEL_PORT (i : Nat) : Fld := ⟨A.usbhub_PORT_SEL i, 0, 4⟩
def F.usbhub_PORT_INFO_SPEED2 (i : Nat) : Fld := ⟨A.usbhub_PORT_INFO i, 0, 2⟩
def F.usbhub_PORT_INFO_SPEED3 (i : Nat) : Fld := ⟨A.usbhub_PORT_INFO i, 2, 3⟩
def F.usbhub_PORT_INFO_OC (i : Nat) : Fld := ⟨A.usbhub_PORT_INFO i, 5, 1⟩
def F.usbhub_PORT_INFO_SUSP (i : Nat) : Fld := ⟨A.usbhub_PORT_INFO i, 6, 1⟩
def F.usbhub_STATUS_UP2 (i : Nat) : Fld := ⟨A.usbhub_STATUS i, 0, 1⟩
def F.usbhub_STATUS_SUSP2 (i : Nat) : Fld := ⟨A.usbhub_STATUS i, 1, 1⟩
def F.usbhub_STATUS_UP3 (i : Nat) : Fld := ⟨A.usbhub_STATUS i, 2, 1⟩
def F.usbhub_STATUS_U3 (i : Nat) : Fld := ⟨A.usbhub_STATUS i, 3, 1⟩
def F.usbhub_OC_COUNT_COUNT (i : Nat) : Fld := ⟨A.usbhub_OC_COUNT i, 0, 16⟩

/-! ### dockfn (R429) -/
def F.dockfn_CTL_CONNECT (i : Nat) : Fld := ⟨A.dockfn_CTL i, 0, 1⟩
def F.dockfn_CTL_SS_EN (i : Nat) : Fld := ⟨A.dockfn_CTL i, 1, 1⟩
def F.dockfn_CTL_AUDIO_EN (i : Nat) : Fld := ⟨A.dockfn_CTL i, 2, 1⟩
def F.dockfn_CTL_HID_EN (i : Nat) : Fld := ⟨A.dockfn_CTL i, 3, 1⟩
def F.dockfn_CTL_BB_EN (i : Nat) : Fld := ⟨A.dockfn_CTL i, 4, 1⟩
def F.dockfn_IDS_VID (i : Nat) : Fld := ⟨A.dockfn_IDS i, 0, 16⟩
def F.dockfn_IDS_PID (i : Nat) : Fld := ⟨A.dockfn_IDS i, 16, 16⟩
def F.dockfn_BCD_DEVICE (i : Nat) : Fld := ⟨A.dockfn_BCD i, 0, 16⟩
def F.dockfn_STATUS_STATE (i : Nat) : Fld := ⟨A.dockfn_STATUS i, 0, 3⟩
def F.dockfn_STATUS_SPEED (i : Nat) : Fld := ⟨A.dockfn_STATUS i, 3, 2⟩
def F.dockfn_STATUS_ADDR (i : Nat) : Fld := ⟨A.dockfn_STATUS i, 5, 7⟩
def F.dockfn_STATUS_RWAKE_EN (i : Nat) : Fld := ⟨A.dockfn_STATUS i, 12, 1⟩
def F.dockfn_STATUS_PLAY_ALT (i : Nat) : Fld := ⟨A.dockfn_STATUS i, 13, 2⟩
def F.dockfn_STATUS_CAP_ALT (i : Nat) : Fld := ⟨A.dockfn_STATUS i, 15, 2⟩
def F.dockfn_STATUS_RATE (i : Nat) : Fld := ⟨A.dockfn_STATUS i, 17, 3⟩
def F.dockfn_FEEDBACK_VALUE (i : Nat) : Fld := ⟨A.dockfn_FEEDBACK i, 0, 32⟩
def F.dockfn_WAKE_REQ (i : Nat) : Fld := ⟨A.dockfn_WAKE i, 0, 1⟩
def F.dockfn_WAKE_SENT (i : Nat) : Fld := ⟨A.dockfn_WAKE i, 16, 8⟩
def F.dockfn_WAKE_ABSORBED (i : Nat) : Fld := ⟨A.dockfn_WAKE i, 24, 8⟩
def F.dockfn_MBOX_OUT_LEN (i : Nat) : Fld := ⟨A.dockfn_MBOX i, 0, 10⟩
def F.dockfn_MBOX_OUT_FULL (i : Nat) : Fld := ⟨A.dockfn_MBOX i, 10, 1⟩
def F.dockfn_MBOX_IN_LEN (i : Nat) : Fld := ⟨A.dockfn_MBOX i, 16, 10⟩
def F.dockfn_MBOX_IN_READY (i : Nat) : Fld := ⟨A.dockfn_MBOX i, 26, 1⟩
def F.dockfn_NOTIFY_DATA (i : Nat) : Fld := ⟨A.dockfn_NOTIFY i, 0, 32⟩
def F.dockfn_HID_REPORT (i : Nat) : Fld := ⟨A.dockfn_HID i, 0, 16⟩
def F.dockfn_HID_SEND (i : Nat) : Fld := ⟨A.dockfn_HID i, 16, 1⟩
def F.dockfn_BB_STATUS (i : Nat) : Fld := ⟨A.dockfn_BB i, 0, 2⟩
def F.dockfn_VREQ_TIMEOUT_MS (i : Nat) : Fld := ⟨A.dockfn_VREQ_TIMEOUT i, 0, 8⟩
def F.dockfn_CTRL_ERR_STALLS (i : Nat) : Fld := ⟨A.dockfn_CTRL_ERR i, 0, 12⟩
def F.dockfn_CTRL_ERR_ABORTS (i : Nat) : Fld := ⟨A.dockfn_CTRL_ERR i, 12, 12⟩
def F.dockfn_CTRL_ERR_NOTIFY_LOST (i : Nat) : Fld := ⟨A.dockfn_CTRL_ERR i, 24, 8⟩
def F.dockfn_MBOX_OUT_BYTES (i w : Nat) : Fld := ⟨A.dockfn_MBOX_OUT i w, 0, 32⟩
def F.dockfn_MBOX_IN_BYTES (i w : Nat) : Fld := ⟨A.dockfn_MBOX_IN i w, 0, 32⟩

/-! ### aud (R431) -/
def F.aud_CTL_EN : Fld := ⟨A.aud_CTL, 0, 1⟩
def F.aud_CTL_MASTER : Fld := ⟨A.aud_CTL, 1, 1⟩
def F.aud_CTL_FORMAT : Fld := ⟨A.aud_CTL, 2, 2⟩
def F.aud_CTL_RATE : Fld := ⟨A.aud_CTL, 4, 2⟩
def F.aud_GAIN_GAIN (s : Nat) : Fld := ⟨A.aud_GAIN s, 0, 15⟩
def F.aud_GAIN_MUTE (s : Nat) : Fld := ⟨A.aud_GAIN s, 16, 1⟩
def F.aud_CAP_PAIR_PAIR (s : Nat) : Fld := ⟨A.aud_CAP_PAIR, 0 + 2 * s, 2⟩
def F.aud_STATUS_RUN : Fld := ⟨A.aud_STATUS, 0, 1⟩
def F.aud_STATUS_LOCK : Fld := ⟨A.aud_STATUS, 1, 1⟩
def F.aud_MIX_STAT_SAT : Fld := ⟨A.aud_MIX_STAT, 0, 16⟩
def F.aud_MIX_STAT_LATE : Fld := ⟨A.aud_MIX_STAT, 16, 16⟩
def F.aud_BLOCKS_COUNT : Fld := ⟨A.aud_BLOCKS, 0, 32⟩

/-! ### typec (R469) -/
def F.typec_CFG_EN (i : Nat) : Fld := ⟨A.typec_CFG i, 0, 1⟩
def F.typec_CFG_ROLE (i : Nat) : Fld := ⟨A.typec_CFG i, 1, 2⟩
def F.typec_CFG_TRY_SRC (i : Nat) : Fld := ⟨A.typec_CFG i, 3, 1⟩
def F.typec_CFG_RP (i : Nat) : Fld := ⟨A.typec_CFG i, 4, 2⟩
def F.typec_CFG_FRS_EN (i : Nat) : Fld := ⟨A.typec_CFG i, 6, 1⟩
def F.typec_CFG_FRS_RETURN (i : Nat) : Fld := ⟨A.typec_CFG i, 7, 1⟩
def F.typec_CFG_TEST_WINDOW (i : Nat) : Fld := ⟨A.typec_CFG i, 8, 1⟩
def F.typec_CFG_EPR_EN (i : Nat) : Fld := ⟨A.typec_CFG i, 9, 1⟩
def F.typec_STATUS_TC_STATE (i : Nat) : Fld := ⟨A.typec_STATUS i, 0, 4⟩
def F.typec_STATUS_POWER_ROLE (i : Nat) : Fld := ⟨A.typec_STATUS i, 4, 1⟩
def F.typec_STATUS_DATA_ROLE (i : Nat) : Fld := ⟨A.typec_STATUS i, 5, 1⟩
def F.typec_STATUS_ORIENT (i : Nat) : Fld := ⟨A.typec_STATUS i, 6, 1⟩
def F.typec_STATUS_VCONN_ON (i : Nat) : Fld := ⟨A.typec_STATUS i, 7, 1⟩
def F.typec_STATUS_CONTRACT (i : Nat) : Fld := ⟨A.typec_STATUS i, 8, 2⟩
def F.typec_STATUS_EPR_MODE (i : Nat) : Fld := ⟨A.typec_STATUS i, 10, 1⟩
def F.typec_STATUS_CABLE (i : Nat) : Fld := ⟨A.typec_STATUS i, 11, 2⟩
def F.typec_STATUS_PARTNER_FRS (i : Nat) : Fld := ⟨A.typec_STATUS i, 13, 2⟩
def F.typec_STATUS_PARTNER_FY9 (i : Nat) : Fld := ⟨A.typec_STATUS i, 15, 1⟩
def F.typec_STATUS_FY9_MODE (i : Nat) : Fld := ⟨A.typec_STATUS i, 16, 1⟩
def F.typec_STATUS_ALT (i : Nat) : Fld := ⟨A.typec_STATUS i, 17, 2⟩
def F.typec_STATUS_VCONN_WINDOW (i : Nat) : Fld := ⟨A.typec_STATUS i, 19, 1⟩
def F.typec_STATUS_CONV_UNSAFE (i : Nat) : Fld := ⟨A.typec_STATUS i, 20, 1⟩
def F.typec_CONTRACT_MV (i : Nat) : Fld := ⟨A.typec_CONTRACT i, 0, 16⟩
def F.typec_CONTRACT_MA (i : Nat) : Fld := ⟨A.typec_CONTRACT i, 16, 16⟩
def F.typec_RDO_RDO (i : Nat) : Fld := ⟨A.typec_RDO i, 0, 32⟩
def F.typec_SRC_CAP_CTL_SPR_COUNT (i : Nat) : Fld := ⟨A.typec_SRC_CAP_CTL i, 0, 3⟩
def F.typec_SRC_CAP_CTL_EPR_COUNT (i : Nat) : Fld := ⟨A.typec_SRC_CAP_CTL i, 4, 3⟩
def F.typec_PORT_MAX_MW (i : Nat) : Fld := ⟨A.typec_PORT_MAX i, 0, 20⟩
def F.typec_RESERVATION_MW (i : Nat) : Fld := ⟨A.typec_RESERVATION i, 0, 20⟩
def F.typec_SNK_CTL_MAX_MW (i : Nat) : Fld := ⟨A.typec_SNK_CTL i, 0, 17⟩
def F.typec_MODE_POLICY_USB4 (i : Nat) : Fld := ⟨A.typec_MODE_POLICY i, 0, 1⟩
def F.typec_MODE_POLICY_DP (i : Nat) : Fld := ⟨A.typec_MODE_POLICY i, 1, 1⟩
def F.typec_MODE_POLICY_DP_PIN (i : Nat) : Fld := ⟨A.typec_MODE_POLICY i, 2, 2⟩
def F.typec_MODE_POLICY_FY9_ENTER (i : Nat) : Fld := ⟨A.typec_MODE_POLICY i, 4, 1⟩
def F.typec_CMD_OP (i : Nat) : Fld := ⟨A.typec_CMD i, 0, 4⟩
def F.typec_CMD_BUSY (i : Nat) : Fld := ⟨A.typec_CMD i, 4, 1⟩
def F.typec_CMD_RESULT (i : Nat) : Fld := ⟨A.typec_CMD i, 8, 4⟩
def F.typec_PARTNER_ID_VID (i : Nat) : Fld := ⟨A.typec_PARTNER_ID i, 0, 16⟩
def F.typec_PARTNER_ID_PID (i : Nat) : Fld := ⟨A.typec_PARTNER_ID i, 16, 16⟩
def F.typec_CONV_SAFE_ADDR (i : Nat) : Fld := ⟨A.typec_CONV_SAFE i, 0, 7⟩
def F.typec_CONV_SAFE_EN (i : Nat) : Fld := ⟨A.typec_CONV_SAFE i, 7, 1⟩
def F.typec_CONV_SAFE_REG (i : Nat) : Fld := ⟨A.typec_CONV_SAFE i, 8, 8⟩
def F.typec_CONV_SAFE_VALUE (i : Nat) : Fld := ⟨A.typec_CONV_SAFE i, 16, 16⟩
def F.typec_COUNTS_HARD_RESETS (i : Nat) : Fld := ⟨A.typec_COUNTS i, 0, 8⟩
def F.typec_COUNTS_SOFT_RESETS (i : Nat) : Fld := ⟨A.typec_COUNTS i, 8, 8⟩
def F.typec_COUNTS_REJECTS (i : Nat) : Fld := ⟨A.typec_COUNTS i, 16, 8⟩
def F.typec_COUNTS_RETRY_FAIL (i : Nat) : Fld := ⟨A.typec_COUNTS i, 24, 8⟩
def F.typec_LEDGER_BUDGET_MW (i : Nat) : Fld := ⟨A.typec_LEDGER i, 0, 20⟩
def F.typec_LEDGER_PROFILE_PROFILE_MW (i : Nat) : Fld := ⟨A.typec_LEDGER_PROFILE i, 0, 20⟩
def F.typec_LEDGER_USED_MW (i : Nat) : Fld := ⟨A.typec_LEDGER_USED i, 0, 20⟩
def F.typec_SRC_PDO_PDO (i j : Nat) : Fld := ⟨A.typec_SRC_PDO i j, 0, 32⟩
def F.typec_EPR_PDO_PDO (i j : Nat) : Fld := ⟨A.typec_EPR_PDO i j, 0, 32⟩
def F.typec_PARTNER_PDO_PDO (i j : Nat) : Fld := ⟨A.typec_PARTNER_PDO i j, 0, 32⟩

/-! ### weir (R501) -/
def F.weir_CTL_CH_EN (i : Nat) : Fld := ⟨A.weir_CTL i, 0, 1⟩
def F.weir_CTL_PG_AUTO (i : Nat) : Fld := ⟨A.weir_CTL i, 1, 1⟩
def F.weir_CTL_ENERGY_CLR (i : Nat) : Fld := ⟨A.weir_CTL i, 2, 1⟩
def F.weir_CTL_FORCE_TRIP (i : Nat) : Fld := ⟨A.weir_CTL i, 3, 1⟩
def F.weir_SETUP_SHUNT_UOHM (i : Nat) : Fld := ⟨A.weir_SETUP i, 0, 16⟩
def F.weir_SETUP_SLEW (i : Nat) : Fld := ⟨A.weir_SETUP i, 16, 7⟩
def F.weir_SOA_MA (i : Nat) : Fld := ⟨A.weir_SOA i, 0, 16⟩
def F.weir_SOA_US (i : Nat) : Fld := ⟨A.weir_SOA i, 16, 16⟩
def F.weir_LIMITS_FAST_MA (i : Nat) : Fld := ⟨A.weir_LIMITS i, 0, 16⟩
def F.weir_LIMITS_OV_MV (i : Nat) : Fld := ⟨A.weir_LIMITS i, 16, 16⟩
def F.weir_PG_WIN_MIN_MV (i : Nat) : Fld := ⟨A.weir_PG_WIN i, 0, 16⟩
def F.weir_PG_WIN_MAX_MV (i : Nat) : Fld := ⟨A.weir_PG_WIN i, 16, 16⟩
def F.weir_PG_TIME_DELAY_US (i : Nat) : Fld := ⟨A.weir_PG_TIME i, 0, 16⟩
def F.weir_PG_TIME_LOSS_US (i : Nat) : Fld := ⟨A.weir_PG_TIME i, 16, 16⟩
def F.weir_RAMP_MAX_MS (i : Nat) : Fld := ⟨A.weir_RAMP_MAX i, 0, 16⟩
def F.weir_CURVE_T_MA (i k : Nat) : Fld := ⟨A.weir_CURVE_T i k, 0, 16⟩
def F.weir_CURVE_A_US (i k : Nat) : Fld := ⟨A.weir_CURVE_A i k, 0, 20⟩
def F.weir_STATUS_STATE (i : Nat) : Fld := ⟨A.weir_STATUS i, 0, 3⟩
def F.weir_STATUS_PG (i : Nat) : Fld := ⟨A.weir_STATUS i, 3, 1⟩
def F.weir_STATUS_WARN (i : Nat) : Fld := ⟨A.weir_STATUS i, 4, 1⟩
def F.weir_STATUS_LATCHED (i : Nat) : Fld := ⟨A.weir_STATUS i, 5, 1⟩
def F.weir_STATUS_OFF_MET (i : Nat) : Fld := ⟨A.weir_STATUS i, 6, 1⟩
def F.weir_STATUS_PATH (i : Nat) : Fld := ⟨A.weir_STATUS i, 7, 2⟩
def F.weir_STATUS_CAUSE (i : Nat) : Fld := ⟨A.weir_STATUS i, 9, 4⟩
def F.weir_STATUS_STEP (i : Nat) : Fld := ⟨A.weir_STATUS i, 13, 3⟩
def F.weir_MEAS_MV (i : Nat) : Fld := ⟨A.weir_MEAS i, 0, 16⟩
def F.weir_MEAS_MA (i : Nat) : Fld := ⟨A.weir_MEAS i, 16, 16⟩
def F.weir_POWER_MW (i : Nat) : Fld := ⟨A.weir_POWER i, 0, 21⟩
def F.weir_ENERGY_LO_MJ (i : Nat) : Fld := ⟨A.weir_ENERGY_LO i, 0, 32⟩
def F.weir_ENERGY_HI_MJ (i : Nat) : Fld := ⟨A.weir_ENERGY_HI i, 0, 8⟩
def F.weir_TRIP_SNAP_MV (i : Nat) : Fld := ⟨A.weir_TRIP_SNAP i, 0, 16⟩
def F.weir_TRIP_SNAP_MA (i : Nat) : Fld := ⟨A.weir_TRIP_SNAP i, 16, 16⟩
def F.weir_COUNTS_TRIPS (i : Nat) : Fld := ⟨A.weir_COUNTS i, 0, 16⟩
def F.weir_COUNTS_WARNS (i : Nat) : Fld := ⟨A.weir_COUNTS i, 16, 16⟩
def F.weir_EW_CTL_UV_EN (i : Nat) : Fld := ⟨A.weir_EW_CTL i, 0, 1⟩
def F.weir_EW_CTL_SLOPE_EN (i : Nat) : Fld := ⟨A.weir_EW_CTL i, 1, 1⟩
def F.weir_EW_CTL_REV_EN (i : Nat) : Fld := ⟨A.weir_EW_CTL i, 2, 1⟩
def F.weir_EW_CTL_HOLD_MS (i : Nat) : Fld := ⟨A.weir_EW_CTL i, 8, 8⟩
def F.weir_EW_LEVEL_UV_MV (i : Nat) : Fld := ⟨A.weir_EW_LEVEL i, 0, 16⟩
def F.weir_EW_LEVEL_SLOPE (i : Nat) : Fld := ⟨A.weir_EW_LEVEL i, 16, 16⟩
def F.weir_EW_REV_MA (i : Nat) : Fld := ⟨A.weir_EW_REV i, 0, 16⟩
def F.weir_EW_STAT_UV (i : Nat) : Fld := ⟨A.weir_EW_STAT i, 0, 1⟩
def F.weir_EW_STAT_SLOPE (i : Nat) : Fld := ⟨A.weir_EW_STAT i, 1, 1⟩
def F.weir_EW_STAT_REV (i : Nat) : Fld := ⟨A.weir_EW_STAT i, 2, 1⟩
def F.weir_EW_STAT_PFW (i : Nat) : Fld := ⟨A.weir_EW_STAT i, 3, 1⟩
def F.weir_EXTREMES_PEAK_MA (i : Nat) : Fld := ⟨A.weir_EXTREMES i, 0, 16⟩
def F.weir_EXTREMES_MIN_MV (i : Nat) : Fld := ⟨A.weir_EXTREMES i, 16, 16⟩

/-! ### pwr (R535) -/
def F.pwr_CHIP_STATE_STATE : Fld := ⟨A.pwr_CHIP_STATE, 0, 2⟩
def F.pwr_SHELF_ENTER : Fld := ⟨A.pwr_SHELF, 0, 1⟩
def F.pwr_BMC_SHELF_KEY : Fld := ⟨A.pwr_BMC_SHELF, 0, 16⟩
def F.pwr_SHELF_STAT_REFUSE : Fld := ⟨A.pwr_SHELF_STAT, 0, 3⟩
def F.pwr_SHELF_STAT_WAKE_VIN : Fld := ⟨A.pwr_SHELF_STAT, 8, 1⟩
def F.pwr_SHELF_STAT_WAKE_PIN : Fld := ⟨A.pwr_SHELF_STAT, 9, 1⟩
def F.pwr_SHELF_STAT_WAKE_VBUS : Fld := ⟨A.pwr_SHELF_STAT, 10, 4⟩
def F.pwr_SHELF_CFG_VIN_WAKE_MV : Fld := ⟨A.pwr_SHELF_CFG, 0, 16⟩
def F.pwr_SHELF_CFG_WAKE_N_EN : Fld := ⟨A.pwr_SHELF_CFG, 16, 1⟩
def F.pwr_SHELF_CFG_VBUS_WAKE_EN : Fld := ⟨A.pwr_SHELF_CFG, 17, 1⟩
def F.pwr_DOM_SEL_DOMAIN : Fld := ⟨A.pwr_DOM_SEL, 0, 6⟩
def F.pwr_DOM_INFO_STATE : Fld := ⟨A.pwr_DOM_INFO, 0, 2⟩
def F.pwr_DOM_INFO_FLOOR : Fld := ⟨A.pwr_DOM_INFO, 2, 2⟩
def F.pwr_DOM_INFO_HELD : Fld := ⟨A.pwr_DOM_INFO, 4, 1⟩
def F.pwr_DOM_INFO_LAST_WAKE_US : Fld := ⟨A.pwr_DOM_INFO, 16, 16⟩
def F.pwr_DOM_RUN0_DOMAINS : Fld := ⟨A.pwr_DOM_RUN0, 0, 32⟩
def F.pwr_DOM_RUN1_DOMAINS : Fld := ⟨A.pwr_DOM_RUN1, 0, 11⟩
def F.pwr_WAKE_FAIL_DOMAIN : Fld := ⟨A.pwr_WAKE_FAIL, 0, 6⟩
def F.pwr_WAKE_FAIL_COUNT : Fld := ⟨A.pwr_WAKE_FAIL, 16, 16⟩
def F.pwr_DVFS_TARGET_TARGET (n : Nat) : Fld := ⟨A.pwr_DVFS_TARGET, 0 + 2 * n, 2⟩
def F.pwr_DVFS_STATE_POINTS : Fld := ⟨A.pwr_DVFS_STATE, 0, 8⟩
def F.pwr_DVFS_STATE_BUSY : Fld := ⟨A.pwr_DVFS_STATE, 8, 1⟩
def F.pwr_THERM_HOT_C : Fld := ⟨A.pwr_THERM, 0, 8⟩
def F.pwr_THERM_COOL_C : Fld := ⟨A.pwr_THERM, 8, 8⟩
def F.pwr_THERM_CRIT_C : Fld := ⟨A.pwr_THERM, 16, 8⟩
def F.pwr_MON0_VIN_MV : Fld := ⟨A.pwr_MON0, 0, 16⟩
def F.pwr_MON0_VKEEP_MV : Fld := ⟨A.pwr_MON0, 16, 16⟩
def F.pwr_MON1_VIO33_MV : Fld := ⟨A.pwr_MON1, 0, 16⟩
def F.pwr_MON1_TEMP : Fld := ⟨A.pwr_MON1, 16, 16⟩
def F.pwr_VKEEP_CTL_CHARGE_EN : Fld := ⟨A.pwr_VKEEP_CTL, 0, 1⟩
def F.pwr_VKEEP_CTL_ILIM : Fld := ⟨A.pwr_VKEEP_CTL, 4, 4⟩
def F.pwr_VKEEP_CTL_TARGET_MV : Fld := ⟨A.pwr_VKEEP_CTL, 16, 16⟩
def F.pwr_GROUP_POLICY_POLICY (g : Nat) : Fld := ⟨A.pwr_GROUP_POLICY g, 0, 32⟩
def F.pwr_MON_EXT_VIN_MIN_MV : Fld := ⟨A.pwr_MON_EXT, 0, 16⟩
def F.pwr_MON_EXT_TEMP_MAX : Fld := ⟨A.pwr_MON_EXT, 16, 16⟩

/-! ### clk (R562) -/
def F.clk_REF_CTL_SEL : Fld := ⟨A.clk_REF_CTL, 0, 2⟩
def F.clk_REF_CTL_AUTO_FALLBACK : Fld := ⟨A.clk_REF_CTL, 2, 1⟩
def F.clk_REF_CTL_LEAT : Fld := ⟨A.clk_REF_CTL, 3, 1⟩
def F.clk_REF_CTL_RECOV : Fld := ⟨A.clk_REF_CTL, 4, 5⟩
def F.clk_REF_STAT_ACTIVE : Fld := ⟨A.clk_REF_STAT, 0, 2⟩
def F.clk_REF_STAT_LOCK : Fld := ⟨A.clk_REF_STAT, 2, 1⟩
def F.clk_REF_STAT_PLL_HOLD : Fld := ⟨A.clk_REF_STAT, 3, 1⟩
def F.clk_REF_STAT_DIST_LOCK : Fld := ⟨A.clk_REF_STAT, 4, 1⟩
def F.clk_REF_STAT_DIST_HOLD : Fld := ⟨A.clk_REF_STAT, 5, 1⟩
def F.clk_REF_STAT_LOCK_LOSSES : Fld := ⟨A.clk_REF_STAT, 16, 16⟩
def F.clk_DIST_CTL_BW : Fld := ⟨A.clk_DIST_CTL, 0, 2⟩
def F.clk_DIST_CTL_HOLDOVER_MS : Fld := ⟨A.clk_DIST_CTL, 16, 16⟩
def F.clk_DIST_RATIO_RATIO : Fld := ⟨A.clk_DIST_RATIO, 0, 32⟩
def F.clk_DOMSRC_SHAFT : Fld := ⟨A.clk_DOMSRC, 0, 8⟩
def F.clk_DOMSRC_BUSY : Fld := ⟨A.clk_DOMSRC, 8, 8⟩
def F.clk_RESCUE_LAST : Fld := ⟨A.clk_RESCUE, 0, 4⟩
def F.clk_RESCUE_COUNT : Fld := ⟨A.clk_RESCUE, 16, 16⟩
def F.clk_CLKOUT_SRC : Fld := ⟨A.clk_CLKOUT, 0, 5⟩
def F.clk_CLKOUT_EN : Fld := ⟨A.clk_CLKOUT, 5, 1⟩
def F.clk_CLKOUT_DIV : Fld := ⟨A.clk_CLKOUT, 16, 16⟩
def F.clk_METER_CTL_SRC : Fld := ⟨A.clk_METER_CTL, 0, 5⟩
def F.clk_METER_CTL_GO : Fld := ⟨A.clk_METER_CTL, 5, 1⟩
def F.clk_METER_CTL_BUSY : Fld := ⟨A.clk_METER_CTL, 6, 1⟩
def F.clk_METER_COUNT_COUNT : Fld := ⟨A.clk_METER_COUNT, 0, 32⟩
def F.clk_FTIME_LO_TICKS : Fld := ⟨A.clk_FTIME_LO, 0, 32⟩
def F.clk_FTIME_HI_TICKS : Fld := ⟨A.clk_FTIME_HI, 0, 8⟩
def F.clk_EPOCH_COUNT : Fld := ⟨A.clk_EPOCH, 0, 32⟩
def F.clk_XING_SEL_XING : Fld := ⟨A.clk_XING_SEL, 0, 5⟩
def F.clk_XING_STAT_RX_DOWN : Fld := ⟨A.clk_XING_STAT, 0, 1⟩
def F.clk_XING_STAT_TX_DOWN : Fld := ⟨A.clk_XING_STAT, 1, 1⟩
def F.clk_XING_STAT_RESYNCS : Fld := ⟨A.clk_XING_STAT, 16, 16⟩
def F.clk_XING_DROPS_COUNT : Fld := ⟨A.clk_XING_DROPS, 0, 32⟩
def F.clk_GATING_QUIET_LIMIT : Fld := ⟨A.clk_GATING, 0, 16⟩
def F.clk_GATING_FORCED_GATES : Fld := ⟨A.clk_GATING, 16, 16⟩

/-! ### cue0 (R586) -/
def F.cue0_CTL_EN : Fld := ⟨A.cue0_CTL, 0, 1⟩
def F.cue0_TCTL_GROUP_BITS (t : Nat) : Fld := ⟨A.cue0_TCTL t, 0, 3⟩
def F.cue0_TCTL_THRESHOLD (t : Nat) : Fld := ⟨A.cue0_TCTL t, 4, 7⟩
def F.cue0_TCTL_VEC_FAULT (t : Nat) : Fld := ⟨A.cue0_TCTL t, 11, 5⟩
def F.cue0_TCTL_STACK_RESET (t : Nat) : Fld := ⟨A.cue0_TCTL t, 16, 1⟩
def F.cue0_TSTAT_DEPTH (t : Nat) : Fld := ⟨A.cue0_TSTAT t, 0, 5⟩
def F.cue0_TSTAT_FROZEN (t : Nat) : Fld := ⟨A.cue0_TSTAT t, 5, 1⟩
def F.cue0_TSTAT_LINE (t : Nat) : Fld := ⟨A.cue0_TSTAT t, 6, 1⟩
def F.cue0_TSTAT_TOP_PRIO (t : Nat) : Fld := ⟨A.cue0_TSTAT t, 8, 6⟩
def F.cue0_BEST_ID (t : Nat) : Fld := ⟨A.cue0_BEST t, 0, 9⟩
def F.cue0_COMPLETE_ID (t : Nat) : Fld := ⟨A.cue0_COMPLETE t, 0, 9⟩
def F.cue0_FAULT_ID (t : Nat) : Fld := ⟨A.cue0_FAULT t, 0, 9⟩
def F.cue0_FAULT_TOP_ID (t : Nat) : Fld := ⟨A.cue0_FAULT t, 16, 9⟩
def F.cue0_COUNTS_VANISHED (t : Nat) : Fld := ⟨A.cue0_COUNTS t, 0, 16⟩
def F.cue0_COUNTS_RACED (t : Nat) : Fld := ⟨A.cue0_COUNTS t, 16, 16⟩
def F.cue0_STACK_ID (t d : Nat) : Fld := ⟨A.cue0_STACK t d, 0, 9⟩
def F.cue0_STACK_PRIO (t d : Nat) : Fld := ⟨A.cue0_STACK t d, 16, 6⟩
def F.cue0_STACK_VALID (t d : Nat) : Fld := ⟨A.cue0_STACK t d, 31, 1⟩
def F.cue0_CLAIM_ID (t : Nat) : Fld := ⟨A.cue0_CLAIM t, 0, 9⟩

/-! ### cue1 (R586) -/
def F.cue1_SRC_EN (i : Nat) : Fld := ⟨A.cue1_SRC i, 0, 1⟩
def F.cue1_SRC_TARGET (i : Nat) : Fld := ⟨A.cue1_SRC i, 1, 3⟩
def F.cue1_SRC_PRIO (i : Nat) : Fld := ⟨A.cue1_SRC i, 4, 6⟩
def F.cue1_SRC_VECTOR (i : Nat) : Fld := ⟨A.cue1_SRC i, 11, 5⟩
def F.cue1_SRC_FILTER_N (i : Nat) : Fld := ⟨A.cue1_SRC i, 16, 8⟩

/-! ### cue2 (R586) -/
def F.cue2_LEVEL_IDS (w : Nat) : Fld := ⟨A.cue2_LEVEL w, 0, 32⟩
def F.cue2_PENDING_IDS (w : Nat) : Fld := ⟨A.cue2_PENDING w, 0, 32⟩
def F.cue2_ACTIVE_IDS (w : Nat) : Fld := ⟨A.cue2_ACTIVE w, 0, 32⟩

/-! ### cue3 (R586) -/
def F.cue3_DB_SET_BELLS (w : Nat) : Fld := ⟨A.cue3_DB_SET w, 0, 32⟩
def F.cue3_DB_CLR_BELLS (w : Nat) : Fld := ⟨A.cue3_DB_CLR w, 0, 32⟩

/-! ### vault (R608) -/
def F.vault_STATUS_PROV : Fld := ⟨A.vault_STATUS, 0, 2⟩
def F.vault_STATUS_ENROL : Fld := ⟨A.vault_STATUS, 2, 1⟩
def F.vault_STATUS_RETAIN_LOST : Fld := ⟨A.vault_STATUS, 3, 1⟩
def F.vault_STATUS_ENTROPY_OK : Fld := ⟨A.vault_STATUS, 4, 1⟩
def F.vault_STATUS_BUSY : Fld := ⟨A.vault_STATUS, 5, 1⟩
def F.vault_STATUS_DROPPED : Fld := ⟨A.vault_STATUS, 6, 1⟩
def F.vault_CMD_OP : Fld := ⟨A.vault_CMD, 0, 4⟩
def F.vault_CMD_SLOT : Fld := ⟨A.vault_CMD, 4, 5⟩
def F.vault_CMD_TSLOT : Fld := ⟨A.vault_CMD, 9, 5⟩
def F.vault_CMD_MSEL : Fld := ⟨A.vault_CMD, 14, 4⟩
def F.vault_CMD_KTYPE : Fld := ⟨A.vault_CMD, 18, 1⟩
def F.vault_CMD_RESULT : Fld := ⟨A.vault_CMD, 20, 4⟩
def F.vault_LEN_IN_LEN : Fld := ⟨A.vault_LEN, 0, 11⟩
def F.vault_LEN_AAD_LEN : Fld := ⟨A.vault_LEN, 16, 10⟩
def F.vault_OUT_LEN_BYTES : Fld := ⟨A.vault_OUT_LEN, 0, 11⟩
def F.vault_MEAS_LOCK_LOCK : Fld := ⟨A.vault_MEAS_LOCK, 0, 4⟩
def F.vault_SLOT_SEL_SLOT : Fld := ⟨A.vault_SLOT_SEL, 0, 5⟩
def F.vault_SLOT_INFO_VALID : Fld := ⟨A.vault_SLOT_INFO, 0, 1⟩
def F.vault_SLOT_INFO_KIND : Fld := ⟨A.vault_SLOT_INFO, 1, 1⟩
def F.vault_SLOT_INFO_GENERATED_INSIDE : Fld := ⟨A.vault_SLOT_INFO, 2, 1⟩
def F.vault_SLOT_INFO_NON_EXPORTABLE : Fld := ⟨A.vault_SLOT_INFO, 3, 1⟩
def F.vault_SLOT_INFO_DERIVED : Fld := ⟨A.vault_SLOT_INFO, 4, 1⟩
def F.vault_SLOT_INFO_MSEL : Fld := ⟨A.vault_SLOT_INFO, 5, 4⟩
def F.vault_SLOT_INFO_USE : Fld := ⟨A.vault_SLOT_INFO, 10, 6⟩
def F.vault_USE_NEXT_USE : Fld := ⟨A.vault_USE_NEXT, 0, 6⟩
def F.vault_TAMPER_CTL_MODE01 : Fld := ⟨A.vault_TAMPER_CTL, 0, 2⟩
def F.vault_TAMPER_CTL_MODE23 : Fld := ⟨A.vault_TAMPER_CTL, 2, 2⟩
def F.vault_TAMPER_CTL_LOCK : Fld := ⟨A.vault_TAMPER_CTL, 4, 1⟩
def F.vault_TAMPER_STAT_LIVE : Fld := ⟨A.vault_TAMPER_STAT, 0, 6⟩
def F.vault_TLOG_CTL_COUNT : Fld := ⟨A.vault_TLOG_CTL, 0, 3⟩
def F.vault_TLOG_CTL_OVERFLOW : Fld := ⟨A.vault_TLOG_CTL, 3, 1⟩
def F.vault_TLOG_CTL_CLEAR : Fld := ⟨A.vault_TLOG_CTL, 8, 1⟩
def F.vault_TLOG_CAUSE_SOURCES (i : Nat) : Fld := ⟨A.vault_TLOG_CAUSE i, 0, 6⟩
def F.vault_TLOG_TIME_VTIME (i : Nat) : Fld := ⟨A.vault_TLOG_TIME i, 0, 32⟩
def F.vault_VTIME_COUNT : Fld := ⟨A.vault_VTIME, 0, 32⟩
def F.vault_ENTROPY_HEALTH_FAILS : Fld := ⟨A.vault_ENTROPY, 0, 16⟩
def F.vault_MEAS_BYTES (m j : Nat) : Fld := ⟨A.vault_MEAS m j, 0, 32⟩
def F.vault_MEAS_COUNT_COUNT (m : Nat) : Fld := ⟨A.vault_MEAS_COUNT m, 0, 16⟩
def F.vault_IN_BYTES (w : Nat) : Fld := ⟨A.vault_IN w, 0, 32⟩
def F.vault_OUT_BYTES (w : Nat) : Fld := ⟨A.vault_OUT w, 0, 32⟩

/-! ### leat (R639) -/
def F.leat_CTL_EN (i : Nat) : Fld := ⟨A.leat_CTL i, 0, 1⟩
def F.leat_CTL_RETRAIN (i : Nat) : Fld := ⟨A.leat_CTL i, 1, 1⟩
def F.leat_CTL_SEC_MODE (i : Nat) : Fld := ⟨A.leat_CTL i, 2, 2⟩
def F.leat_STATUS_LSTATE (i : Nat) : Fld := ⟨A.leat_STATUS i, 0, 3⟩
def F.leat_STATUS_HOLD (i : Nat) : Fld := ⟨A.leat_STATUS i, 3, 3⟩
def F.leat_STATUS_PEER_ID (i : Nat) : Fld := ⟨A.leat_STATUS i, 6, 2⟩
def F.leat_STATUS_PEER_LEAT (i : Nat) : Fld := ⟨A.leat_STATUS i, 8, 1⟩
def F.leat_STATUS_PEER_ROLE (i : Nat) : Fld := ⟨A.leat_STATUS i, 9, 2⟩
def F.leat_STATUS_SYNC_SRC (i : Nat) : Fld := ⟨A.leat_STATUS i, 11, 1⟩
def F.leat_STATUS_SECURE (i : Nat) : Fld := ⟨A.leat_STATUS i, 12, 1⟩
def F.leat_STATUS_KEY_PHASE (i : Nat) : Fld := ⟨A.leat_STATUS i, 13, 1⟩
def F.leat_SEC_KEY_SLOT (i : Nat) : Fld := ⟨A.leat_SEC i, 0, 5⟩
def F.leat_SEC_NEXT_SLOT (i : Nat) : Fld := ⟨A.leat_SEC i, 5, 5⟩
def F.leat_SEC_ROLL (i : Nat) : Fld := ⟨A.leat_SEC i, 10, 1⟩
def F.leat_SEC_SEC_FAULT (i : Nat) : Fld := ⟨A.leat_SEC i, 11, 1⟩
def F.leat_DELAY_SIXTEENTHS (i : Nat) : Fld := ⟨A.leat_DELAY i, 0, 20⟩
def F.leat_CAP_TUNNEL (i : Nat) : Fld := ⟨A.leat_CAP i, 0, 16⟩
def F.leat_ERR_AUTH_FAIL (i : Nat) : Fld := ⟨A.leat_ERR i, 0, 16⟩
def F.leat_ERR_RX_DISCARD (i : Nat) : Fld := ⟨A.leat_ERR i, 16, 16⟩
def F.leat_MSG_CTL_TX_LEN (i : Nat) : Fld := ⟨A.leat_MSG_CTL i, 0, 10⟩
def F.leat_MSG_CTL_TX_GO (i : Nat) : Fld := ⟨A.leat_MSG_CTL i, 10, 1⟩
def F.leat_MSG_CTL_TX_BUSY (i : Nat) : Fld := ⟨A.leat_MSG_CTL i, 11, 1⟩
def F.leat_MSG_CTL_RX_LEN (i : Nat) : Fld := ⟨A.leat_MSG_CTL i, 16, 10⟩
def F.leat_MSG_CTL_RX_FULL (i : Nat) : Fld := ⟨A.leat_MSG_CTL i, 26, 1⟩
def F.leat_TX_MSG_BYTES (i w : Nat) : Fld := ⟨A.leat_TX_MSG i w, 0, 32⟩
def F.leat_RX_MSG_BYTES (i w : Nat) : Fld := ⟨A.leat_RX_MSG i w, 0, 32⟩

/-! ### fabric (R641) -/
def F.fabric_STRAP_ROLE : Fld := ⟨A.fabric_STRAP, 0, 2⟩
def F.fabric_STRAP_ID : Fld := ⟨A.fabric_STRAP, 2, 2⟩
def F.fabric_CTL_EN : Fld := ⟨A.fabric_CTL, 0, 1⟩
def F.fabric_CTL_REQUIRE_AUTH : Fld := ⟨A.fabric_CTL, 1, 1⟩
def F.fabric_CTL_QUAR_FORCE : Fld := ⟨A.fabric_CTL, 2, 1⟩
def F.fabric_STATE_ROLE_NOW : Fld := ⟨A.fabric_STATE, 0, 2⟩
def F.fabric_STATE_HEAD_ID : Fld := ⟨A.fabric_STATE, 2, 2⟩
def F.fabric_STATE_QUARANTINE : Fld := ⟨A.fabric_STATE, 4, 1⟩
def F.fabric_STATE_CAUSES : Fld := ⟨A.fabric_STATE, 5, 7⟩
def F.fabric_STATE_MEMBERS : Fld := ⟨A.fabric_STATE, 12, 4⟩
def F.fabric_STATE_QUAR_MAP : Fld := ⟨A.fabric_STATE, 16, 4⟩
def F.fabric_STATE_TOPO : Fld := ⟨A.fabric_STATE, 20, 2⟩
def F.fabric_GEN_COUNT : Fld := ⟨A.fabric_GEN, 0, 16⟩
def F.fabric_CFG_HASH_LO_HASH : Fld := ⟨A.fabric_CFG_HASH_LO, 0, 32⟩
def F.fabric_CFG_HASH_HI_HASH : Fld := ⟨A.fabric_CFG_HASH_HI, 0, 32⟩
def F.fabric_FW_VER_MINOR : Fld := ⟨A.fabric_FW_VER, 0, 16⟩
def F.fabric_FW_VER_MAJOR : Fld := ⟨A.fabric_FW_VER, 16, 16⟩
def F.fabric_FEATURES_BITS : Fld := ⟨A.fabric_FEATURES, 0, 32⟩
def F.fabric_FEAT_AGREED_BITS : Fld := ⟨A.fabric_FEAT_AGREED, 0, 32⟩
def F.fabric_HASH_GRACE_MS : Fld := ⟨A.fabric_HASH_GRACE, 0, 16⟩
def F.fabric_OFFSET_TICKS : Fld := ⟨A.fabric_OFFSET, 0, 16⟩
def F.fabric_OFFSET_STEPS : Fld := ⟨A.fabric_OFFSET, 16, 16⟩
def F.fabric_ROUTE_NEXT (h : Nat) : Fld := ⟨A.fabric_ROUTE, 0 + 2 * h, 2⟩
def F.fabric_ROUTE_HOPS (h : Nat) : Fld := ⟨A.fabric_ROUTE, 8 + 2 * h, 2⟩
def F.fabric_CONFLICT_COUNT : Fld := ⟨A.fabric_CONFLICT, 0, 16⟩
def F.fabric_CONFLICT_TABLE : Fld := ⟨A.fabric_CONFLICT, 16, 2⟩
def F.fabric_QUAR_COUNT_COUNT : Fld := ⟨A.fabric_QUAR_COUNT, 0, 16⟩

/-! ### chip (R664) -/
def F.chip_VARIANT_CODE : Fld := ⟨A.chip_VARIANT, 0, 8⟩
def F.chip_RESET_CAUSE_CAUSE : Fld := ⟨A.chip_RESET_CAUSE, 0, 7⟩
def F.chip_BOOT_STAT_MODE : Fld := ⟨A.chip_BOOT_STAT, 0, 2⟩
def F.chip_BOOT_STAT_COPY : Fld := ⟨A.chip_BOOT_STAT, 2, 1⟩
def F.chip_BOOT_STAT_KEY : Fld := ⟨A.chip_BOOT_STAT, 3, 1⟩
def F.chip_BOOT_STAT_FAIL : Fld := ⟨A.chip_BOOT_STAT, 4, 4⟩
def F.chip_BOOT_TIME_MS : Fld := ⟨A.chip_BOOT_TIME, 0, 16⟩
def F.chip_FW_VER_VERSION : Fld := ⟨A.chip_FW_VER, 0, 32⟩
def F.chip_SVN_IMAGE : Fld := ⟨A.chip_SVN, 0, 16⟩
def F.chip_SVN_MIN : Fld := ⟨A.chip_SVN, 16, 16⟩
def F.chip_SOFT_RESET_KEY : Fld := ⟨A.chip_SOFT_RESET, 0, 16⟩
def F.chip_WDT_CTL_EN : Fld := ⟨A.chip_WDT_CTL, 0, 1⟩
def F.chip_WDT_CTL_TIMEOUT_MS : Fld := ⟨A.chip_WDT_CTL, 16, 16⟩
def F.chip_WDT_KICK_KEY : Fld := ⟨A.chip_WDT_KICK, 0, 16⟩
def F.chip_WDT_LEFT_MS : Fld := ⟨A.chip_WDT_LEFT, 0, 16⟩
def F.chip_WDT_LEFT_WARNED : Fld := ⟨A.chip_WDT_LEFT, 16, 1⟩

/-! ### miller (R665) -/
def F.miller_CTL_RUN (c : Nat) : Fld := ⟨A.miller_CTL c, 0, 1⟩
def F.miller_CTL_CORE_RESET (c : Nat) : Fld := ⟨A.miller_CTL c, 1, 1⟩
def F.miller_ENTRY_LO_ADDR (c : Nat) : Fld := ⟨A.miller_ENTRY_LO c, 0, 32⟩
def F.miller_ENTRY_HI_ADDR (c : Nat) : Fld := ⟨A.miller_ENTRY_HI c, 0, 32⟩
def F.miller_STATUS_STATE (c : Nat) : Fld := ⟨A.miller_STATUS c, 0, 2⟩
def F.miller_LOAD_CTL_START : Fld := ⟨A.miller_LOAD_CTL, 0, 1⟩
def F.miller_LOAD_CTL_DONE : Fld := ⟨A.miller_LOAD_CTL, 1, 1⟩
def F.miller_LOAD_CTL_BUSY : Fld := ⟨A.miller_LOAD_CTL, 2, 1⟩
def F.miller_LOAD_CTL_RESULT : Fld := ⟨A.miller_LOAD_CTL, 4, 4⟩
def F.miller_LOAD_DATA_BYTES : Fld := ⟨A.miller_LOAD_DATA, 0, 32⟩
def F.miller_LOAD_COUNT_BYTES : Fld := ⟨A.miller_LOAD_COUNT, 0, 23⟩

/-! ### bist (R666) -/
def F.bist_CMD_TYPE : Fld := ⟨A.bist_CMD, 0, 2⟩
def F.bist_CMD_GO : Fld := ⟨A.bist_CMD, 2, 1⟩
def F.bist_CMD_BUSY : Fld := ⟨A.bist_CMD, 3, 1⟩
def F.bist_CMD_ABORT : Fld := ⟨A.bist_CMD, 4, 1⟩
def F.bist_DOMAINS_LO_SEL : Fld := ⟨A.bist_DOMAINS_LO, 0, 32⟩
def F.bist_DOMAINS_HI_SEL : Fld := ⟨A.bist_DOMAINS_HI, 0, 11⟩
def F.bist_REFUSE_DOMAIN : Fld := ⟨A.bist_REFUSE, 0, 6⟩
def F.bist_REFUSE_CAUSE : Fld := ⟨A.bist_REFUSE, 6, 3⟩
def F.bist_RES_SEL_DOMAIN : Fld := ⟨A.bist_RES_SEL, 0, 6⟩
def F.bist_RESULT_DONE : Fld := ⟨A.bist_RESULT, 0, 1⟩
def F.bist_RESULT_PASS : Fld := ⟨A.bist_RESULT, 1, 1⟩
def F.bist_RESULT_ABORTED : Fld := ⟨A.bist_RESULT, 2, 1⟩
def F.bist_RESULT_TYPE : Fld := ⟨A.bist_RESULT, 3, 2⟩
def F.bist_RESULT_TIME_MS : Fld := ⟨A.bist_RESULT, 16, 16⟩
def F.bist_MISR_LO_SIG : Fld := ⟨A.bist_MISR_LO, 0, 32⟩
def F.bist_MISR_HI_SIG : Fld := ⟨A.bist_MISR_HI, 0, 32⟩
def F.bist_GOLDEN_LO_SIG : Fld := ⟨A.bist_GOLDEN_LO, 0, 32⟩
def F.bist_GOLDEN_HI_SIG : Fld := ⟨A.bist_GOLDEN_HI, 0, 32⟩

/-! ### misc (R682) -/
def F.misc_GPIO_OUT_OUT : Fld := ⟨A.misc_GPIO_OUT, 0, 32⟩
def F.misc_GPIO_OE_OE : Fld := ⟨A.misc_GPIO_OE, 0, 32⟩
def F.misc_GPIO_IN_IN : Fld := ⟨A.misc_GPIO_IN, 0, 32⟩
def F.misc_GPIO_POL_INV : Fld := ⟨A.misc_GPIO_POL, 0, 32⟩
def F.misc_GPIO_EDGE_EN_EN : Fld := ⟨A.misc_GPIO_EDGE_EN, 0, 32⟩
def F.misc_GPIO_EDGE_SEEN : Fld := ⟨A.misc_GPIO_EDGE, 0, 32⟩
def F.misc_BUS_CTL_EN (n : Nat) : Fld := ⟨A.misc_BUS_CTL n, 0, 1⟩
def F.misc_BUS_CTL_I3C (n : Nat) : Fld := ⟨A.misc_BUS_CTL n, 1, 1⟩
def F.misc_BUS_CTL_SPEED (n : Nat) : Fld := ⟨A.misc_BUS_CTL n, 2, 2⟩
def F.misc_BUS_CMD_ADDR (n : Nat) : Fld := ⟨A.misc_BUS_CMD n, 0, 7⟩
def F.misc_BUS_CMD_READ (n : Nat) : Fld := ⟨A.misc_BUS_CMD n, 7, 1⟩
def F.misc_BUS_CMD_LEN (n : Nat) : Fld := ⟨A.misc_BUS_CMD n, 8, 5⟩
def F.misc_BUS_CMD_GO (n : Nat) : Fld := ⟨A.misc_BUS_CMD n, 13, 1⟩
def F.misc_BUS_STAT_DONE (n : Nat) : Fld := ⟨A.misc_BUS_STAT n, 0, 1⟩
def F.misc_BUS_STAT_NACK (n : Nat) : Fld := ⟨A.misc_BUS_STAT n, 1, 1⟩
def F.misc_BUS_STAT_PREEMPTED (n : Nat) : Fld := ⟨A.misc_BUS_STAT n, 2, 1⟩
def F.misc_BUS_STAT_LEVEL (n : Nat) : Fld := ⟨A.misc_BUS_STAT n, 3, 5⟩
def F.misc_BUS_TX_BYTE (n : Nat) : Fld := ⟨A.misc_BUS_TX n, 0, 8⟩
def F.misc_SPI_CTL_EN : Fld := ⟨A.misc_SPI_CTL, 0, 1⟩
def F.misc_SPI_CTL_WIDTH : Fld := ⟨A.misc_SPI_CTL, 1, 2⟩
def F.misc_SPI_CTL_DIV : Fld := ⟨A.misc_SPI_CTL, 3, 8⟩
def F.misc_SPI_CMD_OPCODE : Fld := ⟨A.misc_SPI_CMD, 0, 8⟩
def F.misc_SPI_CMD_ADDR_EN : Fld := ⟨A.misc_SPI_CMD, 8, 1⟩
def F.misc_SPI_CMD_READ : Fld := ⟨A.misc_SPI_CMD, 9, 1⟩
def F.misc_SPI_CMD_LEN : Fld := ⟨A.misc_SPI_CMD, 10, 9⟩
def F.misc_SPI_CMD_GO : Fld := ⟨A.misc_SPI_CMD, 19, 1⟩
def F.misc_SPI_ADDR_ADDR : Fld := ⟨A.misc_SPI_ADDR, 0, 32⟩
def F.misc_SPI_TX_BYTES : Fld := ⟨A.misc_SPI_TX, 0, 32⟩
def F.misc_UART_CTL_EN : Fld := ⟨A.misc_UART_CTL, 0, 1⟩
def F.misc_UART_CTL_DIV : Fld := ⟨A.misc_UART_CTL, 16, 16⟩
def F.misc_UART_STAT_TX_FULL : Fld := ⟨A.misc_UART_STAT, 0, 1⟩
def F.misc_UART_STAT_RX_EMPTY : Fld := ⟨A.misc_UART_STAT, 1, 1⟩
def F.misc_UART_STAT_OVERRUN : Fld := ⟨A.misc_UART_STAT, 2, 1⟩
def F.misc_UART_TX_BYTE : Fld := ⟨A.misc_UART_TX, 0, 8⟩
def F.misc_BMC_TGT_ADDR : Fld := ⟨A.misc_BMC_TGT, 0, 7⟩
def F.misc_BUS_RX_BYTE (n : Nat) : Fld := ⟨A.misc_BUS_RX n, 0, 8⟩
def F.misc_SPI_RX_BYTES : Fld := ⟨A.misc_SPI_RX, 0, 32⟩
def F.misc_UART_RX_BYTE : Fld := ⟨A.misc_UART_RX, 0, 8⟩

/-! ## Page bases (R35) -/
def Page.chip : Nat := 0x0
def Page.pwr : Nat := 0x1000
def Page.clk : Nat := 0x2000
def Page.cue0 : Nat := 0x3000
def Page.cue1 : Nat := 0x4000
def Page.cue2 : Nat := 0x5000
def Page.cue3 : Nat := 0x6000
def Page.pstk : Nat := 0x8000
def Page.tally : Nat := 0x9000
def Page.vault : Nat := 0xA000
def Page.bist : Nat := 0xB000
def Page.miller : Nat := 0xC000
def Page.typec (i : Nat) : Nat := 0x10000 + 0x1000 * i
def Page.link (i : Nat) : Nat := 0x20000 + 0x1000 * i
def Page.weir (i : Nat) : Nat := 0x30000 + 0x1000 * i
def Page.mill : Nat := 0x40000
def Page.hopper : Nat := 0x41000
def Page.sluice : Nat := 0x50000
def Page.gate (i : Nat) : Nat := 0x60000 + 0x1000 * i
def Page.proj (i : Nat) : Nat := 0x68000 + 0x1000 * i
def Page.dpo (i : Nat) : Nat := 0x6C000 + 0x1000 * i
def Page.reel : Nat := 0x70000
def Page.slice (i : Nat) : Nat := 0x80000 + 0x1000 * i
def Page.usbhub (i : Nat) : Nat := 0x88000 + 0x1000 * i
def Page.dockfn (i : Nat) : Nat := 0x8C000 + 0x1000 * i
def Page.tailrace : Nat := 0x90000
def Page.ethmac (i : Nat) : Nat := 0x91000 + 0x1000 * i
def Page.pciedn (i : Nat) : Nat := 0x98000 + 0x1000 * i
def Page.leat (i : Nat) : Nat := 0xA0000 + 0x1000 * i
def Page.fabric : Nat := 0xA4000
def Page.aud : Nat := 0xA8000
def Page.misc : Nat := 0xB0000
def Page.sluiceOut (i : Nat) : Nat := 0xC0000 + 0x1000 * i
def Page.path : Nat := 0x100000
def Page.stats : Nat := 0x110000
def Page.mcast : Nat := 0x120000
def Page.wred : Nat := 0x121000
def Page.policer : Nat := 0x122000
def Page.tallyTab : Nat := 0x130000
/-- The BAR0 of NIC s (R343): a host's own window of 4 KiB, held beside the register window. -/
def Page.nic (i : Nat) : Nat := 0x2000000 + 0x1000 * i
def Page.msix (i : Nat) : Nat := 0x2100000 + 0x10000 * i

end Sys2Proof.Machine
end

