-- ==== Sys2Proof/Machine/Rows.lean ====
section
/-! DEFINITION. The rows of the spec's register tables, in the order of the tables: offset, count, stride, lowest bit,
width, access type, retention class, reset value, shadowed. A field that no row covers is reserved (R16). A reset value
that the tables give by unit, from OTP or from the balls stands in Machine/Operands.lean (specialReset). -/

namespace Sys2Proof.Machine

def rowsHdr0 : List Row := [
  ⟨0, 1, 4, 16, 16, .ro, .a, 0, false⟩,
  ⟨0, 1, 4, 8, 8, .ro, .a, 0, false⟩,
  ⟨0, 1, 4, 0, 8, .ro, .a, 1, false⟩,
  ⟨4, 1, 4, 0, 1, .ro, .a, 0, false⟩,
  ⟨4, 1, 4, 1, 1, .ro, .a, 0, false⟩,
  ⟨4, 1, 4, 2, 1, .ro, .a, 0, false⟩,
  ⟨4, 1, 4, 4, 4, .ro, .a, 0, false⟩,
  ⟨4, 1, 4, 16, 16, .ro, .a, 0, false⟩,
  ⟨8, 1, 4, 0, 1, .rw, .s, 1, false⟩,
  ⟨8, 1, 4, 1, 1, .rw, .s, 0, false⟩,
  ⟨8, 1, 4, 2, 1, .rw, .s, 0, false⟩,
  ⟨8, 1, 4, 8, 16, .rw, .s, 0x40, false⟩,
  ⟨0xC, 1, 4, 0, 2, .ro, .n, 0, false⟩,
  ⟨0xC, 1, 4, 2, 1, .ro, .n, 0, false⟩,
  ⟨0x10, 1, 4, 0, 32, .w1c, .n, 0, false⟩,
  ⟨0x14, 1, 4, 0, 32, .rw, .n, 0, false⟩,
  ⟨0x18, 1, 4, 0, 32, .wo, .n, 0, false⟩,
  ⟨0x1C, 1, 4, 0, 4, .ro, .n, 0, false⟩,
  ⟨0x20, 1, 4, 0, 1, .w1s, .n, 0, false⟩,
  ⟨0x20, 1, 4, 1, 1, .rw, .n, 0, false⟩,
  ⟨0x24, 1, 4, 0, 1, .w1s, .n, 0, false⟩,
  ⟨0x28, 1, 4, 0, 4, .rwf, .s, 0, false⟩,
  ⟨0x28, 1, 4, 4, 1, .rwf, .s, 1, false⟩,
  ⟨0x28, 1, 4, 5, 1, .rwf, .s, 0, false⟩]
def rowsHdr1 : List Row := [
  ⟨0x28, 1, 4, 8, 1, .ro, .s, 0, false⟩,
  ⟨0x2C, 1, 4, 0, 1, .rw, .s, 0, false⟩,
  ⟨0x2C, 1, 4, 1, 1, .w1s, .n, 0, false⟩,
  ⟨0x2C, 1, 4, 2, 1, .ro, .n, 0, false⟩]
/-- The fields of R39. -/
def rowsHdr : List Row := rowsHdr0 ++ rowsHdr1
def rowsSlice0 : List Row := [
  ⟨0x40, 1, 4, 0, 3, .ro, .n, 0, false⟩,
  ⟨0x40, 1, 4, 3, 1, .ro, .n, 0, false⟩,
  ⟨0x44, 1, 4, 0, 16, .ro, .s, 0, false⟩,
  ⟨0x48, 1, 4, 0, 16, .rwf, .s, 0, false⟩,
  ⟨0x4C, 1, 4, 0, 16, .ro, .s, 0, false⟩,
  ⟨0x50, 1, 4, 0, 16, .rwf, .s, 0, false⟩,
  ⟨0x54, 1, 4, 0, 7, .rwf, .s, 0x14, false⟩,
  ⟨0x58, 1, 4, 0, 5, .rwf, .s, 0, false⟩,
  ⟨0x58, 1, 4, 8, 5, .rwf, .s, 0, false⟩,
  ⟨0x58, 1, 4, 16, 5, .rwf, .s, 0, false⟩,
  ⟨0x58, 1, 4, 24, 5, .rwf, .s, 0, false⟩,
  ⟨0x58, 1, 4, 7, 1, .ro, .s, 0, false⟩,
  ⟨0x58, 1, 4, 15, 1, .ro, .s, 0, false⟩,
  ⟨0x58, 1, 4, 23, 1, .ro, .s, 0, false⟩,
  ⟨0x58, 1, 4, 31, 1, .ro, .s, 0, false⟩,
  ⟨0x5C, 1, 4, 0, 3, .rwf, .s, 0, false⟩,
  ⟨0x5C, 1, 4, 4, 3, .rwf, .s, 0, false⟩,
  ⟨0x5C, 1, 4, 3, 1, .ro, .s, 0, false⟩,
  ⟨0x5C, 1, 4, 7, 1, .ro, .s, 0, false⟩,
  ⟨0x60, 1, 4, 0, 11, .rwf, .s, 0x100, false⟩,
  ⟨0x60, 1, 4, 16, 11, .ro, .l, 0, false⟩,
  ⟨0x64, 1, 4, 0, 8, .rwf, .s, 0x10, false⟩,
  ⟨0x68, 1, 4, 0, 3, .rwf, .s, 0, false⟩,
  ⟨0x68, 1, 4, 3, 3, .rwf, .s, 1, false⟩]
def rowsSlice1 : List Row := [
  ⟨0x68, 1, 4, 6, 3, .rwf, .s, 2, false⟩,
  ⟨0x68, 1, 4, 9, 3, .rwf, .s, 3, false⟩,
  ⟨0x68, 1, 4, 12, 3, .rwf, .s, 4, false⟩,
  ⟨0x68, 1, 4, 15, 3, .rwf, .s, 5, false⟩,
  ⟨0x68, 1, 4, 18, 3, .rwf, .s, 6, false⟩,
  ⟨0x68, 1, 4, 21, 3, .rwf, .s, 7, false⟩,
  ⟨0x6C, 1, 4, 0, 1, .rwf, .n, 0, false⟩,
  ⟨0x70, 1, 4, 0, 4, .w1c, .s, 0, false⟩,
  ⟨0x74, 1, 4, 0, 20, .ro, .s, 0, false⟩,
  ⟨0x78, 1, 4, 0, 16, .ro, .l, 0, false⟩]
/-- The fields of R105. -/
def rowsSlice : List Row := rowsSlice0 ++ rowsSlice1
def rowsLink0 : List Row := [
  ⟨0x40, 1, 4, 0, 4, .ro, .n, 0, false⟩,
  ⟨0x40, 1, 4, 4, 3, .ro, .n, 0, false⟩,
  ⟨0x40, 1, 4, 8, 2, .ro, .s, 0, false⟩,
  ⟨0x44, 1, 4, 0, 16, .ro, .n, 0, false⟩,
  ⟨0x44, 1, 4, 16, 16, .ro, .n, 0, false⟩,
  ⟨0x48, 1, 4, 0, 2, .rw, .s, 2, false⟩,
  ⟨0x48, 1, 4, 2, 1, .rw, .s, 1, false⟩,
  ⟨0x48, 1, 4, 3, 1, .rw, .s, 1, false⟩,
  ⟨0x48, 1, 4, 4, 1, .rw, .s, 1, false⟩,
  ⟨0x48, 1, 4, 5, 1, .rw, .s, 1, false⟩,
  ⟨0x48, 1, 4, 6, 1, .rw, .s, 1, false⟩,
  ⟨0x48, 1, 4, 7, 1, .w1s, .n, 0, false⟩,
  ⟨0x4C, 1, 4, 0, 16, .ro, .n, 0, false⟩,
  ⟨0x50, 1, 4, 0, 32, .ro, .n, 0, false⟩,
  ⟨0x54, 1, 4, 0, 8, .ro, .n, 0, false⟩,
  ⟨0x58, 1, 4, 0, 16, .ro, .n, 0, false⟩,
  ⟨0x58, 1, 4, 16, 16, .ro, .n, 0, false⟩]
/-- The fields of R108. -/
def rowsLink : List Row := rowsLink0
def rowsPath0 : List Row := [
  ⟨0, 1024, 0x40, 0, 1, .rwf, .n, 0, false⟩,
  ⟨0, 1024, 0x40, 1, 1, .rwf, .n, 0, false⟩,
  ⟨0, 1024, 0x40, 2, 1, .rwf, .n, 0, false⟩,
  ⟨0, 1024, 0x40, 3, 1, .rwf, .n, 0, false⟩,
  ⟨0, 1024, 0x40, 4, 1, .rwf, .n, 0, false⟩,
  ⟨0, 1024, 0x40, 5, 1, .ro, .n, 0, false⟩,
  ⟨0, 1024, 0x40, 6, 2, .rwf, .n, 0, false⟩,
  ⟨0, 1024, 0x40, 8, 3, .rwf, .n, 0, false⟩,
  ⟨0, 1024, 0x40, 12, 3, .rwf, .n, 0, false⟩,
  ⟨0, 1024, 0x40, 16, 5, .rwf, .n, 0, false⟩,
  ⟨0, 1024, 0x40, 21, 11, .rwf, .n, 0, false⟩,
  ⟨4, 1024, 0x40, 0, 5, .rwf, .n, 0, false⟩,
  ⟨4, 1024, 0x40, 5, 11, .rwf, .n, 0, false⟩,
  ⟨4, 1024, 0x40, 16, 8, .rwf, .n, 0, false⟩,
  ⟨4, 1024, 0x40, 24, 6, .rwf, .n, 0, false⟩,
  ⟨8, 1024, 0x40, 0, 12, .rwf, .n, 0, false⟩,
  ⟨8, 1024, 0x40, 12, 4, .rwf, .n, 0, false⟩,
  ⟨8, 1024, 0x40, 16, 16, .rwf, .n, 0, false⟩,
  ⟨0xC, 1024, 0x40, 0, 24, .rwf, .n, 0, false⟩,
  ⟨0x10, 1024, 0x40, 0, 24, .rwf, .n, 0, false⟩,
  ⟨0x14, 1024, 0x40, 0, 24, .rwf, .n, 0, false⟩,
  ⟨0x18, 1024, 0x40, 0, 24, .rwf, .n, 0, false⟩,
  ⟨0x1C, 1024, 0x40, 0, 12, .rwf, .n, 0, false⟩,
  ⟨0x30, 1024, 0x40, 0, 24, .ro, .n, 0, false⟩]
def rowsPath1 : List Row := [
  ⟨0x34, 1024, 0x40, 0, 24, .ro, .n, 0, false⟩,
  ⟨0x38, 1024, 0x40, 0, 17, .ro, .n, 0, false⟩,
  ⟨0x3C, 1024, 0x40, 0, 12, .ro, .n, 0, false⟩]
/-- The fields of R122. -/
def rowsPath : List Row := rowsPath0 ++ rowsPath1
def rowsMcast0 : List Row := [
  ⟨0, 256, 0x10, 0, 32, .rwf, .n, 0, false⟩,
  ⟨4, 256, 0x10, 0, 32, .rwf, .n, 0, false⟩,
  ⟨8, 256, 0x10, 0, 11, .rwf, .n, 0, false⟩,
  ⟨8, 256, 0x10, 16, 5, .ro, .n, 0, false⟩,
  ⟨8, 256, 0x10, 21, 1, .ro, .n, 0, false⟩,
  ⟨0xC, 256, 0x10, 0, 32, .ro, .n, 0, false⟩]
/-- The fields of R141. -/
def rowsMcast : List Row := rowsMcast0
def rowsStats0 : List Row := [
  ⟨0, 1024, 0x40, 0, 32, .rwf, .n, 0, false⟩,
  ⟨4, 1024, 0x40, 0, 8, .rwf, .n, 0, false⟩,
  ⟨8, 1024, 0x40, 0, 32, .rwf, .n, 0, false⟩,
  ⟨0xC, 1024, 0x40, 0, 8, .rwf, .n, 0, false⟩,
  ⟨0x10, 1024, 0x40, 0, 32, .rwf, .n, 0, false⟩,
  ⟨0x14, 1024, 0x40, 0, 8, .rwf, .n, 0, false⟩,
  ⟨0x18, 1024, 0x40, 0, 32, .rwf, .n, 0, false⟩,
  ⟨0x1C, 1024, 0x40, 0, 8, .rwf, .n, 0, false⟩,
  ⟨0x20, 1024, 0x40, 0, 32, .rwf, .n, 0, false⟩,
  ⟨0x24, 1024, 0x40, 0, 8, .rwf, .n, 0, false⟩,
  ⟨0x28, 1024, 0x40, 0, 32, .rwf, .n, 0, false⟩,
  ⟨0x2C, 1024, 0x40, 0, 8, .rwf, .n, 0, false⟩,
  ⟨0x30, 1024, 0x40, 0, 32, .rwf, .n, 0, false⟩,
  ⟨0x34, 1024, 0x40, 0, 8, .rwf, .n, 0, false⟩]
/-- The fields of R154. -/
def rowsStats : List Row := rowsStats0
def rowsMill0 : List Row := [
  ⟨0x40, 1, 4, 0, 1, .rw, .s, 1, false⟩,
  ⟨0x44, 1, 4, 0, 12, .rwf, .s, 0x40, false⟩,
  ⟨0x48, 1, 4, 0, 5, .rw, .n, 0, false⟩,
  ⟨0x4C, 1, 4, 0, 17, .ro, .n, 0, false⟩,
  ⟨0x50, 1, 4, 0, 32, .ro, .n, 0, false⟩,
  ⟨0x54, 1, 4, 0, 5, .ro, .n, 0, false⟩,
  ⟨0x54, 1, 4, 5, 11, .ro, .n, 0, false⟩,
  ⟨0x58, 1, 4, 0, 32, .ro, .n, 0, false⟩,
  ⟨0x5C, 1, 4, 0, 10, .ro, .n, 0, false⟩,
  ⟨0x60, 1, 4, 0, 32, .ro, .n, 0, false⟩,
  ⟨0x64, 1, 4, 0, 32, .ro, .n, 0, false⟩,
  ⟨0x68, 1, 4, 0, 17, .ro, .n, 0, false⟩,
  ⟨0x6C, 1, 4, 0, 17, .ro, .n, 0, false⟩,
  ⟨0x100, 24, 8, 0, 32, .rwf, .n, 0, false⟩,
  ⟨0x104, 24, 8, 0, 8, .rwf, .n, 0, false⟩,
  ⟨0xF00, 1, 4, 0, 17, .rc, .n, 0, false⟩]
/-- The fields of R155. -/
def rowsMill : List Row := rowsMill0
def rowsHopper0 : List Row := [
  ⟨0x40, 1, 4, 0, 8, .rwf, .s, 0xFF, false⟩,
  ⟨0x40, 1, 4, 8, 8, .ro, .n, 0xFF, false⟩,
  ⟨0x40, 1, 4, 16, 8, .ro, .n, 0, false⟩,
  ⟨0x44, 1, 4, 0, 17, .ro, .n, 0, false⟩,
  ⟨0x48, 1, 4, 0, 17, .ro, .n, 0x18000, false⟩,
  ⟨0x4C, 1, 4, 0, 17, .ro, .n, 0, false⟩,
  ⟨0x50, 1, 4, 0, 17, .ro, .n, 0, false⟩,
  ⟨0x54, 1, 4, 0, 17, .rw, .s, 0x10000, false⟩,
  ⟨0x58, 1, 4, 0, 17, .rw, .s, 0x2000, false⟩,
  ⟨0x5C, 1, 4, 0, 32, .ro, .n, 0, false⟩,
  ⟨0x60, 1, 4, 0, 32, .ro, .n, 0, false⟩,
  ⟨0x64, 1, 4, 0, 8, .ro, .n, 0, false⟩,
  ⟨0x68, 1, 4, 0, 32, .ro, .n, 0, false⟩,
  ⟨0x6C, 1, 4, 0, 17, .ro, .n, 0, false⟩,
  ⟨0x6C, 1, 4, 17, 2, .ro, .n, 0, false⟩,
  ⟨0x6C, 1, 4, 19, 3, .ro, .n, 0, false⟩,
  ⟨0x6C, 1, 4, 22, 1, .ro, .n, 0, false⟩,
  ⟨0x70, 1, 4, 0, 16, .ro, .n, 0, false⟩,
  ⟨0x74, 1, 4, 0, 1, .w1s, .n, 0, false⟩,
  ⟨0x74, 1, 4, 1, 1, .rw, .s, 1, false⟩,
  ⟨0x74, 1, 4, 2, 1, .ro, .n, 0, false⟩,
  ⟨0x78, 1, 4, 0, 17, .ro, .n, 0, false⟩,
  ⟨0x7C, 1, 4, 0, 16, .rw, .s, 0x3E8, false⟩,
  ⟨0x80, 1, 4, 0, 1, .w1s, .n, 0, false⟩]
def rowsHopper1 : List Row := [
  ⟨0x80, 1, 4, 1, 1, .w1s, .n, 0, false⟩,
  ⟨0x80, 1, 4, 2, 1, .w1s, .n, 0, false⟩,
  ⟨0xF00, 1, 4, 0, 17, .rc, .n, 0x18000, false⟩]
/-- The fields of R157. -/
def rowsHopper : List Row := rowsHopper0 ++ rowsHopper1
def rowsSluice0 : List Row := [
  ⟨0x40, 1, 4, 0, 1, .rw, .s, 1, false⟩,
  ⟨0x40, 1, 4, 1, 1, .rw, .s, 1, true⟩,
  ⟨0x40, 1, 4, 2, 1, .rw, .s, 1, true⟩,
  ⟨0x44, 1, 4, 0, 13, .rw, .s, 0, false⟩,
  ⟨0x48, 1, 4, 0, 13, .ro, .n, 0, false⟩,
  ⟨0x4C, 1, 4, 0, 32, .ro, .n, 0, false⟩,
  ⟨0x50, 1, 4, 0, 8, .ro, .n, 0, false⟩,
  ⟨0x54, 1, 4, 0, 24, .rw, .s, 0x400, true⟩,
  ⟨0x58, 1, 4, 0, 4, .rw, .s, 1, true⟩,
  ⟨0x58, 1, 4, 4, 4, .rw, .s, 1, true⟩,
  ⟨0x5C, 1, 4, 0, 24, .rw, .s, 0x1000, true⟩,
  ⟨0x60, 1, 4, 0, 17, .rw, .s, 0x11E1A, true⟩,
  ⟨0x64, 1, 4, 0, 24, .ro, .n, 0, false⟩,
  ⟨0x68, 1, 4, 0, 24, .ro, .n, 0, false⟩,
  ⟨0x6C, 1, 4, 0, 1, .ro, .n, 0, false⟩,
  ⟨0x6C, 1, 4, 1, 1, .ro, .n, 0, false⟩,
  ⟨0x70, 1, 4, 0, 13, .ro, .n, 0, false⟩,
  ⟨0x74, 1, 4, 0, 32, .ro, .n, 0, false⟩,
  ⟨0x78, 1, 4, 0, 24, .rw, .s, 0x800, false⟩,
  ⟨0x7C, 1, 4, 0, 10, .rw, .n, 0, false⟩,
  ⟨0x80, 1, 4, 0, 1, .ro, .n, 0, false⟩,
  ⟨0x80, 1, 4, 1, 1, .ro, .n, 0, false⟩,
  ⟨0x80, 1, 4, 2, 1, .ro, .n, 0, false⟩,
  ⟨0x80, 1, 4, 3, 1, .ro, .n, 0, false⟩]
def rowsSluice1 : List Row := [
  ⟨0x80, 1, 4, 8, 7, .ro, .n, 0x42, false⟩,
  ⟨0x84, 1, 4, 0, 24, .ro, .n, 0, false⟩,
  ⟨0x88, 1, 4, 0, 24, .ro, .n, 0, false⟩,
  ⟨0x100, 24, 4, 0, 16, .ro, .n, 0, false⟩,
  ⟨0x100, 24, 4, 16, 16, .ro, .n, 0, false⟩,
  ⟨0x180, 24, 4, 0, 16, .rw, .s, 0, true⟩,
  ⟨0x180, 24, 4, 16, 16, .rw, .s, 0, true⟩,
  ⟨0xF00, 1, 4, 0, 13, .rc, .n, 0, false⟩]
/-- The fields of R189. -/
def rowsSluice : List Row := rowsSluice0 ++ rowsSluice1
def rowsSluiceOut0 : List Row := [
  ⟨0x40, 1, 4, 0, 24, .rw, .s, 0x8000, true⟩,
  ⟨0x44, 1, 4, 0, 16, .rw, .s, 0x20, true⟩,
  ⟨0x48, 1, 4, 0, 24, .rw, .s, 0, true⟩,
  ⟨0x4C, 1, 4, 0, 16, .rw, .s, 0, true⟩,
  ⟨0x50, 1, 4, 0, 12, .rw, .s, 0x400, true⟩,
  ⟨0x50, 1, 4, 16, 12, .rw, .s, 0x400, true⟩,
  ⟨0x54, 1, 4, 0, 12, .rw, .s, 0x200, true⟩,
  ⟨0x54, 1, 4, 16, 12, .rw, .s, 0x100, true⟩,
  ⟨0x58, 1, 4, 0, 12, .rw, .s, 0x80, true⟩,
  ⟨0x58, 1, 4, 16, 12, .rw, .s, 0x10, true⟩,
  ⟨0x5C, 1, 4, 0, 8, .rw, .s, 0x10, true⟩,
  ⟨0x60, 1, 4, 0, 16, .ro, .n, 0, false⟩,
  ⟨0x60, 1, 4, 16, 16, .ro, .n, 0, false⟩,
  ⟨0x64, 1, 4, 0, 4, .rw, .n, 0, false⟩,
  ⟨0x68, 1, 4, 0, 32, .ro, .n, 0, false⟩,
  ⟨0x6C, 1, 4, 0, 8, .ro, .n, 0, false⟩,
  ⟨0x70, 8, 4, 0, 17, .ro, .n, 0, false⟩,
  ⟨0x94, 15, 4, 0, 25, .ro, .n, 0, false⟩,
  ⟨0x100, 1, 4, 0, 32, .ro, .n, 0, false⟩,
  ⟨0x104, 1, 4, 0, 8, .ro, .n, 0, false⟩,
  ⟨0x108, 1, 4, 0, 32, .ro, .n, 0, false⟩,
  ⟨0x10C, 1, 4, 0, 8, .ro, .n, 0, false⟩,
  ⟨0x110, 1, 4, 0, 32, .ro, .n, 0, false⟩,
  ⟨0x114, 1, 4, 0, 8, .ro, .n, 0, false⟩]
def rowsSluiceOut1 : List Row := [
  ⟨0xF00, 1, 4, 0, 17, .rc, .n, 0, false⟩]
/-- The fields of R225. -/
def rowsSluiceOut : List Row := rowsSluiceOut0 ++ rowsSluiceOut1
def rowsPolicer0 : List Row := [
  ⟨0, 64, 0x40, 0, 1, .rwf, .n, 0, false⟩,
  ⟨0, 64, 0x40, 1, 1, .rwf, .n, 1, false⟩,
  ⟨0, 64, 0x40, 2, 1, .ro, .n, 0, false⟩,
  ⟨4, 64, 0x40, 0, 24, .rwf, .n, 0, false⟩,
  ⟨8, 64, 0x40, 0, 24, .rwf, .n, 0, false⟩,
  ⟨0xC, 64, 0x40, 0, 16, .rwf, .n, 0, false⟩,
  ⟨0x10, 64, 0x40, 0, 16, .rwf, .n, 0, false⟩,
  ⟨0x14, 64, 0x40, 0, 32, .ro, .n, 0, false⟩,
  ⟨0x18, 64, 0x40, 0, 32, .ro, .n, 0, false⟩,
  ⟨0x20, 64, 0x40, 0, 32, .rwf, .n, 0, false⟩,
  ⟨0x24, 64, 0x40, 0, 8, .rwf, .n, 0, false⟩,
  ⟨0x28, 64, 0x40, 0, 32, .rwf, .n, 0, false⟩,
  ⟨0x2C, 64, 0x40, 0, 8, .rwf, .n, 0, false⟩,
  ⟨0x30, 64, 0x40, 0, 32, .rwf, .n, 0, false⟩,
  ⟨0x34, 64, 0x40, 0, 8, .rwf, .n, 0, false⟩]
/-- The fields of R229. -/
def rowsPolicer : List Row := rowsPolicer0
def rowsWred0 : List Row := [
  ⟨0, 16, 0x100, 0, 4, .rwf, .n, 2, false⟩,
  ⟨0, 16, 0x100, 4, 1, .ro, .n, 0, false⟩,
  ⟨0x10, 16, 0x100, 0, 17, .rwf, .n, 0x1000, false⟩,
  ⟨0x20, 16, 0x100, 0, 17, .rwf, .n, 0x800, false⟩,
  ⟨0x30, 16, 0x100, 0, 17, .rwf, .n, 0, false⟩,
  ⟨0x14, 16, 0x100, 0, 17, .rwf, .n, 0x2000, false⟩,
  ⟨0x24, 16, 0x100, 0, 17, .rwf, .n, 0x1000, false⟩,
  ⟨0x34, 16, 0x100, 0, 17, .rwf, .n, 0, false⟩,
  ⟨0x18, 16, 0x100, 0, 8, .rwf, .n, 0x20, false⟩,
  ⟨0x28, 16, 0x100, 0, 8, .rwf, .n, 0x40, false⟩,
  ⟨0x38, 16, 0x100, 0, 8, .rwf, .n, 0, false⟩,
  ⟨0x40, 16, 0x100, 0, 32, .rwf, .n, 0, false⟩,
  ⟨0x44, 16, 0x100, 0, 8, .rwf, .n, 0, false⟩,
  ⟨0x48, 16, 0x100, 0, 32, .rwf, .n, 0, false⟩,
  ⟨0x4C, 16, 0x100, 0, 8, .rwf, .n, 0, false⟩,
  ⟨0x50, 16, 0x100, 0, 32, .rwf, .n, 0, false⟩,
  ⟨0x54, 16, 0x100, 0, 8, .rwf, .n, 0, false⟩]
/-- The fields of R230. -/
def rowsWred : List Row := rowsWred0
def rowsGate0 : List Row := [
  ⟨0x40, 1, 4, 0, 1, .rw, .s, 0, false⟩,
  ⟨0x40, 1, 4, 1, 2, .rw, .s, 0, false⟩,
  ⟨0x40, 1, 4, 3, 3, .rw, .s, 3, false⟩,
  ⟨0x40, 1, 4, 6, 1, .rw, .s, 1, false⟩,
  ⟨0x40, 1, 4, 7, 1, .rw, .s, 1, false⟩,
  ⟨0x40, 1, 4, 8, 1, .rw, .s, 1, false⟩,
  ⟨0x40, 1, 4, 9, 1, .rw, .s, 1, false⟩,
  ⟨0x44, 1, 4, 0, 13, .rw, .s, 0x1E00, false⟩,
  ⟨0x44, 1, 4, 16, 13, .rw, .s, 0x10E0, false⟩,
  ⟨0x48, 1, 4, 0, 4, .rw, .s, 6, false⟩,
  ⟨0x48, 1, 4, 4, 3, .rw, .s, 4, false⟩,
  ⟨0x4C, 1, 4, 0, 3, .rw, .s, 1, false⟩,
  ⟨0x4C, 1, 4, 3, 1, .rw, .s, 0, false⟩,
  ⟨0x50, 4, 4, 0, 16, .rw, .s, 0, false⟩,
  ⟨0x60, 1, 4, 0, 18, .ro, .s, 0x9600, false⟩,
  ⟨0x64, 1, 4, 0, 16, .ro, .s, 0x9E4, false⟩,
  ⟨0x68, 1, 4, 0, 3, .ro, .n, 0, false⟩,
  ⟨0x68, 1, 4, 3, 2, .ro, .n, 0, false⟩,
  ⟨0x68, 1, 4, 5, 1, .ro, .n, 0, false⟩,
  ⟨0x68, 1, 4, 6, 2, .ro, .n, 0, false⟩,
  ⟨0x68, 1, 4, 8, 1, .ro, .n, 0, false⟩,
  ⟨0x68, 1, 4, 9, 4, .ro, .n, 0, false⟩,
  ⟨0x68, 1, 4, 13, 1, .ro, .n, 0, false⟩,
  ⟨0x68, 1, 4, 14, 1, .ro, .n, 0, false⟩]
def rowsGate1 : List Row := [
  ⟨0x6C, 1, 4, 0, 13, .ro, .n, 0, false⟩,
  ⟨0x6C, 1, 4, 16, 13, .ro, .n, 0, false⟩,
  ⟨0x70, 1, 4, 0, 3, .ro, .n, 0, false⟩,
  ⟨0x70, 1, 4, 3, 2, .ro, .n, 0, false⟩,
  ⟨0x70, 1, 4, 16, 10, .ro, .n, 0, false⟩,
  ⟨0x74, 1, 4, 0, 9, .ro, .n, 0, false⟩,
  ⟨0x74, 1, 4, 16, 9, .ro, .n, 0, false⟩,
  ⟨0x78, 1, 4, 0, 9, .ro, .n, 0, false⟩,
  ⟨0x78, 1, 4, 16, 9, .ro, .n, 0, false⟩,
  ⟨0x7C, 1, 4, 0, 16, .rw, .s, 0, false⟩,
  ⟨0x7C, 1, 4, 16, 16, .rw, .s, 0x7D0, false⟩,
  ⟨0x80, 1, 4, 0, 17, .ro, .n, 0, false⟩,
  ⟨0x84, 1, 4, 0, 17, .ro, .n, 0, false⟩,
  ⟨0x88, 1, 4, 0, 32, .ro, .n, 0, false⟩,
  ⟨0x8C, 1, 4, 0, 32, .ro, .n, 0, false⟩,
  ⟨0x90, 1, 4, 0, 8, .ro, .n, 0, false⟩,
  ⟨0x94, 1, 4, 0, 32, .ro, .n, 0, false⟩,
  ⟨0x98, 1, 4, 0, 1, .ro, .n, 0, false⟩,
  ⟨0x98, 1, 4, 1, 1, .ro, .n, 0, false⟩,
  ⟨0x9C, 1, 4, 0, 16, .ro, .n, 0, false⟩,
  ⟨0x9C, 1, 4, 16, 16, .ro, .n, 0, false⟩,
  ⟨0xA0, 1, 4, 0, 10, .ro, .n, 0, false⟩,
  ⟨0xA0, 1, 4, 10, 2, .ro, .n, 0, false⟩,
  ⟨0xA0, 1, 4, 12, 2, .ro, .n, 0, false⟩]
def rowsGate2 : List Row := [
  ⟨0xA0, 1, 4, 14, 1, .ro, .n, 0, false⟩,
  ⟨0x400, 128, 4, 0, 32, .rw, .s, 0, false⟩,
  ⟨0x600, 64, 4, 0, 32, .ro, .n, 0, false⟩]
/-- The fields of R264. -/
def rowsGate : List Row := rowsGate0 ++ rowsGate1 ++ rowsGate2
def rowsReel0 : List Row := [
  ⟨0x40, 1, 4, 0, 1, .ro, .n, 0, false⟩,
  ⟨0x40, 1, 4, 1, 1, .ro, .n, 0, false⟩,
  ⟨0x40, 1, 4, 2, 1, .w1c, .s, 0, false⟩,
  ⟨0x44, 1, 4, 0, 8, .rw, .s, 0x20, false⟩,
  ⟨0x48, 1, 4, 0, 6, .rw, .s, 0x20, false⟩,
  ⟨0x4C, 1, 4, 0, 16, .rw, .s, 0x258, false⟩,
  ⟨0x50, 1, 4, 0, 32, .ro, .n, 0, false⟩,
  ⟨0x54, 1, 4, 0, 8, .ro, .n, 0, false⟩,
  ⟨0x58, 1, 4, 0, 32, .ro, .n, 0, false⟩,
  ⟨0x5C, 1, 4, 0, 32, .ro, .n, 0, false⟩,
  ⟨0x60, 1, 4, 0, 1, .ro, .n, 0, false⟩,
  ⟨0x60, 1, 4, 1, 3, .ro, .n, 0, false⟩,
  ⟨0x60, 1, 4, 4, 3, .ro, .n, 0, false⟩,
  ⟨0x64, 1, 4, 0, 18, .ro, .n, 0, false⟩,
  ⟨0x68, 1, 4, 0, 1, .w1s, .n, 0, false⟩,
  ⟨0x68, 1, 4, 1, 1, .w1s, .n, 0, false⟩,
  ⟨0xF00, 1, 4, 0, 18, .rc, .n, 0, false⟩]
/-- The fields of R268. -/
def rowsReel : List Row := rowsReel0
def rowsProj0 : List Row := [
  ⟨0x40, 1, 4, 0, 1, .rw, .s, 0, false⟩,
  ⟨0x40, 1, 4, 1, 1, .rw, .s, 0, true⟩,
  ⟨0x40, 1, 4, 2, 2, .rw, .s, 0, true⟩,
  ⟨0x40, 1, 4, 4, 1, .rw, .s, 0, false⟩,
  ⟨0x44, 1, 4, 0, 13, .rw, .s, 0, true⟩,
  ⟨0x44, 1, 4, 16, 14, .rw, .s, 0, true⟩,
  ⟨0x48, 1, 4, 0, 14, .rw, .s, 0, true⟩,
  ⟨0x48, 1, 4, 16, 14, .rw, .s, 0, true⟩,
  ⟨0x4C, 1, 4, 0, 13, .rw, .s, 0, true⟩,
  ⟨0x4C, 1, 4, 16, 13, .rw, .s, 0, true⟩,
  ⟨0x50, 1, 4, 0, 13, .rw, .s, 0, true⟩,
  ⟨0x50, 1, 4, 16, 13, .rw, .s, 0, true⟩,
  ⟨0x54, 1, 4, 0, 16, .rw, .s, 0, true⟩,
  ⟨0x58, 1, 4, 0, 24, .rw, .s, 0, true⟩,
  ⟨0x5C, 1, 4, 0, 24, .rw, .s, 0, true⟩,
  ⟨0x60, 1, 4, 0, 32, .rw, .s, 0, true⟩,
  ⟨0x64, 1, 4, 0, 8, .rw, .s, 0, true⟩,
  ⟨0x68, 1, 4, 0, 10, .rw, .s, 0, false⟩,
  ⟨0x68, 1, 4, 10, 2, .rw, .s, 1, false⟩,
  ⟨0x68, 1, 4, 12, 4, .rw, .s, 0, false⟩,
  ⟨0x6C, 1, 4, 0, 1, .rw, .s, 0, false⟩,
  ⟨0x6C, 1, 4, 1, 2, .rw, .s, 2, false⟩,
  ⟨0x6C, 1, 4, 3, 10, .rw, .s, 0xC0, false⟩,
  ⟨0x70, 1, 4, 0, 4, .rw, .s, 3, false⟩]
def rowsProj1 : List Row := [
  ⟨0x74, 1, 4, 0, 16, .ro, .n, 0, false⟩,
  ⟨0x74, 1, 4, 16, 16, .ro, .n, 0, false⟩,
  ⟨0x78, 1, 4, 0, 2, .ro, .n, 0, false⟩,
  ⟨0x78, 1, 4, 2, 1, .ro, .n, 0, false⟩,
  ⟨0x78, 1, 4, 3, 1, .ro, .n, 0, false⟩,
  ⟨0x78, 1, 4, 4, 1, .ro, .n, 0, false⟩,
  ⟨0x78, 1, 4, 5, 1, .ro, .n, 0, false⟩,
  ⟨0x78, 1, 4, 16, 16, .ro, .n, 0, false⟩,
  ⟨0x7C, 1, 4, 0, 10, .ro, .n, 0, false⟩,
  ⟨0x7C, 1, 4, 16, 10, .ro, .n, 0, false⟩,
  ⟨0x80, 1, 4, 0, 32, .ro, .n, 0, false⟩,
  ⟨0x84, 1, 4, 0, 2, .ro, .n, 0, false⟩,
  ⟨0x84, 1, 4, 4, 2, .ro, .n, 0, false⟩,
  ⟨0x84, 1, 4, 8, 2, .ro, .n, 0, false⟩,
  ⟨0x84, 1, 4, 12, 2, .ro, .n, 0, false⟩,
  ⟨0x84, 1, 4, 2, 1, .ro, .n, 0, false⟩,
  ⟨0x84, 1, 4, 6, 1, .ro, .n, 0, false⟩,
  ⟨0x84, 1, 4, 10, 1, .ro, .n, 0, false⟩,
  ⟨0x84, 1, 4, 14, 1, .ro, .n, 0, false⟩,
  ⟨0x88, 1, 4, 0, 32, .ro, .n, 0, false⟩,
  ⟨0x8C, 1, 4, 0, 16, .ro, .n, 0, false⟩,
  ⟨0x8C, 1, 4, 16, 14, .ro, .n, 0, false⟩,
  ⟨0x8C, 1, 4, 30, 1, .ro, .n, 0, false⟩,
  ⟨0x8C, 1, 4, 31, 1, .w1c, .n, 0, false⟩]
def rowsProj2 : List Row := [
  ⟨0x90, 1, 4, 0, 32, .ro, .n, 0, false⟩,
  ⟨0x94, 1, 4, 0, 4, .ro, .n, 0, false⟩,
  ⟨0x94, 1, 4, 4, 1, .ro, .n, 0, false⟩,
  ⟨0x94, 1, 4, 5, 1, .ro, .n, 0, false⟩,
  ⟨0x98, 1, 4, 0, 4, .ro, .n, 0, false⟩,
  ⟨0x9C, 1, 4, 0, 4, .rw, .s, 6, false⟩,
  ⟨0x9C, 1, 4, 4, 3, .rw, .s, 4, false⟩,
  ⟨0x9C, 1, 4, 7, 1, .w1s, .n, 0, false⟩,
  ⟨0xA0, 1, 4, 0, 32, .ro, .n, 0, false⟩,
  ⟨0x100, 4, 0x40, 0, 3, .rw, .s, 0, true⟩,
  ⟨0x100, 4, 0x40, 4, 2, .rw, .s, 0, true⟩,
  ⟨0x100, 4, 0x40, 6, 1, .rw, .s, 0, true⟩,
  ⟨0x100, 4, 0x40, 8, 2, .rw, .s, 0, true⟩,
  ⟨0x104, 4, 0x40, 0, 16, .rw, .s, 0, true⟩,
  ⟨0x108, 4, 0x40, 0, 18, .rw, .s, 0, true⟩,
  ⟨0x10C, 4, 0x40, 0, 13, .rw, .s, 0, true⟩,
  ⟨0x10C, 4, 0x40, 16, 13, .rw, .s, 0, true⟩,
  ⟨0x110, 4, 0x40, 0, 13, .rw, .s, 0, true⟩,
  ⟨0x110, 4, 0x40, 16, 13, .rw, .s, 0, true⟩,
  ⟨0x114, 4, 0x40, 0, 14, .rw, .s, 0, true⟩,
  ⟨0x114, 4, 0x40, 16, 14, .rw, .s, 0, true⟩,
  ⟨0x118, 4, 0x40, 0, 15, .rw, .s, 0, true⟩,
  ⟨0x118, 4, 0x40, 16, 15, .rw, .s, 0, true⟩,
  ⟨0x11C, 4, 0x40, 0, 10, .rw, .s, 0x3FF, true⟩]
def rowsProj3 : List Row := [
  ⟨0xF00, 1, 4, 0, 32, .rc, .n, 0, false⟩,
  ⟨0xF04, 1, 4, 0, 5, .ro, .n, 0, false⟩]
/-- The fields of R310. -/
def rowsProj : List Row := rowsProj0 ++ rowsProj1 ++ rowsProj2 ++ rowsProj3
def rowsDpo0 : List Row := [
  ⟨0x40, 1, 4, 0, 1, .rw, .s, 1, false⟩,
  ⟨0x40, 1, 4, 1, 4, .rw, .s, 6, false⟩,
  ⟨0x40, 1, 4, 5, 3, .rw, .s, 4, false⟩,
  ⟨0x40, 1, 4, 8, 1, .w1s, .n, 0, false⟩,
  ⟨0x44, 1, 4, 0, 1, .ro, .n, 0, false⟩,
  ⟨0x44, 1, 4, 1, 1, .ro, .n, 0, false⟩,
  ⟨0x44, 1, 4, 2, 4, .ro, .n, 0, false⟩,
  ⟨0x44, 1, 4, 6, 3, .ro, .n, 0, false⟩,
  ⟨0x44, 1, 4, 9, 2, .ro, .n, 0, false⟩,
  ⟨0x44, 1, 4, 11, 1, .ro, .n, 0, false⟩,
  ⟨0x44, 1, 4, 12, 1, .ro, .n, 0, false⟩,
  ⟨0x44, 1, 4, 13, 1, .ro, .n, 0, false⟩,
  ⟨0x48, 1, 4, 0, 4, .ro, .n, 0, false⟩,
  ⟨0x4C, 1, 4, 0, 6, .ro, .n, 0, false⟩,
  ⟨0x50, 1, 4, 0, 16, .ro, .n, 0, false⟩,
  ⟨0x54, 1, 4, 0, 16, .ro, .n, 0, false⟩,
  ⟨0x54, 1, 4, 16, 16, .ro, .n, 0, false⟩]
/-- The fields of R312. -/
def rowsDpo : List Row := rowsDpo0
def rowsTailrace0 : List Row := [
  ⟨0x40, 1, 4, 0, 1, .rw, .s, 1, false⟩,
  ⟨0x40, 1, 4, 1, 1, .rw, .s, 1, false⟩,
  ⟨0x44, 1, 4, 0, 16, .rw, .s, 0x12C, false⟩,
  ⟨0x48, 8, 4, 0, 12, .rw, .s, 1, false⟩,
  ⟨0x48, 8, 4, 12, 3, .rw, .s, 0, false⟩,
  ⟨0x68, 1, 4, 0, 3, .rw, .s, 3, false⟩,
  ⟨0x68, 1, 4, 3, 3, .rw, .s, 3, false⟩,
  ⟨0x68, 1, 4, 6, 3, .rw, .s, 3, false⟩,
  ⟨0x68, 1, 4, 9, 3, .rw, .s, 3, false⟩,
  ⟨0x68, 1, 4, 12, 3, .rw, .s, 3, false⟩,
  ⟨0x68, 1, 4, 15, 3, .rw, .s, 3, false⟩,
  ⟨0x68, 1, 4, 18, 3, .rw, .s, 3, false⟩,
  ⟨0x68, 1, 4, 21, 3, .rw, .s, 3, false⟩,
  ⟨0x6C, 1, 4, 0, 17, .rw, .s, 0x200, false⟩,
  ⟨0x70, 1, 4, 0, 12, .rw, .n, 0, false⟩,
  ⟨0x74, 1, 4, 0, 8, .rw, .n, 0, false⟩,
  ⟨0x74, 1, 4, 8, 8, .rw, .n, 0, false⟩,
  ⟨0x74, 1, 4, 16, 6, .rw, .n, 0, false⟩,
  ⟨0x74, 1, 4, 31, 1, .rw, .n, 0, false⟩,
  ⟨0x78, 1, 4, 0, 3, .rw, .n, 0, false⟩,
  ⟨0x78, 1, 4, 3, 1, .ro, .n, 0, false⟩,
  ⟨0x78, 1, 4, 4, 1, .rw, .n, 0, false⟩,
  ⟨0x78, 1, 4, 16, 12, .rw, .n, 0, false⟩,
  ⟨0x7C, 1, 4, 0, 32, .rw, .n, 0, false⟩]
def rowsTailrace1 : List Row := [
  ⟨0x80, 1, 4, 0, 16, .rw, .n, 0, false⟩,
  ⟨0x80, 1, 4, 16, 12, .rw, .n, 0, false⟩,
  ⟨0x80, 1, 4, 28, 3, .rw, .n, 0, false⟩,
  ⟨0x80, 1, 4, 31, 1, .rw, .n, 0, false⟩,
  ⟨0x84, 1, 4, 0, 16, .ro, .n, 0, false⟩,
  ⟨0x84, 1, 4, 16, 16, .ro, .n, 0, false⟩]
/-- The fields of R341. -/
def rowsTailrace : List Row := rowsTailrace0 ++ rowsTailrace1
def rowsEthmac0 : List Row := [
  ⟨0x40, 1, 4, 0, 1, .rw, .s, 0, false⟩,
  ⟨0x40, 1, 4, 1, 2, .rw, .s, 1, false⟩,
  ⟨0x40, 1, 4, 3, 2, .rw, .s, 0, false⟩,
  ⟨0x44, 1, 4, 0, 14, .rw, .s, 0x2400, false⟩,
  ⟨0x48, 1, 4, 0, 1, .ro, .n, 0, false⟩,
  ⟨0x48, 1, 4, 1, 3, .ro, .n, 0, false⟩,
  ⟨0x48, 1, 4, 8, 8, .ro, .n, 0, false⟩,
  ⟨0x48, 1, 4, 16, 8, .ro, .n, 0, false⟩,
  ⟨0x4C, 1, 4, 0, 2, .rw, .s, 0, false⟩,
  ⟨0x4C, 1, 4, 2, 1, .rw, .s, 1, false⟩,
  ⟨0x4C, 1, 4, 8, 8, .rw, .s, 0, false⟩,
  ⟨0x50, 1, 4, 0, 16, .rw, .s, 0x400, false⟩,
  ⟨0x50, 1, 4, 16, 16, .rw, .s, 0x300, false⟩,
  ⟨0x54, 1, 4, 0, 32, .ro, .n, 0, false⟩,
  ⟨0x58, 1, 4, 0, 8, .ro, .n, 0, false⟩,
  ⟨0x5C, 1, 4, 0, 32, .ro, .n, 0, false⟩,
  ⟨0x60, 1, 4, 0, 8, .ro, .n, 0, false⟩,
  ⟨0x64, 1, 4, 0, 16, .ro, .n, 0, false⟩,
  ⟨0x64, 1, 4, 16, 16, .ro, .n, 0, false⟩,
  ⟨0x68, 1, 4, 0, 16, .ro, .n, 0, false⟩,
  ⟨0x68, 1, 4, 16, 16, .ro, .n, 0, false⟩]
/-- The fields of R342. -/
def rowsEthmac : List Row := rowsEthmac0
def rowsNic0 : List Row := [
  ⟨0, 1, 4, 0, 1, .rw, .l, 0, false⟩,
  ⟨0, 1, 4, 1, 1, .rw, .l, 0, false⟩,
  ⟨0, 1, 4, 2, 1, .rw, .l, 0, false⟩,
  ⟨4, 1, 4, 0, 32, .rw, .l, 0, false⟩,
  ⟨8, 1, 4, 0, 16, .rw, .l, 0, false⟩,
  ⟨0xC, 1, 4, 0, 2, .rw, .l, 0, false⟩,
  ⟨0xC, 1, 4, 2, 2, .rw, .l, 0, false⟩,
  ⟨0xC, 1, 4, 4, 2, .rw, .l, 0, false⟩,
  ⟨0xC, 1, 4, 6, 2, .rw, .l, 0, false⟩,
  ⟨0xC, 1, 4, 8, 2, .rw, .l, 0, false⟩,
  ⟨0xC, 1, 4, 10, 2, .rw, .l, 0, false⟩,
  ⟨0xC, 1, 4, 12, 2, .rw, .l, 0, false⟩,
  ⟨0xC, 1, 4, 14, 2, .rw, .l, 0, false⟩,
  ⟨0x10, 1, 4, 0, 16, .rw, .l, 0, false⟩,
  ⟨0x14, 1, 4, 0, 8, .w1c, .l, 0, false⟩,
  ⟨0x14, 1, 4, 8, 1, .w1c, .l, 0, false⟩,
  ⟨0x18, 1, 4, 0, 9, .rw, .l, 0, false⟩,
  ⟨0x1C, 1, 4, 0, 32, .ro, .l, 0, false⟩,
  ⟨0x100, 8, 0x20, 0, 32, .rw, .l, 0, false⟩,
  ⟨0x104, 8, 0x20, 0, 32, .rw, .l, 0, false⟩,
  ⟨0x108, 8, 0x20, 0, 12, .rw, .l, 0, false⟩,
  ⟨0x108, 8, 0x20, 16, 12, .ro, .l, 0, false⟩,
  ⟨0x10C, 8, 0x20, 0, 1, .rw, .l, 0, false⟩,
  ⟨0x10C, 8, 0x20, 1, 3, .rw, .l, 0, false⟩]
def rowsNic1 : List Row := [
  ⟨0x10C, 8, 0x20, 4, 6, .rw, .l, 8, false⟩,
  ⟨0x10C, 8, 0x20, 10, 4, .rw, .l, 4, false⟩]
/-- The fields of R343. -/
def rowsNic : List Row := rowsNic0 ++ rowsNic1
/-- The MSI-X table, the pending-bit array and, beside BAR4, the control word of function 0 (R345, R579; assumption log 97). -/
def rowsMsix : List Row := [
  ⟨0x0, 32, 0x10, 2, 30, .rw, .n, 0, false⟩,
  ⟨0x4, 32, 0x10, 0, 32, .rw, .n, 0, false⟩,
  ⟨0x8, 32, 0x10, 0, 32, .rw, .n, 0, false⟩,
  ⟨0xC, 32, 0x10, 0, 1, .rw, .n, 1, false⟩,
  ⟨0x8000, 1, 4, 0, 32, .ro, .n, 0, false⟩,
  ⟨0xFFFC, 1, 4, 14, 1, .rw, .n, 0, false⟩,
  ⟨0xFFFC, 1, 4, 15, 1, .rw, .n, 0, false⟩]
def rowsPciedn0 : List Row := [
  ⟨0x40, 1, 4, 0, 3, .rw, .s, 5, false⟩,
  ⟨0x40, 1, 4, 3, 2, .rw, .s, 2, false⟩,
  ⟨0x40, 1, 4, 5, 1, .rw, .s, 1, false⟩,
  ⟨0x40, 1, 4, 6, 1, .rw, .s, 1, false⟩,
  ⟨0x40, 1, 4, 7, 1, .w1s, .n, 0, false⟩,
  ⟨0x44, 1, 4, 0, 1, .ro, .n, 0, false⟩,
  ⟨0x44, 1, 4, 1, 1, .ro, .n, 0, false⟩,
  ⟨0x44, 1, 4, 2, 3, .ro, .n, 0, false⟩,
  ⟨0x44, 1, 4, 5, 3, .ro, .n, 0, false⟩,
  ⟨0x44, 1, 4, 8, 1, .ro, .n, 1, false⟩,
  ⟨0x48, 1, 4, 0, 1, .rwf, .s, 0, false⟩,
  ⟨0x4C, 1, 4, 0, 16, .ro, .n, 0, false⟩,
  ⟨0x50, 1, 4, 0, 16, .ro, .n, 0, false⟩,
  ⟨0x50, 1, 4, 16, 16, .ro, .n, 0, false⟩]
/-- The fields of R344. -/
def rowsPciedn : List Row := rowsPciedn0
def rowsPstk0 : List Row := [
  ⟨0x40, 1, 4, 0, 1, .rw, .s, 1, false⟩,
  ⟨0x40, 1, 4, 8, 8, .rw, .s, 4, false⟩,
  ⟨0x44, 1, 4, 0, 1, .w1c, .s, 0, false⟩,
  ⟨0x44, 1, 4, 1, 1, .w1c, .n, 0, false⟩,
  ⟨0x48, 1, 4, 0, 5, .ro, .n, 0, false⟩,
  ⟨0x48, 1, 4, 8, 1, .w1s, .n, 0, false⟩,
  ⟨0x4C, 1, 4, 0, 16, .ro, .n, 0, false⟩,
  ⟨0x50, 1, 4, 0, 32, .ro, .n, 0, false⟩,
  ⟨0x54, 1, 4, 0, 32, .ro, .n, 0, false⟩,
  ⟨0x58, 1, 4, 0, 32, .ro, .n, 0, false⟩,
  ⟨0x5C, 1, 4, 0, 32, .ro, .n, 0, false⟩,
  ⟨0x60, 1, 4, 0, 3, .ro, .n, 0, false⟩,
  ⟨0x60, 1, 4, 3, 1, .ro, .n, 0, false⟩,
  ⟨0x60, 1, 4, 4, 4, .ro, .n, 0, false⟩,
  ⟨0x64, 1, 4, 0, 3, .rwf, .s, 2, false⟩,
  ⟨0x64, 1, 4, 16, 12, .rwf, .s, 0x100, false⟩,
  ⟨0x68, 4, 4, 0, 7, .ro, .n, 0, false⟩,
  ⟨0x68, 4, 4, 8, 6, .ro, .n, 0, false⟩,
  ⟨0x68, 4, 4, 16, 6, .ro, .n, 0, false⟩,
  ⟨0x68, 4, 4, 24, 5, .ro, .n, 0, false⟩,
  ⟨0x78, 4, 4, 0, 14, .ro, .n, 0, false⟩,
  ⟨0x88, 1, 4, 0, 32, .ro, .n, 0, false⟩,
  ⟨0x8C, 1, 4, 0, 16, .ro, .n, 0, false⟩,
  ⟨0x100, 1, 4, 0, 1, .rw, .s, 1, false⟩]
def rowsPstk1 : List Row := [
  ⟨0x110, 15, 0x10, 0, 1, .rw, .s, 0, false⟩,
  ⟨0x100, 1, 4, 1, 1, .rw, .s, 1, false⟩,
  ⟨0x110, 15, 0x10, 1, 1, .rw, .s, 0, false⟩,
  ⟨0x100, 16, 0x10, 2, 1, .ro, .s, 0, false⟩,
  ⟨0x104, 16, 0x10, 6, 26, .rw, .s, 0, false⟩,
  ⟨0x108, 1, 4, 6, 26, .rw, .s, 0x3FFFFFF, false⟩,
  ⟨0x118, 15, 0x10, 6, 26, .rw, .s, 0, false⟩,
  ⟨0x200, 16, 0x10, 0, 32, .ro, .n, 0, false⟩,
  ⟨0x204, 16, 0x10, 0, 3, .ro, .n, 0, false⟩,
  ⟨0x204, 16, 0x10, 3, 1, .ro, .n, 0, false⟩,
  ⟨0x204, 16, 0x10, 4, 4, .ro, .n, 0, false⟩,
  ⟨0x204, 16, 0x10, 8, 10, .ro, .n, 0, false⟩,
  ⟨0x208, 16, 0x10, 0, 32, .ro, .n, 0, false⟩,
  ⟨0x20C, 16, 0x10, 0, 8, .ro, .n, 0, false⟩]
/-- The fields of R391. -/
def rowsPstk : List Row := rowsPstk0 ++ rowsPstk1
def rowsTally0 : List Row := [
  ⟨0x40, 1, 4, 0, 1, .rw, .s, 1, false⟩,
  ⟨0x58, 1, 4, 0, 16, .rw, .s, 0x3E8, false⟩,
  ⟨0x44, 5, 4, 0, 16, .rw, .s, 0xA, false⟩,
  ⟨0x5C, 4, 4, 0, 16, .rw, .s, 0xA, false⟩,
  ⟨0x6C, 1, 4, 0, 12, .wo, .n, 0, false⟩,
  ⟨0x6C, 1, 4, 16, 16, .wo, .n, 0, false⟩,
  ⟨0x70, 1, 4, 0, 16, .ro, .n, 0, false⟩,
  ⟨0x70, 1, 4, 16, 16, .ro, .n, 0, false⟩,
  ⟨0x74, 1, 4, 0, 16, .ro, .n, 0, false⟩,
  ⟨0x78, 1, 4, 0, 32, .ro, .n, 0, false⟩,
  ⟨0x7C, 1, 4, 0, 32, .ro, .n, 0, false⟩,
  ⟨0x80, 1, 4, 0, 5, .ro, .n, 0, false⟩,
  ⟨0x80, 1, 4, 5, 5, .ro, .n, 0, false⟩,
  ⟨0x80, 1, 4, 10, 5, .ro, .n, 0, false⟩,
  ⟨0x80, 1, 4, 15, 5, .ro, .n, 0, false⟩,
  ⟨0x80, 1, 4, 20, 5, .ro, .n, 0, false⟩,
  ⟨0x80, 1, 4, 25, 5, .ro, .n, 0, false⟩,
  ⟨0x84, 1, 4, 0, 8, .ro, .n, 0, false⟩,
  ⟨0x400, 256, 4, 0, 32, .rw, .n, 0, false⟩,
  ⟨0xF00, 6, 4, 0, 12, .rc, .n, 0, false⟩,
  ⟨0xF00, 6, 4, 12, 2, .rc, .n, 0, false⟩,
  ⟨0xF00, 6, 4, 14, 2, .rc, .n, 0, false⟩,
  ⟨0xF00, 6, 4, 16, 16, .rc, .n, 0, false⟩]
/-- The fields of R393. -/
def rowsTally : List Row := rowsTally0
def rowsTallyTab0 : List Row := [
  ⟨0, 256, 0x10, 0, 2, .rwf, .n, 0, false⟩,
  ⟨0, 256, 0x10, 2, 3, .rwf, .n, 0, false⟩,
  ⟨0, 256, 0x10, 5, 2, .rwf, .n, 0, false⟩,
  ⟨0, 256, 0x10, 8, 8, .rwf, .n, 0, false⟩,
  ⟨0, 256, 0x10, 16, 12, .rwf, .n, 0, false⟩,
  ⟨4, 256, 0x10, 0, 25, .rwf, .n, 0, false⟩,
  ⟨8, 256, 0x10, 0, 16, .rwf, .n, 0, false⟩,
  ⟨8, 256, 0x10, 16, 6, .rwf, .n, 0, false⟩,
  ⟨0xC, 256, 0x10, 0, 32, .ro, .n, 0, false⟩,
  ⟨0x1000, 128, 8, 0, 12, .rwf, .n, 0, false⟩,
  ⟨0x1000, 128, 8, 16, 12, .rwf, .n, 0, false⟩,
  ⟨0x1000, 128, 8, 31, 1, .rwf, .n, 0, false⟩,
  ⟨0x1004, 128, 8, 0, 3, .rwf, .n, 0, false⟩,
  ⟨0x1004, 128, 8, 5, 2, .rwf, .n, 0, false⟩,
  ⟨0x1004, 128, 8, 16, 16, .ro, .n, 0, false⟩,
  ⟨0x1400, 256, 8, 0, 32, .ro, .n, 0, false⟩,
  ⟨0x1404, 256, 8, 0, 8, .ro, .n, 0, false⟩,
  ⟨0x1404, 256, 8, 8, 2, .ro, .n, 0, false⟩,
  ⟨0x1404, 256, 8, 10, 3, .ro, .n, 0, false⟩,
  ⟨0x1404, 256, 8, 16, 16, .ro, .n, 0, false⟩]
/-- The fields of R396. -/
def rowsTallyTab : List Row := rowsTallyTab0
def rowsUsbhub0 : List Row := [
  ⟨0x40, 1, 4, 0, 1, .rw, .s, 1, false⟩,
  ⟨0x40, 1, 4, 1, 1, .rw, .s, 1, false⟩,
  ⟨0x40, 1, 4, 2, 1, .rw, .s, 1, false⟩,
  ⟨0x44, 1, 4, 0, 12, .rwf, .s, 0x100, false⟩,
  ⟨0x48, 1, 4, 0, 9, .ro, .l, 0, false⟩,
  ⟨0x48, 1, 4, 16, 9, .ro, .l, 0, false⟩,
  ⟨0x4C, 1, 4, 0, 4, .rw, .n, 0, false⟩,
  ⟨0x50, 1, 4, 0, 2, .ro, .l, 0, false⟩,
  ⟨0x50, 1, 4, 2, 3, .ro, .l, 0, false⟩,
  ⟨0x50, 1, 4, 5, 1, .ro, .l, 0, false⟩,
  ⟨0x50, 1, 4, 6, 1, .ro, .l, 0, false⟩,
  ⟨0x54, 1, 4, 0, 1, .ro, .l, 0, false⟩,
  ⟨0x54, 1, 4, 1, 1, .ro, .l, 0, false⟩,
  ⟨0x54, 1, 4, 2, 1, .ro, .l, 0, false⟩,
  ⟨0x54, 1, 4, 3, 1, .ro, .l, 0, false⟩,
  ⟨0x58, 1, 4, 0, 16, .ro, .s, 0, false⟩]
/-- The fields of R427. -/
def rowsUsbhub : List Row := rowsUsbhub0
def rowsDockfn0 : List Row := [
  ⟨0x40, 1, 4, 0, 1, .rwf, .s, 0, false⟩,
  ⟨0x40, 1, 4, 1, 1, .rwf, .s, 1, false⟩,
  ⟨0x40, 1, 4, 2, 1, .rwf, .s, 1, false⟩,
  ⟨0x40, 1, 4, 3, 1, .rwf, .s, 1, false⟩,
  ⟨0x40, 1, 4, 4, 1, .rwf, .s, 0, false⟩,
  ⟨0x44, 1, 4, 0, 16, .rwf, .s, 0, false⟩,
  ⟨0x44, 1, 4, 16, 16, .rwf, .s, 0, false⟩,
  ⟨0x48, 1, 4, 0, 16, .rwf, .s, 0x100, false⟩,
  ⟨0x4C, 1, 4, 0, 3, .ro, .l, 0, false⟩,
  ⟨0x4C, 1, 4, 3, 2, .ro, .l, 0, false⟩,
  ⟨0x4C, 1, 4, 5, 7, .ro, .l, 0, false⟩,
  ⟨0x4C, 1, 4, 12, 1, .ro, .l, 0, false⟩,
  ⟨0x4C, 1, 4, 13, 2, .ro, .l, 0, false⟩,
  ⟨0x4C, 1, 4, 15, 2, .ro, .l, 0, false⟩,
  ⟨0x4C, 1, 4, 17, 3, .ro, .l, 0, false⟩,
  ⟨0x50, 1, 4, 0, 32, .ro, .l, 0, false⟩,
  ⟨0x54, 1, 4, 0, 1, .w1s, .l, 0, false⟩,
  ⟨0x54, 1, 4, 16, 8, .ro, .l, 0, false⟩,
  ⟨0x54, 1, 4, 24, 8, .ro, .l, 0, false⟩,
  ⟨0x58, 1, 4, 0, 10, .ro, .l, 0, false⟩,
  ⟨0x58, 1, 4, 10, 1, .w1c, .l, 0, false⟩,
  ⟨0x58, 1, 4, 16, 10, .rwf, .l, 0, false⟩,
  ⟨0x58, 1, 4, 26, 1, .rwf, .l, 0, false⟩,
  ⟨0x5C, 1, 4, 0, 32, .rwf, .l, 0, false⟩]
def rowsDockfn1 : List Row := [
  ⟨0x60, 1, 4, 0, 16, .rwf, .l, 0, false⟩,
  ⟨0x60, 1, 4, 16, 1, .w1s, .l, 0, false⟩,
  ⟨0x64, 1, 4, 0, 2, .rwf, .s, 1, false⟩,
  ⟨0x68, 1, 4, 0, 8, .rwf, .s, 0x32, false⟩,
  ⟨0x6C, 1, 4, 0, 12, .ro, .l, 0, false⟩,
  ⟨0x6C, 1, 4, 12, 12, .ro, .l, 0, false⟩,
  ⟨0x6C, 1, 4, 24, 8, .ro, .l, 0, false⟩,
  ⟨0x400, 128, 4, 0, 32, .ro, .l, 0, false⟩,
  ⟨0x600, 128, 4, 0, 32, .rwf, .l, 0, false⟩]
/-- The fields of R429. -/
def rowsDockfn : List Row := rowsDockfn0 ++ rowsDockfn1
def rowsAud0 : List Row := [
  ⟨0x40, 1, 4, 0, 1, .rw, .s, 0, false⟩,
  ⟨0x40, 1, 4, 1, 1, .rw, .s, 1, false⟩,
  ⟨0x40, 1, 4, 2, 2, .rw, .s, 0, false⟩,
  ⟨0x40, 1, 4, 4, 2, .rw, .s, 0, false⟩,
  ⟨0x44, 4, 4, 0, 15, .rw, .s, 0x4000, false⟩,
  ⟨0x44, 4, 4, 16, 1, .rw, .s, 0, false⟩,
  ⟨0x54, 1, 4, 0, 2, .rw, .s, 0, false⟩,
  ⟨0x54, 1, 4, 2, 2, .rw, .s, 0, false⟩,
  ⟨0x54, 1, 4, 4, 2, .rw, .s, 0, false⟩,
  ⟨0x54, 1, 4, 6, 2, .rw, .s, 0, false⟩,
  ⟨0x58, 1, 4, 0, 1, .ro, .n, 0, false⟩,
  ⟨0x58, 1, 4, 1, 1, .ro, .n, 0, false⟩,
  ⟨0x5C, 1, 4, 0, 16, .rwf, .n, 0, false⟩,
  ⟨0x5C, 1, 4, 16, 16, .ro, .n, 0, false⟩,
  ⟨0x60, 1, 4, 0, 32, .ro, .n, 0, false⟩]
/-- The fields of R431. -/
def rowsAud : List Row := rowsAud0
def rowsTypec0 : List Row := [
  ⟨0x40, 1, 4, 0, 1, .rw, .s, 1, false⟩,
  ⟨0x40, 1, 4, 1, 2, .rw, .s, 0, false⟩,
  ⟨0x40, 1, 4, 3, 1, .rw, .s, 1, false⟩,
  ⟨0x40, 1, 4, 4, 2, .rw, .s, 2, false⟩,
  ⟨0x40, 1, 4, 6, 1, .rw, .s, 1, false⟩,
  ⟨0x40, 1, 4, 7, 1, .rw, .s, 1, false⟩,
  ⟨0x40, 1, 4, 8, 1, .rw, .s, 0, false⟩,
  ⟨0x40, 1, 4, 9, 1, .rw, .s, 1, false⟩,
  ⟨0x44, 1, 4, 0, 4, .ro, .a, 0, false⟩,
  ⟨0x44, 1, 4, 4, 1, .ro, .a, 0, false⟩,
  ⟨0x44, 1, 4, 5, 1, .ro, .a, 0, false⟩,
  ⟨0x44, 1, 4, 6, 1, .ro, .a, 0, false⟩,
  ⟨0x44, 1, 4, 7, 1, .ro, .a, 0, false⟩,
  ⟨0x44, 1, 4, 8, 2, .ro, .a, 0, false⟩,
  ⟨0x44, 1, 4, 10, 1, .ro, .a, 0, false⟩,
  ⟨0x44, 1, 4, 11, 2, .ro, .a, 0, false⟩,
  ⟨0x44, 1, 4, 13, 2, .ro, .a, 0, false⟩,
  ⟨0x44, 1, 4, 15, 1, .ro, .a, 0, false⟩,
  ⟨0x44, 1, 4, 16, 1, .ro, .a, 0, false⟩,
  ⟨0x44, 1, 4, 17, 2, .ro, .a, 0, false⟩,
  ⟨0x44, 1, 4, 19, 1, .ro, .a, 0, false⟩,
  ⟨0x44, 1, 4, 20, 1, .w1c, .a, 0, false⟩,
  ⟨0x48, 1, 4, 0, 16, .ro, .a, 0, false⟩,
  ⟨0x48, 1, 4, 16, 16, .ro, .a, 0, false⟩]
def rowsTypec1 : List Row := [
  ⟨0x4C, 1, 4, 0, 32, .ro, .a, 0, false⟩,
  ⟨0x50, 1, 4, 0, 3, .rwf, .a, 1, false⟩,
  ⟨0x50, 1, 4, 4, 3, .rwf, .a, 0, false⟩,
  ⟨0x54, 1, 4, 0, 20, .rwf, .s, 0, false⟩,
  ⟨0x58, 1, 4, 0, 20, .ro, .a, 0, false⟩,
  ⟨0x5C, 1, 4, 0, 17, .rwf, .s, 0, false⟩,
  ⟨0x60, 1, 4, 0, 1, .rw, .s, 1, false⟩,
  ⟨0x60, 1, 4, 1, 1, .rw, .s, 1, false⟩,
  ⟨0x60, 1, 4, 2, 2, .rw, .s, 0, false⟩,
  ⟨0x60, 1, 4, 4, 1, .rw, .s, 1, false⟩,
  ⟨0x64, 1, 4, 0, 4, .rwf, .n, 0, false⟩,
  ⟨0x64, 1, 4, 4, 1, .ro, .n, 0, false⟩,
  ⟨0x64, 1, 4, 8, 4, .ro, .n, 0, false⟩,
  ⟨0x68, 1, 4, 0, 16, .ro, .a, 0, false⟩,
  ⟨0x68, 1, 4, 16, 16, .ro, .a, 0, false⟩,
  ⟨0x6C, 1, 4, 0, 7, .rwf, .s, 0, false⟩,
  ⟨0x6C, 1, 4, 7, 1, .rwf, .s, 0, false⟩,
  ⟨0x6C, 1, 4, 8, 8, .rwf, .s, 0, false⟩,
  ⟨0x6C, 1, 4, 16, 16, .rwf, .s, 0, false⟩,
  ⟨0x70, 1, 4, 0, 8, .ro, .n, 0, false⟩,
  ⟨0x70, 1, 4, 8, 8, .ro, .n, 0, false⟩,
  ⟨0x70, 1, 4, 16, 8, .ro, .n, 0, false⟩,
  ⟨0x70, 1, 4, 24, 8, .ro, .n, 0, false⟩,
  ⟨0x74, 1, 4, 0, 20, .rwf, .s, 0, false⟩]
def rowsTypec2 : List Row := [
  ⟨0x78, 1, 4, 0, 20, .rwf, .s, 0, false⟩,
  ⟨0x7C, 1, 4, 0, 20, .ro, .a, 0, false⟩,
  ⟨0x100, 7, 4, 0, 32, .rwf, .a, 0, false⟩,
  ⟨0x120, 6, 4, 0, 32, .rwf, .a, 0, false⟩,
  ⟨0x140, 7, 4, 0, 32, .ro, .a, 0, false⟩]
/-- The fields of R469. -/
def rowsTypec : List Row := rowsTypec0 ++ rowsTypec1 ++ rowsTypec2
def rowsWeir0 : List Row := [
  ⟨0x40, 1, 4, 0, 1, .rw, .s, 0, false⟩,
  ⟨0x40, 1, 4, 1, 1, .rw, .s, 0, false⟩,
  ⟨0x40, 1, 4, 2, 1, .w1s, .n, 0, false⟩,
  ⟨0x40, 1, 4, 3, 1, .w1s, .n, 0, false⟩,
  ⟨0x44, 1, 4, 0, 16, .rw, .s, 0, false⟩,
  ⟨0x44, 1, 4, 16, 7, .rw, .s, 0xA, false⟩,
  ⟨0x48, 1, 4, 0, 16, .rw, .s, 0x3E8, false⟩,
  ⟨0x48, 1, 4, 16, 16, .rw, .s, 0x7D0, false⟩,
  ⟨0x4C, 1, 4, 0, 16, .rw, .s, 0, false⟩,
  ⟨0x4C, 1, 4, 16, 16, .rw, .s, 0, false⟩,
  ⟨0x50, 1, 4, 0, 16, .rw, .s, 0x1194, false⟩,
  ⟨0x50, 1, 4, 16, 16, .rw, .s, 0xD6D8, false⟩,
  ⟨0x54, 1, 4, 0, 16, .rw, .s, 0x3E8, false⟩,
  ⟨0x54, 1, 4, 16, 16, .rw, .s, 0x7D0, false⟩,
  ⟨0x58, 1, 4, 0, 16, .rw, .s, 0x64, false⟩,
  ⟨0x80, 8, 8, 0, 16, .rw, .s, 0, false⟩,
  ⟨0x84, 8, 8, 0, 20, .rw, .s, 0, false⟩,
  ⟨0xC0, 1, 4, 0, 3, .ro, .s, 0, false⟩,
  ⟨0xC0, 1, 4, 3, 1, .ro, .s, 0, false⟩,
  ⟨0xC0, 1, 4, 4, 1, .ro, .s, 0, false⟩,
  ⟨0xC0, 1, 4, 5, 1, .ro, .s, 0, false⟩,
  ⟨0xC0, 1, 4, 6, 1, .ro, .s, 0, false⟩,
  ⟨0xC0, 1, 4, 7, 2, .ro, .s, 0, false⟩,
  ⟨0xC0, 1, 4, 9, 4, .ro, .s, 0, false⟩]
def rowsWeir1 : List Row := [
  ⟨0xC0, 1, 4, 13, 3, .ro, .s, 0, false⟩,
  ⟨0xC4, 1, 4, 0, 16, .ro, .n, 0, false⟩,
  ⟨0xC4, 1, 4, 16, 16, .ro, .n, 0, false⟩,
  ⟨0xC8, 1, 4, 0, 21, .ro, .n, 0, false⟩,
  ⟨0xCC, 1, 4, 0, 32, .ro, .s, 0, false⟩,
  ⟨0xD0, 1, 4, 0, 8, .ro, .s, 0, false⟩,
  ⟨0xD4, 1, 4, 0, 16, .ro, .s, 0, false⟩,
  ⟨0xD4, 1, 4, 16, 16, .ro, .s, 0, false⟩,
  ⟨0xD8, 1, 4, 0, 16, .ro, .s, 0, false⟩,
  ⟨0xD8, 1, 4, 16, 16, .ro, .s, 0, false⟩,
  ⟨0xE0, 1, 4, 0, 1, .rw, .s, 1, false⟩,
  ⟨0xE0, 1, 4, 1, 1, .rw, .s, 1, false⟩,
  ⟨0xE0, 1, 4, 2, 1, .rw, .s, 1, false⟩,
  ⟨0xE0, 1, 4, 8, 8, .rw, .s, 0x64, false⟩,
  ⟨0xE4, 1, 4, 0, 16, .rw, .s, 0x11F8, false⟩,
  ⟨0xE4, 1, 4, 16, 16, .rw, .s, 0x14, false⟩,
  ⟨0xE8, 1, 4, 0, 16, .rw, .s, 0x1F4, false⟩,
  ⟨0xEC, 1, 4, 0, 1, .w1c, .s, 0, false⟩,
  ⟨0xEC, 1, 4, 1, 1, .w1c, .s, 0, false⟩,
  ⟨0xEC, 1, 4, 2, 1, .w1c, .s, 0, false⟩,
  ⟨0xEC, 1, 4, 3, 1, .ro, .s, 0, false⟩,
  ⟨0xF00, 1, 4, 0, 16, .rc, .n, 0, false⟩,
  ⟨0xF00, 1, 4, 16, 16, .rc, .n, 0, false⟩]
/-- The fields of R501. -/
def rowsWeir : List Row := rowsWeir0 ++ rowsWeir1
def rowsPwr0 : List Row := [
  ⟨0x40, 1, 4, 0, 2, .ro, .n, 0, false⟩,
  ⟨0x44, 1, 4, 0, 1, .w1s, .n, 0, false⟩,
  ⟨0x48, 1, 4, 0, 16, .wo, .n, 0, false⟩,
  ⟨0x4C, 1, 4, 0, 3, .ro, .a, 0, false⟩,
  ⟨0x4C, 1, 4, 8, 1, .w1c, .a, 0, false⟩,
  ⟨0x4C, 1, 4, 9, 1, .w1c, .a, 0, false⟩,
  ⟨0x4C, 1, 4, 10, 4, .w1c, .a, 0, false⟩,
  ⟨0x50, 1, 4, 0, 16, .rwf, .a, 0, false⟩,
  ⟨0x50, 1, 4, 16, 1, .rwf, .a, 1, false⟩,
  ⟨0x50, 1, 4, 17, 1, .rwf, .a, 1, false⟩,
  ⟨0x54, 1, 4, 0, 6, .rw, .n, 0, false⟩,
  ⟨0x58, 1, 4, 0, 2, .ro, .n, 0, false⟩,
  ⟨0x58, 1, 4, 2, 2, .ro, .n, 0, false⟩,
  ⟨0x58, 1, 4, 4, 1, .ro, .n, 0, false⟩,
  ⟨0x58, 1, 4, 16, 16, .ro, .n, 0, false⟩,
  ⟨0x5C, 1, 4, 0, 32, .ro, .n, 0xFFFFFFFF, false⟩,
  ⟨0x60, 1, 4, 0, 11, .ro, .n, 0x7FF, false⟩,
  ⟨0x64, 1, 4, 0, 6, .ro, .n, 0, false⟩,
  ⟨0x64, 1, 4, 16, 16, .ro, .n, 0, false⟩,
  ⟨0x68, 1, 4, 0, 2, .rwf, .s, 1, false⟩,
  ⟨0x68, 1, 4, 2, 2, .rwf, .s, 1, false⟩,
  ⟨0x68, 1, 4, 4, 2, .rwf, .s, 1, false⟩,
  ⟨0x68, 1, 4, 6, 2, .rwf, .s, 1, false⟩,
  ⟨0x6C, 1, 4, 0, 8, .ro, .n, 0x55, false⟩]
def rowsPwr1 : List Row := [
  ⟨0x6C, 1, 4, 8, 1, .ro, .n, 0, false⟩,
  ⟨0x70, 1, 4, 0, 8, .rwf, .s, 0x55, false⟩,
  ⟨0x70, 1, 4, 8, 8, .rwf, .s, 0x50, false⟩,
  ⟨0x70, 1, 4, 16, 8, .rwf, .s, 0x6E, false⟩,
  ⟨0x74, 1, 4, 0, 16, .ro, .n, 0, false⟩,
  ⟨0x74, 1, 4, 16, 16, .ro, .n, 0, false⟩,
  ⟨0x78, 1, 4, 0, 16, .ro, .n, 0, false⟩,
  ⟨0x78, 1, 4, 16, 16, .ro, .n, 0, false⟩,
  ⟨0x7C, 1, 4, 0, 1, .rwf, .a, 1, false⟩,
  ⟨0x7C, 1, 4, 4, 4, .rwf, .a, 5, false⟩,
  ⟨0x7C, 1, 4, 16, 16, .rwf, .a, 0xBB8, false⟩,
  ⟨0x80, 8, 4, 0, 32, .rwf, .s, 0x4001, false⟩,
  ⟨0xF00, 1, 4, 0, 16, .rc, .n, 0, false⟩,
  ⟨0xF00, 1, 4, 16, 16, .rc, .n, 0, false⟩]
/-- The fields of R535. -/
def rowsPwr : List Row := rowsPwr0 ++ rowsPwr1
def rowsClk0 : List Row := [
  ⟨0x40, 1, 4, 0, 2, .rwf, .s, 0, false⟩,
  ⟨0x40, 1, 4, 2, 1, .rwf, .s, 1, false⟩,
  ⟨0x40, 1, 4, 3, 1, .rwf, .s, 0, false⟩,
  ⟨0x40, 1, 4, 4, 5, .rwf, .s, 0, false⟩,
  ⟨0x44, 1, 4, 0, 2, .ro, .n, 0, false⟩,
  ⟨0x44, 1, 4, 2, 1, .ro, .n, 0, false⟩,
  ⟨0x44, 1, 4, 3, 1, .ro, .n, 0, false⟩,
  ⟨0x44, 1, 4, 4, 1, .ro, .n, 0, false⟩,
  ⟨0x44, 1, 4, 5, 1, .ro, .n, 0, false⟩,
  ⟨0x44, 1, 4, 16, 16, .ro, .s, 0, false⟩,
  ⟨0x48, 1, 4, 0, 2, .rwf, .s, 1, false⟩,
  ⟨0x48, 1, 4, 16, 16, .rwf, .s, 0x3E8, false⟩,
  ⟨0x4C, 1, 4, 0, 32, .rwf, .s, 0x1000000, false⟩,
  ⟨0x50, 1, 4, 0, 8, .rwf, .s, 0, false⟩,
  ⟨0x50, 1, 4, 8, 8, .ro, .n, 0, false⟩,
  ⟨0x54, 1, 4, 0, 4, .ro, .s, 0, false⟩,
  ⟨0x54, 1, 4, 16, 16, .ro, .s, 0, false⟩,
  ⟨0x58, 1, 4, 0, 5, .rw, .s, 0, false⟩,
  ⟨0x58, 1, 4, 5, 1, .rw, .s, 0, false⟩,
  ⟨0x58, 1, 4, 16, 16, .rw, .s, 0, false⟩,
  ⟨0x5C, 1, 4, 0, 5, .rw, .n, 0, false⟩,
  ⟨0x5C, 1, 4, 5, 1, .w1s, .n, 0, false⟩,
  ⟨0x5C, 1, 4, 6, 1, .ro, .n, 0, false⟩,
  ⟨0x60, 1, 4, 0, 32, .ro, .n, 0, false⟩]
def rowsClk1 : List Row := [
  ⟨0x64, 1, 4, 0, 32, .ro, .s, 0, false⟩,
  ⟨0x68, 1, 4, 0, 8, .ro, .s, 0, false⟩,
  ⟨0x6C, 1, 4, 0, 32, .ro, .s, 0, false⟩,
  ⟨0x70, 1, 4, 0, 5, .rw, .n, 0, false⟩,
  ⟨0x74, 1, 4, 0, 1, .ro, .n, 0, false⟩,
  ⟨0x74, 1, 4, 1, 1, .ro, .n, 0, false⟩,
  ⟨0x74, 1, 4, 16, 16, .ro, .n, 0, false⟩,
  ⟨0x78, 1, 4, 0, 32, .ro, .n, 0, false⟩,
  ⟨0x7C, 1, 4, 0, 16, .rwf, .s, 0x1000, false⟩,
  ⟨0x7C, 1, 4, 16, 16, .ro, .n, 0, false⟩]
/-- The fields of R562. -/
def rowsClk : List Row := rowsClk0 ++ rowsClk1
def rowsCue00 : List Row := [
  ⟨0x40, 1, 4, 0, 1, .rwf, .s, 1, false⟩,
  ⟨0x100, 8, 0x20, 0, 3, .rw, .s, 6, false⟩,
  ⟨0x100, 8, 0x20, 4, 7, .rw, .s, 0x40, false⟩,
  ⟨0x100, 8, 0x20, 11, 5, .rw, .s, 0x1F, false⟩,
  ⟨0x100, 8, 0x20, 16, 1, .w1s, .n, 0, false⟩,
  ⟨0x104, 8, 0x20, 0, 5, .ro, .n, 0, false⟩,
  ⟨0x104, 8, 0x20, 5, 1, .ro, .n, 0, false⟩,
  ⟨0x104, 8, 0x20, 6, 1, .ro, .n, 0, false⟩,
  ⟨0x104, 8, 0x20, 8, 6, .ro, .n, 0, false⟩,
  ⟨0x108, 8, 0x20, 0, 9, .ro, .n, 0, false⟩,
  ⟨0x10C, 8, 0x20, 0, 9, .wo, .n, 0, false⟩,
  ⟨0x110, 8, 0x20, 0, 9, .ro, .n, 0, false⟩,
  ⟨0x110, 8, 0x20, 16, 9, .ro, .n, 0, false⟩,
  ⟨0x114, 8, 0x20, 0, 16, .ro, .n, 0, false⟩,
  ⟨0x114, 8, 0x20, 16, 16, .ro, .n, 0, false⟩,
  ⟨0x400, 16, 4, 0, 9, .ro, .n, 0, false⟩,
  ⟨0x440, 16, 4, 0, 9, .ro, .n, 0, false⟩,
  ⟨0x480, 16, 4, 0, 9, .ro, .n, 0, false⟩,
  ⟨0x4C0, 16, 4, 0, 9, .ro, .n, 0, false⟩,
  ⟨0x500, 16, 4, 0, 9, .ro, .n, 0, false⟩,
  ⟨0x540, 16, 4, 0, 9, .ro, .n, 0, false⟩,
  ⟨0x580, 16, 4, 0, 9, .ro, .n, 0, false⟩,
  ⟨0x5C0, 16, 4, 0, 9, .ro, .n, 0, false⟩,
  ⟨0x400, 16, 4, 16, 6, .ro, .n, 0, false⟩]
def rowsCue01 : List Row := [
  ⟨0x440, 16, 4, 16, 6, .ro, .n, 0, false⟩,
  ⟨0x480, 16, 4, 16, 6, .ro, .n, 0, false⟩,
  ⟨0x4C0, 16, 4, 16, 6, .ro, .n, 0, false⟩,
  ⟨0x500, 16, 4, 16, 6, .ro, .n, 0, false⟩,
  ⟨0x540, 16, 4, 16, 6, .ro, .n, 0, false⟩,
  ⟨0x580, 16, 4, 16, 6, .ro, .n, 0, false⟩,
  ⟨0x5C0, 16, 4, 16, 6, .ro, .n, 0, false⟩,
  ⟨0x400, 16, 4, 31, 1, .ro, .n, 0, false⟩,
  ⟨0x440, 16, 4, 31, 1, .ro, .n, 0, false⟩,
  ⟨0x480, 16, 4, 31, 1, .ro, .n, 0, false⟩,
  ⟨0x4C0, 16, 4, 31, 1, .ro, .n, 0, false⟩,
  ⟨0x500, 16, 4, 31, 1, .ro, .n, 0, false⟩,
  ⟨0x540, 16, 4, 31, 1, .ro, .n, 0, false⟩,
  ⟨0x580, 16, 4, 31, 1, .ro, .n, 0, false⟩,
  ⟨0x5C0, 16, 4, 31, 1, .ro, .n, 0, false⟩,
  ⟨0xF00, 8, 4, 0, 9, .rc, .n, 0, false⟩]
/-- The fields of R586. -/
def rowsCue0 : List Row := rowsCue00 ++ rowsCue01
def rowsCue10 : List Row := [
  ⟨0x100, 512, 4, 0, 1, .rwf, .s, 0, false⟩,
  ⟨0x100, 512, 4, 1, 3, .rwf, .s, 0, false⟩,
  ⟨0x100, 512, 4, 4, 6, .rwf, .s, 0x3F, false⟩,
  ⟨0x100, 512, 4, 11, 5, .rwf, .s, 0, false⟩,
  ⟨0x100, 512, 4, 16, 8, .rwf, .s, 2, false⟩]
/-- The fields of R586. -/
def rowsCue1 : List Row := rowsCue10
def rowsCue20 : List Row := [
  ⟨0x100, 16, 4, 0, 32, .ro, .n, 0, false⟩,
  ⟨0x140, 16, 4, 0, 32, .ro, .n, 0, false⟩,
  ⟨0x180, 16, 4, 0, 32, .ro, .n, 0, false⟩]
/-- The fields of R586. -/
def rowsCue2 : List Row := rowsCue20
def rowsCue30 : List Row := [
  ⟨0x100, 7, 4, 0, 32, .w1s, .n, 0, false⟩,
  ⟨0x120, 7, 4, 0, 32, .w1c, .n, 0, false⟩]
/-- The fields of R586. -/
def rowsCue3 : List Row := rowsCue30
def rowsVault0 : List Row := [
  ⟨0x40, 1, 4, 0, 2, .ro, .v, 0, false⟩,
  ⟨0x40, 1, 4, 2, 1, .ro, .a, 0, false⟩,
  ⟨0x40, 1, 4, 3, 1, .w1c, .v, 1, false⟩,
  ⟨0x40, 1, 4, 4, 1, .ro, .n, 0, false⟩,
  ⟨0x40, 1, 4, 5, 1, .ro, .n, 0, false⟩,
  ⟨0x40, 1, 4, 6, 1, .w1c, .n, 0, false⟩,
  ⟨0x44, 1, 4, 0, 4, .rw, .n, 0, false⟩,
  ⟨0x44, 1, 4, 4, 5, .rw, .n, 0, false⟩,
  ⟨0x44, 1, 4, 9, 5, .rw, .n, 0, false⟩,
  ⟨0x44, 1, 4, 14, 4, .rw, .n, 0, false⟩,
  ⟨0x44, 1, 4, 18, 1, .rw, .n, 0, false⟩,
  ⟨0x44, 1, 4, 20, 4, .ro, .n, 0, false⟩,
  ⟨0x48, 1, 4, 0, 11, .rw, .n, 0, false⟩,
  ⟨0x48, 1, 4, 16, 10, .rw, .n, 0, false⟩,
  ⟨0x4C, 1, 4, 0, 11, .ro, .n, 0, false⟩,
  ⟨0x50, 1, 4, 0, 4, .w1s, .n, 0, false⟩,
  ⟨0x54, 1, 4, 0, 5, .rw, .n, 0, false⟩,
  ⟨0x58, 1, 4, 0, 1, .ro, .n, 0, false⟩,
  ⟨0x58, 1, 4, 1, 1, .ro, .n, 0, false⟩,
  ⟨0x58, 1, 4, 2, 1, .ro, .n, 0, false⟩,
  ⟨0x58, 1, 4, 3, 1, .ro, .n, 0, false⟩,
  ⟨0x58, 1, 4, 4, 1, .ro, .n, 0, false⟩,
  ⟨0x58, 1, 4, 5, 4, .ro, .n, 0, false⟩,
  ⟨0x58, 1, 4, 10, 6, .ro, .n, 0, false⟩]
def rowsVault1 : List Row := [
  ⟨0x5C, 1, 4, 0, 6, .rw, .n, 0x10, false⟩,
  ⟨0x60, 1, 4, 0, 2, .rw, .v, 0, false⟩,
  ⟨0x60, 1, 4, 2, 2, .rw, .v, 0, false⟩,
  ⟨0x60, 1, 4, 4, 1, .w1s, .v, 0, false⟩,
  ⟨0x64, 1, 4, 0, 6, .ro, .n, 0, false⟩,
  ⟨0x68, 1, 4, 0, 3, .ro, .v, 0, false⟩,
  ⟨0x68, 1, 4, 3, 1, .w1c, .v, 0, false⟩,
  ⟨0x68, 1, 4, 8, 1, .w1s, .v, 0, false⟩,
  ⟨0x70, 4, 8, 0, 6, .ro, .v, 0, false⟩,
  ⟨0x74, 4, 8, 0, 32, .ro, .v, 0, false⟩,
  ⟨0x90, 1, 4, 0, 32, .ro, .v, 0, false⟩,
  ⟨0x94, 1, 4, 0, 16, .ro, .n, 0, false⟩,
  ⟨0x100, 12, 4, 0, 32, .ro, .n, 0, false⟩,
  ⟨0x130, 12, 4, 0, 32, .ro, .n, 0, false⟩,
  ⟨0x160, 12, 4, 0, 32, .ro, .n, 0, false⟩,
  ⟨0x190, 12, 4, 0, 32, .ro, .n, 0, false⟩,
  ⟨0x1C0, 4, 4, 0, 16, .ro, .n, 0, false⟩,
  ⟨0x400, 256, 4, 0, 32, .rw, .n, 0, false⟩,
  ⟨0x800, 256, 4, 0, 32, .ro, .n, 0, false⟩]
/-- The fields of R608. -/
def rowsVault : List Row := rowsVault0 ++ rowsVault1
def rowsLeat0 : List Row := [
  ⟨0x40, 1, 4, 0, 1, .rw, .s, 1, false⟩,
  ⟨0x40, 1, 4, 1, 1, .w1s, .n, 0, false⟩,
  ⟨0x40, 1, 4, 2, 2, .rwf, .s, 0, false⟩,
  ⟨0x44, 1, 4, 0, 3, .ro, .n, 0, false⟩,
  ⟨0x44, 1, 4, 3, 3, .ro, .n, 0, false⟩,
  ⟨0x44, 1, 4, 6, 2, .ro, .n, 0, false⟩,
  ⟨0x44, 1, 4, 8, 1, .ro, .n, 0, false⟩,
  ⟨0x44, 1, 4, 9, 2, .ro, .n, 0, false⟩,
  ⟨0x44, 1, 4, 11, 1, .ro, .n, 0, false⟩,
  ⟨0x44, 1, 4, 12, 1, .ro, .n, 0, false⟩,
  ⟨0x44, 1, 4, 13, 1, .ro, .n, 0, false⟩,
  ⟨0x48, 1, 4, 0, 5, .rwf, .n, 0, false⟩,
  ⟨0x48, 1, 4, 5, 5, .rwf, .n, 0, false⟩,
  ⟨0x48, 1, 4, 10, 1, .w1s, .n, 0, false⟩,
  ⟨0x48, 1, 4, 11, 1, .w1c, .n, 0, false⟩,
  ⟨0x4C, 1, 4, 0, 20, .ro, .n, 0, false⟩,
  ⟨0x50, 1, 4, 0, 16, .ro, .n, 0, false⟩,
  ⟨0x54, 1, 4, 0, 16, .ro, .n, 0, false⟩,
  ⟨0x54, 1, 4, 16, 16, .ro, .n, 0, false⟩,
  ⟨0x58, 1, 4, 0, 10, .rwf, .n, 0, false⟩,
  ⟨0x58, 1, 4, 10, 1, .w1s, .n, 0, false⟩,
  ⟨0x58, 1, 4, 11, 1, .ro, .n, 0, false⟩,
  ⟨0x58, 1, 4, 16, 10, .ro, .n, 0, false⟩,
  ⟨0x58, 1, 4, 26, 1, .w1c, .n, 0, false⟩]
def rowsLeat1 : List Row := [
  ⟨0x400, 128, 4, 0, 32, .rwf, .n, 0, false⟩,
  ⟨0x600, 128, 4, 0, 32, .ro, .n, 0, false⟩]
/-- The fields of R639. -/
def rowsLeat : List Row := rowsLeat0 ++ rowsLeat1
def rowsFabric0 : List Row := [
  ⟨0x40, 1, 4, 0, 2, .ro, .a, 0, false⟩,
  ⟨0x40, 1, 4, 2, 2, .ro, .a, 0, false⟩,
  ⟨0x44, 1, 4, 0, 1, .rwf, .s, 1, false⟩,
  ⟨0x44, 1, 4, 1, 1, .rwf, .s, 1, false⟩,
  ⟨0x44, 1, 4, 2, 1, .rwf, .s, 0, false⟩,
  ⟨0x48, 1, 4, 0, 2, .ro, .n, 0, false⟩,
  ⟨0x48, 1, 4, 2, 2, .ro, .n, 0, false⟩,
  ⟨0x48, 1, 4, 4, 1, .ro, .n, 0, false⟩,
  ⟨0x48, 1, 4, 5, 7, .ro, .n, 0, false⟩,
  ⟨0x48, 1, 4, 12, 4, .ro, .n, 0, false⟩,
  ⟨0x48, 1, 4, 16, 4, .ro, .n, 0, false⟩,
  ⟨0x48, 1, 4, 20, 2, .ro, .n, 0, false⟩,
  ⟨0x4C, 1, 4, 0, 16, .ro, .n, 0, false⟩,
  ⟨0x50, 1, 4, 0, 32, .rwf, .s, 0, false⟩,
  ⟨0x54, 1, 4, 0, 32, .rwf, .s, 0, false⟩,
  ⟨0x58, 1, 4, 0, 16, .rwf, .s, 0, false⟩,
  ⟨0x58, 1, 4, 16, 16, .rwf, .s, 0, false⟩,
  ⟨0x5C, 1, 4, 0, 32, .rwf, .s, 0, false⟩,
  ⟨0x60, 1, 4, 0, 32, .ro, .n, 0, false⟩,
  ⟨0x64, 1, 4, 0, 16, .rwf, .s, 0x64, false⟩,
  ⟨0x68, 1, 4, 0, 16, .ro, .n, 0, false⟩,
  ⟨0x68, 1, 4, 16, 16, .ro, .n, 0, false⟩,
  ⟨0x6C, 1, 4, 0, 2, .ro, .n, 0, false⟩,
  ⟨0x6C, 1, 4, 2, 2, .ro, .n, 0, false⟩]
def rowsFabric1 : List Row := [
  ⟨0x6C, 1, 4, 4, 2, .ro, .n, 0, false⟩,
  ⟨0x6C, 1, 4, 6, 2, .ro, .n, 0, false⟩,
  ⟨0x6C, 1, 4, 8, 2, .ro, .n, 0, false⟩,
  ⟨0x6C, 1, 4, 10, 2, .ro, .n, 0, false⟩,
  ⟨0x6C, 1, 4, 12, 2, .ro, .n, 0, false⟩,
  ⟨0x6C, 1, 4, 14, 2, .ro, .n, 0, false⟩,
  ⟨0x70, 1, 4, 0, 16, .ro, .n, 0, false⟩,
  ⟨0x70, 1, 4, 16, 2, .ro, .n, 0, false⟩,
  ⟨0x74, 1, 4, 0, 16, .ro, .n, 0, false⟩]
/-- The fields of R641. -/
def rowsFabric : List Row := rowsFabric0 ++ rowsFabric1
def rowsChip0 : List Row := [
  ⟨0x40, 1, 4, 0, 8, .ro, .a, 0, false⟩,
  ⟨0x44, 1, 4, 0, 7, .w1c, .a, 0, false⟩,
  ⟨0x48, 1, 4, 0, 2, .ro, .s, 0, false⟩,
  ⟨0x48, 1, 4, 2, 1, .ro, .s, 0, false⟩,
  ⟨0x48, 1, 4, 3, 1, .ro, .s, 0, false⟩,
  ⟨0x48, 1, 4, 4, 4, .ro, .s, 0, false⟩,
  ⟨0x4C, 1, 4, 0, 16, .ro, .s, 0, false⟩,
  ⟨0x50, 1, 4, 0, 32, .ro, .s, 0, false⟩,
  ⟨0x54, 1, 4, 0, 16, .ro, .s, 0, false⟩,
  ⟨0x54, 1, 4, 16, 16, .ro, .a, 0, false⟩,
  ⟨0x58, 1, 4, 0, 16, .wo, .n, 0, false⟩,
  ⟨0x5C, 1, 4, 0, 1, .rwf, .n, 1, false⟩,
  ⟨0x5C, 1, 4, 16, 16, .rwf, .n, 0x7D0, false⟩,
  ⟨0x60, 1, 4, 0, 16, .wo, .n, 0, false⟩,
  ⟨0x64, 1, 4, 0, 16, .ro, .n, 0x7D0, false⟩,
  ⟨0x64, 1, 4, 16, 1, .ro, .n, 0, false⟩]
/-- The fields of R664. -/
def rowsChip : List Row := rowsChip0
def rowsMiller0 : List Row := [
  ⟨0x40, 1, 4, 0, 1, .rwf, .n, 1, false⟩,
  ⟨0x50, 3, 0x10, 0, 1, .rwf, .n, 0, false⟩,
  ⟨0x40, 4, 0x10, 1, 1, .w1s, .n, 0, false⟩,
  ⟨0x44, 4, 0x10, 0, 32, .rwf, .n, 0, false⟩,
  ⟨0x48, 4, 0x10, 0, 32, .rwf, .n, 0, false⟩,
  ⟨0x4C, 4, 0x10, 0, 2, .ro, .n, 0, false⟩,
  ⟨0x100, 1, 4, 0, 1, .w1s, .n, 0, false⟩,
  ⟨0x100, 1, 4, 1, 1, .w1s, .n, 0, false⟩,
  ⟨0x100, 1, 4, 2, 1, .ro, .n, 0, false⟩,
  ⟨0x100, 1, 4, 4, 4, .ro, .n, 0, false⟩,
  ⟨0x104, 1, 4, 0, 32, .wo, .n, 0, false⟩,
  ⟨0x108, 1, 4, 0, 23, .ro, .n, 0, false⟩]
/-- The fields of R665. -/
def rowsMiller : List Row := rowsMiller0
def rowsBist0 : List Row := [
  ⟨0x40, 1, 4, 0, 2, .rw, .n, 0, false⟩,
  ⟨0x40, 1, 4, 2, 1, .w1s, .n, 0, false⟩,
  ⟨0x40, 1, 4, 3, 1, .ro, .n, 0, false⟩,
  ⟨0x40, 1, 4, 4, 1, .w1s, .n, 0, false⟩,
  ⟨0x44, 1, 4, 0, 32, .rw, .n, 0, false⟩,
  ⟨0x48, 1, 4, 0, 11, .rw, .n, 0, false⟩,
  ⟨0x4C, 1, 4, 0, 6, .ro, .s, 0, false⟩,
  ⟨0x4C, 1, 4, 6, 3, .ro, .s, 0, false⟩,
  ⟨0x50, 1, 4, 0, 6, .rw, .n, 0, false⟩,
  ⟨0x54, 1, 4, 0, 1, .ro, .s, 0, false⟩,
  ⟨0x54, 1, 4, 1, 1, .ro, .s, 0, false⟩,
  ⟨0x54, 1, 4, 2, 1, .ro, .s, 0, false⟩,
  ⟨0x54, 1, 4, 3, 2, .ro, .s, 0, false⟩,
  ⟨0x54, 1, 4, 16, 16, .ro, .s, 0, false⟩,
  ⟨0x58, 1, 4, 0, 32, .ro, .s, 0, false⟩,
  ⟨0x5C, 1, 4, 0, 32, .ro, .s, 0, false⟩,
  ⟨0x60, 1, 4, 0, 32, .ro, .a, 0, false⟩,
  ⟨0x64, 1, 4, 0, 32, .ro, .a, 0, false⟩]
/-- The fields of R666. -/
def rowsBist : List Row := rowsBist0
def rowsMisc0 : List Row := [
  ⟨0x40, 1, 4, 0, 32, .rw, .s, 0, false⟩,
  ⟨0x44, 1, 4, 0, 32, .rw, .s, 0, false⟩,
  ⟨0x48, 1, 4, 0, 32, .ro, .n, 0, false⟩,
  ⟨0x4C, 1, 4, 0, 32, .rw, .s, 0, false⟩,
  ⟨0x50, 1, 4, 0, 32, .rw, .s, 0, false⟩,
  ⟨0x54, 1, 4, 0, 32, .w1c, .n, 0, false⟩,
  ⟨0x60, 2, 0x10, 0, 1, .rwf, .s, 0, false⟩,
  ⟨0x60, 2, 0x10, 1, 1, .rwf, .s, 0, false⟩,
  ⟨0x60, 2, 0x10, 2, 2, .rwf, .s, 1, false⟩,
  ⟨0x64, 2, 0x10, 0, 7, .rwf, .n, 0, false⟩,
  ⟨0x64, 2, 0x10, 7, 1, .rwf, .n, 0, false⟩,
  ⟨0x64, 2, 0x10, 8, 5, .rwf, .n, 0, false⟩,
  ⟨0x64, 2, 0x10, 13, 1, .w1s, .n, 0, false⟩,
  ⟨0x68, 2, 0x10, 0, 1, .w1c, .n, 0, false⟩,
  ⟨0x68, 2, 0x10, 1, 1, .w1c, .n, 0, false⟩,
  ⟨0x68, 2, 0x10, 2, 1, .w1c, .n, 0, false⟩,
  ⟨0x68, 2, 0x10, 3, 5, .ro, .n, 0, false⟩,
  ⟨0x6C, 2, 0x10, 0, 8, .wo, .n, 0, false⟩,
  ⟨0x80, 1, 4, 0, 1, .rwf, .s, 1, false⟩,
  ⟨0x80, 1, 4, 1, 2, .rwf, .s, 0, false⟩,
  ⟨0x80, 1, 4, 3, 8, .rwf, .s, 8, false⟩,
  ⟨0x84, 1, 4, 0, 8, .rwf, .n, 0, false⟩,
  ⟨0x84, 1, 4, 8, 1, .rwf, .n, 0, false⟩,
  ⟨0x84, 1, 4, 9, 1, .rwf, .n, 0, false⟩]
def rowsMisc1 : List Row := [
  ⟨0x84, 1, 4, 10, 9, .rwf, .n, 0, false⟩,
  ⟨0x84, 1, 4, 19, 1, .w1s, .n, 0, false⟩,
  ⟨0x88, 1, 4, 0, 32, .rwf, .n, 0, false⟩,
  ⟨0x8C, 1, 4, 0, 32, .wo, .n, 0, false⟩,
  ⟨0xA0, 1, 4, 0, 1, .rw, .s, 0, false⟩,
  ⟨0xA0, 1, 4, 16, 16, .rw, .s, 0x15, false⟩,
  ⟨0xA4, 1, 4, 0, 1, .ro, .n, 0, false⟩,
  ⟨0xA4, 1, 4, 1, 1, .ro, .n, 1, false⟩,
  ⟨0xA4, 1, 4, 2, 1, .w1c, .n, 0, false⟩,
  ⟨0xA8, 1, 4, 0, 8, .wo, .n, 0, false⟩,
  ⟨0xB0, 1, 4, 0, 7, .rwf, .a, 0, false⟩,
  ⟨0xF00, 2, 4, 0, 8, .rc, .n, 0, false⟩,
  ⟨0xF08, 1, 4, 0, 32, .rc, .n, 0, false⟩,
  ⟨0xF0C, 1, 4, 0, 8, .rc, .n, 0, false⟩]
/-- The fields of R682. -/
def rowsMisc : List Row := rowsMisc0 ++ rowsMisc1

end Sys2Proof.Machine
end

