-- ==== Sys2Proof/Machine/State.lean ====
section
/-! DEFINITION. The state of the hub as plain data: the registers of the window, the memories, and everything the spec
names that no register shows; the reasons a step can stop; and State.reset. -/

namespace Sys2Proof.Machine

/-- The page kinds and table regions of the register window (R35), the BAR0 of a NIC (R343),
and the BAR4 of a slice's management endpoint (R345). -/
inductive Kind where
  | chip | pwr | clk | cue0 | cue1 | cue2 | cue3 | pstk | tally | vault | bist | miller
  | typec | link | weir | mill | hopper | sluice | gate | proj | dpo | reel | slice | usbhub | dockfn
  | tailrace | ethmac | pciedn | leat | fabric | aud | misc | sluiceOut
  | path | stats | mcast | wred | policer | tallyTab | nic | msix
  deriving DecidableEq, Repr

/-- A finite map held as a list of keys and values: keys strictly rising, no entry equal to what an unlisted key
reads as (Machine/Ops.lean has its operations). -/
abbrev Tbl (α : Type) := List (Nat × α)

/-- The Reel memory of 4 GiB, one entry for each byte that differs from what unlisted memory reads as (R257). -/
abbrev Memory := List Host.Cell

/-- The value of a key in a burnt table; 0 where it lists none. -/
def tableAt : List (Nat × Nat) → Nat → Nat
  | [], _ => 0
  | (k, v) :: t, i => if k = i then v else tableAt t i

/-- What is burnt or strapped outside the hub's own control: OTP (R1, R20, R653), straps and balls (R610, R652).
Plain data; of it only the enrolment key is ever burnt in a run, by PROVISION (R591). -/
structure Otp where
  /-- CHIP.VARIANT.CODE (R2). -/
  variant : Nat
  /-- Identifiers of the dock function (R405). -/
  dockVid : Nat
  dockPid : Nat
  /-- Vendor and device ID of PCIe function 0 (R346). -/
  fn0Vendor : Nat
  fn0Device : Nat
  /-- First MAC address; NIC s has this plus s (R343). -/
  macBase : Nat
  /-- SNK_CTL.MAX_MW (R447), LEDGER.BUDGET_MW (R449), SRC_PDO 0 (R439). -/
  sinkMaxMw : Nat
  ledgerMw : Nat
  srcPdo0 : Nat
  /-- Weir settings by channel; the curve tables are keyed 8 × channel + step (R472, R482, R681). -/
  shuntUohm : List (Nat × Nat)
  fastMa : List (Nat × Nat)
  curveMa : List (Nat × Nat)
  curveUs : List (Nat × Nat)
  /-- MIN_SVN, the image key digests, OWNER_LOCK and RECOVERY_EN (R655, R656). -/
  minSvn : Nat
  vendorDigest : Bytes
  ownerDigest : Option Bytes
  ownerLock : Bool
  recoveryEn : Bool
  /-- BIST golden signatures, keyed 4 × domain + type (R660). -/
  golden : List (Nat × Nat)
  /-- MISC.BMC_TGT.ADDR (R685). -/
  bmcAddr : Nat
  /-- The enrolment key as burnt before the run is still there (R591). -/
  enrolKey : Bool
  /-- The private half of the enrolment key (R590). -/
  enrolPriv : Bytes
  /-- The ROM's address, which MILLER.ENTRY starts at, and its bytes, which the Vault measures (R593, R665). -/
  romBase : Nat
  romImage : Bytes
  /-- CASC_ROLE, CASC_ID and BOOT_MODE as the balls show them (R610, R652). -/
  strapRole : Nat
  strapId : Nat
  bootMode : Nat
  deriving DecidableEq, Repr

/-- What a stalled access waits for: its turn behind the requester's earlier accesses (R370), its domain (R53, R513), or the
reset of a slice (R691). -/
inductive Await where
  | queued
  | ready (domain : Nat)
  | slice (s : Nat)
  deriving DecidableEq, Repr

/-- An access of a requester (R53). `reel`: in the Reel window; `dock`: by a vendor request of the dock function (R408).
`bytes` holds the data of a write to the Reel window by its byte enables (R350). -/
structure Access where
  req : Req
  reel : Bool
  dock : Bool
  addr : Nat
  size : Nat
  write : Bool
  value : BitVec 64
  bytes : List (Option Byte)
  await : Await
  deriving DecidableEq, Repr

/-- What drives the output pads of a page (R523, R524). -/
inductive PadDrive where
  | driven
  | latched
  | highZ
  deriving DecidableEq, Repr

/-- A power domain (R504, R508, R513): 0 RUN, 1 DOZE, 2 NAP, 3 OFF. -/
structure DomSt where
  state : Nat
  waking : Bool
  /-- The state the wake under way ends in: RUN, or the floor or the deepest state permitted (R511, R534). -/
  wakeTo : Nat
  /-- Entry in progress to NAP (2) or OFF (3); 0 when none (R508, R516). -/
  entering : Nat
  /-- Fabric time of the wake cause (R514) and the duration of the last wake in µs. -/
  wakeAt : Nat
  lastWakeUs : Nat
  /-- A BIST run holds the domain in reset (R660). -/
  resetting : Bool
  deriving DecidableEq, Repr

/-- The part of the reference board: an FY9-480 with the shunts and fast limits of R681. The rest of OTP is the model's
choice (assumption log 3). -/
def Otp.fy9_480 : Otp :=
  { variant := 1, dockVid := 0, dockPid := 0, fn0Vendor := 0, fn0Device := 0, macBase := 0, sinkMaxMw := 0, ledgerMw := 0, srcPdo0 := 0
    shuntUohm := [(0, 5000), (1, 5000), (2, 5000), (3, 5000), (4, 5000), (5, 5000), (6, 5000), (7, 5000),
      (8, 5000), (9, 5000), (10, 5000), (11, 5000), (12, 2000), (13, 10000)]
    fastMa := [(0, 9500), (1, 9500), (2, 9500), (3, 9500), (4, 9500), (5, 9500), (6, 9500), (7, 9500),
      (8, 9500), (9, 9500), (10, 9500), (11, 9500), (12, 20000), (13, 4500)]
    curveMa := [], curveUs := [], minSvn := 0, vendorDigest := [], ownerDigest := none, ownerLock := false
    recoveryEn := false, golden := [], bmcAddr := 0, enrolKey := true, enrolPriv := [], romBase := 0, romImage := []
    strapRole := 0, strapId := 0, bootMode := 0 }

/-- A cell of the Hopper (R113, R128): its number, its payload and the corruption that INJECT put into it (R152). -/
structure HCell where
  num : Nat
  bytes : Bytes
  single : Bool
  double : Bool
  badLink : Bool
  deriving DecidableEq, Repr

/-- A copy of a stored chain toward one outlet (R145). -/
structure Copy where
  outlet : Nat
  hop : Nat
  /-- Packets read from the Hopper toward the outlet, and packets departed (R555). -/
  sent : Nat
  departed : Nat
  /-- The entry asked for cut-through at the lookup (R120, R136). -/
  cut : Bool
  /-- Held until the next refill point (R217). -/
  held : Bool
  /-- The copy ends, marked, at its next packet (R149). -/
  endNext : Bool
  /-- Not yet started when an uncorrectable cell was found: it leaves whole and marked (R149). -/
  whole : Bool
  /-- No further packet is read; done: every packet read has departed or was discarded, so the copy has departed. -/
  closed : Bool
  done : Bool
  /-- It was ended before the chain's last packet: each later packet of the chain counts for it as dropped red (R135, R149). -/
  ended : Bool
  deriving DecidableEq, Repr

/-- A chain stored in the Hopper, or being written into it (R112, R128). -/
structure Chain where
  id : Nat
  path : Nat
  ingress : Nat
  /-- The hop number of its key. -/
  hop : Nat
  /-- Switch port on which a frame at ingress 21 entered the Tailrace switch; 4 or more: a NIC (R143). -/
  entryPort : Nat
  /-- Run as LOSSY (R118, R317). -/
  lossy : Bool
  /-- 0 green, 1 yellow, 2 red (R128). -/
  colour : Nat
  /-- The policer profile that coloured it. -/
  profile : Nat
  /-- Which buckets the first packet drew on (R213): 0 none, 1 Tp only, 2 both. -/
  buckets : Nat
  cells : List HCell
  /-- The last cell is written. -/
  complete : Bool
  tailmark : Bool
  /-- LOSSY room reserved and not yet used (R130). -/
  room : Nat
  /-- The WRED profile that judged it, and the outlets at which its copy was dropped: its later packets count there too (R112,
  R220). -/
  wred : Nat
  lost : List Nat
  copies : List Copy
  deriving DecidableEq, Repr

/-- How the packets of a chain discarded behind its Forebay count (R112, R118): the path, the colour of its dropped counter, the
policer profile and the colour that it gave (R214), the WRED profile and the outlets at which WRED dropped the chain, and whether
each packet is a configuration fault of its own (R693). -/
structure Discard where
  path : Option Nat
  colour : Nat
  profile : Nat
  policed : Nat
  wred : Nat
  lost : List Nat
  fault : Bool
  deriving DecidableEq, Repr

/-- What became of a chain at a Forebay head (R118): not yet judged, being written, or discarded there. `refused`: discarded at
the Forebay itself, and so is what is still to come of it (R116, R139, R556). -/
inductive Fate where
  | waiting
  | storing (id : Nat)
  | dropped (d : Discard)
  | refused
  deriving DecidableEq, Repr

/-- A chain in a Forebay (R116): its hop number, the packets not yet admitted and what is still to come. -/
structure FbChain where
  hop : Nat
  packets : List Bytes
  /-- The last packet has arrived. -/
  closed : Bool
  /-- The ingress block found the chain bad (R139). -/
  bad : Bool
  /-- Pre-colour of R210. -/
  colour : Nat
  /-- The path under whose credit its packets were sent (R131, R693). -/
  credit : Option Nat
  entryPort : Nat
  /-- Packets of it that have left the Forebay (R111). -/
  taken : Nat
  fate : Fate
  deriving DecidableEq, Repr

/-- A Forebay with its high-water mark and its drops (R116, R155). -/
structure Forebay where
  chains : List FbChain
  hwm : Nat
  drops : Nat
  deriving DecidableEq, Repr

/-- A packet in the TX half of a crossing, or in the queue toward an internal unit (R555). -/
structure XEntry where
  chain : Nat
  path : Nat
  /-- The hop number written, and the key of the lookup. -/
  hop : Nat
  ingress : Nat
  inHop : Nat
  lossy : Bool
  bytes : Bytes
  last : Bool
  marked : Bool
  deriving DecidableEq, Repr

/-- A half of a domain crossing (R554, R556). -/
structure Half where
  flush : Bool
  resyncs : Nat
  drops : Nat
  deriving DecidableEq, Repr

/-- What the Sluice keeps for a path (R169–R185). -/
structure PathSt where
  arrived : Nat
  limitedNow : Bool
  limited : Bool
  raw : Nat
  backlogged : Bool
  suspended : Bool
  provisional : Bool
  stop : Nat
  next : Nat
  deriving DecidableEq, Repr

/-- A flow: a path at one of its outlets (R192, R199–R207, R695). -/
structure Flow where
  live : Bool
  queue : List Nat
  tokens : Int
  acc : Nat
  tag : Option Nat
  fprev : Nat
  /-- Turn of the last selection plus one; 0: never (R202). -/
  lastSel : Nat
  /-- Backlogged without a break since the last turn boundary (R226). -/
  sinceTurn : Bool
  deriving DecidableEq, Repr

/-- What an outlet keeps for a class (R196–R207). -/
structure ClassSt where
  v : Nat
  tag : Option Nat
  fprev : Nat
  lastSel : Nat
  /-- Class shaper of classes 0 and 1: accumulator, tokens, and whether it held a token in this turn (R226). -/
  acc : Nat
  tokens : Int
  hadToken : Bool
  deriving DecidableEq, Repr

/-- An outlet's service state: the inter-class V (R203), the chain that keeps the egress (R198), the CAP_TX = 0 watch of
R135, and the classes paused by PFC with the MAC's pause (R328). -/
structure OutletSt where
  vInter : Nat
  busy : Option Nat
  /-- CAP_TX has been 0 since before the last turn boundary (R135). -/
  dead : Bool
  /-- Bit c: class c paused by the partner (R328). -/
  paused : Nat
  deriving DecidableEq, Repr

/-- The turn clock (R161–R168). -/
structure TurnSt where
  lastBoundary : Option Nat
  /-- A computation began at the last boundary (R164, R167); it is under way; it is complete. -/
  began : Bool
  computing : Bool
  computed : Bool
  refillPending : Bool
  /-- The instant of the refill point of the last boundary (R162, R694). -/
  refillAt : Nat
  /-- A boundary passed with MILL in NAP or OFF (R166). -/
  missed : Bool
  deriving DecidableEq, Repr

/-- What waits until its island has been raised from LOW (R519): a training that would end in a link LOW cannot carry, a
Gate leaving DISABLED, a Projector being enabled. -/
inductive HeldStart where
  | link (n mode ms : Nat)
  | pcie (port gen width ms : Nat)
  | eth (mac phy : Nat)
  | leat (leat : Nat) (peer : LeatPeer) (status : LeatStatus)
  | gate (g : Nat)
  | head (p : Nat)
  deriving DecidableEq, Repr

/-- Voltage islands, temperature and SHELF (R518–R531). -/
structure PowerSt where
  /-- The point an island's running change leads to, plus one, by island; 0: no change runs (R518). -/
  dvfsTo : Tbl Nat
  /-- Bit 4: the temperature is at or above HOT_C. Bit i: island i stands at HIGH for it (R521). -/
  hotIslands : Nat
  /-- The temperature has reached CRIT_C and not fallen below it since (R522). -/
  critical : Bool
  /-- 0 not in SHELF, 1 entry in progress, 2 in SHELF (R526–R530). -/
  shelf : Nat
  /-- A wake source that appeared during the entry (R534). -/
  shelfWake : Option WakeSource
  /-- The wake sources that are asserted, as the outside last gave them (R526). -/
  sources : List WakeSource
  /-- Starts that wait for a raise (R519), oldest first. -/
  heldStarts : List HeldStart
  deriving DecidableEq, Repr

/-- The clocks: muxes, reference, meter (R537–R553). -/
structure ClockSt where
  /-- Bit c: clock c runs from the Shaft; 0: crystal bypass, in the order of R546. -/
  shaft : Nat
  /-- Bitmap of the muxes that switch: 0 reference, 1–8 the clocks, 9 CLKOUT (R543). -/
  muxBusy : Nat
  /-- What the CLKOUT divider takes: source and division, once its mux has switched (R551). -/
  clkoutSrc : Nat
  clkoutDiv : Nat
  /-- The hub runs from the crystal although SEL names another reference (R540, R541). -/
  fellBack : Bool
  /-- SRC of the meter's open gate (R553). -/
  meterSrc : Nat
  deriving DecidableEq, Repr

/-- An assignable unit in a handover or a disconnect hold (R88–R95), by the unit bits of R105. -/
structure UnitSt where
  /-- Its disconnect hold runs (R88, R98). -/
  hold : Bool
  /-- A training is due at the end of the hold for a slice reset (R98). -/
  train : Bool
  /-- Fabric time of the release write (R105, HO_DURATION). -/
  relAt : Nat
  /-- An attach has been accepted and its link trains (R91). -/
  attaching : Bool
  deriving DecidableEq, Repr

/-- A path table entry that the hub created for a connection manager or for itself (R79, R333, R369, R402). -/
structure CmPath where
  slice : Nat
  /-- What the path serves. -/
  kind : CmKind
  /-- DP OUT adapter 0–3 of a dpOut path, or the port of an internal path. -/
  adapter : Nat
  /-- Its USB4 Priority and whether a connection manager holds it (and not the hub for itself). -/
  byCm : Bool
  deriving DecidableEq, Repr

/-- A frame that a Gate is writing (R246, R247). -/
structure GateFrame where
  /-- A selective-update frame with the bands its regions touch (R249). -/
  su : Bool
  bands : Nat
  /-- The CRC register over the pixels written so far (R255). -/
  crc : BitVec 32
  /-- The bytes of a compressed frame so far (R242). -/
  coded : Bytes
  deriving DecidableEq, Repr

/-- What a Gate holds beside its registers. -/
structure GateSt where
  /-- HPD toward its DP OUT adapter, and the 100 ms low pulse of R238. -/
  hpd : Bool
  pulse : Bool
  /-- The trained DP link: rate code and lanes; 0 lanes: none (R235). -/
  rate : Nat
  lanes : Nat
  msa : Option Msa
  frame : Option GateFrame
  /-- Dirty bands of takes 0–3 as bitmaps (R249). -/
  dirty : List Nat
  /-- ING_SIG of the previous full frame (R256). -/
  lastFull : Option Nat
  /-- A clapper with CHANGED = 1 has come since a head's latch, bit 4 × head + plate (R293). -/
  changed : Nat
  /-- A clapper has come since a head's latch at its vertical blank, bit h (R280). -/
  clapped : Nat
  /-- Bytes of GATE.SDP in use. -/
  sdpLen : Nat
  /-- Pixels of the open frame that wait for Reel memory or for the catch-up of their band, in raster order (R251, R260). -/
  stalled : List SrcPixel
  /-- The size of the frame that each take holds (R284). -/
  sizes : Tbl (Nat × Nat)
  /-- Bytes of the DPCD that the host has written, by address (R236). -/
  dpcd : Tbl Nat
  deriving DecidableEq, Repr

/-- What a DP transmitter toward a monitor holds beside its registers, by bit of OUT.PORTS (R303, R304). -/
structure DpPort where
  trained : Bool
  rate : Nat
  lanes : Nat
  /-- A training has been made since reset, and one runs. -/
  before : Bool
  training : Bool
  /-- The training that its being named calls for has been started (R304). -/
  started : Bool
  /-- The level of a DPO's HPD ball (R312). -/
  hpd : Bool
  caps : SinkCaps
  deriving DecidableEq, Repr

/-- What a Projector holds beside its registers. -/
structure ProjSt where
  /-- The order in which heads were enabled (R305). -/
  rank : Nat
  /-- Fabric time at the start of the last vertical blank (R271), and the sprocket's accumulator then (R270). -/
  vblankAt : Nat
  acc : Nat
  /-- This frame is extended no more, and the lines that its extension took (R280). -/
  extended : Bool
  extLines : Nat
  /-- Named ports that are not eligible, by bit of OUT.PORTS (R298). -/
  bad : Nat
  /-- The line and the packet within it that the stream sends next (R296). -/
  line : Nat
  packet : Nat
  /-- Lines of this frame with an underrun, and the pixel from which they carry BG_COLOR (R289). -/
  under : List (Nat × Nat)
  /-- The signatures queued at SIG_POP, oldest first (R292). -/
  queue : List Nat
  /-- The signature of the last frame sent and the reference of the continuity check (R293). -/
  lastSig : Nat
  reference : Nat
  /-- The Gate that each plate's latched take is from, as KIND codes it (R311). -/
  gates : List Nat
  /-- Of a head whose EN was cleared: the line in progress then, counted from the vertical blank, and the take that each plate showed
  (R279). -/
  last : Option Nat
  takes : List (Option Nat)
  deriving DecidableEq, Repr

/-- An entry of the forwarding database (R318, R341). -/
structure FdbEntry where
  mac : Nat
  vid : Nat
  port : Nat
  fixed : Bool
  deriving DecidableEq, Repr

/-- A frame with its FCS in the Tailrace switch: the port and the colour it entered with (R210, R318). -/
structure SwFrame where
  inPort : Nat
  colour : Nat
  bytes : Bytes
  deriving DecidableEq, Repr

/-- A frame for a host at its NIC, without FCS, with the TCI it carried (R320, R325). -/
structure NicFrame where
  tci : Nat
  bytes : Bytes
  /-- Bytes of it that have gone to buffers. -/
  sent : Nat
  deriving DecidableEq, Repr

/-- A transmit descriptor whose frame the NIC fetches (R323): what has been asked for, and what has come, by offset. -/
structure NicFetch where
  addr : Nat
  len : Nat
  asked : Nat
  parts : Tbl Bytes
  deriving DecidableEq, Repr

/-- The Tailrace switch, the NICs and the PCIe storage ports beside their registers. -/
structure NetSt where
  fdb : Tbl (Option FdbEntry)
  /-- VLAN_DATA by VID. -/
  vlans : Tbl Nat
  /-- Frames that wait for the switch, oldest first, and the chains still arriving at an internal sink, under 32 × chain + outlet. -/
  queue : List SwFrame
  arriving : Tbl Bytes
  /-- Frames at NIC s. -/
  rx : Tbl (List NicFrame)
  /-- The fetch of transmit ring r of NIC s, under 4 × s + r. -/
  fetch : Tbl (Option NicFetch)
  /-- Bit 8 × s + r: the ITR interval of a ring runs; a write-back waits for its end (R325). -/
  itrRuns : Nat
  itrDue : Nat
  /-- Bit e: an 802.3x pause holds at MAC e (R328). -/
  pauseAll : Nat
  /-- Tags of the non-posted requests outstanding at a PCIe port (R336). -/
  outstanding : Tbl (List Nat)
  deriving DecidableEq, Repr

/-- A TLP in a slice's outbound queues (R367), with the function of its master. -/
inductive OutTlp where
  | write (func addr : Nat) (bytes : Bytes)
  | read (func addr len : Nat)
  /-- An MSI-X message of Cue, with its table entry and the address and data that the entry gives it (R579). -/
  | msix (vector addr data : Nat)
  /-- A completion of an inbound read, of at most 512 B, with the address of its first byte, its data and its EP bit (R350, R353, R367). -/
  | completion (addr : Nat) (data : Bytes) (ep : Bool)
  deriving DecidableEq, Repr

/-- An outbound read without its whole completion (R373, R374): for transmit ring `ring`, at an offset of its frame; ring 4: for a frame
that its NIC has given up. -/
structure OutRead where
  ring : Nat
  offset : Nat
  len : Nat
  got : Bytes
  deriving DecidableEq, Repr

/-- A prefetch stream (R359): 64-byte blocks of a window, each with the fabric time of its fetch. A block holds a byte
or, where Penstock skipped the word (R360), none. -/
structure Stream where
  reel : Bool
  at_ : Nat
  blocks : Tbl (List (Option Byte))
  deriving DecidableEq, Repr

/-- What Penstock keeps for a slice beside its registers. -/
structure PenSt where
  /-- Outbound TLPs, oldest first. -/
  outq : List OutTlp
  /-- Posted TLPs that wait in their master's block (R367, R372), oldest first, each with the NIC ring that its write-back serves. -/
  blocked : List (OutTlp × Option Nat)
  reads : List OutRead
  /-- Prefetch streams, the least recently used first; at most four. -/
  streams : List Stream
  deriving DecidableEq, Repr

/-- A key slot of the Vault (R596). -/
structure VSlot where
  ecdsa : Bool
  derived : Bool
  msel : Nat
  users : Nat
  key : Bytes
  deriving DecidableEq, Repr

/-- A Vault command under way (R597), with what it took when it was written. -/
structure VRun where
  op : Nat
  slot : Nat
  tslot : Nat
  msel : Nat
  ecdsa : Bool
  input : Bytes
  aad : Nat
  /-- USE bit of the requester; 6 for JTAG, which has none. -/
  user : Nat
  useNext : Nat
  /-- Its measurement was locked when it started (R593, R606). -/
  locked : Bool
  deriving DecidableEq, Repr

/-- The Vault beside its registers (R588–R601). -/
structure VaultSt where
  /-- The root XOR the mask, and the mask (R589). -/
  masked : Option Bytes
  mask : Bytes
  slots : Tbl (Option VSlot)
  run : Option VRun
  /-- Requests of the DRBG since its last reseeding (R601). -/
  requests : Nat
  /-- Milliseconds of VTIME's second under way (R604; assumption log 25). -/
  ms : Nat
  deriving DecidableEq, Repr

/-- What the control channel of a Leat link has last reported of the other end (R620, R629, R632, R634, R635). -/
structure LeatSt where
  trained : Bool
  peer : LeatPeer
  status : LeatStatus
  /-- The Vault slot whose key is in use (R631), and the slot that SEC.ROLL has armed (R632, R686). -/
  key : Option Nat
  armed : Option Nat
  /-- Frames that failed their tag in this turn (R633). -/
  fails : Nat
  /-- Hops of the last sync word on this link to the head; none: no word since the link came up (R621). -/
  syncHops : Option Nat
  /-- The frame counters of the key in use: frames and messages sent, and received (R630, R632). -/
  sent : Nat
  received : Nat
  deriving DecidableEq, Repr

/-- The fabric beside its registers (R614–R628). -/
structure FabricSt where
  links : Tbl LeatSt
  /-- A sync word has come since the last turn boundary; boundaries without one (R616). -/
  gotSync : Bool
  missed : Nat
  /-- Consecutive turns out of Quarantine (R615) and consecutive sync words with |d| ≤ 2 (R621). -/
  cleanTurns : Nat
  cleanSyncs : Nat
  /-- A step of fabric time that waits for the next turn boundary: ticks, with EPOCH where that differs (R621). -/
  step : Option (Int × Option Nat)
  /-- The head's tables that differ from this hub's: MEMBERS, ROUTE and TURN_PHASE, to adopt at the next boundary (R625). -/
  members : Option Nat
  route : Option Nat
  phase : Option Nat
  /-- FEAT_AGREED to apply at the next boundary (R624). -/
  features : Option Nat
  /-- The 64-bit hash as it stood after the last write of CFG_HASH_LO (R623), and whether it differs from the head's. -/
  hash : Nat
  differs : Bool
  deriving DecidableEq, Repr

/-- Cue beside its registers (R564–R581). -/
structure CueSt where
  /-- Filtered levels and active sources as bitmaps by source ID (R565, R566). -/
  level : Nat
  active : Nat
  /-- Stack entries, bit 16 × t + d: the claiming target has read the source's page; the level has fallen before that
  (R576). -/
  seen : Nat
  gone : Nat
  /-- MSI-X vectors that wait for their slice's outbound queue (R372, R580), by slice. -/
  waiting : Tbl (List Nat)
  /-- The vector of the last rise of LINE, by slice (R579). -/
  lineVec : Tbl Nat
  deriving DecidableEq, Repr

/-- An event of Tally (R383): source kind 0 hardware, 1 firmware, 2 slice, 3 BMC. -/
structure TEvent where
  id : Nat
  arg : Nat
  hub : Nat
  kind : Nat
  deriving DecidableEq, Repr

/-- Tally beside its registers (R380, R385): the value last sent of each word, and the inboxes, oldest event first. -/
structure TallySt where
  sent : Tbl Nat
  inbox : Tbl (List TEvent)
  deriving DecidableEq, Repr

/-- The USB hubs and dock functions beside their registers (R399–R423). Port bits of a slice: USB 2.0 port k is bit k, USB
3.2 port k bit 16 + k. -/
structure UsbSt where
  /-- The USB 2.0 device on Dk: 0 none, 1 LS, 2 FS, 3 HS. -/
  dev2 : Tbl Nat
  /-- Bit k: Dk is in over-current (R400). -/
  oc : Nat
  /-- Suspended ports, C_PORT_CONNECTION and C_PORT_OVER_CURRENT, by slice. -/
  suspended : Tbl Nat
  connChange : Tbl Nat
  ocChange : Tbl Nat
  /-- Bit s: a notification is pending at EP1 (R429). -/
  notify : Nat
  /-- STATE of the dock function before its suspend (R413). -/
  before : Tbl Nat
  /-- A mailbox request that waits (R410): 0 none, 1 MAILBOX_OUT, 2 MAILBOX_IN. -/
  waiting : Tbl Nat
  /-- Bit s: the hub drives K upstream (R414). -/
  driving : Nat
  /-- Playback and capture frames of a slice, oldest first (R421); a frame lists its channels as 24-bit numbers. -/
  play : Tbl (List (List Nat))
  capture : Tbl (List (List Nat))
  /-- What the sample-rate converter of a slice's playback is short of a whole frame, in 1/160 (R418). -/
  part : Tbl Nat
  /-- Halted endpoints of a slice's dock function, bit e OUT and bit 16 + e IN; what the host has enabled of it at SuperSpeed: bit 0 U1,
  bit 1 U2, bit 2 function suspend (R407). -/
  halts : Tbl Nat
  feats : Tbl Nat
  /-- The blocks that the AUD port holds for each direction, at most two, oldest first (R423). -/
  audOut : List (List (List Nat))
  audIn : List (List (List Nat))
  deriving DecidableEq, Repr

/-- An endpoint of the dock function (R406): its number, its direction, its type (1 isochronous, 3 interrupt), its interval in µs and its largest
packet in bytes. -/
structure DockEp where
  num : Nat
  input : Bool
  type : Nat
  interval : Nat
  size : Nat
  deriving DecidableEq, Repr

/-- An interface of the dock function (R406): its number, its class and the highest of its alternate settings. -/
structure DockIface where
  num : Nat
  cls : Nat
  alts : Nat
  eps : List DockEp
  deriving DecidableEq, Repr

/-- The content of a descriptor of the dock function as R398, R404 and R406 give it; the alternate modes of the Billboard each with SVID, mode
and status. -/
inductive DockDesc where
  | device (vid pid bcd ep0 : Nat)
  | configuration (interfaces : List DockIface)
  | capabilities (container : Nat) (billboard : List (Nat × Nat × Nat))
  | bytes (bs : Bytes)
  deriving DecidableEq, Repr

/-- The product types that the hub reports (R456). -/
inductive PdProduct where
  | pdusbHub
  deriving DecidableEq, Repr

/-- The device capabilities that the UFP VDO reports (R456). -/
structure UfpVdo where
  usb4Gen4 : Bool
  usb32Gen2 : Bool
  usb20 : Bool
  deriving DecidableEq, Repr

/-- A PD message that the hub sends (R442). PDOs and RDOs are 32-bit words. -/
inductive PdOut where
  | sourceCaps (pdos : List Nat)
  | eprSourceCaps (pdos : List Nat)
  | sinkCaps (pdos : List Nat)
  | request (rdo : Nat)
  | accept | reject | wait | psRdy | notSupported
  | getSinkCap | vconnSwap | prSwap | softReset | hardReset
  | revision (major minor : Nat)
  | eprEntered
  /-- Enter Failed with the reason of USB PD (PRESUMED, log 40): 1 cable, 4 not at this time, 5 no EPR offered. -/
  | eprFailed (reason : Nat)
  | keepAliveAck
  /-- Discover Identity to the cable (SOP'), and to the partner; SVIDs; modes. -/
  | discoverCable | discoverIdentity | discoverSvids
  | discoverModes (svid : Nat)
  | enterUsb
  | enterMode (svid : Nat)
  | exitMode (svid : Nat)
  | dpStatus
  | dpConfigure (pin : Nat)
  /-- Answers as UFP (R456): identity with VID, PID, product type and what the UFP VDO reports; SVIDs, a mode's VDO, ACK, NAK. -/
  | vdmIdentity (vid pid : Nat) (product : PdProduct) (ufp : UfpVdo)
  | vdmSvids (svids : List Nat)
  | vdmMode (vdo : Nat)
  | vdmAck | vdmNak
  /-- The FR_Swap signal (R462). -/
  | frSignal
  deriving DecidableEq, Repr

/-- A Type-C port beside its registers (R433–R467). -/
structure PortSt where
  /-- The termination seen: 0 none, 1 Rd, 2 Rp, 3 double; the CC pin; Ra on the other pin. -/
  seen : Nat
  pin2 : Bool
  ra : Bool
  /-- The Type-C logic requests VBUS (R472), and a Hard Reset brings it back once it is discharged (R465). -/
  vbus : Bool
  hardReset : Bool
  /-- The port reserves power (R449, R454); the set maximum, and a lower one that waits for a contract (R451). -/
  reserves : Bool
  setMax : Nat
  lower : Option Nat
  /-- The set with the lower maximum: 0 committed, 1 sent, 2 a Request under it is accepted (R451). -/
  lowerStage : Nat
  /-- The committed sets; none before the first commit (R439). -/
  spr : Option (List Nat)
  epr : List Nat
  /-- PDOs last sent, by object position. -/
  sent : List (Nat × Nat)
  /-- A transition after an Accept waits for PS_RDY, and the voltage before it (R443). -/
  trans : Bool
  before : Nat
  /-- The transition keeps the voltage in force, and the hub sends its PS_RDY itself once VBUS is in range (R443). -/
  selfRdy : Bool
  /-- The answer awaited: 0 none, 1 Request, 2 Sink_Capabilities, 3 VCONN_Swap, 4 Soft_Reset, 5 PR_Swap, 6 answer to the
  hub's Request, 7 PS_RDY of the source, 8 PS_RDY of the partner in a VCONN_Swap. -/
  await : Nat
  /-- As sink: the request made (mV, mA, RDO). -/
  asked : Option (Nat × Nat × Nat)
  /-- A command and a PR_Swap that wait for SinkTxOK (R461), and SinkTxOK as last seen. -/
  cmdWaits : Bool
  prWaits : Bool
  txOk : Bool
  /-- The next CMD takes RESULT 7 (R465); a Request that needs firmware is answered with Wait (R441). -/
  unsafeNext : Bool
  fwWait : Bool
  /-- Attempts of Source_Capabilities or of the cable's discovery. -/
  tries : Nat
  /-- Messages that wait for the end of the hub's AMS (R460). -/
  held : List PdMsg
  /-- The VCONN window of R459 without TEST_WINDOW. -/
  window : Bool
  /-- Discovery: 0 idle, 1 cable, 2 identity, 3 SVIDs, 4 modes, 5 Enter_USB, 6 Enter Mode DP, 7 DP Status, 8 DP Configure,
  9 Enter Mode 0x3BD2. -/
  disc : Nat
  usb4 : Bool
  dpSvid : Bool
  ufpD : Bool
  multi : Bool
  /-- Fast Role Swap: 0 none, 1 signal sent, 2 sink by it, 3 source again with its PS_RDY due (R462, R463), 4 FR_Swap accepted with PS_RDY due once VBUS
  is at vSafe5V; failed returns. -/
  frs : Nat
  frsFails : Nat
  deriving DecidableEq, Repr

/-- A Weir channel beside its registers (R478–R490). -/
structure WeirSt where
  /-- The step timers t[0]–t[7], the SOA timer and the window-loss timer, in µs. -/
  t : List Nat
  soa : Nat
  loss : Nat
  /-- A sample above OV_MV waits for its second. -/
  overV : Bool
  /-- µs for which the conditions of R488 have held; none: they do not. -/
  held : Option Nat
  /-- The fraction of ENERGY below 1 mJ, in 10⁻⁶ mJ. -/
  frac : Nat
  deriving DecidableEq, Repr

/-- The input side of the power path (R494–R497). -/
structure InputSt where
  /-- Bit n: the sink path of Wn is to close; it needs no CH_EN where the dead-battery logic closed it. -/
  sinks : Nat
  deadBattery : Nat
  /-- W12 has been opened on REV. -/
  rev : Bool
  /-- The hub runs in the bus-powered profile (R99). -/
  profile : Bool
  deriving DecidableEq, Repr

/-- The MISC controllers beside their registers (R682–R684): transmit and receive bytes of the two buses, of the flash
controller and of the UART. -/
structure MiscSt where
  busTx : Tbl Bytes
  busRx : Tbl Bytes
  /-- What runs on a bus: 0 nothing, 1 a firmware transfer, 2 a CONV_SAFE write. -/
  busRun : Tbl Nat
  /-- BUS_CMD as it stood when its GO was written, by controller, and SPI_CMD likewise: a later write of them leaves the transfer as it
  is (R686). -/
  busCmd : Tbl Nat
  spiCmd : Nat
  /-- Ports whose CONV_SAFE write waits, oldest first. -/
  conv : List Nat
  spiTx : Bytes
  spiRx : Bytes
  uartTx : Bytes
  uartRx : Bytes
  /-- Levels that the board drives on GPIOs. -/
  pins : Nat
  deriving DecidableEq, Repr

/-- The result of a domain's last BIST run (R666). -/
structure BistRes where
  passed : Bool
  aborted : Bool
  kind : Nat
  timeMs : Nat
  misr : Nat
  deriving DecidableEq, Repr

/-- Boot, watchdog and BIST beside their registers (R648–R666). -/
structure BootSt where
  /-- 0 the boot sequence is due, 1 it is due from step 4 of R653, 2 the ROM waits for LOAD_DATA, 3 for an image over USB,
  4 it has halted, 5 mode 0b11, 6 the loader runs. -/
  phase : Nat
  /-- Fabric time of the release from reset (BOOT_TIME). -/
  since : Nat
  /-- The load buffer (R665). -/
  stream : Bytes
  /-- What the ROM has placed in shared SRAM, by offset (R653). -/
  sram : List (Nat × Bytes)
  /-- Fabric time at which the watchdog was last reloaded, and the timeout it took, in ms (R648). -/
  wdtAt : Nat
  wdtMs : Nat
  /-- A BIST run: its domains and its type (R660). -/
  bist : Option (List Nat × Nat)
  results : Tbl (Option BistRes)
  deriving DecidableEq, Repr

/-- What the hub sends to the outside. -/
inductive Emission where
  /-- The lanes of a Type-C port are routed for the plug's orientation: exchanged where it is seen on CC2 (R436). -/
  | laneRoute (port : Nat) (exchanged : Bool)
  /-- The ROM presents a high-speed USB 2.0 device with one bulk OUT endpoint on H0, with VID and PID from OTP (R657). -/
  | romDevice (vid pid : Nat)
  /-- The fault line of a target drives the non-maskable interrupt of its Miller core (R573, R578). -/
  | coreNmi (core : Nat)
  /-- The conversion stage goes into its pulse mode, at the entry to SHELF (R528). -/
  | convPulse
  /-- The answer to a read of the register window (R53), and to a read of the Reel window: its 64-byte parts in order, with the
  EP bit of each (R350, R353). Toward a slice's host the same data leave in completion TLPs, behind what was queued before (R370). -/
  | readDone (req : Req) (addr : Nat) (data : BitVec 64)
  | reelData (req : Req) (addr : Nat) (parts : List (Bytes × Bool))
  /-- A size fault: Completer Abort to a slice, an access fault to a Miller core (R349). -/
  | sizeFault (req : Req) (addr : Nat)
  /-- The completion with status UR of an AtomicOp to function 0 (R346). -/
  | atomicUr (slice : Nat)
  /-- A credit on an ingress and hop (R131), and the return of one (R24). -/
  | creditGrant (ingress path : Nat)
  | creditReturn (ingress hop : Nat)
  /-- A packet that left at an outlet: the path, the hop written, the payload, the last of its copy, marked (R137). -/
  | packet (outlet path hop : Nat) (bytes : Bytes) (last marked : Bool)
  /-- An ETH egress ended its frame with the FCS inverted (R140). -/
  | frameCut (outlet : Nat)
  /-- A DP OUT adapter's sink appears or goes (R86, R88). -/
  | sink (slice adapter : Nat) (present : Bool)
  /-- What a slice's router reports to its host (R70, R71, R88, R91): a lane adapter is Disabled or not; a Hot Plug event of a lane
  adapter; a PCIe or USB3 downstream adapter has a connected router or none; a downstream port of the PCIe switch, by device
  number, has Presence Detect and Data Link Layer Link Active set or, at surprise-down, clear. -/
  | laneDisabled (slice adapter : Nat) (disabled : Bool)
  | hotPlug (slice adapter : Nat) (plug : Bool)
  | routerReport (slice adapter : Nat) (connected : Bool)
  | switchPort (slice device : Nat) (present active : Bool)
  /-- A Gate's answer to an AUX request (R236, R237), its HPD (R238), and its bandwidth request in Mbit/s (R253). -/
  | auxReply (gate : Nat) (bytes : Bytes)
  | gateHpd (gate : Nat) (high : Bool)
  | bwRequest (gate mbps : Nat)
  /-- What a DP transmitter sends for a head, by bit of OUT.PORTS: an MSA with its timing, OUT.BPC, Mvid and Nvid (R273); the
  Adaptive-Sync SDP (R281); ALLOCATE_PAYLOAD for a branch output port and a number of MTP slots (R305). -/
  | headMsa (port head : Nat) (timing : List Nat) (mvid nvid : Nat)
  | adaptiveSdp (port head : Nat)
  | allocatePayload (port head branch slots : Nat)
  /-- A DP transmitter reads the DPCD of its sink, as a training starts (R304). -/
  | sinkDpcd (port : Nat)
  /-- A pause frame of MAC e: PFC or 802.3x, the priorities, XOFF or XON (R326). -/
  | pause (mac : Nat) (pfc : Bool) (priorities : Nat) (xoff : Bool)
  /-- A completion with status UR for a request of a PCIe port (R336), and a TLP of Penstock toward a host (R367). -/
  | urCompletion (port tag : Nat)
  | tlp (slice : Nat) (t : OutTlp)
  /-- A sync word on a Leat link (R619) and a message to its peer (R634). -/
  | syncWord (leat : Nat) (w : SyncWord)
  | leatMessage (leat : Nat) (bytes : Bytes)
  /-- A protected Leat frame as it goes on the link (R630): its nonce, its payload and its tag. -/
  | leatFrame (leat : Nat) (nonce payload tag : Bytes)
  /-- A word or an event of Tally on its way to another hub (R380, R387): Leat link, hub, slot or inbox. -/
  | tallyWord (leat hub slot value word reader : Nat)
  | tallyEvent (leat hub target : Nat) (e : TEvent)
  /-- A reply of the dock function to a request, or its STALL (R407); a notification (EP1) and a HID report (EP4). -/
  | usbReply (slice : Nat) (bytes : Bytes)
  | usbStall (slice : Nat)
  /-- A descriptor of the dock function, cut to a length (R406). -/
  | usbDescriptor (slice : Nat) (d : DockDesc) (len : Nat)
  /-- The handshake of an OUT packet, a PING or a data stage that waits (R410, R412): 0 ACK, 1 NYET, 2 NAK, at SuperSpeed 3 NRDY; 4 STALL of
  a halted endpoint. -/
  | usbHandshake (slice code : Nat)
  /-- The feedback endpoint's value (R420); the clock source's rates in Hz (R418). -/
  | usbFeedback (slice value : Nat)
  | usbRates (slice : Nat) (rates : List Nat)
  /-- A hub's descriptors (R398): hub 2 or 3, its ports, the bits of its non-removable port numbers, the think time of its transaction translators
  in FS bit times, whether it has one for each port, whether it switches port power, whether it reports over-current by port, its Container ID; its answer to a request for L1, or for U1 or U2; a packet that it takes from outlet 23 (R403), by the path's owner. -/
  | usbHubDescriptor (slice hub ports fixed thinkTime : Nat) (multiTt powerSwitching portOc : Bool) (container : Nat)
  | usbLinkPower (slice hub : Nat) (accepted : Bool)
  | usbPacket (slice hop : Nat) (bytes : Bytes)
  | usbNotify (slice value : Nat)
  | usbReport (slice report : Nat)
  /-- The hub signals resume upstream at high speed (K) or SuperSpeed, and sends a Function Wake (R414). -/
  | usbResume (slice : Nat) (superSpeed : Bool)
  | usbFunctionWake (slice : Nat)
  /-- The status of a hub port as a class request reads it (R398): hub 2 or 3, port number (R397); connected, suspended, over-current,
  C_PORT_CONNECTION, C_PORT_OVER_CURRENT. -/
  | usbPort (slice hub port : Nat) (connected suspended oc connChange ocChange : Bool)
  /-- Audio frames on EP3 IN (R422) and at the AUD port (R423): on one TDM line or on I²S lines; as clock master the port drives MCLK, BCLK and
  the frame clock at these rates in Hz (R424). -/
  | usbAudio (slice : Nat) (frames : List (List Nat))
  | audBlock (tdm : Bool) (clocks : Option (Nat × Nat × Nat)) (frames : List (List Nat))
  /-- A PD message at a Type-C port (R442). -/
  | pd (port : Nat) (m : PdOut)
  /-- The CONV_SAFE write of a port on the PWR bus (R464): address, register, value. -/
  | convSafe (port addr reg value : Nat)
  /-- A transfer of bus controller n in I3C or I2C at a speed in kHz, a command of the flash controller with its width code and divider, a
  byte of the UART with the length of its bits in cycles of 38.4 MHz (R682). -/
  | busTransfer (n : Nat) (i3c : Bool) (khz addr : Nat) (read : Bool) (len : Nat) (bytes : Bytes)
  | spiCommand (width div opcode : Nat) (addr : Option Nat) (read : Bool) (len : Nat) (bytes : Bytes)
  | uartByte (bit : Nat) (b : Byte)
  /-- PFW_N changes its level (R496, R497). -/
  | pfw (low : Bool)
  deriving DecidableEq, Repr

/-- The hub: everything but the Reel memory and the queue of commands. -/
structure Hub where
  /-- What is burnt or strapped (R1, R20). -/
  otp : Otp
  /-- Every field of every register of the window that differs from its reset value (keys: Fld.key). Shadowed and
  staged fields: the shadow or staged copy (R63, R124). Right after a POR, bit 0 of CHIP.RESET_CAUSE is set (R643,
  R645). -/
  regs : Tbl Nat
  /-- The active copies of shadowed and staged fields (R63, R124), under the same keys. -/
  active : Tbl Nat
  /-- Snapshots of 40-bit pairs, by requester and address (R58, R59, R549). -/
  snaps : Tbl (Option Nat)
  /-- Staging registers of 40-bit pairs, by requester and address (R60). -/
  staging : Tbl (Option Nat)
  /-- The applied OWNER of each page whose OWNER is pending (R51), by page base. -/
  ownerApplied : Tbl (Option Nat)
  /-- The power domains (R504), by code. -/
  domains : Tbl DomSt
  /-- Accesses that wait for their domain (R53), oldest first. -/
  stalled : List Access
  /-- Fabric time, 40 bits (R548). -/
  ftime : Nat
  /-- CLK.EPOCH (R548). -/
  epoch : Nat
  /-- The MODEL's own counter: it gives every free value its own argument (assumption log 2). -/
  fresh : Nat
  /-- What the hub has sent to the outside, oldest first. -/
  out : List Emission
  /-- The turn clock (R161). -/
  turn : TurnSt
  /-- The Forebays, by ingress point (R116). -/
  forebays : Tbl Forebay
  /-- The chains stored in the Hopper, oldest first (R112). -/
  chains : List Chain
  /-- The MODEL's own number of the next stored chain. -/
  nextChain : Nat
  /-- Cells that stay allocated after a link-word error (R150). -/
  leaked : List Nat
  /-- Leaked cells that a running audit found when it started (R151). -/
  marked : List Nat
  /-- Errors left by INJECT in cells that no stored chain holds (R148, R152): bit 0 single, bit 1 double. -/
  cellErr : Tbl Nat
  /-- Credits granted and not yet used, by path and the ingress that they were granted on: 32 × path + ingress (R117, R131). -/
  credits : Tbl Nat
  /-- What has been read from the Hopper toward each outlet and has not departed (R555). -/
  txq : Tbl (List XEntry)
  /-- The crossing halves: 2 × x for RX, 2 × x + 1 for TX (R554). -/
  halves : Tbl Half
  /-- What the Sluice keeps for each path (R169). -/
  pathSt : Tbl PathSt
  /-- Stage-one factors of the last computation as numerator and denominator, by resource (R180, R185). -/
  factors : Tbl (Nat × Nat)
  /-- The flows, keyed 32 × path + outlet (R192). -/
  flows : Tbl Flow
  /-- The classes of each outlet, keyed 8 × outlet + class (R194). -/
  classes : Tbl ClassSt
  /-- The outlets' service state (R196). -/
  outlets : Tbl OutletSt
  /-- LOSSY_FULL has been set since the last read of FREE_LWM (R158). -/
  lossyFullSeen : Bool
  /-- Cells written in the current turn (UTIL_WR). -/
  cellsWritten : Nat
  /-- Cells read in the current turn (UTIL_RD). -/
  cellsRead : Nat
  /-- Voltage islands and SHELF (R518). -/
  power : PowerSt
  /-- Clocks (R537). -/
  clock : ClockSt
  /-- For each DP OUT adapter, keyed 4 × slice + adapter: the target it names and the rank at which it began to
  (R690). -/
  bindSince : Tbl (Nat × Nat)
  /-- The MODEL's own rank of the next binding (R690). -/
  bindNext : Nat
  /-- Bit 4 × slice + adapter: the DP OUT adapter presents a sink (R86). -/
  sinks : Nat
  /-- What each slice's router sees of a unit's USB4 router or PCIe link, keyed 16 × slice + unit: 0 nothing, as of a unit that the
  slice does not own (R71); 1 owned, no router connected; 2 a router or endpoint is there (R88, R91); 3 a drive without its link (R337). -/
  reports : Tbl Nat
  /-- The CL states that LINK_CTL permitted at a link's last training: bit 0 CL0s, 1 CL1, 2 CL2 (R78). -/
  linkAllow : Tbl Nat
  /-- Assignable units in a handover (R88), by the unit bits of R105. -/
  units : Tbl UnitSt
  /-- The entries that the hub created, by path number (R79). -/
  cmPaths : Tbl (Option CmPath)
  /-- The Gate of a path that the hub created as the AUX path of a DP OUT adapter (R89, R231). -/
  auxGate : Tbl (Option Nat)
  /-- The Gates (R231). -/
  gates : Tbl GateSt
  /-- Errors that INJECT put into Reel memory, by 64-byte block: bit 0 a single-bit error in word 0, bit 1 a double-
  bit error in word 1 (R268). -/
  reelBad : Tbl Nat
  /-- Blocks of Reel memory moved in the current turn (R268, UTIL). -/
  reelBlocks : Nat
  /-- The Projectors (R270). -/
  heads : Tbl ProjSt
  /-- The DP transmitters toward monitors, by bit of OUT.PORTS (R304). -/
  dpPorts : Tbl DpPort
  /-- The MODEL's own order of the next head enabled (R305). -/
  headRank : Nat
  /-- The Tailrace switch, the NICs and the PCIe ports (R318, R325, R336). -/
  net : NetSt
  /-- Penstock's queues and prefetch buffers, by slice (R359, R367). -/
  pen : Tbl PenSt
  /-- The Vault (R588). -/
  vault : VaultSt
  /-- Leat links and the fabric of hubs (R610). -/
  fabric : FabricSt
  /-- Cue (R564). -/
  cue : CueSt
  /-- Tally (R377). -/
  tally : TallySt
  /-- The valid PCIe tunnel (2 × slice) and USB3 tunnel (2 × slice + 1) toward a host: the hop number at its ingress point, its HopID
  on the link and its USB4 Weight (R333, R369, R402). -/
  tunnels : Tbl (Option (Nat × Nat × Nat))
  /-- The USB hubs and the dock functions (R397). -/
  usb : UsbSt
  /-- The Type-C ports (R433). -/
  ports : Tbl PortSt
  /-- The Weir channels (R479). -/
  weirs : Tbl WeirSt
  /-- Sink paths and the input channel (R494). -/
  input : InputSt
  /-- The MISC controllers (R682). -/
  misc : MiscSt
  /-- Boot, watchdog and BIST (R648). -/
  boot : BootSt
  deriving DecidableEq, Repr

/-- The hub right after a power reset (R18, R643, R645). -/
def Hub.reset : Hub :=
  { otp := Otp.fy9_480
    regs := [(2176, 1)]
    active := []
    snaps := []
    staging := []
    ownerApplied := []
    domains := []
    stalled := []
    ftime := 0
    epoch := 0
    fresh := 0
    out := []
    turn := ⟨none, false, false, false, false, 0, false⟩
    forebays := []
    chains := []
    nextChain := 0
    leaked := []
    marked := []
    cellErr := []
    credits := []
    txq := []
    halves := []
    pathSt := []
    factors := []
    flows := []
    classes := []
    outlets := []
    lossyFullSeen := false
    cellsWritten := 0
    cellsRead := 0
    power := ⟨[], 0, false, 0, none, [], []⟩
    clock := ⟨0, 0, 0, 1, false, 0⟩
    bindSince := []
    bindNext := 0
    sinks := 0
    reports := []
    linkAllow := []
    units := []
    cmPaths := []
    auxGate := []
    gates := []
    reelBad := []
    reelBlocks := 0
    heads := []
    dpPorts := []
    headRank := 0
    net := ⟨[], [], [], [], [], [], 0, 0, 0, []⟩
    pen := []
    vault := ⟨none, [], [], none, 0, 0⟩
    fabric := ⟨[], false, 0, 0, 0, none, none, none, none, none, 0, false⟩
    cue := ⟨0, 0, 0, 0, [], []⟩
    tally := ⟨[], []⟩
    tunnels := []
    usb := ⟨[], 0, [], [], [], 0, [], [], 0, [], [], [], [], [], [], []⟩
    ports := []
    weirs := []
    input := ⟨0, 0, false, false⟩
    misc := ⟨[], [], [], [], 0, [], [], [], [], [], 0⟩
    boot := ⟨0, 0, [], [], 0, 2000, none, []⟩ }

/-- The machine: the hub, its Reel memory, and the commands that wait, first in, first out. -/
structure State where
  hub : Hub
  reel : Memory
  pending : List Instr
  deriving DecidableEq, Repr

/-- Faults. `outsideReel` is raised by REEL_WINDOW_READ and REEL_WINDOW_WRITE alone, for an access that reaches beyond the 4 GiB
of Reel memory, which BAR2 does not hold (R345): no such address exists (safe). Every other error of an access or of an operand
is an effect (R53, R54, R349), and a command that the block cannot take is one it ignores. -/
inductive Fault where
  | outsideReel
  deriving DecidableEq, Repr

/-- Refusals. `notModelled` names a command that has no meaning yet (safe). -/
inductive Refusal where
  | notModelled (mnemonic : String)
  deriving DecidableEq, Repr

/-- The machine right after a power reset: every field at its reset value, no command waiting (R643, R650). -/
def State.reset : State := { hub := Hub.reset, reel := [], pending := [] }

end Sys2Proof.Machine
end

