-- ==== Sys2Proof/Machine/Operands.lean ====
section
/-! DEFINITION. The decoding of register-window addresses (R35), the facts of each page (R6, R21, R39, R40), the row
of a field, and the reset values that the tables give by unit, from OTP or from the balls. -/

namespace Sys2Proof.Machine

/-- The page kind, the instance and the first address of the page or table that holds an address (R35). -/
def pageAt (a : Nat) : Option (Kind × Nat × Nat) :=
  let p := a / 0x1000
  let one (k : Kind) (first : Nat) : Option (Kind × Nat × Nat) := some (k, p - first, p * 0x1000)
  if p = 0 then one .chip 0
  else if p = 1 then one .pwr 1
  else if p = 2 then one .clk 2
  else if p = 3 then one .cue0 3
  else if p = 4 then some (.cue1, 1, p * 0x1000)
  else if p = 5 then some (.cue2, 2, p * 0x1000)
  else if p = 6 then some (.cue3, 3, p * 0x1000)
  else if p = 8 then one .pstk 8
  else if p = 9 then one .tally 9
  else if p = 0xA then one .vault 0xA
  else if p = 0xB then one .bist 0xB
  else if p = 0xC then one .miller 0xC
  else if p < 0x10 then none
  else if p < 0x1C then one .typec 0x10
  else if p < 0x20 then none
  else if p < 0x2C then one .link 0x20
  else if p < 0x30 then none
  else if p < 0x3E then one .weir 0x30
  else if p < 0x40 then none
  else if p = 0x40 then one .mill 0x40
  else if p = 0x41 then one .hopper 0x41
  else if p = 0x50 then one .sluice 0x50
  else if p < 0x60 then none
  else if p < 0x64 then one .gate 0x60
  else if p < 0x68 then none
  else if p < 0x6C then one .proj 0x68
  else if p < 0x6E then one .dpo 0x6C
  else if p = 0x70 then one .reel 0x70
  else if p < 0x80 then none
  else if p < 0x84 then one .slice 0x80
  else if p < 0x88 then none
  else if p < 0x8C then one .usbhub 0x88
  else if p < 0x90 then one .dockfn 0x8C
  else if p = 0x90 then one .tailrace 0x90
  else if p < 0x93 then one .ethmac 0x91
  else if p < 0x98 then none
  else if p < 0x9A then one .pciedn 0x98
  else if p < 0xA0 then none
  else if p < 0xA2 then one .leat 0xA0
  else if p = 0xA4 then one .fabric 0xA4
  else if p = 0xA8 then one .aud 0xA8
  else if p = 0xB0 then one .misc 0xB0
  else if p < 0xC0 then none
  else if p < 0xD8 then one .sluiceOut 0xC0
  else if p < 0x100 then none
  else if p < 0x110 then some (.path, 0, 0x100000)
  else if p < 0x120 then some (.stats, 0, 0x110000)
  else if p = 0x120 then some (.mcast, 0, 0x120000)
  else if p = 0x121 then some (.wred, 0, 0x121000)
  else if p = 0x122 then some (.policer, 0, 0x122000)
  else if p = 0x130 ∨ p = 0x131 then some (.tallyTab, 0, 0x130000)
  else if 0x2000 ≤ p ∧ p < 0x2004 then one .nic 0x2000
  else if 0x2100 ≤ p ∧ p < 0x2140 then some (.msix, (p - 0x2100) / 16, (p - (p - 0x2100) % 16) * 0x1000)
  else none

/-- The table regions, which carry no header (R36). -/
def Kind.endpoint : Kind → Bool
  | .nic | .msix => true
  | _ => false

/-- The table regions of R36. -/
def Kind.isTable : Kind → Bool
  | .path | .stats | .mcast | .wred | .policer | .tallyTab => true
  | _ => false

/-- The rows of a page kind's own registers, at 0x040 and above for a page and from 0 for a table. -/
def rowsOf : Kind → List Row
  | .chip => rowsChip | .pwr => rowsPwr | .clk => rowsClk
  | .cue0 => rowsCue0 | .cue1 => rowsCue1 | .cue2 => rowsCue2 | .cue3 => rowsCue3
  | .pstk => rowsPstk | .tally => rowsTally | .vault => rowsVault | .bist => rowsBist | .miller => rowsMiller
  | .typec => rowsTypec | .link => rowsLink | .weir => rowsWeir
  | .mill => rowsMill | .hopper => rowsHopper | .sluice => rowsSluice
  | .gate => rowsGate | .proj => rowsProj | .dpo => rowsDpo | .reel => rowsReel
  | .slice => rowsSlice | .usbhub => rowsUsbhub | .dockfn => rowsDockfn
  | .tailrace => rowsTailrace | .ethmac => rowsEthmac | .pciedn => rowsPciedn
  | .leat => rowsLeat | .fabric => rowsFabric | .aud => rowsAud | .misc => rowsMisc | .sluiceOut => rowsSluiceOut
  | .path => rowsPath | .stats => rowsStats | .mcast => rowsMcast | .wred => rowsWred | .policer => rowsPolicer
  | .tallyTab => rowsTallyTab | .nic => rowsNic | .msix => rowsMsix

/-- Whether a row has a word at an offset. -/
def Row.covers (r : Row) (off : Nat) : Bool :=
  r.off ≤ off && (off - r.off) % r.stride == 0 && decide ((off - r.off) / r.stride < r.cnt)

/-- The fields of the word at an address, with the word's own offset in its page. -/
def wordRows (a : Nat) : List Row :=
  match pageAt a with
  | none => []
  | some (k, _, base) =>
    let off := a - base
    if k.isTable || k.endpoint || 0x40 ≤ off then (rowsOf k).filter (·.covers off) else rowsHdr.filter (·.covers off)

/-- The row of a field, by its key. -/
def rowAt (key : Nat) : Option Row := (wordRows (key / 32)).find? (fun r => r.lo == key % 32)

/-- PAGE_ID.TYPE (R40). -/
def Kind.typeCode : Kind → Nat
  | .chip => 1 | .pwr => 2 | .clk => 3 | .cue0 | .cue1 | .cue2 | .cue3 => 4 | .pstk => 5 | .tally => 6 | .vault => 7
  | .bist => 8 | .miller => 9 | .typec => 0x10 | .link => 0x11 | .weir => 0x12 | .mill => 0x20 | .hopper => 0x21
  | .sluice => 0x22 | .sluiceOut => 0x23 | .gate => 0x30 | .proj => 0x31 | .dpo => 0x32 | .reel => 0x33
  | .slice => 0x40 | .usbhub => 0x41 | .dockfn => 0x42 | .tailrace => 0x50 | .ethmac => 0x51 | .pciedn => 0x52
  | .leat => 0x60 | .fabric => 0x61 | .aud => 0x70 | .misc => 0x71
  | .path | .stats | .mcast | .wred | .policer | .tallyTab | .nic | .msix => 0

/-- PAGE_CAP.SOURCES of a page (the layout rule of its chapter). -/
def pageSources (k : Kind) (i : Nat) : Nat :=
  match k with
  | .pwr | .proj | .pstk | .typec | .vault => 2
  | .weir => if i = 12 then 2 else 1
  | .tally => 3
  | .cue1 | .cue2 | .cue3 | .misc => 0
  | _ => 1

/-- PAGE_CAP.SHADOWED (R189, R225, R310). -/
def Kind.shadowed : Kind → Bool
  | .sluice | .sluiceOut | .proj => true
  | _ => false

/-- PAGE_CAP.RS_ZONE: the page has registers at 0xF00–0xFFF. -/
def Kind.rsZone : Kind → Bool
  | .pwr | .tally | .weir | .mill | .hopper | .sluice | .sluiceOut | .reel | .proj | .misc | .cue0 => true
  | _ => false

/-- The power domain of a page's block registers, or of a table (R21, R37, R504). -/
def Kind.domain (k : Kind) (i : Nat) : Nat :=
  match k with
  | .vault => 1
  | .mill | .hopper | .sluice | .sluiceOut | .path | .stats | .mcast | .wred | .policer => 3
  | .reel => 12
  | .gate => 13 + i
  | .proj => 17 + i
  | .typec | .link | .slice => 21 + i
  | .dpo => 33 + i
  | .tailrace | .ethmac | .nic => 35
  | .pciedn => 36 + i
  | .leat => 38 + i
  | .aud => 40
  | .usbhub | .dockfn => 41
  | .weir => 42
  | _ => 2

/-- PRESENT of a page, by the variant code (R6). A reserved code names no variant and no unit absent (R5). -/
def pagePresent (variant : Nat) (k : Kind) (i : Nat) : Bool :=
  let v480 := variant != 2 && variant != 3
  let not430 := variant != 3
  match k with
  | .reel | .gate | .proj => v480
  | .sluiceOut => if i = 20 then v480 else if i = 2 ∨ i = 3 ∨ i = 10 ∨ i = 11 ∨ i = 15 ∨ i = 18 ∨ i = 19 then not430 else true
  | .typec | .link | .weir => if i = 2 ∨ i = 3 ∨ i = 10 ∨ i = 11 then not430 else true
  | .slice | .usbhub | .dockfn | .nic | .msix => if i = 2 ∨ i = 3 then not430 else true
  | .ethmac => if i = 1 then not430 else true
  | .leat | .fabric => not430
  | _ => true

/-- The outlets present on a variant (R6, R22); 24–31 are reserved. -/
def outletPresent (variant k : Nat) : Bool := decide (k < 24) && pagePresent variant .sluiceOut k

/-- The domains of absent units stay OFF (the paragraph after R536). -/
def domainPresent (variant d : Nat) : Bool :=
  let v480 := variant != 2 && variant != 3
  let not430 := variant != 3
  if 12 ≤ d ∧ d ≤ 20 then v480
  else if d = 23 ∨ d = 24 ∨ d = 31 ∨ d = 32 ∨ d = 38 ∨ d = 39 then not430
  else decide (d < 43)

/-- EDGE_MODE.HOLD at reset, by domain (R504); no pads: 0 (DESIGN CHOICE, log 4). -/
def holdReset (d : Nat) : Nat := if d = 2 ∨ d = 36 ∨ d = 37 ∨ d = 42 then 1 else 0

/-- OV_MV at reset, by channel (R472). -/
def ovReset (ch : Nat) : Nat :=
  if ch < 4 then 52800 else if ch < 6 then 30800 else if ch < 12 then 22000 else if ch = 12 then 23100 else 0

/-- Reset values that the tables give per page, per unit, from OTP or from the balls; `none`: the row's own value. -/
def specialReset (o : Otp) (k : Kind) (i off lo : Nat) : Option Nat :=
  if ¬ k.isTable ∧ ¬ k.endpoint ∧ off < 0x40 then
    match off, lo with
    | 0x000, 16 => some k.typeCode
    | 0x000, 8 => some i
    | 0x004, 0 => some (if pagePresent o.variant k i then 1 else 0)
    | 0x004, 1 => some (if k.shadowed then 1 else 0)
    | 0x004, 2 => some (if k.rsZone then 1 else 0)
    | 0x004, 4 => some (pageSources k i)
    | 0x02C, 0 => some (holdReset (k.domain i))
    | _, _ => none
  else match k, off, lo with
    | .hopper, 0x044, 0 => some 98304
    | .nic, 0x004, 0 => some ((o.macBase + i) % 2 ^ 32)
    | .nic, 0x008, 0 => some ((o.macBase + i) / 2 ^ 32 % 2 ^ 16)
    | .dockfn, 0x044, 0 => some o.dockVid
    | .dockfn, 0x044, 16 => some o.dockPid
    | .typec, 0x040, 1 => some (if i < 4 then 0 else 2)
    | .typec, 0x054, 0 => some (if i < 4 then 240000 else if i < 6 then 140000 else 100000)
    | .typec, 0x05C, 0 => some o.sinkMaxMw
    | .typec, 0x074, 0 => some (if i = 0 then o.ledgerMw else 0)
    | .typec, 0x100, 0 => some o.srcPdo0
    | .weir, 0x040, 0 => some (if i = 12 then 1 else 0)
    | .weir, 0x040, 1 => some (if i < 12 then 1 else 0)
    | .weir, 0x044, 0 => some (tableAt o.shuntUohm i)
    | .weir, 0x04C, 0 => some (tableAt o.fastMa i)
    | .weir, 0x04C, 16 => some (ovReset i)
    | .vault, 0x040, 2 => some (if o.enrolKey then 1 else 0)
    | .fabric, 0x040, 0 => some o.strapRole
    | .fabric, 0x040, 2 => some o.strapId
    | .chip, 0x040, 0 => some o.variant
    | .chip, 0x048, 0 => some o.bootMode
    | .chip, 0x054, 16 => some o.minSvn
    | .miller, off, 0 => if off = 0x44 ∨ off = 0x54 ∨ off = 0x64 ∨ off = 0x74 then some o.romBase else none
    | .misc, 0x0B0, 0 => some o.bmcAddr
    | .weir, off, 0 =>
      if 0x80 ≤ off ∧ off < 0xC0 then
        if off % 8 = 0 then some (tableAt o.curveMa (8 * i + (off - 0x80) / 8)) else some (tableAt o.curveUs (8 * i + (off - 0x80) / 8))
      else none
    | _, _, _ => none

/-- The value a field returns to at reset (R18, R20). A key that no row covers holds 0 (R16). -/
def resetOf (o : Otp) (key : Nat) : Nat :=
  match pageAt (key / 32) with
  | none => 0
  | some (k, i, base) =>
    match specialReset o k i (key / 32 - base) (key % 32) with
    | some v => v
    | none => match rowAt key with
      | some r => r.reset
      | none => 0

/-- The retention class of a field (R18); a key that no row covers counts as class A. -/
def clsOf (key : Nat) : Cls :=
  match rowAt key with
  | some r => r.cls
  | none => .a

end Sys2Proof.Machine
end

