-- ==== Sys2Proof/Machine/Ops.lean ====
section
/-! DEFINITION. The named operations: finite maps, register fields, 40-bit pairs, active copies, events and emissions,
fabric time. Every meaning is written over them. -/

namespace Sys2Proof.Machine

/-! ## Finite maps -/

/-- The value of a key; `d` gives what an unlisted key reads as. -/
def Tbl.get {α : Type} (d : Nat → α) : Tbl α → Nat → α
  | [], k => d k
  | (k', v) :: t, k => if k' = k then v else Tbl.get d t k

/-- The map without a key. -/
def Tbl.del {α : Type} : Tbl α → Nat → Tbl α
  | [], _ => []
  | (k', v) :: t, k => if k' = k then Tbl.del t k else (k', v) :: Tbl.del t k

/-- The map with a key listed in its place. -/
def Tbl.ins {α : Type} : Tbl α → Nat → α → Tbl α
  | [], k, v => [(k, v)]
  | (k', v') :: t, k, v =>
    if k < k' then (k, v) :: (k', v') :: t
    else if k = k' then (k, v) :: t
    else (k', v') :: Tbl.ins t k v

/-- Writing a key: what an unlisted key reads as is not listed. -/
def Tbl.put {α : Type} [DecidableEq α] (d : Nat → α) (t : Tbl α) (k : Nat) (v : α) : Tbl α :=
  if v = d k then Tbl.del t k else Tbl.ins t k v

/-- Changing the value of a key. -/
def Tbl.upd {α : Type} [DecidableEq α] (d : Nat → α) (t : Tbl α) (k : Nat) (f : α → α) : Tbl α :=
  Tbl.put d t k (f (Tbl.get d t k))

/-- The keys a predicate keeps. -/
def Tbl.keep {α : Type} (p : Nat → Bool) (t : Tbl α) : Tbl α := t.filter (fun e => p e.1)

/-- The map with the keys of a range taken from another map. -/
def Tbl.copyRange {α : Type} (dst src : Tbl α) (lo hi : Nat) : Tbl α :=
  Tbl.keep (· < lo) dst ++ Tbl.keep (fun k => decide (lo ≤ k) && decide (k < hi)) src ++ Tbl.keep (fun k => decide (hi ≤ k)) dst

/-- Keys above a bound, strictly rising, none listed with what it reads as when unlisted. -/
def Tbl.okFrom {α : Type} [DecidableEq α] (d : Nat → α) : Nat → Tbl α → Bool
  | _, [] => true
  | b, (k, v) :: t => decide (b ≤ k) && decide (v ≠ d k) && Tbl.okFrom d (k + 1) t

/-- The canonical form of a finite map. -/
def Tbl.wf {α : Type} [DecidableEq α] (d : Nat → α) (t : Tbl α) : Bool := Tbl.okFrom d 0 t

/-! ## Register fields -/

/-- The value of a field: the shadow or staged copy where there are two (R63, R124). -/
def Hub.fget (h : Hub) (f : Fld) : Nat := Tbl.get (resetOf h.otp) h.regs f.key

/-- Setting a field to a value cut to its width. -/
def Hub.fset (h : Hub) (f : Fld) (v : Nat) : Hub :=
  { h with regs := Tbl.put (resetOf h.otp) h.regs f.key (v % 2 ^ f.w) }

/-- The active copy of a shadowed or staged field (R63, R124). -/
def Hub.aget (h : Hub) (f : Fld) : Nat := Tbl.get (resetOf h.otp) h.active f.key

/-- Setting the active copy of a field. -/
def Hub.aset (h : Hub) (f : Fld) (v : Nat) : Hub :=
  { h with active := Tbl.put (resetOf h.otp) h.active f.key (v % 2 ^ f.w) }

/-- A one-bit field reads 1. -/
def Hub.is (h : Hub) (f : Fld) : Bool := h.fget f != 0

/-- The active copy of a one-bit field reads 1. -/
def Hub.ais (h : Hub) (f : Fld) : Bool := h.aget f != 0

/-- Setting a one-bit field. -/
def Hub.flag (h : Hub) (f : Fld) (b : Bool) : Hub := h.fset f (if b then 1 else 0)

/-- A counter that saturates at its width. -/
def Hub.bump (h : Hub) (f : Fld) (n : Nat) : Hub := h.fset f (min (h.fget f + n) (2 ^ f.w - 1))

/-- A bit of a field taken as a bitmap. -/
def Hub.bit (h : Hub) (f : Fld) (n : Nat) : Bool := (h.fget f).testBit n

/-- A number with one bit set or cleared. -/
def withBit (x n : Nat) (b : Bool) : Nat :=
  if b then x ||| 2 ^ n else if x.testBit n then x - 2 ^ n else x

/-- Setting or clearing a bit of a field taken as a bitmap. -/
def Hub.putBit (h : Hub) (f : Fld) (n : Nat) (b : Bool) : Hub := h.fset f (withBit (h.fget f) n b)

/-! ## 40-bit pairs (R58): the field of the _LO register names the pair -/

/-- The _HI field of a pair: bits [7:0] of the next word. -/
def Fld.hi (f : Fld) : Fld := ⟨f.addr + 4, 0, 8⟩

/-- The 40-bit value of a pair. -/
def Hub.pget (h : Hub) (f : Fld) : Nat := h.fget f + 2 ^ 32 * h.fget f.hi

/-- Setting the 40-bit value of a pair; counters wrap at 2^40. -/
def Hub.pset (h : Hub) (f : Fld) (v : Nat) : Hub := (h.fset f (v % 2 ^ 32)).fset f.hi (v / 2 ^ 32)

/-- A 40-bit counter counts. -/
def Hub.pbump (h : Hub) (f : Fld) (n : Nat) : Hub := h.pset f (h.pget f + n)

/-! ## Events, emissions, time -/

/-- Hardware sets EVENT bit b of a page (R14, R43). -/
def Hub.event (h : Hub) (page b : Nat) : Hub := h.putBit (F.hdr_INT_STAT_EVENT page) b true

/-- The hub sends something to the outside. -/
def Hub.emit (h : Hub) (e : Emission) : Hub := { h with out := h.out ++ [e] }

/-- One more free value has been drawn: the next one has an argument of its own. -/
def Hub.draw (h : Hub) : Hub := { h with fresh := h.fresh + 1 }

/-- Fabric time extended by its epoch counter (R161). -/
def Hub.time (h : Hub) : Nat := h.epoch * 2 ^ 40 + h.ftime

/-- CHIP.VARIANT.CODE as it reads (R1). -/
def Hub.variant (h : Hub) : Nat := h.fget F.chip_VARIANT_CODE

/-- A page is present (R6). -/
def Hub.present (h : Hub) (k : Kind) (i : Nat) : Bool := pagePresent h.otp.variant k i

/-- An outlet is present (R22, R26). -/
def Hub.outletOk (h : Hub) (k : Nat) : Bool := outletPresent h.otp.variant k

/-- A list of functions applied one after another. -/
def Hub.foldl {α : Type} (h : Hub) (l : List α) (f : Hub → α → Hub) : Hub := l.foldl f h

/-- The power domain's state; absent units stay OFF (R504, R536). -/
def domDefault (o : Otp) (d : Nat) : DomSt :=
  if domainPresent o.variant d then ⟨0, false, 0, 0, 0, 0, false⟩ else ⟨3, false, 0, 0, 0, 0, false⟩

def Hub.dom (h : Hub) (d : Nat) : DomSt := Tbl.get (domDefault h.otp) h.domains d

def Hub.setDom (h : Hub) (d : Nat) (x : DomSt) : Hub :=
  { h with domains := Tbl.put (domDefault h.otp) h.domains d x }

/-- A domain accepts accesses without a wake (R512, R513): it is in RUN, no entry to NAP or OFF runs (R516), and no BIST run holds it
(R660). -/
def Hub.ready (h : Hub) (d : Nat) : Bool := (h.dom d).state == 0 && (h.dom d).entering == 0 && !(h.dom d).resetting

/-- A domain is in RUN or DOZE, as DOM_RUN shows it. -/
def Hub.domOn (h : Hub) (d : Nat) : Bool := decide ((h.dom d).state ≤ 1)

/-! ## DP transmitters toward monitors, by bit of OUT.PORTS (R303) -/

def dpPort0 : DpPort := ⟨false, 0, 0, false, false, false, false, ⟨false, false, false, 0, 0, 0, 0, 0, 0⟩⟩

def Hub.dpPort (h : Hub) (b : Nat) : DpPort := Tbl.get (fun _ => dpPort0) h.dpPorts b

def Hub.setDpPort (h : Hub) (b : Nat) (x : DpPort) : Hub := { h with dpPorts := Tbl.put (fun _ => dpPort0) h.dpPorts b x }

/-- A DPO sees HPD high: its ball is, and CTL.EN = 0 does not have it ignored (R312). -/
def Hub.hpdSeen (h : Hub) (o : Nat) : Bool := h.is (F.dpo_CTL_EN o) && (h.dpPort (8 + o)).hpd

/-- What the HPD balls of the DPOs carry, whatever reset the transmitters go through. -/
def hpdOnly (t : Tbl DpPort) : Tbl DpPort :=
  [8, 9].foldl (fun r b => Tbl.put (fun _ => dpPort0) r b { dpPort0 with hpd := (Tbl.get (fun _ => dpPort0) t b).hpd }) []

/-- The inputs of a domain are looked at (R523): it is in RUN or DOZE and enters nothing deeper. -/
def Hub.listens (h : Hub) (d : Nat) : Bool := h.domOn d && (h.dom d).entering == 0

/-- The bus-powered profile runs (R99). -/
def busPowered (h : Hub) : Bool := h.input.profile

/-- A domain that the bus-powered profile holds OFF, or REEL in self-refresh (R100, R510). -/
def profileHeld (h : Hub) (d : Nat) : Bool := busPowered h && decide (12 ≤ d) && decide (d ≤ 20)

/-- A wake of a domain to a state (R511, R512, R534): an absent domain never wakes (R536), and one that the profile holds not before
its end (R510). -/
def wakeUp (h : Hub) (d lvl : Nat) : Hub :=
  let x := h.dom d
  if !(domainPresent h.otp.variant d) then h
  else if x.waking then h.setDom d { x with wakeTo := min x.wakeTo lvl }
  else if (if x.entering = 0 then x.state else x.entering) ≤ lvl then h
  else h.setDom d { x with waking := true, wakeTo := lvl, wakeAt := h.time }

/-- A wake cause of a domain (R512). -/
def wake (h : Hub) (d : Nat) : Hub := wakeUp h d 0

/-- Two's complement of a width, and its reading. -/
def ofInt (w : Nat) (x : Int) : Nat := (x % (2 ^ w : Int)).toNat

def toInt (w : Nat) (x : Nat) : Int := if x < 2 ^ (w - 1) then x else (x : Int) - 2 ^ w

end Sys2Proof.Machine
end

