-- ==== Sys2Proof/Machine/Millrace.lean ====
section
/-! DEFINITION. The Millrace and the Hopper: unit capacities, path table, cells, Forebays, admission, reading toward an
outlet, departure, discards, ECC and audits (R111–R160), with the service of the queues they call from QueueService. -/

namespace Sys2Proof.Machine

/-! ## Capacities of the units (R74, R75, R173) -/

/-- Payload of one DP lane in kbit/s, by rate code 0 RBR to 6 UHBR20 (R75, R265; assumption log 12). -/
def dpLaneKbps (rate : Nat) : Nat :=
  match rate with
  | 0 => 1296000 | 1 => 2160000 | 2 => 4320000 | 3 => 6480000 | 4 => 9697000 | 5 => 13090909 | _ => 19342500

/-- P of R75: full packets per turn over the trained DP lanes. -/
def dpPackets (rate lanes : Nat) : Nat := lanes * dpLaneKbps rate * 625 / (10000 * 2048)

/-- Payload of a PCIe link in packets per turn (R173), by generation and width. -/
def pciePackets (gen width : Nat) : Nat :=
  match gen with
  | 1 => width * 2500000000 * 8 * 625 / (10 * 8 * 10000000 * 256)
  | 2 => width * 5000000000 * 8 * 625 / (10 * 8 * 10000000 * 256)
  | 3 => width * 8000000000 * 128 * 625 / (130 * 8 * 10000000 * 256)
  | 4 => width * 16000000000 * 128 * 625 / (130 * 8 * 10000000 * 256)
  | 5 => width * 32000000000 * 128 * 625 / (130 * 8 * 10000000 * 256)
  | _ => 0

/-- Packets per turn of a MAC, by ETHMAC.STATUS.SPEED (R173). -/
def macPackets (speed : Nat) : Nat :=
  match speed with
  | 1 => 3 | 2 => 30 | 3 => 76 | 4 => 152 | 5 => 305 | 6 => 762 | _ => 0

/-- The capacity an outlet's unit reports at the moment: transmit and receive (R173). -/
def unitCap (h : Hub) (k : Nat) : Nat × Nat :=
  if ¬ h.outletOk k then (0, 0)
  else if k < 12 then (h.fget (F.link_CAP_CAP_TX k), h.fget (F.link_CAP_CAP_RX k))
  else if k < 14 then
    if h.is (F.dpo_STATUS_LINK_UP (k - 12)) then
      (dpPackets (h.fget (F.dpo_STATUS_RATE (k - 12))) (h.fget (F.dpo_STATUS_LANES (k - 12))), 0)
    else (0, 0)
  else if k < 16 then
    let p := if h.is (F.ethmac_STATUS_LINK_UP (k - 14)) then macPackets (h.fget (F.ethmac_STATUS_SPEED (k - 14))) else 0
    (p, p)
  else if k < 18 then
    let p := if h.is (F.pciedn_STATUS_DLL_UP (k - 16)) then
      pciePackets (h.fget (F.pciedn_STATUS_GEN (k - 16))) (h.fget (F.pciedn_STATUS_WIDTH (k - 16))) else 0
    (p, p)
  else if k < 20 then (h.fget (F.leat_CAP_TUNNEL (k - 18)), h.fget (F.leat_CAP_TUNNEL (k - 18)))
  else if k = 20 then (12288, 12288)
  else if k = 21 then (3072, 3072)
  else if k = 22 then (4096, 4096)
  else (2440, 2440)

/-- The capacity the Sluice uses: the value taken up (R174), reduced to LIMIT when that is not 0 (R173). -/
def limited (cap limit : Nat) : Nat := if limit = 0 then cap else min cap limit

def txCap (h : Hub) (k : Nat) : Nat := limited (h.fget (F.sluice_CAP_TX k)) (h.aget (F.sluice_LIMIT_TX k))

def rxCap (h : Hub) (k : Nat) : Nat := limited (h.fget (F.sluice_CAP_RX k)) (h.aget (F.sluice_LIMIT_RX k))

/-- The capacities of R173 as the unit gives them at the moment. -/
def txNow (h : Hub) (k : Nat) : Nat := limited (unitCap h k).1 (h.aget (F.sluice_LIMIT_TX k))

def rxNow (h : Hub) (k : Nat) : Nat := limited (unitCap h k).2 (h.aget (F.sluice_LIMIT_RX k))

/-! ## The path table -/

/-- The paths whose active entry is valid, in rising order. -/
def validPaths (h : Hub) : List Nat :=
  h.active.filterMap fun (key, v) =>
    let a := key / 32
    if v == 1 && key % 32 == 0 && decide (Page.path ≤ a) && decide (a < Page.path + 0x10000) && (a - Page.path) % 64 == 0
    then some ((a - Page.path) / 64) else none

/-- A path runs as LOSSY: by its MODE, or because it touches outlet 14, 15 or 21 (R317). -/
def isEthPoint (k : Nat) : Bool := k == 14 || k == 15 || k == 21

def runLossy (h : Hub) (p : Nat) : Bool :=
  !(h.ais (F.path_CTL_MODE p)) || isEthPoint (h.aget (F.path_CTL_IN_OUTLET p))
    || (!(h.ais (F.path_CTL_MCAST p)) && isEthPoint (h.aget (F.path_ROUTE_OUT_OUTLET p)))

/-- Lookup by the key of ingress point and hop number (R118, R121). -/
def lookup (h : Hub) (ingress hop : Nat) : Option Nat :=
  (validPaths h).find? fun p => h.aget (F.path_CTL_IN_OUTLET p) == ingress && h.aget (F.path_CTL_IN_HOP p) == hop

/-- The outlet of a wire port of the Tailrace switch (R143, R318). -/
def switchOutlet (port : Nat) : Option Nat :=
  match port with
  | 0 => some 14 | 1 => some 15 | 2 => some 18 | 3 => some 19 | _ => none

/-- A group's targets after R26, in rising order. -/
def groupOutlets (h : Hub) (g : Nat) : List Nat :=
  (List.range 24).filter fun n => (h.aget (F.mcast_BITMAP_OUTLETS g)).testBit n && h.outletOk n

/-- The Gate that an entry serves as an AUX path. -/
def setAuxGate (h : Hub) (p : Nat) (g : Option Nat) : Hub := { h with auxGate := Tbl.put (fun _ => none) h.auxGate p g }

/-- The Gate that a path at outlet 20 belongs to (R233): the one whose BIND names it, or for which the hub created it as
the AUX path of the adapter bound to it (R231; assumption log 22). -/
def gateOfPath (h : Hub) (p : Nat) : Option Nat :=
  (List.range 4).find? fun g =>
    (h.is (F.gate_BIND_BOUND g) && h.fget (F.gate_BIND_PATH g) == p) || Tbl.get (fun _ => none) h.auxGate p == some g

/-- A path may name an outlet: present, and outlet 20 only where a Gate is bound to the path (R24, R233). -/
def targetOk (h : Hub) (p o : Nat) : Bool := h.outletOk o && (o != 20 || (gateOfPath h p).isSome)

/-- A path's targets: the group's after R143, or the one outlet when it is present (R24, R118). -/
def pathTargets (h : Hub) (p entryPort : Nat) : List Nat :=
  let inn := h.aget (F.path_CTL_IN_OUTLET p)
  if h.ais (F.path_CTL_MCAST p) then
    (groupOutlets h (h.aget (F.path_ROUTE_MCAST_GROUP p))).filter fun n =>
      n != inn && !(inn == 21 && switchOutlet entryPort == some n) && targetOk h p n
  else
    let o := h.aget (F.path_ROUTE_OUT_OUTLET p)
    if targetOk h p o then [o] else []

/-- The hop number a copy carries (R122, R141). -/
def copyHop (h : Hub) (p o : Nat) : Nat :=
  if h.ais (F.path_CTL_MCAST p) then
    let g := h.aget (F.path_ROUTE_MCAST_GROUP p)
    if (h.aget (F.mcast_ALT_MASK_OUTLETS g)).testBit o then h.aget (F.mcast_HOP_ALT_HOP g)
    else h.aget (F.path_ROUTE_OUT_HOP p)
  else h.aget (F.path_ROUTE_OUT_HOP p)

/-- A path's credit window (R133). -/
def credWindow (h : Hub) (p : Nat) : Nat :=
  let w := h.aget (F.path_CRED_CRED_WINDOW p)
  if w ≠ 0 then w else max 1 (h.fget F.mill_CRED_DEFAULT_CELLS)

/-! ## Occupancy of the Hopper -/

/-- Cells in use: those of stored chains and those lost until an audit (R150). -/
def usedCells (h : Hub) : List Nat := (h.chains.flatMap fun c => c.cells.map (·.num)) ++ h.leaked

/-- Cells held in a group of 12,288. -/
def groupHeld (h : Hub) (g : Nat) : Nat := ((usedCells h).filter (fun n => n / 12288 == g)).length

/-- The ACTIVE bitmap in force: 0x00 acts as 0x01 (R132). -/
def activeGroups (h : Hub) : Nat :=
  let a := h.fget F.hopper_GROUPS_ACTIVE
  if a = 0 then 1 else a

/-- The groups in which the hub allocates: ACTIVE and in RUN (R132). A group that a BIST run holds in reset counts by its domain
state alone (DESIGN CHOICE, log 98). -/
def allocGroups (h : Hub) : List Nat :=
  (List.range 8).filter fun g => (activeGroups h).testBit g && (h.dom (4 + g)).state == 0

/-- CAPACITY: 12,288 for each group whose ACTIVE bit is set (R132, R692). -/
def capacity (h : Hub) : Nat := 12288 * ((List.range 8).filter (fun g => (activeGroups h).testBit g)).length

/-- Credits of a path outstanding on an ingress; those that a predicate on keys selects; all of them. -/
def Hub.credOn (h : Hub) (p i : Nat) : Nat := Tbl.get (fun _ => 0) h.credits (32 * p + i)

def creditsOf (h : Hub) (q : Nat → Bool) : Nat := ((h.credits.filter fun e => q e.1).map (·.2)).sum

def creditsOut (h : Hub) : Nat := creditsOf h fun _ => true

/-- The credits of a path on an ingress become `n`; CRED_OUT shows the path's, and 0 on a LOSSY path (R122). -/
def Hub.setCred (h : Hub) (p i n : Nat) : Hub :=
  let h := { h with credits := Tbl.put (fun _ => 0) h.credits (32 * p + i) n }
  h.fset (F.path_CREDIT_CRED_OUT p) (if h.ais (F.path_CTL_VALID p) && runLossy h p then 0 else creditsOf h (· / 32 == p))

/-- Credits of a path on an ingress are no longer outstanding. -/
def Hub.dropCred (h : Hub) (p i n : Nat) : Hub := h.setCred p i (h.credOn p i - n)

/-- LOSSY room reserved for chains still arriving (R130). -/
def roomReserved (h : Hub) : Nat := (h.chains.map (·.room)).sum

def occLossy (h : Hub) : Nat := ((h.chains.filter (·.lossy)).map (·.cells.length)).sum + roomReserved h

def occCred (h : Hub) : Nat := ((h.chains.filter (!·.lossy)).map (·.cells.length)).sum + creditsOut h

/-- FREE: allocatable cells that neither occupancy holds. -/
def freeCells (h : Hub) : Nat :=
  ((allocGroups h).map (fun g => 12288 - groupHeld h g)).sum - creditsOut h - roomReserved h

/-- The low-water mark follows FREE. -/
def noteFree (h : Hub) : Hub := h.fset F.hopper_FREE_LWM_CELLS (min (h.fget F.hopper_FREE_LWM_CELLS) (freeCells h))

/-- The effective LOSSY limit (R129). -/
def lossyLimit (h : Hub) : Nat := min (min (h.fget F.hopper_LOSSY_LIMIT_CELLS) 98304) (capacity h - h.fget F.hopper_CRED_FLOOR_CELLS)

/-- DRAINED follows the groups; each rise of a bit raises GROUP_DRAINED (R132). -/
def updateDrained (h : Hub) : Hub :=
  let old := h.fget F.hopper_GROUPS_DRAINED
  let new := (List.range 8).foldl (fun n g =>
    if !((activeGroups h).testBit g) && groupHeld h g == 0 then n + 2 ^ g else n) 0
  let h' := h.fset F.hopper_GROUPS_DRAINED new
  if (List.range 8).any (fun g => new.testBit g && !old.testBit g) then h'.event Page.hopper 6 else h'

/-- The first place not in use, from a start, in a group; `fuel` covers the places in use. -/
def freePlace (used : List Nat) (g start : Nat) : Nat → Nat
  | 0 => 12288 * g + start % 12288
  | fuel + 1 =>
    let n := 12288 * g + start % 12288
    if used.contains n then freePlace used g (start + 1) fuel else n

/-- Groups open to allocation with a free cell (R132). -/
def givingGroups (h : Hub) : List Nat := (allocGroups h).filter fun g => decide (groupHeld h g < 12288)

/-- A cell for a packet, in a group of the hub's own choice (R692); none when no group has one. -/
def allocCell (h : Hub) : Option Nat :=
  let used := usedCells h
  let gs := givingGroups h
  match gs with
  | [] => none
  | g0 :: _ =>
    let g := gs.getD (Config.freeGroup h.fresh % gs.length) g0
    some (freePlace used g (Config.freeCell h.fresh) used.length)

/-! ## Counters -/

/-- The dropped counter of a colour (R154). -/
def dropField (p colour : Nat) : Fld :=
  match colour with
  | 0 => F.stats_DROP_GREEN_COUNT_LO p
  | 1 => F.stats_DROP_YELLOW_COUNT_LO p
  | _ => F.stats_DROP_RED_COUNT_LO p

def countDrop (h : Hub) (p colour n : Nat) : Hub := h.pbump (dropField p colour) n

def countRed (h : Hub) (p n : Nat) : Hub := h.pbump (F.stats_DROP_RED_COUNT_LO p) n

/-- Credits return to an ingress, one at a time. -/
def emitReturns (h : Hub) (ingress hop n : Nat) : Hub := (List.range n).foldl (fun h _ => h.emit (.creditReturn ingress hop)) h

/-- Credits under which packets were sent return to the pool (R24, R693). -/
def returnCredit (h : Hub) (ingress hop : Nat) (credit : Option Nat) (n : Nat) : Hub :=
  match credit with
  | none => h
  | some p => emitReturns (h.dropCred p ingress n) ingress hop n

/-! ## Chains and copies -/

def Hub.chain (h : Hub) (id : Nat) : Option Chain := h.chains.find? (·.id == id)

def Hub.setChain (h : Hub) (c : Chain) : Hub :=
  { h with chains := h.chains.map fun x => if x.id == c.id then c else x }

def flowKey (p o : Nat) : Nat := 32 * p + o

def flow0 : Flow := ⟨false, [], 0, 0, none, 0, 0, false⟩

def Hub.flow (h : Hub) (p o : Nat) : Flow := Tbl.get (fun _ => flow0) h.flows (flowKey p o)

def Hub.setFlow (h : Hub) (p o : Nat) (f : Flow) : Hub :=
  { h with flows := Tbl.put (fun _ => flow0) h.flows (flowKey p o) f }

def path0 : PathSt := ⟨0, false, false, 0, false, false, false, 0x42, 0⟩

def Hub.pst (h : Hub) (p : Nat) : PathSt := Tbl.get (fun _ => path0) h.pathSt p

def Hub.setPst (h : Hub) (p : Nat) (x : PathSt) : Hub :=
  { h with pathSt := Tbl.put (fun _ => path0) h.pathSt p x }

/-- The path a chain's packets count against; cells held by a path in the Hopper (QUEUED). -/
def queuedCells (h : Hub) (p : Nat) : Nat := ((h.chains.filter (·.path == p)).map (·.cells.length)).sum

/-- What INJECT did to a cell stays in it after the chain has gone (R148, R152). -/
def keepErr (t : Tbl Nat) (cells : List HCell) : Tbl Nat :=
  cells.foldl (fun t x => Tbl.put (fun _ => 0) t x.num ((if x.single then 1 else 0) + if x.double then 2 else 0)) t

/-- The hub frees a chain once every copy has departed and its last cell is written (R145). -/
def freeIfDone (h : Hub) (id : Nat) : Hub :=
  match h.chain id with
  | none => h
  | some c =>
    if c.complete && c.copies.all (·.done) then
      let h := { h with chains := h.chains.filter (·.id != id), cellErr := keepErr h.cellErr c.cells }
      let h := h.fset (F.path_QUEUE_QUEUED c.path) (queuedCells h c.path)
      updateDrained h
    else h

/-! ## Cell link words (R128) -/

/-- CHECK of the bits [34:0]: bit k is the even parity of every bit j with j mod 5 = k, the XOR of the seven fields of five bits. -/
def linkCheck (b : BitVec 35) : BitVec 5 :=
  b.extractLsb' 0 5 ^^^ b.extractLsb' 5 5 ^^^ b.extractLsb' 10 5 ^^^ b.extractLsb' 15 5 ^^^ b.extractLsb' 20 5 ^^^
    b.extractLsb' 25 5 ^^^ b.extractLsb' 30 5

/-- NEXT of a cell: the next cell of its chain; in the last, the first cell of the next chain of the path, and a free value where
there is none (R128: undefined at the tail of a queue). -/
def linkNext (h : Hub) (c : Chain) (n : Nat) : Nat :=
  match c.cells[n + 1]? with
  | some x => x.num
  | none =>
    match (h.chains.filter fun y => y.path == c.path && decide (c.id < y.id)).head?.bind (·.cells.head?) with
    | some x => x.num
    | none => Config.freeNext c.id

/-- The link word of cell n of a chain as it was written, CHECK above the rest; 0 bytes stand for 256 (R128). -/
def linkWord (h : Hub) (c : Chain) (n : Nat) (x : HCell) : BitVec 40 :=
  let refs := if n = 0 then (c.copies.filter (!·.done)).length else 0
  let eop := c.complete && n + 1 == c.cells.length
  let body : BitVec 35 := BitVec.ofNat 9 (x.bytes.length % 256) ++ BitVec.ofBool (eop && c.tailmark) ++ BitVec.ofBool eop
    ++ BitVec.ofNat 2 c.colour ++ BitVec.ofNat 5 refs ++ BitVec.ofNat 17 (linkNext h c n)
  linkCheck body ++ body

/-- The word as the cell holds it: INJECT.LINK has flipped its bit 0 (R152). -/
def storedLink (h : Hub) (c : Chain) (n : Nat) (x : HCell) : BitVec 40 :=
  linkWord h c n x ^^^ if x.badLink then 1 else 0

/-- CHECK fails (R150). -/
def linkFails (w : BitVec 40) : Bool := w.extractLsb' 35 5 != linkCheck (w.extractLsb' 0 35)

/-! ## Egress kinds (R136, R137) -/

/-- A link mode of R74 in which the port speaks USB4, or native USB 3.2. -/
def usb4Mode (m : Nat) : Bool := decide (1 ≤ m) && decide (m ≤ 7)
def usb3Mode (m : Nat) : Bool := m == 8 || m == 9 || m == 10
def dpMode (m : Nat) : Bool := m == 0xC || m == 0xD

/-- Cut-through is honoured at the egress for a LOSSY or CREDITED copy (R137). -/
def cutHonoured (h : Hub) (o : Nat) (lossy : Bool) : Bool :=
  if o < 12 then
    if usb4Mode (h.fget (F.link_LINK_STATUS_MODE o)) then true else lossy
  else if o == 18 || o == 19 then true
  else lossy

/-- Each chain leaves whole at an ETH or PCIe egress (R198). -/
def wholeChains (o : Nat) : Bool := decide (14 ≤ o) && decide (o ≤ 17)

/-- An egress may start a copy whose entry asked for it under cut-through now (R136). -/
def cutThrough (h : Hub) (o ingress entryPort : Nat) (lossy : Bool) : Bool :=
  h.is F.mill_CTL_CUT_EN && cutHonoured h o lossy
    && (if o == 14 || o == 15 then
          if ingress == 21 then
            match switchOutlet entryPort with
            | some i => decide (txNow h o ≤ rxNow h i)
            | none => true
          else decide (txNow h o ≤ rxNow h ingress)
        else true)

/-! ## Forebays (R115–R117) -/

def fb0 : Forebay := ⟨[], 0, 0⟩

def Hub.forebay (h : Hub) (i : Nat) : Forebay := Tbl.get (fun _ => fb0) h.forebays i

def Hub.setForebay (h : Hub) (i : Nat) (f : Forebay) : Hub :=
  { h with forebays := Tbl.put (fun _ => fb0) h.forebays i f }

/-- Bytes held in a Forebay. -/
def fbOcc (f : Forebay) : Nat := ((f.chains.flatMap (·.packets)).map List.length).sum

/-- An ingress point: outlets 0–11 and 14–23, when present (R22). -/
def ingressOk (h : Hub) (i : Nat) : Bool := h.outletOk i && i != 12 && i != 13

/-- Credits outstanding on an ingress, of whatever path (R117). -/
def creditsOn (h : Hub) (i : Nat) : Nat := creditsOf h (· % 32 == i)

/-- Room for a chain of 9,216 bytes beside every credit outstanding on the ingress (R116, R117). -/
def fbRoom (h : Hub) (i : Nat) : Bool := decide (fbOcc (h.forebay i) + 9216 + 256 * creditsOn h i ≤ 65536)

/-- A frame carries an 802.1Q tag, with its DEI bit (R210). -/
def frameDei (bs : Bytes) : Bool := bs.getD 12 0 == 0x81 && bs.getD 13 0 == 0x00 && (bs.getD 14 0).getLsbD 4

/-- The pre-colour of R210: at ETH by the frame's DEI bit; at a Leat the colour recorded by the transmitting hub; at the Tailrace
switch the colour on entry, green from a NIC; green everywhere else. -/
def preColour (ingress colour entryPort : Nat) (first : Bytes) : Nat :=
  if ingress == 14 || ingress == 15 then (if frameDei first then 1 else 0)
  else if ingress == 18 || ingress == 19 then min colour 2
  else if ingress == 21 then (if entryPort < 4 then min colour 2 else 0)
  else 0

def half0 : Half := ⟨false, 0, 0⟩

def Hub.half (h : Hub) (k : Nat) : Half := Tbl.get (fun _ => half0) h.halves k

def Hub.setHalf (h : Hub) (k : Nat) (x : Half) : Hub := { h with halves := Tbl.put (fun _ => half0) h.halves k x }

/-- Whether the path that a chain's key names at present runs LOSSY; a chain with no entry counts as LOSSY. -/
def keyLossy (h : Hub) (ingress hop : Nat) : Bool :=
  match lookup h ingress hop with
  | some p => runLossy h p
  | none => true

/-- A chain is discarded at its Forebay; while it goes on, so is the rest of it. -/
def refuseChain (h : Hub) (i : Nat) (c : FbChain) : Hub :=
  if c.closed then h
  else
    let f := h.forebay i
    h.setForebay i { f with chains := f.chains ++ [{ c with packets := [], taken := c.taken + c.packets.length, fate := .refused }] }

/-- A new chain at a Forebay (R116, R139, R556): bad before its first packet is written, it is discarded whole. A chain holds 1–36
packets (R111); what is longer, as a NIC's frame of more than 9,212 bytes with the switch's tag and FCS, is no chain and goes without
a count (DESIGN CHOICE, log 109). -/
def chainStart (h : Hub) (i hop : Nat) (packets : List Bytes) (closed bad : Bool) (colour : Nat)
    (credit : Option Nat) (entryPort : Nat) : Hub :=
  let x := h.half (2 * i)
  let credit := credit.filter fun p => decide (packets.length ≤ h.credOn p i)
  let c : FbChain := { hop := hop, packets := packets, closed := closed, bad := false
                       colour := preColour i colour entryPort (packets.getD 0 []), credit := credit
                       entryPort := entryPort, taken := 0, fate := .waiting }
  if packets.isEmpty || decide (36 < packets.length) then h
  else if bad then refuseChain (returnCredit h i hop credit packets.length) i c
  else if decide (i < 20) && x.flush && keyLossy h i hop then
    refuseChain (returnCredit (h.setHalf (2 * i) { x with drops := min (x.drops + 1) (2 ^ 32 - 1) }) i hop credit packets.length) i c
  else if credit.isNone && !(fbRoom h i) then
    let f := h.forebay i
    refuseChain ((h.setForebay i { f with drops := min (f.drops + 1) (2 ^ 32 - 1) }).event Page.mill 5) i c
  else
    let f := h.forebay i
    let f := { f with chains := f.chains ++ [c] }
    wake (h.setForebay i { f with hwm := max f.hwm (fbOcc f) }) 3

/-- The next packets of the chain under way at a Forebay (R111, R139). -/
def chainGoesOn (h : Hub) (i : Nat) (c : FbChain) (packets : List Bytes) (closed bad : Bool) : Hub :=
  let f := h.forebay i
  let rest := f.chains.dropLast
  let closed := closed && !packets.isEmpty
  let c' := { c with packets := c.packets ++ packets, closed := closed }
  if 36 < c.taken + c'.packets.length then h
  else match c.fate with
  | .refused =>
    let h := returnCredit h i c.hop c.credit packets.length
    if closed then h.setForebay i { f with chains := rest } else h
  | .waiting =>
    if bad then
      let h := returnCredit h i c.hop c.credit c'.packets.length
      refuseChain (h.setForebay i { h.forebay i with chains := rest }) i c'
    else h.setForebay i { f with chains := rest ++ [c'], hwm := max f.hwm (fbOcc { f with chains := rest ++ [c'] }) }
  | .storing _ | .dropped _ =>
    let c' := { c' with bad := c.bad || bad }
    h.setForebay i { f with chains := rest ++ [c'], hwm := max f.hwm (fbOcc { f with chains := rest ++ [c'] }) }

/-- Activity on a link wakes the domain of its unit (R512). -/
def wakeIngress (h : Hub) (i : Nat) : Hub :=
  if i < 12 then wake h (21 + i) else if i < 16 then wake h 35 else if i < 20 then wake h (20 + i) else h

/-- A chain, or the next packets of the chain under way, arrive at a Forebay (R116, R139). -/
def chainArrival (h : Hub) (i hop : Nat) (packets : List Bytes) (closed bad : Bool) (colour : Nat)
    (credit : Option Nat) (entryPort : Nat) : Hub :=
  if ¬ ingressOk h i then h
  else
    let h := wakeIngress h i
    match (h.forebay i).chains.getLast? with
    | none => chainStart h i hop packets closed bad colour credit entryPort
    | some c =>
      if c.closed then chainStart h i hop packets closed bad colour credit entryPort
      else chainGoesOn h i c packets closed bad

end Sys2Proof.Machine
end

