-- ==== Sys2Proof/Machine/QueueService.lean ====
section
/-! DEFINITION. Queue service, shaping, policing and WRED (R192–R230), and with them the judging of a chain at a Forebay
head (R118), the reading of a packet toward an outlet (R196, R147–R150) and its departure (R555, R145). -/

namespace Sys2Proof.Machine

/-! ## Turns and tags -/

/-- The turn number (R161). -/
def turnNo (h : Hub) : Nat :=
  let t := h.fget F.sluice_TURN_PHASE_TICKS
  if h.time < t then 0 else (h.time - t) / 8000

/-- Tag a is earlier than tag b (R201). -/
def earlier (a b : Nat) : Bool :=
  let d := (b + 2 ^ 40 - a) % 2 ^ 40
  decide (1 ≤ d) && decide (d ≤ 2 ^ 39 - 1)

/-- The maximum of R200, under the same rule. -/
def laterTag (a b : Nat) : Nat := if earlier a b then b else a

/-- The increment of a weight in raw units (R199); a class weight of 0 acts as 1 (R222). -/
def increment (weight : Nat) : Nat := 16777216 / max 1 weight

/-- A selection is stale when it was in neither the current turn nor the previous one (R202). -/
def stale (h : Hub) (lastSel : Nat) : Bool := lastSel == 0 || decide (lastSel < turnNo h)

/-- The tag of R200, with R202. -/
def newTag (h : Hub) (v fprev lastSel inc : Nat) : Nat :=
  ((if stale h lastSel then v else laterTag v fprev) + inc) % 2 ^ 40

def class0 : ClassSt := ⟨0, none, 0, 0, 0, 0, false⟩

def Hub.cls (h : Hub) (o c : Nat) : ClassSt := Tbl.get (fun _ => class0) h.classes (8 * o + c)

def Hub.setCls (h : Hub) (o c : Nat) (x : ClassSt) : Hub :=
  { h with classes := Tbl.put (fun _ => class0) h.classes (8 * o + c) x }

def outlet0 : OutletSt := ⟨0, none, false, 0⟩

def Hub.outlet (h : Hub) (o : Nat) : OutletSt := Tbl.get (fun _ => outlet0) h.outlets o

def Hub.setOutlet (h : Hub) (o : Nat) (x : OutletSt) : Hub :=
  { h with outlets := Tbl.put (fun _ => outlet0) h.outlets o x }

def Hub.txEntries (h : Hub) (o : Nat) : List XEntry := Tbl.get (fun _ => []) h.txq o

def Hub.setTx (h : Hub) (o : Nat) (l : List XEntry) : Hub := { h with txq := Tbl.put (fun _ => []) h.txq o l }

/-- A class weight of an outlet: the active copy (R203). -/
def classWeight (h : Hub) (o c : Nat) : Nat :=
  match c with
  | 2 => h.aget (F.sluiceOut_CW23_W2 o) | 3 => h.aget (F.sluiceOut_CW23_W3 o)
  | 4 => h.aget (F.sluiceOut_CW45_W4 o) | 5 => h.aget (F.sluiceOut_CW45_W5 o)
  | 6 => h.aget (F.sluiceOut_CW67_W6 o) | _ => h.aget (F.sluiceOut_CW67_W7 o)

/-- The class shaper of classes 0 and 1: rate and burst (R204, R206). -/
def classRate (h : Hub) (o c : Nat) : Nat :=
  if c = 0 then h.aget (F.sluiceOut_C0_SHAPE_RATE o) else h.aget (F.sluiceOut_C1_SHAPE_RATE o)

def classBurst (h : Hub) (o c : Nat) : Nat :=
  if c = 0 then h.aget (F.sluiceOut_C0_BURST_PACKETS o) else h.aget (F.sluiceOut_C1_BURST_PACKETS o)

def pathClass (h : Hub) (p : Nat) : Nat := h.aget (F.path_CTL_CLASS p)

/-- The paths with a flow at an outlet, in rising order. -/
def flowsAt (h : Hub) (o : Nat) : List Nat :=
  h.flows.filterMap fun (k, _) => if k % 32 == o then some (k / 32) else none

/-! ## Discards -/

/-- A flow's cap (R206). -/
def flowCap (h : Hub) (p o : Nat) : Int :=
  let b := h.aget (F.path_SHAPE_SHAPE_BURST p)
  if (h.flow p o).queue.isEmpty then b else max 1 (b + h.aget (F.sluiceOut_LAG_PACKETS o) : Nat)

/-- A class shaper's cap (R206). -/
def classCap (h : Hub) (o c : Nat) : Int :=
  let b := classBurst h o c
  if (flowsAt h o).all (fun p => pathClass h p != c || (h.flow p o).queue.isEmpty) then b
  else max 1 (b + h.aget (F.sluiceOut_LAG_PACKETS o) : Nat)

/-- A flow's tokens are cut to its cap (R206). -/
def capFlow (h : Hub) (p o : Nat) : Hub :=
  let f := h.flow p o
  h.setFlow p o { f with tokens := min f.tokens (flowCap h p o) }

/-- A class shaper's tokens are cut to its cap (R206); a class without a rate keeps its tokens (R207). -/
def capClass (h : Hub) (o c : Nat) : Hub :=
  if c < 2 ∧ classRate h o c ≠ 0 then h.setCls o c { h.cls o c with tokens := min (h.cls o c).tokens (classCap h o c) } else h

/-- Every shaper of an outlet is cut to its cap, as after a change of what the caps are made of (R206). -/
def capOutlet (h : Hub) (o : Nat) : Hub := capClass (capClass ((flowsAt h o).foldl (fun h p => capFlow h p o) h) o 0) o 1

/-- A flow ends once its path no longer targets the outlet, or has lost VALID, and its queue is empty (R695). -/
def endFlow (h : Hub) (p o : Nat) : Hub :=
  if (h.flow p o).queue.isEmpty && !(h.ais (F.path_CTL_VALID p) && (pathTargets h p 8).contains o) then h.setFlow p o flow0 else h

/-- The flows of a path that hold nothing end (R695). -/
def endFlows (h : Hub) (p : Nat) : Hub := (List.range 24).foldl (fun h o => endFlow h p o) h

/-- A chain leaves a flow's queue at an outlet: the tokens are cut to the cap; when the queue empties, those of the class follow, and
a flow without a target ends (R206, R226, R695). -/
def unqueue (h : Hub) (p o id : Nat) : Hub :=
  let f := h.flow p o
  let q := f.queue.filter (· != id)
  let f := { f with queue := q, tag := if f.queue.head? == some id then none else f.tag, sinceTurn := f.sinceTurn && !q.isEmpty }
  let h := capFlow (h.setFlow p o f) p o
  if q.isEmpty then endFlow (capClass h o (pathClass h p)) p o else h

/-- An egress that a chain kept is free again (R198). -/
def freeEgress (h : Hub) (o id : Nat) : Hub :=
  if (h.outlet o).busy == some id then h.setOutlet o { h.outlet o with busy := none } else h

/-- The chain that keeps an egress is one of the path's (R198): its flow takes its next tag when the chain, with its charge, has left
(R200). -/
def flowSends (h : Hub) (o p : Nat) : Bool :=
  match (h.outlet o).busy.bind h.chain with
  | some c => c.path == p
  | none => false

/-- A copy takes no more packets from the Hopper; what it has not sent is discarded, counted red when `red` says so. -/
def closeCopy (h : Hub) (id o : Nat) (red : Bool) : Hub :=
  match h.chain id with
  | none => h
  | some c =>
    match c.copies.find? (fun k => k.outlet == o && !k.closed) with
    | none => h
    | some k =>
      let h := if red then countRed h c.path (c.cells.length - k.sent) else h
      let c := { c with copies := c.copies.map fun x =>
        if x.outlet == o then { x with closed := true, done := x.departed == x.sent, ended := x.ended || red } else x }
      freeEgress (freeIfDone (unqueue (h.setChain c) c.path o id) id) o id

/-- Every copy of a chain is discarded with its unsent packets counted once as red (R89): what no copy has sent. A frame or TLP under
way on the wire is cut there. -/
def discardChain (h : Hub) (id : Nat) : Hub :=
  match h.chain id with
  | none => h
  | some c =>
    let sent := (c.copies.map (·.sent)).foldl max 0
    let h := countRed h c.path (c.cells.length - sent)
    c.copies.foldl (fun h k =>
      closeCopy (if !k.closed && (h.outlet k.outlet).busy == some id then h.emit (.frameCut k.outlet) else h) id k.outlet false) h

/-- A chain discarded unpoliced counts as dropped red (R24, R89, R118). -/
def discard0 : Discard := ⟨none, 2, 0, 2, 0, [], false⟩

/-- A chain of a path discarded in the colour that a profile gave it. -/
def policedAs (p colour profile : Nat) : Discard := ⟨some p, colour, profile, colour, 0, [], false⟩

/-- What is still to come at the Forebays of a path's stored chains, which the hub has lost, counts as dropped red, and in the policer
colour of its chain (R89, R150, R214). -/
def dropArriving (h : Hub) (p : Nat) : Hub :=
  let lostOf (x : FbChain) : Option Chain := match x.fate with
    | .storing id => (h.chain id).filter (·.path == p)
    | _ => none
  (List.range 24).foldl (fun h i =>
    let f := h.forebay i
    if f.chains.any fun x => (lostOf x).isSome then
      h.setForebay i { f with chains := f.chains.map fun x => match lostOf x with
        | some c => { x with fate := .dropped { policedAs p c.colour c.profile with colour := 2 } }
        | none => x }
    else h) h

/-! ## Eligibility (R195) -/

/-- The copy at the head of a flow's queue. -/
def headCopy (h : Hub) (p o : Nat) : Option (Chain × Copy) :=
  match (h.flow p o).queue with
  | [] => none
  | id :: _ =>
    match h.chain id with
    | none => none
    | some c =>
      match c.copies.find? (fun k => k.outlet == o && !k.closed) with
      | none => none
      | some k => some (c, k)

/-- A head sends nothing on a port that it names and that is not usable (R298): ingress and hop number of the stream, and the outlet. -/
def silentKey (h : Hub) (ingress hop o : Nat) : Bool :=
  ingress == 20 && decide (4 ≤ o) && decide (o < 14) && decide (hop < 4)
    && h.bit (F.proj_OUT_PORTS hop) (o - 4) && !(h.bit (F.proj_PORT_STAT_UP hop) (o - 4))
    && !(h.bit (F.proj_PORT_STAT_SHORT hop) (o - 4))

/-- The head can give a packet now, and no CREDITED packet goes to a port that its stream may not take (R134, R298): whole in the
Hopper, or cut-through, decided as the copy starts, with its next cell written
(R136). -/
def headReady (h : Hub) (p o : Nat) : Bool :=
  match headCopy h p o with
  | none => false
  | some (c, k) =>
    !k.held && decide (k.sent < c.cells.length) && !(!c.lossy && silentKey h c.ingress c.hop o)
      && (c.complete || decide (0 < k.sent) || (k.cut && cutThrough h o c.ingress c.entryPort c.lossy))

def eligible (h : Hub) (p o : Nat) : Bool :=
  headReady h p o && h.aget (F.path_SHAPE_WEIGHT p) != 0 && decide (1 ≤ (h.flow p o).tokens)
    && !((h.outlet o).paused.testBit (pathClass h p))

/-- Tags follow eligibility (R200), and a backlogged flow without a token makes its path LIMITED (R170). -/
def refreshFlow (h : Hub) (o p : Nat) : Hub :=
  let f := h.flow p o
  let h := if !f.queue.isEmpty && decide (f.tokens < 1) then h.setPst p { h.pst p with limitedNow := true } else h
  if eligible h p o && !(flowSends h o p) then
    match f.tag with
    | some _ => h
    | none =>
      let c := pathClass h p
      h.setFlow p o { f with tag := some (newTag h (h.cls o c).v f.fprev f.lastSel (increment (h.aget (F.path_SHAPE_WEIGHT p)))) }
  else h.setFlow p o { f with tag := none }

/-- A chain of the class keeps the egress (R198): the class takes its next tag when the chain, with its charge, has left (R203). -/
def classSends (h : Hub) (o c : Nat) : Bool :=
  match (h.outlet o).busy.bind h.chain with
  | some x => pathClass h x.path == c
  | none => false

/-- A class of 2–7 is tagged when its first flow becomes eligible (R203); a class shaper is watched for R226. -/
def refreshClass (h : Hub) (o c : Nat) : Hub :=
  let x := h.cls o c
  let any := (flowsAt h o).any fun p => pathClass h p == c && eligible h p o
  if c < 2 then h.setCls o c { x with hadToken := x.hadToken || decide (1 ≤ x.tokens) }
  else if classSends h o c then h
  else if any then
    match x.tag with
    | some _ => h
    | none => h.setCls o c { x with tag := some (newTag h (h.outlet o).vInter x.fprev x.lastSel (increment (classWeight h o c))) }
  else h.setCls o c { x with tag := none }

def refreshOutlet (h : Hub) (o : Nat) : Hub :=
  let h := (flowsAt h o).foldl (fun h p => refreshFlow h o p) h
  (List.range 8).foldl (fun h c => refreshClass h o c) h

/-- Cells of copies queued at an outlet, of one class or of all. -/
def queuedAt (h : Hub) (o : Nat) (cls : Option Nat) : Nat :=
  (h.chains.map fun c =>
    if cls.isNone || cls == some (pathClass h c.path) then
      ((c.copies.filter fun k => k.outlet == o && !k.closed).map fun k => c.cells.length - k.sent).sum
    else 0).sum

/-- The high-water mark of an outlet follows its depth (R225). -/
def noteDepth (h : Hub) (o : Nat) : Hub :=
  h.fset (F.sluiceOut_DEPTH_HWM_CELLS o) (max (h.fget (F.sluiceOut_DEPTH_HWM_CELLS o)) (queuedAt h o none))

/-! ## Policing (R210–R217) and WRED (R218–R221) -/

/-- A bucket in two's complement Q24.8, and its change by whole packets. -/
def bucket (h : Hub) (f : Fld) : Int := toInt 32 (h.fget f)

def takeBucket (h : Hub) (f : Fld) : Hub := h.fset f (ofInt 32 (bucket h f - 256))

/-- The colour of a chain's first packet and the buckets it draws on (R212); profile 0 passes the pre-colour (R223). -/
def policeColour (h : Hub) (profile pre : Nat) : Nat × Nat :=
  let aware := h.ais (F.policer_CTL_COLOUR_AWARE profile)
  let tc := bucket h (F.policer_TC_TOKENS profile)
  let tp := bucket h (F.policer_TP_TOKENS profile)
  if profile = 0 then (pre, 0)
  else if aware && pre == 2 then (2, 0)
  else if tp < 256 then (2, 0)
  else if (aware && pre == 1) || decide (tc < 256) then (1, 1)
  else (0, 2)

/-- A packet takes one token from each bucket its chain draws on (R213). -/
def drawBuckets (h : Hub) (profile buckets : Nat) : Hub :=
  let h := if buckets = 2 then takeBucket h (F.policer_TC_TOKENS profile) else h
  if buckets = 0 then h else takeBucket h (F.policer_TP_TOKENS profile)

def policerCounter (profile colour : Nat) : Fld :=
  match colour with
  | 0 => F.policer_GREEN_COUNT_LO profile
  | 1 => F.policer_YELLOW_COUNT_LO profile
  | _ => F.policer_RED_COUNT_LO profile

def countPoliced (h : Hub) (profile colour n : Nat) : Hub :=
  if profile = 0 then h else h.pbump (policerCounter profile colour) n

def wredCounter (w colour : Nat) : Fld :=
  match colour with
  | 0 => F.wred_DROPS_GREEN_COUNT_LO w
  | 1 => F.wred_DROPS_YELLOW_COUNT_LO w
  | _ => F.wred_DROPS_RED_COUNT_LO w

/-- WRED keeps a copy of a colour at an outlet (R219), given the 16-bit draw. -/
def wredKeeps (h : Hub) (w o colour draw : Nat) : Bool :=
  let mx := h.aget (F.wred_MAX_CELLS w colour)
  let mn := min (h.aget (F.wred_MIN_CELLS w colour)) mx
  let avg := h.fget (F.sluiceOut_WRED_AVG_AVG o w)
  if w = 0 then true
  else if avg < 256 * mn then true
  else if 256 * mx ≤ avg then false
  else decide (h.aget (F.wred_MAXP_P w colour) * (avg - 256 * mn) ≤ draw * (mx - mn))

/-- What WRED drops is counted for the path, the profile and the outlet (R112, R220). -/
def countWred (h : Hub) (p w o colour n : Nat) : Hub :=
  let h := countDrop h p colour n
  let h := h.pbump (wredCounter w colour) n
  let h := h.pbump (F.sluiceOut_WRED_DROPS_LO_COUNT o) n
  h.event (Page.sluiceOut o) 0

/-- WRED judges each copy with a fresh draw (R145, R219): the copies kept and the outlets of those dropped. -/
def wredFilter (h : Hub) (w colour : Nat) : List Nat → Hub × List Nat × List Nat
  | [] => (h, [], [])
  | o :: t =>
    let keep := wredKeeps h w o colour (Config.freeDraw h.fresh).toNat
    let (h', k, d) := wredFilter (if w = 0 then h else h.draw) w colour t
    if keep then (h', o :: k, d) else (h', k, o :: d)

/-! ## Writing cells (R118, R131, R145, R152) -/

/-- Bits 0 and 1 of word 1 of row 0 flip (R152); words are little-endian (PRESUMED, log 98). -/
def flipWord1 (bs : Bytes) : Bytes := bs.modify 8 (· ^^^ 3)

/-- One packet of a stored chain is written: into a cell of the hub's choice (R692), with the injection that is armed. What the path's
entry takes in counts while it is valid (R169). -/
def writePacket (h : Hub) (id : Nat) (credit : Option Nat) (bytes : Bytes) : Hub :=
  match h.chain id, allocCell h with
  | some c, some n =>
    let double := h.is F.hopper_INJECT_DOUBLE
    let cell : HCell := { num := n, bytes := if double then flipWord1 bytes else bytes, single := h.is F.hopper_INJECT_SINGLE,
                          double := double, badLink := h.is F.hopper_INJECT_LINK }
    let h := ((h.draw.flag F.hopper_INJECT_SINGLE false).flag F.hopper_INJECT_DOUBLE false).flag F.hopper_INJECT_LINK false
    let h := { h with cellErr := Tbl.put (fun _ => 0) h.cellErr n 0 }
    let h := match credit with
      | some p => if !c.lossy then h.dropCred p c.ingress 1 else h
      | none => h
    let h := h.setChain { c with cells := c.cells ++ [cell], room := c.room - 1 }
    let h := h.pbump (F.stats_PKT_IN_COUNT_LO c.path) 1
    let h := h.pbump (F.stats_BYTES_IN_COUNT_LO c.path) bytes.length
    let h := h.fset (F.path_QUEUE_QUEUED c.path) (queuedCells h c.path)
    let h := if h.ais (F.path_CTL_VALID c.path) then h.setPst c.path { h.pst c.path with arrived := (h.pst c.path).arrived + 1 } else h
    noteFree { h with cellsWritten := h.cellsWritten + 1 }
  | _, _ => h

/-- A packet without a credit of its CREDITED entry that finds FREE at 0 is discarded (R693); so that its chain does not pass as
whole, the chain leaves marked (DESIGN CHOICE, log 14). -/
def discardUncredited (h : Hub) (c : Chain) : Hub :=
  (((countRed h c.path 1).bump F.mill_CFG_FAULT_COUNT_COUNT 1).event Page.mill 2).setChain { c with tailmark := true }

/-- The window of a CREDITED path is reached (R133). -/
def windowFull (h : Hub) (p : Nat) : Bool :=
  !(runLossy h p) && decide (credWindow h p ≤ h.fget (F.path_QUEUE_QUEUED p) + h.fget (F.path_CREDIT_CRED_OUT p))

/-- With its window reached, the path is LIMITED in this turn (R170). -/
def noteWindow (h : Hub) (p : Nat) : Hub :=
  if windowFull h p then h.setPst p { h.pst p with limitedNow := true } else h

/-- A later packet of a chain being stored at ingress `i`: it is coloured as its chain, takes its tokens when it is admitted, and
counts for the copies that WRED dropped or that have ended (R112, R149, R213, R220), and may fill the path's window (R170). A credit
that is none of its path, or meets a LOSSY chain, returns (R693). -/
def writeLater (h : Hub) (i hop id : Nat) (credit : Option Nat) (bytes : Bytes) : Hub :=
  match h.chain id with
  | none => returnCredit h i hop credit 1
  | some c =>
    let own := credit == some c.path && !c.lossy
    let h := if own then h else returnCredit h i hop credit 1
    if !own && !c.lossy && freeCells h == 0 then discardUncredited h c
    else
      let h := countPoliced (drawBuckets h c.profile c.buckets) c.profile c.colour 1
      let h := c.lost.foldl (fun h o => countWred h c.path c.wred o c.colour 1) h
      let h := countRed h c.path (c.copies.filter (·.ended)).length
      noteWindow (writePacket h id (if own then credit else none) bytes) c.path

/-- A packet has its cell reserved, by a credit or by LOSSY room, and no group open to allocation has one for it: it waits in the
Forebay (R130–R132, R134; DESIGN CHOICE, log 14). -/
def packetWaits (h : Hub) (id : Nat) (credit : Option Nat) : Bool :=
  match h.chain id with
  | some c => (c.lossy || credit == some c.path) && (allocCell h).isNone
  | none => false

/-- The later packets of a chain are written in order; the second part is what waits for a cell. -/
def writeRest (i hop id : Nat) (credit : Option Nat) : List Bytes → Hub → Hub × List Bytes
  | [], h => (h, [])
  | b :: t, h =>
    if packetWaits h id credit then (h, b :: t) else writeRest i hop id credit t (writeLater h i hop id credit b)

/-- The last cell of a chain is written: unused room returns, a bad chain is marked (R130, R139). -/
def completeChain (h : Hub) (id : Nat) (bad : Bool) : Hub :=
  match h.chain id with
  | none => h
  | some c => freeIfDone (h.setChain { c with complete := true, room := 0, tailmark := c.tailmark || bad }) id

/-- The power domain of the unit that a path's copies meet at an outlet: at outlet 20 the Gate's (R22, R504). -/
def copyDomain (h : Hub) (p o : Nat) : Option Nat :=
  if o < 14 then some (21 + o)
  else if o < 16 ∨ o = 21 then some 35
  else if o < 20 then some (20 + o)
  else if o = 20 then (gateOfPath h p).map (13 + ·)
  else if o = 22 then some 2
  else if o = 23 then some 41
  else none

/-- A copy waits for the domain of its outlet; a domain that the profile holds, or an absent one, is not waited for (R510, R512). -/
def copyAsleep (h : Hub) (p o : Nat) : Bool :=
  match copyDomain h p o with
  | some d => !(h.ready d) && domainPresent h.otp.variant d && !(profileHeld h d)
  | none => false

/-- A copy for an outlet whose domain is asleep wakes it (R512). -/
def wakeCopy (h : Hub) (p o : Nat) : Hub :=
  match copyDomain h p o with
  | some d => wake h d
  | none => h

/-- A chain is stored: its record, a copy on every target, and each target's queue (R118, R145, R217); the second part is what waits
in the Forebay for a cell. -/
def storeChain (h : Hub) (p i : Nat) (x : FbChain) (lossy : Bool) (colour profile buckets : Nat) (targets lost : List Nat) :
    Hub × List Bytes :=
  let id := h.nextChain
  let hold := !lossy && colour == 2
  let copies := targets.map fun o =>
    ({ outlet := o, hop := copyHop h p o, sent := 0, departed := 0, cut := h.ais (F.path_CTL_CUT p),
       held := hold, endNext := false, whole := false, closed := false, done := false, ended := false } : Copy)
  let room := if lossy then (if x.closed && x.packets.length == 1 then 1 else 36) else 0
  let c : Chain := { id := id, path := p, ingress := i, hop := x.hop, entryPort := x.entryPort, lossy := lossy, colour := colour, profile := profile,
                     buckets := buckets, cells := [], complete := false, tailmark := false, room := room,
                     wred := h.aget (F.path_SHAPE_WRED_PROFILE p), lost := lost, copies := copies }
  let h := { h with chains := h.chains ++ [c], nextChain := id + 1 }
  let h := targets.foldl (fun h o =>
    let f := h.flow p o
    let h := h.setFlow p o { f with live := true, queue := f.queue ++ [id] }
    if hold then (h.pbump (F.sluiceOut_RED_HELD_LO_COUNT o) 1).event (Page.sluiceOut o) 1 else h) h
  let h := (x.packets.take 1).foldl (fun h b => writePacket h id x.credit b) h
  let (h, rest) := writeRest i x.hop id x.credit (x.packets.drop 1) h
  let h := if x.closed && rest.isEmpty then completeChain h id x.bad else h
  (targets.foldl (fun h o => wakeCopy (noteDepth (refreshOutlet h o) o) p o) (noteWindow h p), rest)

/-! ## Admission (R118) -/

/-- The judgement of a chain at a Forebay head, on its first packet (R112, R118): the hub after it and the chain's fate. Where the
discard of R693 at FREE = 0 stands in the order of R118 is not said: it comes before policing, so that such a packet takes no token
and counts for no profile (DESIGN CHOICE, log 98). The last part is what stays in the Forebay for want of a cell. -/
def judge (h : Hub) (i : Nat) (x : FbChain) : Hub × Fate × List Bytes :=
  let n := x.packets.length
  match lookup h i x.hop with
  | none =>
    let h := (h.bump F.mill_MISS_COUNT_COUNT 1).fset F.mill_MISS_LAST_OUTLET i
    let h := (h.fset F.mill_MISS_LAST_HOP x.hop).event Page.mill 0
    (returnCredit h i x.hop x.credit n, .dropped { discard0 with path := none }, [])
  | some p =>
    let targets := pathTargets h p x.entryPort
    if targets.isEmpty then
      let h := countRed h p n
      let h := if h.ais (F.path_CTL_MCAST p) then
          ((h.bump (F.mcast_EMPTY_DROPS_COUNT (h.aget (F.path_ROUTE_MCAST_GROUP p))) 1).bump F.mill_MCAST_EMPTY_COUNT_COUNT 1).event Page.mill 3
        else (h.bump F.mill_CFG_FAULT_COUNT_COUNT 1).event Page.mill 2
      (returnCredit h i x.hop x.credit n, .dropped { discard0 with path := some p }, [])
    else
      let lossy := runLossy h p
      let own := x.credit == some p && !lossy
      let h := if own then h else returnCredit h i x.hop x.credit n
      let x := if own then x else { x with credit := none }
      if own && (allocCell h).isNone then (h, .waiting, x.packets)
      else if !lossy && !own && freeCells h == 0 then
        let h := ((countRed h p n).bump F.mill_CFG_FAULT_COUNT_COUNT n).event Page.mill 2
        (h, .dropped { discard0 with path := some p, fault := true }, [])
      else
        let profile := h.aget (F.path_ROUTE_POLICE_PROFILE p)
        let (colour, buckets) := policeColour h profile x.colour
        let h := drawBuckets h profile buckets
        if lossy && colour == 2 && profile != 0 && h.ais (F.policer_CTL_RED_DROP profile) then
          (countDrop (countPoliced h profile colour n) p colour n, .dropped (policedAs p colour profile), [])
        else
          let room := if x.closed && n == 1 then 1 else 36
          if lossy && (decide (lossyLimit h < occLossy h + room) || decide (freeCells h < room)) then
            let h := (countDrop (countPoliced h profile colour n) p colour n).bump F.hopper_LIMIT_DROPS_COUNT 1
            let h := if h.lossyFullSeen then h else { h.event Page.hopper 4 with lossyFullSeen := true }
            (h, .dropped (policedAs p colour profile), [])
          else
            let w := h.aget (F.path_SHAPE_WRED_PROFILE p)
            let (h, keep, lost) := if lossy then wredFilter h w colour targets else (h, targets, [])
            if keep.isEmpty then
              (lost.foldl (fun h o => countWred h p w o colour n) (countPoliced h profile colour n),
                .dropped { policedAs p colour profile with wred := w, lost := lost }, [])
            else
              let h := lost.foldl (fun h o => countWred h p w o colour 1) (countPoliced h profile colour 1)
              let (h', rest) := storeChain h p i x lossy colour profile buckets keep lost
              (h', .storing h.nextChain, rest)

/-- The Forebay head after its packets have been taken, but those that wait for a cell: gone once its last packet has been. -/
def settleHead (h : Hub) (i : Nat) (fate : Fate) (rest : List Bytes) : Hub :=
  let f := h.forebay i
  match f.chains with
  | [] => h
  | x :: t =>
    if x.closed && rest.isEmpty then h.setForebay i { f with chains := t }
    else h.setForebay i { f with chains := { x with packets := rest, taken := x.taken + (x.packets.length - rest.length), fate := fate } :: t }

/-- Further packets of a chain that was discarded count as its first did (R112, R214, R220, R693). -/
def countDiscard (h : Hub) (d : Discard) (n : Nat) : Hub :=
  let h := countPoliced h d.profile d.policed n
  let h := if d.fault then (h.bump F.mill_CFG_FAULT_COUNT_COUNT n).event Page.mill 2 else h
  match d.path with
  | none => h
  | some p => if d.lost.isEmpty then countDrop h p d.colour n else d.lost.foldl (fun h o => countWred h p d.wred o d.colour n) h

/-- The chain at a Forebay head is admitted or discarded; the later packets of a chain follow its first (R115, R118). -/
def admitPacket (h : Hub) (i : Nat) : Hub :=
  match (h.forebay i).chains with
  | [] => h
  | x :: _ =>
    if ¬ h.ready 3 then wake h 3
    else match x.fate with
    | .waiting =>
      if x.packets.isEmpty then h
      else
        let (h, fate, rest) := judge h i x
        settleHead h i fate rest
    | .storing id =>
      let (h, rest) := writeRest i x.hop id x.credit x.packets h
      let h := if x.closed && rest.isEmpty then completeChain h id x.bad else h
      let h := match h.chain id with
        | some c => (c.copies.map (·.outlet)).foldl (fun h o => noteDepth (refreshOutlet h o) o) h
        | none => h
      settleHead h i (.storing id) rest
    | .dropped d =>
      let n := x.packets.length
      settleHead (countDiscard (returnCredit h i x.hop x.credit n) d n) i (.dropped d) []
    | .refused => h

/-- A path's credit is withheld while an outlet that it queues at reports CAP_TX = 0 (R135), for all of its targets alike (R301). -/
def creditWithheld (h : Hub) (p : Nat) : Bool := (pathTargets h p 8).any fun o => (unitCap h o).1 == 0

/-- A credit is granted on a CREDITED path by reserving one free cell, within its window and its Forebay's room
(R117, R131, R133, R135). -/
def creditGrant (h : Hub) (p : Nat) : Hub :=
  let i := h.aget (F.path_CTL_IN_OUTLET p)
  if !(h.ais (F.path_CTL_VALID p)) || runLossy h p || creditWithheld h p then h
  else if windowFull h p then noteWindow h p
  else if 65536 < fbOcc (h.forebay i) + 9216 + 256 * (creditsOn h i + 1) ∨ (i < 20 ∧ (h.half (2 * i)).flush) then h
  else if freeCells h = 0 then h.event Page.hopper 5
  else
    let h := h.setCred p i (h.credOn p i + 1)
    noteWindow (noteFree (h.emit (.creditGrant i p))) p

/-! ## Selection and reading (R196, R147–R150) -/

/-- The flow with the earliest tag, the lower path number first (R196, R197). -/
def leastTag (h : Hub) (o : Nat) (ps : List Nat) : Option Nat :=
  ps.foldl (fun best p =>
    match best with
    | none => some p
    | some b => if earlier ((h.flow p o).tag.getD 0) ((h.flow b o).tag.getD 0) then some p else some b) none

/-- Whether a class 0 or 1 may send (R196). -/
def classOk (h : Hub) (o c : Nat) : Bool := classRate h o c == 0 || decide (1 ≤ (h.cls o c).tokens)

def eligibleOf (h : Hub) (o c : Nat) : List Nat := (flowsAt h o).filter fun p => pathClass h p == c && eligible h p o

/-- The class of 2–7 with the earliest class tag, the lower number first (R196, R197). -/
def leastClass (h : Hub) (o : Nat) : Option Nat :=
  ([2, 3, 4, 5, 6, 7].filter fun c => !(eligibleOf h o c).isEmpty).foldl (fun best c =>
    match best with
    | none => some c
    | some b => if earlier ((h.cls o c).tag.getD 0) ((h.cls o b).tag.getD 0) then some c else some b) none

/-- The flow that an outlet selects (R196). -/
def select (h : Hub) (o : Nat) : Option Nat :=
  if classOk h o 0 && !(eligibleOf h o 0).isEmpty then leastTag h o (eligibleOf h o 0)
  else if classOk h o 1 && !(eligibleOf h o 1).isEmpty then leastTag h o (eligibleOf h o 1)
  else match leastClass h o with
    | none => none
    | some c => leastTag h o (eligibleOf h o c)

/-- A selected flow: V and F_prev take the tag, and so do the inter-class V and the class's F_prev (R200, R203). -/
def chargeSelection (h : Hub) (o p : Nat) : Hub :=
  let c := pathClass h p
  let f := h.flow p o
  let t := f.tag.getD 0
  let h := h.setFlow p o { f with fprev := t, lastSel := turnNo h + 1, tag := none }
  let h := h.setCls o c { h.cls o c with v := t }
  if c < 2 then h
  else
    let x := h.cls o c
    let ct := x.tag.getD 0
    (h.setOutlet o { h.outlet o with vInter := ct }).setCls o c { x with fprev := ct, lastSel := turnNo h + 1, tag := none }

/-- Packets take tokens from their flow's shaper, and in class 0 or 1 from a class shaper with a rate (R207). -/
def spendTokens (h : Hub) (o p : Nat) (n : Int) : Hub :=
  let f := h.flow p o
  let h := h.setFlow p o { f with tokens := f.tokens - n }
  let c := pathClass h p
  if c < 2 ∧ classRate h o c ≠ 0 then h.setCls o c { h.cls o c with tokens := (h.cls o c).tokens - n } else h

/-- The tokens of packets that were read and have not departed are given back, up to the caps (R206, R207). -/
def returnTokens (h : Hub) (o p n : Nat) : Hub := capClass (capFlow (spendTokens h o p (-(n : Int))) p o) o (pathClass h p)

/-- A chain sent whole is charged for its further packets when its last has left (R200, R203). -/
def chargeChain (h : Hub) (o p n : Nat) : Hub :=
  let f := h.flow p o
  let h := h.setFlow p o { f with fprev := (f.fprev + (n - 1) * increment (h.aget (F.path_SHAPE_WEIGHT p))) % 2 ^ 40 }
  let c := pathClass h p
  if c < 2 then h
  else
    let x := h.cls o c
    h.setCls o c { x with fprev := (x.fprev + (n - 1) * increment (classWeight h o c)) % 2 ^ 40 }

/-- An ECC event of a cell is recorded (R147, R149). -/
def eccLast (h : Hub) (cell row word : Nat) (uncorr : Bool) : Hub :=
  (((h.fset F.hopper_ECC_LAST_CELL cell).fset F.hopper_ECC_LAST_ROW row).fset F.hopper_ECC_LAST_WORD word).flag
    F.hopper_ECC_LAST_UNCORR uncorr

/-- A single-bit error is corrected and counted (R147). -/
def eccCorrect (h : Hub) (cell : Nat) : Hub :=
  (eccLast (h.pbump F.hopper_ECC_CORR_LO_COUNT 1) cell 0 0 false).event Page.hopper 0

/-- A double-bit error marks the chain, and every copy under way ends at its next cell (R149). -/
def eccUncorrect (h : Hub) (c : Chain) (cell : Nat) : Hub :=
  let h := (eccLast (h.bump F.hopper_ECC_UNCORR_COUNT 1) cell 0 1 true).event Page.hopper 1
  h.setChain { c with tailmark := true, copies := c.copies.map fun k =>
    if k.sent == 0 || k.whole then { k with whole := true } else if !k.closed then { k with endNext := true } else k }

/-- An audit starts: it will return the cells that are unreachable now (R151). A start while one runs, by GO or by AUTO, is not
remembered: the cells lost meanwhile wait for the next audit that is started (DESIGN CHOICE, log 98). -/
def startAudit (h : Hub) : Hub :=
  if h.is F.hopper_AUDIT_BUSY then h
  else { h.flag F.hopper_AUDIT_BUSY true with marked := h.leaked }

/-- A copy under way of a chain that the hub has lost ends marked (R137, R150): with the last packet read of it, or, where every
packet read has left, with an end of its own. -/
def endMarked (h : Hub) (id p o : Nat) : Hub :=
  let es := h.txEntries o
  if es.any (·.chain == id) then
    let last := (es.reverse.dropWhile (·.chain != id)).length
    h.setTx o (es.take (last - 1) ++ ((es.drop (last - 1)).take 1).map (fun e => { e with last := true, marked := true }) ++ es.drop last)
  else
    ((((freeEgress h o id).pbump (F.mill_TAILMARKED_LO_COUNT o) 1).pbump (F.stats_TAILMARKED_COUNT_LO p) 1).event Page.mill 4).emit
      (.frameCut o)

/-- A link word fails CHECK (R150): the chain read ends marked, with every copy of its path under way, the queues of the path are
emptied, and their cells stay allocated. A packet counts as dropped red once, when no copy has sent it (DESIGN CHOICE, log 98). -/
def linkError (h : Hub) (p : Nat) : Hub :=
  let lost := h.chains.filter (·.path == p)
  let h := dropArriving h p
  let unsent (c : Chain) : Nat := c.cells.length - (c.copies.map (·.sent)).foldl max 0
  let h := lost.foldl (fun h c => c.copies.foldl (fun h k =>
    if k.closed then h
    else
      let h := unqueue h p k.outlet c.id
      if 0 < k.sent then endMarked h c.id p k.outlet else h) h) h
  let h := { h with leaked := h.leaked ++ (lost.flatMap fun c => c.cells.map (·.num)),
                    cellErr := lost.foldl (fun t c => keepErr t c.cells) h.cellErr,
                    chains := h.chains.filter (·.path != p) }
  let h := countRed h p (lost.map unsent).sum
  let h := (lost.filter (!·.lossy)).foldl (fun h c => emitReturns h c.ingress c.hop (unsent c)) (h.fset (F.path_QUEUE_QUEUED p) 0)
  let h := (h.bump F.hopper_LINK_ERR_COUNT 1).event Page.hopper 2
  if h.is F.hopper_AUDIT_AUTO then startAudit h else h

/-- A LOSSY packet of a head's stream is not sent on a port that its head names and may not use (R298): it departs unsent, and no
discard counts it. A CREDITED one stays queued, and what has been read toward the port before is sent (R134; DESIGN CHOICE, log 110). -/
def portSilent (h : Hub) (e : XEntry) (o : Nat) : Bool := e.lossy && silentKey h e.ingress e.inHop o

/-- A port of the display that finds a head's stream SHORT discards its packets at egress (R300): by the key under which they came,
whatever the entry holds now (R120). -/
def shortPort (h : Hub) (e : XEntry) (o : Nat) : Option Nat :=
  if e.ingress == 20 && decide (4 ≤ o) && decide (o < 14) && decide (e.inHop < 4)
      && (h.fget (F.proj_PORT_STAT_SHORT e.inHop)).testBit (o - 4) then some e.inHop else none

/-- One packet of a copy is read from the Hopper toward its outlet. -/
def readPacket (h : Hub) (p o id : Nat) : Hub :=
  match h.chain id with
  | none => h
  | some c =>
    let open_ := c.copies.find? (fun k => k.outlet == o && !k.closed)
    match open_, c.cells[(open_.map (·.sent)).getD 0]? with
    | some k, some cell =>
      let bad := cell.double
      let broken := linkFails (storedLink h c k.sent cell)
      let h := { h with cellsRead := h.cellsRead + 1 }
      let h := if cell.single then eccCorrect h cell.num else h
      let h := if bad then eccUncorrect h c cell.num else h
      let ends := k.endNext || (bad && decide (0 < k.sent) && !k.whole) || broken
      let lastCell := c.complete && k.sent + 1 == c.cells.length
      let marked := ends || (lastCell && (c.tailmark || bad))
      let last := ends || lastCell
      let entry : XEntry := { chain := id, path := p, hop := k.hop, ingress := c.ingress, inHop := c.hop, lossy := c.lossy,
                              bytes := cell.bytes, last := last, marked := marked }
      let c' := (h.chain id).getD c
      let c' := { c' with copies := c'.copies.map fun x =>
        if x.outlet == o && !x.closed then { x with sent := k.sent + 1, closed := last, ended := x.ended || ends } else x }
      let h := (h.setChain c').setTx o (h.txEntries o ++ [entry])
      let h := spendTokens h o p 1
      let h := if ends && !broken && !k.ended then countRed h p (c.cells.length - (k.sent + 1)) else h
      let h := if last then unqueue h p o id else h
      let h := if wholeChains o then h.setOutlet o { h.outlet o with busy := some id } else h
      let h := if broken then linkError h p else h
      refreshOutlet h o
    | _, _ => h

/-- Outlets whose unit reports a capacity again: their watch of R135 starts anew. -/
def capBack (h : Hub) : Hub :=
  (List.range 20).foldl (fun h o =>
    if (h.outlet o).dead && (unitCap h o).1 != 0 then h.setOutlet o { h.outlet o with dead := false } else h) h

/-- An outlet that can start a packet or a chain does so (R196, R198): nothing while its unit reports no capacity
(R135), while its TX half is in FLUSH (R556), while the domain of its unit is asleep (R512) or while its chain under way has no
further cell yet (R140). -/
def outletSelect (h : Hub) (o : Nat) : Hub :=
  let h := refreshOutlet h o
  if ¬ h.outletOk o ∨ (unitCap h o).1 = 0 then h
  else if o < 20 ∧ (h.half (2 * o + 1)).flush then h
  else
    let h := h.setOutlet o { h.outlet o with dead := false }
    match (h.outlet o).busy with
    | some id =>
      match h.chain id with
      | some c => if copyAsleep h c.path o then wakeCopy h c.path o else readPacket h c.path o id
      | none => if (h.txEntries o).any (·.chain == id) then h else freeEgress h o id
    | none =>
      match select h o with
      | none => h
      | some p =>
        if copyAsleep h p o then wakeCopy h p o
        else match (h.flow p o).queue with
        | [] => h
        | id :: _ => readPacket (chargeSelection h o p) p o id

/-- The last packet of a chain has left an egress that it kept (R198): the chain is charged for its further packets (R200). -/
def leftEgress (h : Hub) (o id p : Nat) : Hub :=
  if (h.outlet o).busy == some id then
    let n := match (h.chain id).bind fun c => c.copies.find? (·.outlet == o) with
      | some k => k.departed + 1
      | none => 1
    freeEgress (chargeChain h o p n) o id
  else h

/-- A copy counts as departed when the unit side has read it (R555): its counters, its mark (R138), its share of the
chain (R145). A marked chain is discarded at an internal sink (R137), and a SHORT port discards a head's packet (R300).
`bytes` is what leaves, after the outlet's own change to the packet. -/
def departure (h : Hub) (o : Nat) (bytes : Bytes) : Hub :=
  match h.txEntries o with
  | [] => h
  | e :: t =>
    let h := h.setTx o t
    let h := (h.pbump (F.stats_PKT_OUT_COUNT_LO e.path) 1).pbump (F.sluiceOut_SENT_LO_COUNT o) 1
    let h := match shortPort h e o with
      | some hd => h.bump (F.proj_PORT_DISCARDS_COUNT hd) 1
      | none => if portSilent h e o then h else h.emit (.packet o e.path e.hop bytes e.last e.marked)
    let h := if e.marked then
        ((h.pbump (F.mill_TAILMARKED_LO_COUNT o) 1).pbump (F.stats_TAILMARKED_COUNT_LO e.path) 1).event Page.mill 4
      else h
    let h := if e.last then leftEgress h o e.chain e.path else h
    match h.chain e.chain with
    | none => h
    | some c =>
      let h := h.setChain { c with copies := c.copies.map fun k =>
        if k.outlet == o then { k with departed := k.departed + 1, done := k.done || (k.closed && k.departed + 1 == k.sent) } else k }
      freeIfDone h e.chain

/-- An ETH egress that has waited too long for a cell ends the frame with its FCS inverted (R140). Other egresses wait on. -/
def cutTimeout (h : Hub) (o : Nat) : Hub :=
  if o ≠ 14 ∧ o ≠ 15 then h
  else match (h.outlet o).busy.bind h.chain with
  | none => h
  | some c =>
    match c.copies.find? (fun k => k.outlet == o && !k.closed) with
    | none => h
    | some k =>
      if k.sent < c.cells.length then h
      else
        let h := ((h.pbump (F.mill_TAILMARKED_LO_COUNT o) 1).pbump (F.stats_TAILMARKED_COUNT_LO c.path) 1).event Page.mill 4
        let h := h.emit (.frameCut o)
        refreshOutlet (closeCopy (chargeChain h o c.path k.sent) c.id o false) o

/-! ## Scrub, audit, groups (R132, R148, R151) -/

/-- The patrol scrub reads a row of a cell of an active group and writes it back when it corrected a bit (R148); row 0 holds what
INJECT can have flipped (R152). A cell that no stored chain holds has no chain to mark. -/
def patrolScrub (h : Hub) (cell row : Nat) : Hub :=
  if h.fget F.hopper_SCRUB_PERIOD_MS = 0 ∨ row ≠ 0 ∨ !((activeGroups h).testBit (cell / 12288)) then h
  else match h.chains.find? (fun c => c.cells.any (·.num == cell)) with
    | none =>
      let e := Tbl.get (fun _ => 0) h.cellErr cell
      let h := if e.testBit 0 then { eccCorrect h cell with cellErr := Tbl.put (fun _ => 0) h.cellErr cell (e - 1) } else h
      if e.testBit 1 then (eccLast (h.bump F.hopper_ECC_UNCORR_COUNT 1) cell 0 1 true).event Page.hopper 1 else h
    | some c =>
      match c.cells.find? (·.num == cell) with
      | none => h
      | some k =>
        let h := if k.single then
            (eccCorrect h cell).setChain { c with cells := c.cells.map fun x => if x.num == cell then { x with single := false } else x }
          else h
        if k.double then eccUncorrect h ((h.chain c.id).getD c) cell else h

/-- An audit ends (R151): the cells it found unreachable return to FREE. -/
def auditDone (h : Hub) : Hub :=
  if h.is F.hopper_AUDIT_BUSY then
    let n := h.marked.length
    let h := { h with leaked := h.leaked.filter (fun x => !h.marked.contains x), marked := [] }
    let h := ((h.flag F.hopper_AUDIT_BUSY false).flag F.hopper_AUDIT_GO false).fset F.hopper_AUDIT_RECLAIMED_CELLS n
    updateDrained (h.event Page.hopper 3)
  else h

/-- ACTIVE changes (R132, R692): FREE and DRAINED follow, and a group whose bit is set again wakes. -/
def setActiveGroups (h : Hub) (v : Nat) : Hub :=
  let h := h.fset F.hopper_GROUPS_ACTIVE (if v % 256 = 0 then 1 else v)
  let h := (List.range 8).foldl (fun h g => if (activeGroups h).testBit g then wake h (4 + g) else h) h
  updateDrained (noteFree (h.fset F.hopper_CAPACITY_CELLS (capacity h)))

end Sys2Proof.Machine
end

