-- ==== Sys2Proof/Machine/Turns.lean ====
section
/-! DEFINITION. The turn clock and the Sluice: fabric time, demand, the computation of rates, the refill point, staged
entries and shadows (R161–R191, R204–R211, R218, R124–R126, R142, R228, R548). -/

namespace Sys2Proof.Machine

/-! ## Fabric time and accumulators (R204, R548) -/

/-- Fabric time goes on by a number of ticks; a wrap counts in EPOCH, and every shaper accumulates its rate. -/
def advance (h : Hub) (dt : Nat) : Hub :=
  let t := h.ftime + dt
  let flows := h.flows.map fun (k, f) =>
    (k, if f.live then { f with acc := f.acc + dt * h.fget (F.path_ALLOT_ALLOT (k / 32)) } else f)
  let h := { h with ftime := t % 2 ^ 40, epoch := (h.epoch + t / 2 ^ 40) % 2 ^ 32, flows := flows }
  (List.range 24).foldl (fun h o => [0, 1].foldl (fun h c =>
    h.setCls o c { h.cls o c with acc := (h.cls o c).acc + dt * classRate h o c }) h) h

/-- Time goes on to an instant that has not come yet. -/
def advanceTo (h : Hub) (t : Nat) : Hub := advance h (t - h.time)

/-- A flow's accumulator holds a whole token, and it becomes one (R204, R206). -/
def flowToken (h : Hub) (p o : Nat) : Hub :=
  let f := h.flow p o
  if f.live ∧ 2048000 ≤ f.acc then
    refreshOutlet (h.setFlow p o { f with acc := f.acc - 2048000, tokens := min (f.tokens + 1) (flowCap h p o) }) o
  else h

/-- A class shaper earns a token (R204, R206); a class with RATE 0 earns none (R207). -/
def classToken (h : Hub) (o c : Nat) : Hub :=
  let x := h.cls o c
  if c < 2 ∧ 2048000 ≤ x.acc then
    refreshOutlet (h.setCls o c { x with acc := x.acc - 2048000, tokens := min (x.tokens + 1) (classCap h o c) }) o
  else h

/-! ## The computation (R180) -/

/-- A path as the computation sees it; rates in 1/256 packet. -/
structure PathIn where
  path : Nat
  weight : Nat
  /-- Resources by their STOP code with the unit cost: TX k, RX 0x20 + k, core 0x3E. -/
  uses : List (Nat × Nat)
  base : Nat
  demand : Nat
  maxAllot : Nat
  fills : Bool

/-- The outlets whose capacity a path takes: the one that its entry names, absent or not (R173), or those of its group. -/
def rateTargets (h : Hub) (p : Nat) : List Nat :=
  if h.ais (F.path_CTL_MCAST p) then pathTargets h p 8 else [h.aget (F.path_ROUTE_OUT_OUTLET p)]

/-- A path's resources: RX of its ingress, TX of each target, the core once per target (R180). A reserved IN_OUTLET or OUT_OUTLET is
no resource (DESIGN CHOICE, log 99). -/
def pathUses (h : Hub) (p : Nat) : List (Nat × Nat) :=
  let t := rateTargets h p
  ([h.aget (F.path_CTL_IN_OUTLET p)].filter (· < 24)).map (fun i => (0x20 + i, 1)) ++ ((t.filter (· < 24)).map fun o => (o, 1))
    ++ [(0x3E, t.length)]

/-- The core's budget (R173, R189), halved by MILL at LOW (R520). -/
def coreBudget (h : Hub) : Nat :=
  let b := h.aget F.sluice_CORE_BUDGET_CELLS
  let b := if b = 0 ∨ 73242 < b then 73242 else b
  if h.fget F.pwr_DVFS_STATE_POINTS / 4 % 4 = 2 then min b 36621 else b

/-- The capacity of a resource, in packets. -/
def resCap (h : Hub) (r : Nat) : Nat :=
  if r < 24 then txCap h r else if r = 0x3E then coreBudget h else if r < 0x38 then rxCap h (r - 0x20) else 0

/-- The base of a path (R175, R176), with its suspension decided. -/
def pathBase (h : Hub) (p : Nat) (susp backlogged : Bool) : Nat :=
  let rsv := if susp then 0 else h.aget (F.path_RSV_RESERVED_RATE p)
  let idle := h.aget F.sluice_IDLE_FLOOR_RATE
  let shape := h.aget (F.path_RATE_SHAPE_RATE p)
  if h.aget (F.path_SHAPE_WEIGHT p) = 0 then 0
  else if h.ais (F.path_CTL_RATE_MODE p) then
    if backlogged then max rsv (h.aget (F.path_MIN_MIN_ALLOT p)) else max rsv idle
  else if susp then idle + shape
  else rsv + shape

/-- A reservation is suspended (R175). -/
def suspendedNow (h : Hub) (p : Nat) : Bool :=
  h.ais F.sluice_CTL_SUSPEND_EN && h.aget (F.path_RSV_RESERVED_RATE p) != 0 && (h.pst p).raw == 0

/-- DEMAND of a path (R171), in 1/256 packet, held in 24 bits. -/
def demandOf (h : Hub) (p : Nat) : Nat :=
  let raw := (h.pst p).raw
  let allot := h.fget (F.path_ALLOT_ALLOT p)
  let d := if (h.pst p).limited then
      max raw (allot + max (allot / 2 ^ h.aget F.sluice_GROW_SHIFT) (h.aget F.sluice_GROW_MIN_RATE))
    else raw
  let old := h.fget (F.path_DEMAND_DEMAND p)
  min (2 ^ 24 - 1) (if d = 0 ∨ old ≤ d then d else old - (old - d) / 2 ^ h.aget F.sluice_GROW_DECAY)

/-- What is left of each resource. -/
abbrev Left := List (Nat × Rat)

def leftOf (l : Left) (r : Nat) : Rat := ((l.find? (·.1 == r)).map (·.2)).getD 0

/-- The bound of R177; none: no bound. -/
def boundOf (x : PathIn) (rate : Rat) : Option Rat :=
  if x.maxAllot = 0 then none else some (max x.maxAllot rate)

/-- The STOP codes that apply to a path now (R183), the lowest of them. -/
def stopCode (x : PathIn) (rate : Rat) (left : Left) (demandStage : Bool) (bound : Option Rat) : Nat :=
  let full := (x.uses.filter (fun u => leftOf left u.1 ≤ 0)).map (·.1)
  let demand := if demandStage && decide ((x.demand : Rat) ≤ rate) then [0x40] else []
  let atMax := match bound with
    | some b => if b ≤ rate then [0x41] else []
    | none => []
  (full ++ demand ++ atMax).foldl min 0x42

/-- A path in the filling: what it is, its rate, its target, and its STOP code once it has stopped. -/
structure Fill where
  x : PathIn
  rate : Rat
  target : Option Rat
  bound : Option Rat
  stop : Nat
  open_ : Bool

/-- A path takes no further part: its target is reached or a resource is full (R180). -/
def fillStops (f : Fill) (left : Left) : Bool :=
  (match f.target with | some t => decide (t ≤ f.rate) | none => false) || f.x.uses.any (fun u => decide (leftOf left u.1 ≤ 0))

def closeFill (demandStage : Bool) (left : Left) (f : Fill) : Fill :=
  if f.open_ && fillStops f left then { f with open_ := false, stop := stopCode f.x f.rate left demandStage f.bound } else f

/-- The step by which the level rises (R180). -/
def fillStep (fs : List Fill) (left : Left) : Rat :=
  let act := fs.filter (·.open_)
  let byTarget := act.filterMap fun f => f.target.map fun t => (t - f.rate) / (f.x.weight : Rat)
  let byRes := left.filterMap fun (r, l) =>
    let w : Nat := (act.map fun f => ((f.x.uses.filter (·.1 == r)).map (·.2)).sum * f.x.weight).sum
    if w = 0 then none else some (l / (w : Rat))
  match byTarget ++ byRes with
  | [] => 0
  | s :: t => t.foldl min s

/-- One rise of the level. -/
def fillOnce (demandStage : Bool) (fs : List Fill) (left : Left) : List Fill × Left :=
  let step := fillStep fs left
  let drawn (r : Nat) : Nat :=
    ((fs.filter (·.open_)).map fun f => ((f.x.uses.filter (·.1 == r)).map (·.2)).sum * f.x.weight).sum
  let left' := left.map fun (r, l) => (r, l - step * (drawn r : Rat))
  let fs' := fs.map fun f => if f.open_ then { f with rate := f.rate + step * (f.x.weight : Rat) } else f
  (fs'.map (closeFill demandStage left'), left')

/-- The level rises until every path has stopped; each rise stops at least one, so `fuel` is their number. -/
def fillLoop (demandStage : Bool) : Nat → List Fill → Left → List Fill × Left
  | 0, fs, left => (fs, left)
  | fuel + 1, fs, left =>
    if fs.any (·.open_) then
      let (fs, left) := fillOnce demandStage fs left
      fillLoop demandStage fuel fs left
    else (fs, left)

/-- A stage of filling (R180): rates are rounded down to 1/256 at its end. A path that does not enter stage 3 keeps its STOP of stage
2; one that does not enter stage 2, for which R180 records nothing, has the lowest code that holds there (DESIGN CHOICE, log 99). -/
def fill (demandStage : Bool) (fs : List Fill) (left : Left) : List Fill × Left :=
  let start := (fs.filter (·.x.fills)).map fun f =>
    let b := boundOf f.x f.rate
    let t := if demandStage then some (match b with | some b => min (f.x.demand : Rat) b | none => f.x.demand) else b
    let g : Fill := { f with target := t, bound := b, open_ := true }
    if demandStage then closeFill true left g else if fillStops g left then { g with open_ := false } else g
  let (done, left) := fillLoop demandStage (start.length + 1) start left
  let out := fs.map fun f =>
    match done.find? (·.x.path == f.x.path) with
    | some g => { g with rate := (g.rate.floor : Rat) }
    | none => f
  (out, left)

/-- The whole computation (R180): for each path its next rate and STOP code, and the stage-one factor of each resource. -/
def computeTurn (h : Hub) (xs : List PathIn) : List Fill × List (Nat × Nat × Nat) :=
  let res := ((List.range 24) ++ (List.range 24).map (0x20 + ·) ++ [0x3E])
  let need (r : Nat) : Nat := (xs.map fun x => ((x.uses.filter (·.1 == r)).map (fun u => u.2 * x.base)).sum).sum
  let fac := res.map fun r => if 256 * resCap h r < need r then (r, 256 * resCap h r, need r) else (r, 1, 1)
  let facOf (r : Nat) : Rat := ((fac.find? (·.1 == r)).map fun q => (q.2.1 : Rat) / (q.2.2 : Rat)).getD 0
  let fs := xs.map fun x =>
    let f : Rat := (x.uses.map fun u => facOf u.1).foldl min 1
    ({ x := x, rate := (((x.base : Rat) * f).floor : Rat), target := none, bound := none, stop := 0x42, open_ := false } : Fill)
  let left : Left := res.map fun r =>
    (r, ((256 * resCap h r : Nat) : Rat) - (fs.map fun f => f.rate * ((((f.x.uses.filter (·.1 == r)).map (·.2)).sum : Nat) : Rat)).sum)
  let (fs, left) := fill true fs left
  let fs := if h.ais F.sluice_CTL_SPREAD then (fill false fs left).1 else fs
  (fs, fac)

/-! ## The turn boundary (R161, R164–R166, R169, R174, R218, R135, R226) -/

/-- The instant of the boundary that comes next, or of the last one when it has not been handled (R161). -/
def boundaryTime (h : Hub) : Nat :=
  let t := h.fget F.sluice_TURN_PHASE_TICKS
  let now := h.time
  if now < t then t
  else
    let last := t + (now - t) / 8000 * 8000
    match h.turn.lastBoundary with
    | none => if last < now then last + 8000 else last
    | some b => if b < last then last else last + 8000

/-- LOSSY copies queued at an outlet whose unit reported no capacity for a whole turn are discarded (R135). -/
def lossyDiscard (h : Hub) (o : Nat) : Hub :=
  let x := h.outlet o
  let zero := h.outletOk o && (unitCap h o).1 == 0
  let h := if zero && x.dead then
      (h.chains.filter fun c => c.lossy && c.copies.any (fun k => k.outlet == o && !k.closed)).foldl
        (fun h c => closeCopy h c.id o true) h
    else h
  h.setOutlet o { h.outlet o with dead := zero }

/-- A new capacity is taken up (R174, R76). -/
def takeCap (h : Hub) (k : Nat) : Hub :=
  let (tx, rx) := unitCap h k
  if tx = h.fget (F.sluice_CAP_TX k) ∧ rx = h.fget (F.sluice_CAP_RX k) then h
  else ((h.fset (F.sluice_CAP_TX k) tx).fset (F.sluice_CAP_RX k) rx).event Page.sluice 2

/-- WRED averages of an outlet (R218). -/
def wredAverage (h : Hub) (o : Nat) : Hub :=
  ((List.range 15).map (· + 1)).foldl (fun h w =>
    let q := (h.chains.map fun c =>
      if c.lossy && h.aget (F.path_SHAPE_WRED_PROFILE c.path) == w then
        ((c.copies.filter fun k => k.outlet == o && !k.closed).map fun k => c.cells.length - k.sent).sum else 0).sum
    let f := F.sluiceOut_WRED_AVG_AVG o w
    let avg : Int := h.fget f
    h.fset f (avg + ((256 * q : Nat) - avg) / 2 ^ h.aget (F.wred_CTL_K w)).toNat) h

/-- A class 0 or 1 flow backlogged for a whole turn without class tokens raises CLASS_BLOCKED (R226); a class with RATE 0 is unshaped
(R222) and has no shaper whose token it could want (DEDUCED, log 99). -/
def classWatch (h : Hub) (o : Nat) : Hub :=
  let blocked (c : Nat) : Bool := classRate h o c != 0 && !(h.cls o c).hadToken
    && (flowsAt h o).any fun p => pathClass h p == c && (h.flow p o).sinceTurn && !(h.flow p o).queue.isEmpty
  let h' := if blocked 0 || blocked 1 then h.event (Page.sluiceOut o) 2 else h
  let h' := [0, 1].foldl (fun h c => h.setCls o c { h.cls o c with hadToken := decide (1 ≤ (h.cls o c).tokens) }) h'
  (flowsAt h' o).foldl (fun h p => h.setFlow p o { h.flow p o with sinceTurn := !(h.flow p o).queue.isEmpty }) h'

/-- What makes a path LIMITED stands at the moment (R170): a backlogged flow without a token, or a full window. -/
def heldBack (h : Hub) (p : Nat) : Bool :=
  ((List.range 24).any fun o => !(h.flow p o).queue.isEmpty && decide ((h.flow p o).tokens < 1))
    || windowFull h p

/-- A path's demand of the ending turn is frozen (R169); what holds it back at the boundary does so in both turns (R170); after a boundary missed in
NAP or OFF, and after a return from them, the demand is 0 (R166). -/
def freezeDemand (h : Hub) (p : Nat) : Hub :=
  let x := h.pst p
  let raw := min (2 ^ 24 - 1) (256 * (x.arrived + h.fget (F.path_QUEUE_QUEUED p)))
  h.setPst p { x with raw := if h.turn.missed then 0 else raw, limited := (x.limitedNow || heldBack h p) && !h.turn.missed, arrived := 0
                      limitedNow := heldBack h p }

/-- The Sluice's part of a turn boundary: TURN and the use of the ending turn at every one (R155, R190). -/
def sluiceBoundary (h : Hub) : Hub :=
  let x := h.dom 3
  let h := if x.state = 1 then h.setDom 3 { x with state := 0, waking := false, lastWakeUs := 0 } else h
  let h := h.event Page.sluice 4
  let h := (h.fset F.mill_UTIL_WR_CELLS h.cellsWritten).fset F.mill_UTIL_RD_CELLS h.cellsRead
  let h := { h with cellsWritten := 0, cellsRead := 0 }
  if (h.dom 3).state ≠ 0 then
    { h with turn := { lastBoundary := some h.time, began := false, computing := false, computed := false
                       refillPending := true, refillAt := h.time + 640, missed := true } }
  else
    let h := (List.range 24).foldl (fun h o => classWatch (wredAverage (lossyDiscard (takeCap h o) o) o) o) h
    let h := (validPaths h).foldl freezeDemand h
    let run := h.is F.sluice_CTL_RUN
    let h := if run then h else (validPaths h).foldl (fun h p => h.fset (F.path_DEMAND_DEMAND p) (demandOf h p)) h
    { h with turn := { lastBoundary := some h.time, began := run, computing := run, computed := false, refillPending := true,
                        refillAt := h.time + 640, missed := false } }

/-! ## The computation completes (R164, R180, R181, R183) -/

/-- A path's demand becomes visible and its part in the computation is set up. -/
def demandStep (h : Hub) (p : Nat) : Hub :=
  let d := demandOf h p
  let h := h.fset (F.path_DEMAND_DEMAND p) d
  h.setPst p { h.pst p with backlogged := d != 0, suspended := suspendedNow h p }

def pathIn (h : Hub) (p : Nat) : PathIn :=
  let x := h.pst p
  { path := p, weight := h.aget (F.path_SHAPE_WEIGHT p), uses := pathUses h p, base := pathBase h p x.suspended x.backlogged
    demand := h.fget (F.path_DEMAND_DEMAND p), maxAllot := h.aget (F.path_MAX_MAX_ALLOT p)
    fills := x.backlogged && h.ais (F.path_CTL_RATE_MODE p) && h.aget (F.path_SHAPE_WEIGHT p) != 0 }

/-- The overbooked resources of a computation as bitmaps and the core bit (R181); an absent outlet has no bit (R191), and raises no
event (DESIGN CHOICE, log 99). -/
def overbooked (h : Hub) (fac : List (Nat × Nat × Nat)) : Nat × Nat × Bool :=
  let shown (r : Nat) : Bool := if r < 24 then h.outletOk r else if r < 0x38 then h.outletOk (r - 0x20) else true
  let ob := (fac.filter fun q => decide (q.2.1 < q.2.2) && shown q.1).map (·.1)
  (((ob.filter (· < 24)).map (2 ^ ·)).sum, ((ob.filter (fun r => 0x20 ≤ r && r < 0x38)).map (fun r => 2 ^ (r - 0x20))).sum, ob.contains 0x3E)

def allotmentComputed (h : Hub) (ns : Nat) : Hub :=
  if !h.turn.computing || h.turn.computed then h
  else if !(h.is F.sluice_CTL_RUN) then (validPaths h).foldl demandStep h
  else
    let ps := validPaths h
    let h := ps.foldl demandStep h
    let (fs, fac) := computeTurn h (ps.map (pathIn h))
    let h := fs.foldl (fun h f => h.setPst f.x.path
      { h.pst f.x.path with next := min (2 ^ 24 - 1) f.rate.floor.toNat, stop := f.stop }) h
    let (tx, rx, core) := overbooked h fac
    let rises := (List.range 24).any (fun k => (tx.testBit k && !(h.bit F.sluice_OVERBOOK_TX_OUTLETS k))
        || (rx.testBit k && !(h.bit F.sluice_OVERBOOK_RX_INGRESS k))) || (core && !(h.is F.sluice_STAT_OVERBOOK_CORE))
    let h := ((h.fset F.sluice_OVERBOOK_TX_OUTLETS tx).fset F.sluice_OVERBOOK_RX_INGRESS rx).flag F.sluice_STAT_OVERBOOK_CORE core
    let h := if rises then h.event Page.sluice 0 else h
    let h := h.fset F.sluice_COMPUTE_TIME_NS ns
    let h := h.fset F.sluice_COMPUTE_MAX_NS (max (h.fget F.sluice_COMPUTE_MAX_NS) ns)
    { h with factors := fac.foldl (fun t q => Tbl.put (fun _ => (1, 1)) t q.1 q.2) h.factors
             turn := { h.turn with computed := true } }

/-! ## Staging and shadows (R64, R124–R126, R142, R228) -/

/-- The active copies of a run of window addresses take their staged or shadow copies. -/
def applyRange (h : Hub) (lo hi : Nat) : Hub := { h with active := Tbl.copyRange h.active h.regs (32 * lo) (32 * hi) }

/-- The paths whose staged entry is pending, in rising order. -/
def pendingPaths (h : Hub) : List Nat := (List.range 1024).filter fun p => h.is (F.path_CTL_PENDING p)

/-- The key of the staged copy and of the active copy of an entry (R118). -/
def stagedKey (h : Hub) (p : Nat) : Nat × Nat := (h.fget (F.path_CTL_IN_OUTLET p), h.fget (F.path_CTL_IN_HOP p))

def activeKey (h : Hub) (p : Nat) : Nat × Nat := (h.aget (F.path_CTL_IN_OUTLET p), h.aget (F.path_CTL_IN_HOP p))

/-- A pass over the pending entries: the keys taken with their holders, the entries refused, and an entry found to have taken
a key that a refused one keeps. -/
structure DupPass where
  taken : List ((Nat × Nat) × Nat)
  refused : List Nat
  gives : Option Nat

/-- One pending entry in ascending order (R126): it takes its key, or it is refused and keeps its previous active copy; where an
entry that would apply has taken the key of that copy, that entry is the one refused. -/
def dupStep (h : Hub) (ps forced : List Nat) (x : DupPass) (p : Nat) : DupPass :=
  let holder (k : Nat × Nat) : Option Nat := (x.taken.find? (·.1 == k)).map (·.2)
  if x.gives.isSome || !(h.is (F.path_CTL_VALID p)) then x
  else if !(forced.contains p) && (holder (stagedKey h p)).isNone then { x with taken := (stagedKey h p, p) :: x.taken }
  else
    let x' := { x with refused := p :: x.refused }
    if !(h.ais (F.path_CTL_VALID p)) then x'
    else match holder (activeKey h p) with
      | none => { x' with taken := (activeKey h p, p) :: x.taken }
      | some q => if ps.contains q && !(x'.refused.contains q) then { x' with gives := some q } else x'

/-- The pending entries that this refill point refuses (R126; log 74): the passes go on until no two entries that will be valid
share a key, each refusing one entry more. -/
def refusedPaths (h : Hub) (ps : List Nat) : Nat → List Nat → List Nat
  | 0, forced => forced
  | fuel + 1, forced =>
    let kept := ((validPaths h).filter fun p => !(ps.contains p)).map fun p => (activeKey h p, p)
    let x := ps.foldl (dupStep h ps forced) { taken := kept, refused := [], gives := none }
    match x.gives with
    | none => x.refused
    | some q => refusedPaths h ps fuel (q :: forced)

/-- What R185 watches in an entry. -/
def routeKey (h : Hub) (p : Nat) : List Nat :=
  [h.aget (F.path_CTL_VALID p), h.aget (F.path_CTL_IN_OUTLET p), h.aget (F.path_ROUTE_OUT_OUTLET p), h.aget (F.path_CTL_MCAST p),
   h.aget (F.path_ROUTE_MCAST_GROUP p), h.aget (F.path_CTL_RATE_MODE p), h.aget (F.path_SHAPE_WEIGHT p)]

/-- The provisional rate (R185). -/
def provisionalRate (h : Hub) (p : Nat) : Nat :=
  let rsv := h.aget (F.path_RSV_RESERVED_RATE p)
  if h.aget (F.path_SHAPE_WEIGHT p) = 0 then 0
  else if h.ais (F.path_CTL_RATE_MODE p) then
    let r := max (h.aget (F.path_MIN_MIN_ALLOT p)) (h.aget F.sluice_IDLE_FLOOR_RATE)
    let m := h.aget (F.path_MAX_MAX_ALLOT p)
    if m = 0 then r else min r m
  else
    let base := rsv + h.aget (F.path_RATE_SHAPE_RATE p)
    ((pathUses h p).map fun u =>
      let q := Tbl.get (fun _ => (1, 1)) h.factors u.1
      base * q.1 / q.2).foldl min base

/-- One staged entry applies, or is refused for a duplicate key and keeps its previous active copy (R124, R126, R185).
`before` is the hub at the refill point, before any entry applied. -/
def applyPath (before : Hub) (refused : List Nat) (h : Hub) (p : Nat) : Hub :=
  let lo := Page.path + 64 * p
  let h := h.flag (F.path_CTL_PENDING p) false
  if refused.contains p then (((setAuxGate h p none).flag (F.path_CTL_VALID p) false).fset F.mill_DUP_LAST_PATH p).event Page.mill 1
  else
    let h := applyRange h lo (lo + 0x20)
    let h := h.setCred p 0 (h.credOn p 0)
    if !(h.ais (F.path_CTL_VALID p)) then
      endFlows (((setAuxGate h p none).fset (F.path_ALLOT_ALLOT p) 0).setPst p { h.pst p with arrived := 0, limitedNow := false, provisional := false }) p
    else
      let h := noteWindow h p
      if routeKey h p != routeKey before p then
        (h.setPst p { h.pst p with provisional := true }).fset (F.path_ALLOT_ALLOT p) (provisionalRate h p)
      else h

/-- The staged entries apply in ascending path number (R126). -/
def applyPaths (h : Hub) : Hub :=
  let ps := pendingPaths h
  ps.foldl (applyPath h (refusedPaths h ps (ps.length + 1) [])) h

/-- COPIES of a group: the bits of its active BITMAP after R26 (R141). -/
def applyGroups (h : Hub) : Hub :=
  (List.range 256).foldl (fun h g =>
    if h.is (F.mcast_HOP_PENDING g) then
      let h := applyRange (h.flag (F.mcast_HOP_PENDING g) false) (Page.mcast + 16 * g) (Page.mcast + 16 * g + 12)
      h.fset (F.mcast_HOP_COPIES g) (groupOutlets h g).length
    else h) h

/-- Effective bucket sizes (R211). -/
def cbsEff (h : Hub) (p : Nat) : Nat := max (256 * h.aget (F.policer_CBS_PACKETS p)) (256 * ((h.aget (F.policer_CIR_RATE p) + 255) / 256))
def pbsEff (h : Hub) (p : Nat) : Nat := max (256 * h.aget (F.policer_PBS_PACKETS p)) (256 * ((h.aget (F.policer_PIR_RATE p) + 255) / 256))

/-- A policer profile at a refill point (R211, R224): it applies with full buckets, or its buckets are refilled. -/
def refillPolicer (h : Hub) (p : Nat) : Hub :=
  if h.is (F.policer_CTL_PENDING p) then
    let h := applyRange (h.flag (F.policer_CTL_PENDING p) false) (Page.policer + 64 * p) (Page.policer + 64 * p + 0x14)
    (h.fset (F.policer_TC_TOKENS p) (cbsEff h p)).fset (F.policer_TP_TOKENS p) (pbsEff h p)
  else
    let h := h.fset (F.policer_TC_TOKENS p) (ofInt 32 (min (bucket h (F.policer_TC_TOKENS p) + h.aget (F.policer_CIR_RATE p)) (cbsEff h p)))
    h.fset (F.policer_TP_TOKENS p) (ofInt 32 (min (bucket h (F.policer_TP_TOKENS p) + h.aget (F.policer_PIR_RATE p)) (pbsEff h p)))

def applyWred (h : Hub) (w : Nat) : Hub :=
  if h.is (F.wred_CTL_PENDING w) then
    applyRange (h.flag (F.wred_CTL_PENDING w) false) (Page.wred + 256 * w) (Page.wred + 256 * w + 0x40)
  else h

/-- The shadows of a page apply at its apply point when GO = 1 and HOLD = 0 (R64, R66). -/
def applyShadows (h : Hub) (page : Nat) : Hub :=
  if h.is (F.hdr_COMMIT_GO page) && !(h.is (F.hdr_COMMIT_HOLD page)) then
    (applyRange h (page + 0x40) (page + 0x1000)).flag (F.hdr_COMMIT_GO page) false
  else h

/-! ## The refill point (R162, R167, R182) -/

/-- Flows begin with their path's targets and end once they are no target and empty (R695). -/
def settleFlows (h : Hub) : Hub :=
  let want := (validPaths h).flatMap fun p => (pathTargets h p 8).map fun o => (p, o)
  let ended := h.flows.filter fun (k, f) => f.live && f.queue.isEmpty && !(want.contains (k / 32, k % 32))
  let h := ended.foldl (fun h (k, _) => h.setFlow (k / 32) (k % 32) flow0) h
  want.foldl (fun h (p, o) => if (h.flow p o).live then h else h.setFlow p o { flow0 with live := true }) h

/-- Holds under R217 end. -/
def releaseHolds (h : Hub) : Hub :=
  { h with chains := h.chains.map fun c => { c with copies := c.copies.map fun k => { k with held := false } } }

/-- The rates of the turn: computed, or kept when the computation is late or stopped (R167, R168, R182). A computation that did not
begin at the boundary is not late. -/
def takeRates (h : Hub) : Hub :=
  if !(h.is F.sluice_CTL_RUN) || !h.turn.began then h
  else if h.turn.computed then
    (validPaths h).foldl (fun h p =>
      (h.fset (F.path_ALLOT_ALLOT p) (h.pst p).next).setPst p { h.pst p with provisional := false })
      (h.flag F.sluice_STAT_LATE_LAST false)
  else ((h.bump F.sluice_LATE_COUNT_COUNT 1).flag F.sluice_STAT_LATE_LAST true).event Page.sluice 1

/-- What applies at the refill point once the rates are taken: holds end, staged entries and shadows apply, buckets fill, and
every outlet sees its flows again (R124, R142, R211, R217, R228). -/
def refillApplies (h : Hub) : Hub :=
  let h := releaseHolds { h with turn := { h.turn with computed := false, began := false } }
  let h := applyGroups (applyPaths h)
  let h := ((List.range 63).map (· + 1)).foldl refillPolicer h
  let h := ((List.range 15).map (· + 1)).foldl applyWred h
  let h := applyShadows h Page.sluice
  let h := (List.range 24).foldl (fun h o => applyShadows h (Page.sluiceOut o)) h
  (List.range 24).foldl (fun h o => refreshOutlet (capOutlet h o) o) (settleFlows h)

def refillPoint (h : Hub) : Hub :=
  if !h.turn.refillPending then h
  else
    let h := advanceTo h h.turn.refillAt
    let h := { h with turn := { h.turn with refillPending := false, computing := false } }
    if 2 ≤ (h.dom 3).state then h else refillApplies (takeRates h)

/-- TURN_PHASE on a head or standalone hub: the boundaries move from the next tick (R694), and a refill point that the new
phase overtakes is superseded when its boundary comes. Codes of 8,000 and above are ignored (R189). -/
def setTurnPhase (h : Hub) (ticks : Nat) : Hub :=
  if 8000 ≤ ticks then h
  else
    let h := h.fset F.sluice_TURN_PHASE_TICKS ticks
    { h with turn := { h.turn with lastBoundary := some h.time } }

end Sys2Proof.Machine
end

