-- ==== Sys2Proof/Machine/Power.lean ====
section
/-! DEFINITION. Power domains, DVFS points, pads, monitors and SHELF (R504–R536), with what a lost domain clears (R18). -/

namespace Sys2Proof.Machine

/-! ## Pages of the domains and what a loss clears (R18, R37, R504) -/

/-- The pages with a header, with their first addresses. -/
def allPages : List (Kind × Nat × Nat) := (List.range 0xD8).filterMap fun p => pageAt (p * 0x1000)

/-- The table regions with the addresses they span. -/
def tableRegions : List (Kind × Nat × Nat) :=
  [(.path, 0x100000, 0x110000), (.stats, 0x110000, 0x120000), (.mcast, 0x120000, 0x121000), (.wred, 0x121000, 0x122000),
   (.policer, 0x122000, 0x123000), (.tallyTab, 0x130000, 0x132000)]

/-- The pages whose block registers a domain holds. -/
def domainPages (d : Nat) : List Nat := (allPages.filter fun q => q.1.domain q.2.1 == d).map (·.2.2)

/-- The fields whose keys satisfy a predicate return to their reset values, both copies. -/
def clearKeys (h : Hub) (p : Nat → Bool) : Hub :=
  { h with regs := Tbl.keep (fun k => !(p k)) h.regs, active := Tbl.keep (fun k => !(p k)) h.active }

/-- The fields of some retention classes in a range of addresses return to their reset values. -/
def clearRange (h : Hub) (lo hi : Nat) (cs : List Cls) : Hub :=
  clearKeys h fun k => decide (32 * lo ≤ k) && decide (k < 32 * hi) && cs.contains (clsOf k)

/-- The same for the block registers of a page. -/
def clearPage (h : Hub) (page : Nat) (cs : List Cls) : Hub := clearRange h (page + 0x40) (page + 0x1000) cs

/-- The same for everything a domain holds: the block registers of its pages, its tables, and the NICs' registers for ETH. -/
def clearDomain (h : Hub) (d : Nat) (cs : List Cls) : Hub :=
  let h := (domainPages d).foldl (fun h p => clearPage h p cs) h
  let h := (tableRegions.filter fun q => q.1.domain 0 == d).foldl (fun h q => clearRange h q.2.1 q.2.2 cs) h
  if d = 35 then clearRange h (Page.nic 0) (Page.nic 4) cs else h

/-! ## Policies and floors (R505, R509) -/

/-- What PWR_POLICY, or GROUP_POLICY for a HOPPER group, permits: DOZE, NAP, OFF and IDLE in µs (R505). -/
def policyOf (h : Hub) (d : Nat) : Bool × Bool × Bool × Nat :=
  if 4 ≤ d ∧ d < 12 then
    let v := h.fget (F.pwr_GROUP_POLICY_POLICY (d - 4))
    (v.testBit 0, v.testBit 1, v.testBit 2, v / 2 ^ 8 % 2 ^ 16)
  else match domainPages d with
    | [] => (false, false, false, 0)
    | p :: _ =>
      (h.is (F.hdr_PWR_POLICY_ALLOW_DOZE p), h.is (F.hdr_PWR_POLICY_ALLOW_NAP p), h.is (F.hdr_PWR_POLICY_ALLOW_OFF p),
       h.fget (F.hdr_PWR_POLICY_IDLE p))

/-- A Type-C link is trained: LSTATE CL0, CL0s, CL1 or CL2. -/
def linkUp (h : Hub) (n : Nat) : Bool :=
  let l := h.fget (F.link_LINK_STATUS_LSTATE n)
  decide (2 ≤ l) && decide (l ≤ 5)

/-- A Leat link is trained: LSTATE 2 or 3 (R629). -/
def leatUp (h : Hub) (l : Nat) : Bool :=
  let x := h.fget (F.leat_STATUS_LSTATE l)
  x == 2 || x == 3

/-- Some ingress point has its link up (R509). -/
def anyIngressUp (h : Hub) : Bool :=
  (List.range 12).any (linkUp h) ||
    (List.range 2).any fun x => h.is (F.ethmac_STATUS_LINK_UP x) || h.is (F.pciedn_STATUS_DLL_UP x) || leatUp h x

/-- A Gate or a Projector is enabled (R259). -/
def displayUses (h : Hub) : Bool := (List.range 4).any fun i => h.is (F.gate_CTL_EN i) || h.is (F.proj_CTL_EN i)

/-- The shallowest state that R509 forces on a domain; 3 where no floor holds. -/
def floorOf (h : Hub) (d : Nat) : Nat :=
  let at_ (lvl : Nat) (c : Bool) : Nat := if c then lvl else 3
  if d < 2 then 0
  else if d = 2 then (if h.power.shelf = 0 then 1 else 3)
  else if d = 3 then at_ 1 (!(usedCells h).isEmpty || creditsOut h != 0 || anyIngressUp h)
  else if d < 12 then at_ 0 ((activeGroups h).testBit (d - 4) || !(h.bit F.hopper_GROUPS_DRAINED (d - 4)))
  else if d = 12 then at_ 2 (displayUses h)
  else if d < 17 then at_ 2 (h.is (F.gate_CTL_EN (d - 13)))
  else if d < 21 then at_ 0 (h.is (F.proj_CTL_EN (d - 17)))
  else if d < 33 then
    at_ 1 (!([0, 1, 4].contains (h.fget (F.typec_STATUS_TC_STATE (d - 21)))) || linkUp h (d - 21))
  else if d < 35 then at_ 1 (h.hpdSeen (d - 33) || h.is (F.dpo_STATUS_LINK_UP (d - 33)))
  else if d = 35 then
    at_ 0 ((List.range 2).any (fun e => h.is (F.ethmac_CTL_EN e)) || (List.range 4).any (fun s => h.is (F.nic_NIC_CTL_EN s)))
  else if d < 38 then at_ 1 (h.is (F.pciedn_STATUS_PRESENT (d - 36)) || h.is (F.pciedn_STATUS_DLL_UP (d - 36)))
  else if d < 40 then at_ 0 (leatUp h (d - 38))
  else if d = 40 then at_ 0 (h.is F.aud_CTL_EN)
  else if d = 41 then
    at_ 1 ((List.range 4).any fun s => h.present .slice s &&
      ((h.is (F.usbhub_STATUS_UP2 s) && !(h.is (F.usbhub_STATUS_SUSP2 s))) ||
       (h.is (F.usbhub_STATUS_UP3 s) && !(h.is (F.usbhub_STATUS_U3 s)))))
  else if d = 42 then at_ 0 ((List.range 14).any fun c => h.is (F.weir_CTL_CH_EN c))
  else 3

/-- The deepest state that the policy permits and no floor forbids (R508, R509). -/
def deepest (h : Hub) (d : Nat) : Nat :=
  let (doze, nap, off, _) := policyOf h d
  let fl := floorOf h d
  if off && decide (3 ≤ fl) then 3 else if nap && decide (2 ≤ fl) then 2 else if doze && decide (1 ≤ fl) then 1 else 0

/-- A floor that has begun to hold wakes its domain to it (R511). -/
def enforceFloor (h : Hub) (d : Nat) : Hub := wakeUp h d (floorOf h d)

/-- A policy that no longer permits the domain's state wakes it to the deepest state still permitted (R534). -/
def enforcePolicy (h : Hub) (d : Nat) : Hub :=
  let (doze, nap, off, _) := policyOf h d
  let st := (h.dom d).state
  let allowed := st = 0 ∨ (st = 1 ∧ doze) ∨ (st = 2 ∧ nap) ∨ (st = 3 ∧ off)
  if d < 2 ∨ allowed then h else wakeUp h d (if st = 3 ∧ nap then 2 else if doze then 1 else 0)

/-! ## Entering a low-power state (R508, R523, R528) -/

/-- A block reset of one of the domain's pages is work in hand (R507). -/
def resetting (h : Hub) (d : Nat) : Bool := (domainPages d).any fun p => h.is (F.hdr_RESET_CTL_BLOCK_RESET p)

/-- A block of the domain has work in hand that its floor does not cover (R507): a block reset; a transfer of a bus, of the flash
controller or of the UART; a chain at a Forebay, a computation or an audit; a frame of a Gate; a training, a command or a PD exchange
of a port; a frame that a NIC fetches or holds; a request of a PCIe port; a request or a resume at a dock function; a packet on its
way out. Accesses in progress keep the domain waking or are over at once, and the timers are the sender's (log 2). -/
def workInHand (h : Hub) (d : Nat) : Bool :=
  let sending (o : Nat) : Bool := !(h.txEntries o).isEmpty
  let frame (g : Nat) : Bool := ((h.gates.filter fun e => e.1 == g).any fun e => e.2.frame.isSome)
  resetting h d ||
  (if d = 2 then h.misc.busRun.any (fun e => e.2 != 0) || h.is F.misc_SPI_CMD_GO || !h.misc.uartTx.isEmpty
   else if d = 3 then h.turn.computing || h.is F.hopper_AUDIT_BUSY || h.forebays.any (fun e => !e.2.chains.isEmpty)
   else if d = 12 then (List.range 4).any frame
   else if 13 ≤ d ∧ d < 17 then frame (d - 13)
   else if 21 ≤ d ∧ d < 33 then
     h.fget (F.link_LINK_STATUS_LSTATE (d - 21)) == 1 || h.is (F.typec_CMD_BUSY (d - 21)) || sending (d - 21)
       || h.dpPorts.any (fun e => e.1 + 25 == d && e.2.training)
       || h.ports.any (fun e => e.1 + 21 == d && (e.2.await != 0 || e.2.trans || !e.2.held.isEmpty || e.2.frs != 0))
   else if 33 ≤ d ∧ d < 35 then h.dpPorts.any (fun e => e.1 == d - 25 && e.2.training) || sending (d - 21)
   else if d = 35 then !h.net.queue.isEmpty || !h.net.fetch.isEmpty || !h.net.rx.isEmpty || !h.net.arriving.isEmpty || h.is F.tailrace_FDB_CMD_BUSY || sending 14 || sending 15
   else if 36 ≤ d ∧ d < 38 then
     h.is (F.pciedn_CTL_RETRAIN (d - 36)) || h.net.outstanding.any (fun e => e.1 + 36 == d) || sending (d - 20)
   else if 38 ≤ d ∧ d < 40 then h.is (F.leat_MSG_CTL_TX_BUSY (d - 38)) || sending (d - 20)
   else if d = 41 then !h.usb.waiting.isEmpty || h.usb.driving != 0 || sending 23
   else false)

/-- DOZE after 32 idle cycles, unless DOZE is also the deepest permitted state. -/
def dozeEntry (h : Hub) (d : Nat) : Hub :=
  let x := h.dom d
  let (doze, nap, off, _) := policyOf h d
  if decide (2 ≤ d) && decide (d < 43) && x.state == 0 && !x.waking && doze && (nap || off) && decide (1 ≤ floorOf h d) && !(workInHand h d) then
    h.setDom d { x with state := 1 }
  else h

/-- The domain has board-level output pads (R504). -/
def hasPads (d : Nat) : Bool := d == 2 || (decide (21 ≤ d) && decide (d ≤ 40)) || d == 42

/-- The pads of a domain's pages with HOLD = 1 are latched (R523). -/
def latchPads (h : Hub) (d : Nat) : Hub :=
  if hasPads d then
    (domainPages d).foldl (fun h p => if h.is (F.hdr_EDGE_MODE_HOLD p) then h.flag (F.hdr_EDGE_MODE_HELD p) true else h) h
  else h

/-- A domain idle for IDLE µs goes to its deepest permitted state (R508); an entry to NAP or OFF takes time (R514). REEL goes no
deeper than NAP in the bus-powered profile (R100, R510). -/
def idleTimeout (h : Hub) (d : Nat) : Hub :=
  let x := h.dom d
  let (_, _, _, idle) := policyOf h d
  let t := if d = 12 ∧ profileHeld h d then min 2 (deepest h d) else deepest h d
  if decide (d < 2) || decide (43 ≤ d) || idle == 0 || x.waking || x.entering != 0 || decide (t ≤ x.state) || workInHand h d then h
  else if t = 1 then h.setDom d { x with state := 1 }
  else latchPads (h.setDom d { x with entering := t }) d

/-- What a domain's page does with its output pads (R523, R524, R528): driven by the block, latched, or high-impedance. -/
def padsOf (h : Hub) (k : Kind) (i base : Nat) : PadDrive :=
  if h.is (F.hdr_EDGE_MODE_HELD base) then .latched
  else if hasPads (k.domain i) && decide (2 ≤ (h.dom (k.domain i)).state) then .highZ else .driven

/-- What the entry to NAP or OFF loses (R18, R259). -/
def enterState (h : Hub) (d st : Nat) : Hub :=
  let h := clearDomain h d (if st = 3 then [.n, .d, .l] else [.d])
  if d = 12 then (h.flag F.reel_STAT_READY false).flag F.reel_STAT_SELF_REFRESH (st == 2) else h

/-- PAD_RELEASE (R524). -/
def padRelease (h : Hub) (page : Nat) : Hub :=
  match pageAt page with
  | none => h
  | some (k, i, base) =>
    let x := h.dom (k.domain i)
    if x.state ≤ 1 ∧ x.entering = 0 then h.flag (F.hdr_EDGE_MODE_HELD base) false else h

/-! ## Waking (R511–R516) -/

/-- Reel memory has lost its contents (R259). -/
def contentLost (h : Hub) : Hub :=
  let h := (h.flag F.reel_STAT_CONTENT_LOST true).event Page.reel 2
  (List.range 4).foldl (fun h g => h.flag (F.gate_STATUS_NEWEST_VALID g) false) h

/-- Reel memory is ready for accesses. -/
def reelReady (h : Hub) : Hub :=
  let h' := (h.flag F.reel_STAT_READY true).flag F.reel_STAT_SELF_REFRESH false
  if h.is F.reel_STAT_READY then h' else h'.event Page.reel 3

/-- A waking domain is ready (R513). A MILL that comes back from NAP or OFF has missed its turn (R166). -/
def becomeReady (h : Hub) (d : Nat) : Hub :=
  let x := h.dom d
  let us := min ((h.time - x.wakeAt) / 128) 0xFFFF
  let h := h.setDom d { x with state := x.wakeTo, waking := false, wakeTo := 0, lastWakeUs := us }
  if d = 12 then
    let h := if x.state = 3 then contentLost h else h
    if x.wakeTo ≤ 1 then reelReady h else h.flag F.reel_STAT_SELF_REFRESH true
  else if d = 3 ∧ 2 ≤ x.state then { h with turn := { h.turn with missed := true } }
  else h

/-- In the bus-powered profile Reel memory leaves OFF for self-refresh, and a wake to more waits for the profile's end (R100, R510). -/
def reelToNap (h : Hub) : Hub :=
  let x := h.dom 12
  (contentLost (h.setDom 12 { x with state := 2, waking := decide (x.wakeTo ≤ 1) })).flag F.reel_STAT_SELF_REFRESH true

/-- A domain is not ready 1 ms after a wake cause (R515). -/
def wakeFail (h : Hub) (d : Nat) : Hub :=
  if (h.dom d).waking && !(profileHeld h d) then
    ((h.fset F.pwr_WAKE_FAIL_DOMAIN d).bump F.pwr_WAKE_FAIL_COUNT 1).event Page.pwr 2
  else h

/-! ## DVFS points (R517–R521); islands 0 CTRL, 1 MILL, 2 DISPLAY, 3 PORTS; points 0 HIGH, 1 NOM, 2 LOW -/

/-- The point in force. -/
def pointOf (h : Hub) (i : Nat) : Nat := h.fget F.pwr_DVFS_STATE_POINTS / 4 ^ i % 4

/-- The target, whose reserved code acts as NOM. -/
def targetOf (h : Hub) (i : Nat) : Nat :=
  let t := h.fget (F.pwr_DVFS_TARGET_TARGET i)
  if t = 3 then 1 else t

/-- A held start belongs to the DISPLAY island; the others belong to PORTS (R519). -/
def heldDisplay (x : HeldStart) : Bool :=
  match x with
  | .gate _ | .head _ => true
  | .link .. | .pcie .. | .eth .. | .leat .. => false

/-- A condition of R519 keeps the island from LOW. -/
def lowBlocked (h : Hub) (i : Nat) : Bool :=
  match i with
  | 2 => h.power.heldStarts.any heldDisplay || (List.range 4).any fun g => h.fget (F.gate_STATUS_STATE g) != 0 || h.is (F.proj_CTL_EN g)
  | 3 => h.power.heldStarts.any (fun x => !(heldDisplay x)) || (List.range 12).any (fun n => [1, 2, 3, 4, 5, 8].contains (h.fget (F.link_LINK_STATUS_MODE n))) ||
      (List.range 2).any fun x =>
        (h.is (F.pciedn_STATUS_DLL_UP x) && decide (3 < h.fget (F.pciedn_STATUS_GEN x))) ||
        (h.is (F.ethmac_STATUS_LINK_UP x) && h.fget (F.ethmac_STATUS_SPEED x) == 6) || leatUp h x
  | _ => false

def dieTemp (h : Hub) : Int := toInt 16 (h.fget F.pwr_MON1_TEMP)

def hotC (h : Hub) : Nat := min (h.fget F.pwr_THERM_HOT_C) 85

def coolC (h : Hub) : Int :=
  if hotC h ≤ h.fget F.pwr_THERM_COOL_C then (hotC h : Int) - 1 else (h.fget F.pwr_THERM_COOL_C : Int)

/-- The die temperature is at or above HOT_C. -/
def isHot (h : Hub) : Bool := decide ((4 * hotC h : Int) ≤ dieTemp h)

/-- The point that the target and R519 call for, before the temperature: the profile keeps PORTS at LOW (R519). -/
def basePoint (h : Hub) (i : Nat) : Nat :=
  if i = 3 ∧ busPowered h then 2
  else if targetOf h i = 2 ∧ lowBlocked h i then 1 else targetOf h i

/-- The point that is called for: NOM acts as HIGH while it is hot, and until it has cooled for an island moved up (R521). -/
def wantedPoint (h : Hub) (i : Nat) : Nat :=
  let p := basePoint h i
  if p = 1 ∧ (isHot h || h.power.hotIslands.testBit i) then 0 else p

def setPoint (h : Hub) (i p : Nat) : Hub :=
  h.fset F.pwr_DVFS_STATE_POINTS (h.fget F.pwr_DVFS_STATE_POINTS - pointOf h i * 4 ^ i + p * 4 ^ i)

/-- DVFS_STATE.BUSY. -/
def noteBusy (h : Hub) : Hub := h.flag F.pwr_DVFS_STATE_BUSY !h.power.dvfsTo.isEmpty

/-- The domains of an island (R504). -/
def islandDomains (i : Nat) : List Nat :=
  match i with
  | 0 => [2]
  | 1 => (List.range 9).map (· + 3)
  | 2 => (List.range 9).map (· + 12)
  | _ => (List.range 22).map (· + 21)

/-- A change of an island to a point completes (R518). -/
def dvfsFinish (h : Hub) (i p : Nat) : Hub :=
  (noteBusy { setPoint h i p with
    power := { h.power with dvfsTo := Tbl.put (fun _ => 0) h.power.dvfsTo i 0 } }).event Page.pwr 0

/-- A change of an island starts where its point is not the one called for and none runs (R518); leaving LOW for a condition
raises DVFS_REFUSED (R519). With every domain of the island asleep, the point is taken at once (R534). -/
def dvfsSettle1 (h : Hub) (i : Nat) : Hub :=
  let p := wantedPoint h i
  if Tbl.get (fun _ => 0) h.power.dvfsTo i ≠ 0 ∨ p = pointOf h i ∨ !(h.is F.clk_REF_STAT_LOCK) ∨ h.clock.shaft = 0 then h
  else
    let h := if pointOf h i == 2 && targetOf h i == 2 && lowBlocked h i then h.event Page.pwr 1 else h
    if (islandDomains i).all (fun d => decide (2 ≤ (h.dom d).state)) then dvfsFinish h i p
    else noteBusy { h with power := { h.power with dvfsTo := Tbl.put (fun _ => 0) h.power.dvfsTo i (p + 1) } }

/-- Every island. -/
def dvfsSettle (h : Hub) : Hub := (List.range 4).foldl dvfsSettle1 h

/-- The island runs at LOW, or a change takes it there. -/
def lowNow (h : Hub) (i : Nat) : Bool := pointOf h i == 2 || Tbl.get (fun _ => 0) h.power.dvfsTo i == 3

def dropHeld (h : Hub) (f : HeldStart → Bool) : Hub :=
  { h with power := { h.power with heldStarts := h.power.heldStarts.filter fun x => !(f x) } }

/-- A start that LOW cannot carry waits, and the hub raises the island (R519). -/
def holdStart (h : Hub) (i : Nat) (x : HeldStart) : Hub :=
  if lowNow h i then dvfsSettle { h with power := { h.power with heldStarts := h.power.heldStarts.filter (· != x) ++ [x] } } else h

/-- DVFS_DONE: the running change of an island completes, and the next one starts (R518). -/
def dvfsDone (h : Hub) (i : Nat) : Hub :=
  match Tbl.get (fun _ => 0) h.power.dvfsTo i with
  | 0 => h
  | p + 1 => dvfsSettle (dvfsFinish h i p)

/-- DVFS_TARGET has been written (R518, R519). -/
def dvfsTargetWritten (h : Hub) : Hub :=
  let h := if (List.range 4).any (fun i => targetOf h i == 2 && lowBlocked h i) then h.event Page.pwr 1 else h
  dvfsSettle h

/-! ## Temperature and monitors (R521, R522, R535) -/

/-- What the die temperature and the limits call for. -/
def thermal (h : Hub) : Hub :=
  let hot := isHot h
  let critical := decide ((4 * h.fget F.pwr_THERM_CRIT_C : Int) ≤ dieTemp h)
  let rise := hot && !(h.power.hotIslands.testBit 4)
  let isl :=
    if hot then
      ((List.range 4).filter (fun i => h.power.hotIslands.testBit i || basePoint h i == 1)).foldl (fun n i => n + 2 ^ i) 0
    else if dieTemp h < 4 * coolC h then 0 else h.power.hotIslands % 16
  let h' := { h with power := { h.power with hotIslands := if hot then isl ||| 16 else isl, critical := critical } }
  let h' := if rise then h'.event Page.pwr 8 else h'
  let h' := if critical && !h.power.critical then h'.event Page.pwr 9 else h'
  dvfsSettle h'

/-- The SAR's slots 28–31 (R476, R535). -/
def monitor (h : Hub) (vin vkeep vio33 temp : Nat) : Hub :=
  let low := min (h.fget F.pwr_MON_EXT_VIN_MIN_MV) (vin % 2 ^ 16)
  let max_ := h.fget F.pwr_MON_EXT_TEMP_MAX
  let high := if toInt 16 max_ < toInt 16 (temp % 2 ^ 16) then temp else max_
  let h := (h.fset F.pwr_MON0_VIN_MV vin).fset F.pwr_MON0_VKEEP_MV vkeep
  let h := (h.fset F.pwr_MON1_VIO33_MV vio33).fset F.pwr_MON1_TEMP temp
  (h.fset F.pwr_MON_EXT_VIN_MIN_MV low).fset F.pwr_MON_EXT_TEMP_MAX high

/-! ## SHELF (R526–R531) -/

/-- A wake source is enabled (R530). -/
def wakeEnabled (h : Hub) (w : WakeSource) : Bool :=
  match w with
  | .vin => h.fget F.pwr_SHELF_CFG_VIN_WAKE_MV != 0
  | .pin => h.is F.pwr_SHELF_CFG_WAKE_N_EN
  | .vbus _ => h.is F.pwr_SHELF_CFG_VBUS_WAKE_EN

/-- SHELF_STAT.REFUSE of a write of SHELF.ENTER; 0: it is accepted. -/
def shelfRefusal (h : Hub) : Nat :=
  if (List.range 4).any (fun s => h.present .slice s && h.fget (F.slice_STATUS_ROUTER s) != 0) then 1
  else if (List.range 14).any (fun c => h.is (F.weir_CTL_CH_EN c)) then 2
  else if h.power.sources.any (wakeEnabled h) then 3
  else 0

/-- A write of 1 to SHELF.ENTER (R526), which reads 1 while the entry runs (R15). -/
def shelfEnter (h : Hub) : Hub :=
  let c := shelfRefusal h
  if h.power.shelf ≠ 0 then h
  else if c ≠ 0 then (h.fset F.pwr_SHELF_STAT_REFUSE c).event Page.pwr 3
  else { h.flag F.pwr_SHELF_ENTER true with power := { h.power with shelf := 1 } }

/-- SHELF_STAT records the source of the last wake (R531). -/
def wakeRecord (h : Hub) (w : WakeSource) : Hub :=
  match w with
  | .vin => h.flag F.pwr_SHELF_STAT_WAKE_VIN true
  | .pin => h.flag F.pwr_SHELF_STAT_WAKE_PIN true
  | .vbus n => h.putBit F.pwr_SHELF_STAT_WAKE_VBUS n true

/-- CHIP_STATE reads IDLE (R532). -/
def chipIdle (h : Hub) : Bool := ((List.range 40).map (· + 2)).all fun d => decide (1 ≤ (h.dom d).state)

end Sys2Proof.Machine
end

