-- ==== Sys2Proof/Machine/Clocks.lean ====
section
/-! DEFINITION. The reference, the glitch-free muxes, CLKOUT, the frequency meter and the domain crossings (R537–R563). -/

namespace Sys2Proof.Machine

/-! ## The reference (R537–R542) -/

/-- SEL after the reserved code and the variants without Leat (R537, the note after R563). -/
def effectiveSel (h : Hub) : Nat :=
  let s := h.fget F.clk_REF_CTL_SEL
  if s = 3 ∨ (s = 2 ∧ !(h.present .leat 0)) then 0 else s

/-- The reference the hub calls for now (R537, R539–R541). -/
def wantedRef (h : Hub) : Nat :=
  match effectiveSel h with
  | 1 => if h.is F.clk_REF_STAT_DIST_LOCK && !h.clock.fellBack then 1 else 0
  | 2 => if h.clock.fellBack then 0 else 2
  | _ => 0

/-- A mux starts a switch when it does not already pass what is called for and no switch of it runs (R543, R560). -/
def requestMux (h : Hub) (m : Nat) : Hub :=
  if h.clock.muxBusy.testBit m then h
  else { h with clock := { h.clock with muxBusy := withBit h.clock.muxBusy m true } }

/-- The reference mux follows what is called for; the PLL holds while it switches (R542). -/
def settleRef (h : Hub) : Hub :=
  if wantedRef h = h.fget F.clk_REF_STAT_ACTIVE then h else (requestMux h 0).flag F.clk_REF_STAT_PLL_HOLD true

/-- The Leat link that REF_CTL names has no receiver lock at the moment. -/
def leatRefDown (h : Hub) : Bool := !(leatUp h (h.fget F.clk_REF_CTL_LEAT))

/-- RECOV names a unit with a recovered clock (R538). -/
def recovOk (r : Nat) : Bool := decide (r < 12) || (decide (14 ≤ r) && decide (r ≤ 17))

/-- What a write of REF_CTL starts (R538, R539, R541). -/
def refWritten (h : Hub) : Hub :=
  let h := if recovOk (h.fget F.clk_REF_CTL_RECOV) then h else (h.flag F.clk_REF_STAT_DIST_LOCK false).event Page.clk 3
  let back := effectiveSel h == 2 && h.is F.clk_REF_CTL_AUTO_FALLBACK && leatRefDown h
  settleRef { h with clock := { h.clock with fellBack := back } }

/-- DIST_LOCK sets (R538), and the reference returns to the distiller where SEL names it (R539, R560). -/
def distLock (h : Hub) : Hub :=
  if recovOk (h.fget F.clk_REF_CTL_RECOV) then
    let h := (h.flag F.clk_REF_STAT_DIST_LOCK true).flag F.clk_REF_STAT_DIST_HOLD false
    settleRef (if effectiveSel h = 1 then { h with clock := { h.clock with fellBack := false } } else h)
  else h

/-- The fallback of R540: the distiller's frequency is given up. -/
def holdoverExpiry (h : Hub) : Hub :=
  if h.is F.clk_REF_STAT_DIST_HOLD && h.is F.clk_REF_CTL_AUTO_FALLBACK && h.fget F.clk_REF_STAT_ACTIVE == 1 then
    let h := h.flag F.clk_REF_STAT_DIST_LOCK false
    settleRef ({ h with clock := { h.clock with fellBack := true } }.event Page.clk 2)
  else h

/-- The distiller's input stops or leaves the window (R540). -/
def distHold (h : Hub) : Hub :=
  let h := h.flag F.clk_REF_STAT_DIST_HOLD true
  if h.fget F.clk_DIST_CTL_HOLDOVER_MS = 0 then holdoverExpiry h else h

/-- The input returns within the window (R540). -/
def distResume (h : Hub) : Hub := h.flag F.clk_REF_STAT_DIST_HOLD false

/-- A Leat receiver loses lock (R541). -/
def leatRefLost (h : Hub) (l : Nat) : Hub :=
  if effectiveSel h = 2 ∧ h.fget F.clk_REF_CTL_LEAT = l ∧ h.is F.clk_REF_CTL_AUTO_FALLBACK ∧ h.clock.fellBack = false then
    settleRef ({ h with clock := { h.clock with fellBack := true } }.event Page.clk 2)
  else h

/-- The Leat link is up again with its reference in the window (R541). -/
def leatRefBack (h : Hub) (l : Nat) : Hub :=
  if effectiveSel h = 2 ∧ h.fget F.clk_REF_CTL_LEAT = l then
    settleRef { h with clock := { h.clock with fellBack := false } }
  else h

/-- The PLL locks (R542); islands follow their targets (R518). -/
def pllLock (h : Hub) : Hub := dvfsSettle (h.flag F.clk_REF_STAT_LOCK true)

/-- The PLL loses the lock it has (R542). -/
def lockLoss (h : Hub) : Hub :=
  if h.is F.clk_REF_STAT_LOCK then ((h.flag F.clk_REF_STAT_LOCK false).bump F.clk_REF_STAT_LOCK_LOSSES 1).event Page.clk 1 else h

/-! ## Source muxes of the core clocks and CLKOUT (R543–R546, R551) -/

/-- A core clock's mux starts a switch when DOMSRC differs from what the clock runs from. -/
def settleClock (h : Hub) (c : Nat) : Hub :=
  if h.bit F.clk_DOMSRC_SHAFT c == h.clock.shaft.testBit c then h
  else (requestMux h (c + 1)).putBit F.clk_DOMSRC_BUSY c true

/-- A write of DOMSRC.SHAFT: a 1 is ignored while LOCK = 0 (R546). -/
def domsrcWritten (h : Hub) (old : Nat) : Hub :=
  let v := h.fget F.clk_DOMSRC_SHAFT
  let h := if h.is F.clk_REF_STAT_LOCK then h else h.fset F.clk_DOMSRC_SHAFT (v &&& old)
  (List.range 8).foldl settleClock h

/-- CLKOUT's mux starts a switch when SRC or DIV changed (R551). -/
def settleClkout (h : Hub) : Hub :=
  if h.fget F.clk_CLKOUT_SRC = h.clock.clkoutSrc ∧ h.fget F.clk_CLKOUT_DIV + 1 = h.clock.clkoutDiv then h else requestMux h 9

/-- The level of CLKOUT in a cycle of its source, counted from the divider's start: high for ceil(N / 2) cycles of each period;
driven low while EN = 0 and for a reserved source (R550, R551). -/
def clkoutHigh (h : Hub) (cycle : Nat) : Bool :=
  h.is F.clk_CLKOUT_EN && decide (h.clock.clkoutSrc < 24) &&
    decide (cycle % h.clock.clkoutDiv < (h.clock.clkoutDiv + 1) / 2)

/-- Fabric time starts at 0 when TIME first runs from the Shaft after a power reset or a wake from SHELF; those resets
set it to 0, and it stands still until TIME runs (R548). -/
def timeRuns (h : Hub) : Bool := h.clock.shaft.testBit 5

/-- A mux passes the new clock (R543); a switch requested meanwhile then starts (R560). -/
def muxComplete (h : Hub) (m : Nat) : Hub :=
  if !(h.clock.muxBusy.testBit m) then h
  else
    let h := { h with clock := { h.clock with muxBusy := withBit h.clock.muxBusy m false } }
    if m = 0 then settleRef ((h.fset F.clk_REF_STAT_ACTIVE (wantedRef h)).flag F.clk_REF_STAT_PLL_HOLD false)
    else if m ≤ 8 then
      let c := m - 1
      let h := h.putBit F.clk_DOMSRC_BUSY c false
      dvfsSettle { h with clock := { h.clock with shaft := withBit h.clock.shaft c (h.bit F.clk_DOMSRC_SHAFT c) } }
    else { h with clock := { h.clock with clkoutSrc := h.fget F.clk_CLKOUT_SRC, clkoutDiv := h.fget F.clk_CLKOUT_DIV + 1 } }

/-- A forced switch is recorded (R544). -/
def muxRescued (h : Hub) (m : Nat) : Hub :=
  if !(h.clock.muxBusy.testBit m) then h
  else muxComplete (((h.fset F.clk_RESCUE_LAST m).bump F.clk_RESCUE_COUNT 1).event Page.clk 0) m

/-- The domains that a core clock feeds, by the clock domains of R21 (assumption log 21). -/
def clockFeeds (c : Nat) : List Nat :=
  match c with
  | 0 => (List.range 9).map (· + 3) ++ (List.range 12).map (· + 21) ++ [35, 36, 37, 38, 39]
  | 1 => [2] ++ (List.range 4).map (· + 13) ++ (List.range 12).map (· + 21) ++ [35, 41]
  | 2 => [12]
  | 3 => [2]
  | 4 => (List.range 4).map (· + 17)
  | 5 => [3]
  | 6 => [1] ++ (List.range 12).map (· + 21) ++ [42]
  | 7 => [40]
  | _ => []

/-! ## The meter (R553) -/

/-- A write of 1 to METER_CTL.GO opens a gate; it is ignored while one is open. -/
def meterGo (h : Hub) : Hub :=
  if h.is F.clk_METER_CTL_BUSY then h
  else { (h.flag F.clk_METER_CTL_BUSY true).flag F.clk_METER_CTL_GO true with clock := { h.clock with meterSrc := h.fget F.clk_METER_CTL_SRC } }

/-- A core clock's frequency in kHz with the Shaft on the crystal, by its divider, which its island doubles at LOW for MILL, CORE, REEL,
REG and PROJ; CORE and REG as CTRL has them (R545, R547, log 106). In crystal bypass 38,400, or stopped. -/
def coreKhz (h : Hub) (c : Nat) : Nat :=
  let low (i : Nat) : Nat := if pointOf h i = 2 then 2 else 1
  let div := match c with
    | 0 => 4 * low 1 | 1 => 5 * low 0 | 2 => 6 * low 2 | 3 => 8 * low 0 | 4 => 10 * low 2 | 5 => 48 | 6 => 160 | _ => 250
  if h.clock.shaft.testBit c then 6144000 / div else if c = 5 ∨ c = 7 then 0 else 38400

/-- The count of a gate: `edges` is what the selected clock gave. The crystal gives 38,400, and so does every clock in bypass; while the
PLL follows the crystal in lock the Shaft's divisions give their frequency; a reserved code or a stopped clock gives 0 (R545, R550, R553). -/
def meterCount (h : Hub) (edges : Nat) : Nat :=
  let s := h.clock.meterSrc
  if s = 0 then 38400
  else if 24 ≤ s then 0
  else if s = 21 ∧ !(h.clock.shaft.testBit 2) then 0
  else if 2 ≤ s ∧ s ≤ 9 ∧ !(h.clock.shaft.testBit (s - 2)) then coreKhz h (s - 2)
  else if h.fget F.clk_REF_STAT_ACTIVE = 0 ∧ h.is F.clk_REF_STAT_LOCK ∧ !(h.is F.clk_REF_STAT_PLL_HOLD) then
    if s = 1 then 384000 else if s = 21 then 192000 else if s ≤ 9 then coreKhz h (s - 2) else edges
  else edges

/-- The gate closes. -/
def meterDone (h : Hub) (edges : Nat) : Hub :=
  if h.is F.clk_METER_CTL_BUSY then
    (((h.fset F.clk_METER_COUNT_COUNT (meterCount h edges)).flag F.clk_METER_CTL_BUSY false).flag F.clk_METER_CTL_GO false).event Page.clk 4
  else h

/-! ## Crossings (R554–R557) -/

def crossingOk (h : Hub) (x : Nat) : Bool := decide (x < 20) && h.outletOk x || x == 20

/-- A half goes into FLUSH (R556). -/
def flushHalf (h : Hub) (k : Nat) : Hub := (h.setHalf k { h.half k with flush := true }).event Page.clk 5

/-- The RX half's writer is in reset: the chain left unfinished at the Forebay ends as a bad one (R139, R556). -/
def endUnfinished (h : Hub) (i : Nat) : Hub :=
  let f := h.forebay i
  match f.chains.getLast? with
  | none => h
  | some c => if c.closed then h else h.setForebay i { f with chains := f.chains.dropLast ++ [{ c with closed := true, bad := true }] }

/-- A copy whose `n` packets were in the FIFO returns to its queue, its credit kept (R556); the tokens of the packets, which have not
departed, return (R207), and the depth of the outlet rises again (R225). -/
def requeueCopy (h : Hub) (id o n : Nat) : Hub :=
  match h.chain id with
  | none => h
  | some c =>
    let h := h.setChain { c with copies := c.copies.map fun k =>
      if k.outlet == o then { k with sent := k.departed, closed := false, done := false } else k }
    let f := h.flow c.path o
    let h := h.setFlow c.path o { f with live := true, queue := id :: f.queue.filter (· != id), tag := none }
    noteDepth (returnTokens h o c.path n) o

/-- A LOSSY copy is dropped at a half in FLUSH and counts there; what it sent counts as departed (R556). -/
def dropAtHalf (h : Hub) (id o : Nat) : Hub :=
  let x := h.half (2 * o + 1)
  let h := h.setHalf (2 * o + 1) { x with drops := min (x.drops + 1) (2 ^ 32 - 1) }
  match h.chain id with
  | none => h
  | some c =>
    let n := ((h.txEntries o).filter (·.chain == id)).length
    let h := h.setTx o ((h.txEntries o).filter (·.chain != id))
    let h := closeCopy ((returnTokens h o c.path n).setChain { c with copies := c.copies.map fun k =>
      if k.outlet == o then { k with departed := k.sent, ended := true } else k }) id o false
    let h := freeEgress h o id
    match h.chain id with
    | none => h
    | some c =>
      freeIfDone (h.setChain { c with copies := c.copies.map fun k => if k.outlet == o then { k with closed := true, done := true } else k }) id

/-- The TX half's reader is in reset: LOSSY copies are dropped, CREDITED copies return to their queues (R556). A CREDITED chain that
keeps the egress keeps it (R198). -/
def flushTx (h : Hub) (o : Nat) : Hub :=
  let es := h.txEntries o
  let ids := (es.map fun e => (e.chain, e.lossy)).eraseDups
  let h := ids.reverse.foldl (fun h q =>
    if q.2 then dropAtHalf h q.1 o else requeueCopy h q.1 o (es.filter (·.chain == q.1)).length) h
  let h := h.setTx o []
  match (h.outlet o).busy with
  | none => h
  | some id =>
    match h.chain id with
    | some c => if c.lossy then dropAtHalf h id o
      else if c.copies.any (fun k => k.outlet == o && !k.closed && decide (0 < k.sent)) then h else freeEgress h o id
    | none => freeEgress h o id

/-- The unit side of a crossing is reset: both halves go into FLUSH (R556). DPO0 and DPO1 have a TX half only (R554). -/
def unitSideDown (h : Hub) (x : Nat) : Hub :=
  if !(crossingOk h x) then h
  else
    let h := if x = 12 ∨ x = 13 then h else endUnfinished (flushHalf h (2 * x)) x
    flushTx (flushHalf h (2 * x + 1)) x

/-- The core side is reset. -/
def coreSideDown (h : Hub) (x : Nat) : Hub :=
  if !(crossingOk h x) then h
  else
    let h := if x = 12 ∨ x = 13 then h else flushHalf h (2 * x)
    flushHalf h (2 * x + 1)

/-- A side of a crossing is in reset: a block reset of its unit's page, or of MILL's or HOPPER's, runs, or a BIST run holds it (R556). -/
def sideInReset (h : Hub) (x : Nat) : Bool :=
  let p := if x < 12 then Page.link x else if x < 14 then Page.dpo (x - 12) else if x < 16 then Page.ethmac (x - 14)
    else if x < 18 then Page.pciedn (x - 16) else if x < 20 then Page.leat (x - 18) else Page.aud
  let d := if x < 14 then 21 + x else if x < 16 then 35 else 20 + x
  [p, Page.mill, Page.hopper].any (fun q => h.is (F.hdr_RESET_CTL_BLOCK_RESET q)) || (h.dom d).resetting || (h.dom 3).resetting

/-- A half leaves FLUSH, once both sides are out of reset (R557, R560). -/
def xingResync (h : Hub) (x : Nat) (tx : Bool) : Hub :=
  let k := 2 * x + (if tx then 1 else 0)
  let s := h.half k
  if s.flush && !(sideInReset h x) then h.setHalf k { s with flush := false, resyncs := min (s.resyncs + 1) 0xFFFF } else h

/-- An outlet whose TX half is in FLUSH drops the LOSSY copy at the head of a queue (R556). -/
def flushSelect (h : Hub) (o : Nat) : Hub :=
  match (flowsAt h o).find? (fun p => match headCopy h p o with | some (c, _) => c.lossy | none => false) with
  | none => h
  | some p =>
    match (h.flow p o).queue with
    | [] => h
    | id :: _ => refreshOutlet (dropAtHalf h id o) o

end Sys2Proof.Machine
end

