-- ==== Sys2Proof/Machine/Bindings.lean ====
section
/-! DEFINITION. Ownership of pages and units (R47–R52, R82–R84) and the bindings of DP adapters (R86, R87, R690). -/

namespace Sys2Proof.Machine

/-! ## Ownership -/

/-- OWNER as the register holds it: SLICES, FW and BMC in bits 0–5. -/
def ownerWord (h : Hub) (page : Nat) : Nat :=
  h.fget (F.hdr_OWNER_SLICES page) + 16 * h.fget (F.hdr_OWNER_FW page) + 32 * h.fget (F.hdr_OWNER_BMC page)

/-- The applied OWNER of a page: the previous value while a written one is pending (R51). -/
def appliedOwner (h : Hub) (page : Nat) : Nat :=
  match Tbl.get (fun _ => none) h.ownerApplied page with
  | some v => v
  | none => ownerWord h page

/-- The applied owner of a page includes a slice. -/
def sliceOwns (h : Hub) (page s : Nat) : Bool := (appliedOwner h page).testBit s

/-- The page that holds the ownership of a unit (R82), by the unit bits of R105. -/
def unitPage (u : Nat) : Nat :=
  if u < 8 then Page.link (4 + u) else if u < 10 then Page.pciedn (u - 8) else if u < 14 then Page.gate (u - 10) else Page.dpo (u - 14)

def unitPresent (h : Hub) (u : Nat) : Bool :=
  if u < 8 then h.present .link (4 + u) else if u < 10 then h.present .pciedn (u - 8)
  else if u < 14 then h.present .gate (u - 10) else decide (u < 16) && h.present .dpo (u - 14)

def unitOwned (h : Hub) (u s : Nat) : Bool := sliceOwns h (unitPage u) s

/-- The slice that owns a unit. -/
def unitOwner (h : Hub) (u : Nat) : Option Nat := (List.range 4).find? (unitOwned h u)

/-- The outlet of a unit: the four Gates share outlet 20 (R89). -/
def unitOutlet (u : Nat) : Nat := if u < 8 then 4 + u else if u < 10 then 8 + u else if u < 14 then 20 else u - 2

/-- The unit whose OWNER a page holds (R82). -/
def pageUnit (page : Nat) : Option Nat := (List.range 16).find? fun u => unitPage u == page

/-- A unit is released, or its release runs, and it is not yet attached. -/
def unitReleased (h : Hub) (u : Nat) : Bool :=
  (List.range 4).any fun s => h.bit (F.slice_RELEASED_UNITS s) u || h.bit (F.slice_RELEASE_UNITS s) u

/-! ## Bindings (R86, R104, R106, R690) -/

/-- The unit a DP_OUT_BIND code names. -/
def bindUnit (code : Nat) : Option Nat :=
  if 1 ≤ code ∧ code ≤ 8 then some (code - 1)
  else if code = 9 ∨ code = 10 then some (code + 5)
  else if 0x11 ≤ code ∧ code ≤ 0x14 then some (code - 7)
  else none

def bindCode (h : Hub) (s n : Nat) : Nat := h.fget (F.slice_DP_OUT_BIND_TARGET s n)

/-- Every DP OUT adapter, keyed 4 × slice + adapter. -/
def bindKeys : List Nat := List.range 16

def bindSince (h : Hub) (k : Nat) : Nat × Nat := Tbl.get (fun _ => (0, 0)) h.bindSince k

/-- A binding could hold its target: the target is present and its slice owns it. -/
def bindable (h : Hub) (k : Nat) : Bool :=
  match bindUnit (bindCode h (k / 4) (k % 4)) with
  | none => false
  | some u => h.present .slice (k / 4) && unitPresent h u && unitOwned h u (k / 4)

/-- A binding holds its target (R690): no bindable one has named it for longer. -/
def bindHolds (h : Hub) (k : Nat) : Bool :=
  let c := bindCode h (k / 4) (k % 4)
  bindable h k && bindKeys.all fun j =>
    j == k || bindCode h (j / 4) (j % 4) != c || !(bindable h j) || decide ((bindSince h k).2 < (bindSince h j).2)

/-- The binding that holds a unit. -/
def holderOf (h : Hub) (u : Nat) : Option Nat := bindKeys.find? fun k => bindUnit (bindCode h (k / 4) (k % 4)) == some u && bindHolds h k

/-- A DP OUT adapter presents a sink (R86, R88, R100). -/
def presentsSink (h : Hub) (k : Nat) : Bool :=
  match bindUnit (bindCode h (k / 4) (k % 4)) with
  | none => false
  | some u =>
    bindHolds h k && !(unitReleased h u) &&
      (if u < 8 then dpMode (h.fget (F.link_LINK_STATUS_MODE (4 + u)))
       else if u < 14 then !(busPowered h)
       else h.hpdSeen (u - 14))

/-- Bindings that begin to name another target rank behind those that named theirs before, by slice and adapter (R690). -/
def rankBindings (h : Hub) : Hub :=
  bindKeys.foldl (fun h k =>
    let c := bindCode h (k / 4) (k % 4)
    if (bindSince h k).1 = c then h
    else { h with bindSince := Tbl.put (fun _ => (0, 0)) h.bindSince k (c, h.bindNext + 1), bindNext := h.bindNext + 1 }) h

/-- FAULT and the sink of one binding (R86). -/
def settleBinding (h : Hub) (k : Nat) : Hub :=
  let s := k / 4
  let n := k % 4
  let fault := bindCode h s n != 0 && !(bindHolds h k)
  let h := if fault && !(h.is (F.slice_DP_OUT_BIND_FAULT s n)) && h.present .slice s then h.event (Page.slice s) 6 else h
  let h := h.flag (F.slice_DP_OUT_BIND_FAULT s n) (fault && h.present .slice s)
  let p := presentsSink h k
  if h.sinks.testBit k == p then h else { h.emit (.sink s n p) with sinks := withBit h.sinks k p }

/-- FAULT of a DP IN adapter (R87, R104): its Projector is absent or not of the slice. -/
def settleDpIn (h : Hub) (s n : Nat) : Hub :=
  let c := h.fget (F.slice_DP_IN_SRC_SRC s n)
  let fault := decide (1 ≤ c) && decide (c ≤ 4) && !(h.present .proj (c - 1) && sliceOwns h (Page.proj (c - 1)) s)
  h.flag (F.slice_DP_IN_SRC_FAULT s n) fault

/-- OWNED of a slice: the units whose applied owner it is (R105). -/
def ownedBits (h : Hub) (s : Nat) : Nat :=
  (List.range 16).foldl (fun n u => if unitPresent h u && unitOwned h u s then n + 2 ^ u else n) 0

/-- The hub evaluates the bindings and the ownership bitmaps (R86, R690). -/
def settleBindings (h : Hub) : Hub :=
  let h := bindKeys.foldl settleBinding (rankBindings h)
  (List.range 4).foldl (fun h s =>
    if h.present .slice s then
      (settleDpIn (settleDpIn h s 0) s 1).fset (F.slice_OWNED_UNITS s) (ownedBits h s)
    else h) h

/-! ## The adapters of a slice's router (R70, R71, R88, R91) -/

/-- Adapter types of R70. -/
inductive AdapterType where
  | control | lane | pcieUp | pcieDown | usb3Up | usb3Down | dpOut | dpIn | unused
  deriving DecidableEq, Repr

/-- The type of an adapter, the same on every slice and variant (R70). -/
def adapterType (a : Nat) : AdapterType :=
  if a = 0 then .control else if a ≤ 18 then .lane else if a = 19 then .pcieUp else if a ≤ 27 then .pcieDown
  else if a = 28 then .usb3Up else if a ≤ 36 then .usb3Down else if a ≤ 40 then .dpOut else if a ≤ 42 then .dpIn else .unused

/-- Lane adapters, PCIe adapter and USB3 adapter that face device port Dk (R70). -/
def laneAdapters (k : Nat) : List Nat := [3 + 2 * k, 4 + 2 * k]

def pcieAdapter (k : Nat) : Nat := 20 + k

def usb3Adapter (k : Nat) : Nat := 29 + k

/-- The device number of a unit's downstream port on the slice's PCIe switch: 1 and 2 for PCIE0 and PCIE1, 3–10 for adapters 20–27
(R70). -/
def switchDevice (u : Nat) : Nat := if u < 8 then 3 + u else u - 7

/-- What slice `s` is to see of unit `u` < 10, where it saw `was` (R71, R88, R91). While a USB4 link trains again, its router stays
reported: only the training's outcome shows whether it is lost (R97; assumption log 100). -/
def reportWanted (h : Hub) (s u was : Nat) : Nat :=
  if !(h.present .slice s) || !(unitPresent h u) || !(unitOwned h u s) then 0
  else if unitReleased h u then 1
  else if u < 8 then
    let m := h.fget (F.link_LINK_STATUS_MODE (4 + u))
    if h.fget (F.link_LINK_STATUS_LSTATE (4 + u)) = 1 then max 1 was else if usb4Mode m && linkUp h (4 + u) then 2 else 1
  else if h.is (F.pciedn_STATUS_DLL_UP (u - 8)) then 2 else if h.is (F.pciedn_STATUS_PRESENT (u - 8)) then 3 else 1

/-- The reports of a slice on a unit follow its ownership and its link: the lane adapters leave or enter Disabled, and a router that
comes or goes raises Hot Plug at both, with the PCIe and USB3 adapters and the switch port beside (R71, R88, R91). -/
def settleReport (h : Hub) (s u : Nat) : Hub :=
  let was := Tbl.get (fun _ => 0) h.reports (16 * s + u)
  let now := reportWanted h s u was
  if now = was then h
  else
    let h := { h with reports := Tbl.put (fun _ => 0) h.reports (16 * s + u) now }
    let there := decide (now = 2)
    let h := if u < 8 ∧ was = 0 then (laneAdapters u).foldl (fun h a => h.emit (.laneDisabled s a false)) h else h
    let h := if decide (1 < was) = decide (1 < now) && decide (was = 2) = there then h
      else
        let h := if u < 8 then
            let h := (laneAdapters u).foldl (fun h a => h.emit (.hotPlug s a there)) h
            (h.emit (.routerReport s (pcieAdapter u) there)).emit (.routerReport s (usb3Adapter u) there)
          else h
        h.emit (.switchPort s (switchDevice u) (decide (1 < now)) there)
    if u < 8 ∧ now = 0 then (laneAdapters u).foldl (fun h a => h.emit (.laneDisabled s a true)) h else h

/-- Every slice's reports. -/
def settleReports (h : Hub) : Hub :=
  (List.range 4).foldl (fun h s => (List.range 10).foldl (fun h u => settleReport h s u) h) h

/-- A slice's DP IN adapter carries head `p` (R87). -/
def dpInCarries (h : Hub) (p : Nat) : Bool :=
  (List.range 4).any fun s => h.present .slice s && (List.range 2).any fun n =>
    h.fget (F.slice_DP_IN_SRC_SRC s n) == p + 1 && !(h.is (F.slice_DP_IN_SRC_FAULT s n))

end Sys2Proof.Machine
end

