-- ==== Sys2Proof/Machine/Reel.lean ====
section
/-! DEFINITION. Reel memory as bytes (R257–R260, R268), the CRC-32 of R255, and the bit operations on pixels. -/

namespace Sys2Proof.Machine

/-! ## Bytes -/

/-- What a byte of Reel memory that nothing has written reads as (assumption log 5). -/
def reelDefault (_ : Nat) : Byte := 0

/-- The size of Reel memory: 4 GiB. -/
def reelSize : Nat := 2 ^ 32

def Memory.read (m : Memory) (a : Nat) : Byte := Tbl.get reelDefault m a

def Memory.write (m : Memory) (a : Nat) (b : Byte) : Memory := if a < reelSize then Tbl.put reelDefault m a b else m

/-- The canonical form of Reel memory: addresses strictly rising and within the 4 GiB, no byte listed that reads the same
unlisted. -/
def Memory.wf (m : Memory) : Bool := Tbl.wf reelDefault m && m.all fun c => decide (c.1 < reelSize)

def Memory.bytes (m : Memory) (a n : Nat) : Bytes := (List.range n).map fun k => Memory.read m (a + k)

def Memory.store (m : Memory) (cells : List (Nat × Byte)) : Memory := cells.foldl (fun m c => Memory.write m c.1 c.2) m

/-- A number as little-endian bytes, and bytes as a number. -/
def leBytes (n v : Nat) : Bytes := (List.range n).map fun k => BitVec.ofNat 8 (v / 2 ^ (8 * k))

def ofBytes : Bytes → Nat
  | [] => 0
  | b :: t => b.toNat + 256 * ofBytes t

/-- A run of bytes at an address, as cells. -/
def cellsAt (a : Nat) (bs : Bytes) : List (Nat × Byte) := (List.range bs.length).zip bs |>.map fun q => (a + q.1, q.2)

/-! ## CRC-32 (R255) -/

/-- One bit of the IEEE 802.3 CRC in its reflected form. -/
def crcBit (c : BitVec 32) : BitVec 32 := if c.getLsbD 0 then (c >>> 1) ^^^ 0xEDB88320 else c >>> 1

def crcByte (c : BitVec 32) (b : Byte) : BitVec 32 :=
  (List.range 8).foldl (fun c _ => crcBit c) (c ^^^ (b.setWidth 32))

def crcStart : BitVec 32 := 0xFFFFFFFF

def crcBytes (c : BitVec 32) (bs : Bytes) : BitVec 32 := bs.foldl crcByte c

/-! ## Clients and ECC (R257, R268) -/

/-- The clients of ECC_LAST.CLIENT. -/
def Client.projector : Nat := 0
def Client.gate : Nat := 1
def Client.catchUp : Nat := 2
def Client.penstock : Nat := 3
def Client.scrub : Nat := 4

/-- The 64-byte blocks that a run of addresses touches. -/
def blocksOf (as : List Nat) : List Nat := (as.map (· / 64)).eraseDups

def badOf (h : Hub) (b : Nat) : Nat := Tbl.get (fun _ => 0) h.reelBad b

def setBad (h : Hub) (b v : Nat) : Hub := { h with reelBad := Tbl.put (fun _ => 0) h.reelBad b v }

/-- Blocks moved in this turn. -/
def moved (h : Hub) (n : Nat) : Hub := { h with reelBlocks := h.reelBlocks + n }

/-- Word 1 of a block has a double-bit error and a write covers only part of it: the word stays as it is (R354). -/
def partBad (h : Hub) (as : List Nat) (b : Nat) : Bool :=
  (badOf h b).testBit 1 && (List.range 8).any (fun k => as.contains (64 * b + 8 + k))
    && !((List.range 8).all fun k => as.contains (64 * b + 8 + k))

/-- The errors left in a block by a write: a word that is written gets new check bits, a bad word only if it is written
whole (R354). -/
def badLeft (old : Nat) (as : List Nat) (b : Nat) : Nat :=
  if old = 0 then 0
  else
    (if (List.range 8).any (fun k => as.contains (64 * b + k)) then 0 else old % 2)
      + (if (List.range 8).all (fun k => as.contains (64 * b + 8 + k)) then 0 else old / 2 % 2 * 2)

/-- A block is written, and it takes what INJECT has armed (R268). -/
def noteWritten (as : List Nat) (h : Hub) (b : Nat) : Hub :=
  let s := h.is F.reel_INJECT_SINGLE
  let d := h.is F.reel_INJECT_DOUBLE
  let v := badLeft (badOf h b) as b ||| ((if s then 1 else 0) + if d then 2 else 0)
  ((setBad h b v).flag F.reel_INJECT_SINGLE false).flag F.reel_INJECT_DOUBLE false

/-- A write of cells by a client. A double-bit error is delivered as read: bits 0 and 1 of word 1 stand flipped. -/
def reelWrite (h : Hub) (m : Memory) (cells : List (Nat × Byte)) : Hub × Memory :=
  let as := cells.map (·.1)
  let bs := blocksOf as
  let d := h.is F.reel_INJECT_DOUBLE
  let m := m.store (cells.filter fun c => !(c.1 % 64 / 8 == 1 && partBad h as (c.1 / 64)))
  let m := match bs with
    | b :: _ => if d then m.write (64 * b + 8) (m.read (64 * b + 8) ^^^ 3) else m
    | [] => m
  (moved (bs.foldl (noteWritten as) h) bs.length, m)

/-- A block with an error is read by a client (R257). -/
def noteRead (client : Nat) (h : Hub) (b : Nat) : Hub :=
  let v := badOf h b
  let last (h : Hub) (u : Bool) (w : Nat) : Hub :=
    (((h.fset F.reel_ECC_ADDR_ADDR (64 * b)).flag F.reel_ECC_LAST_UNCORR u).fset F.reel_ECC_LAST_WORD w).fset F.reel_ECC_LAST_CLIENT client
  let h := if v.testBit 0 then (last (h.pbump F.reel_ECC_CORR_LO_COUNT 1) false 0).event Page.reel 0 else h
  if v.testBit 1 then (last (h.bump F.reel_ECC_UNCORR_COUNT 1) true 1).event Page.reel 1 else h

/-- A read of a run of bytes by a client. -/
def reelRead (h : Hub) (m : Memory) (client a n : Nat) : Hub × Bytes :=
  let bs := blocksOf ((List.range n).map (a + ·))
  (moved (bs.foldl (noteRead client) h) bs.length, m.bytes a n)

/-- The patrol scrub reads a block and writes it back corrected (R268); INJECT waits for a client's write (DESIGN CHOICE, log 101). -/
def reelPatrol (h : Hub) (b : Nat) : Hub :=
  if h.fget F.reel_SCRUB_PERIOD_S = 0 ∨ 2 ^ 26 ≤ b then h
  else
    let v := badOf h b
    moved (setBad (noteRead Client.scrub h b) b (v - v % 2)) (1 + v % 2)

/-- UTIL and its mark at a turn boundary. -/
def reelBoundary (h : Hub) : Hub :=
  let n := h.reelBlocks
  let h := h.fset F.reel_UTIL_BLOCKS (min n (2 ^ 18 - 1))
  { h.fset F.reel_UTIL_HWM_BLOCKS (max (h.fget F.reel_UTIL_HWM_BLOCKS) (min n (2 ^ 18 - 1))) with reelBlocks := 0 }

end Sys2Proof.Machine
end

