-- ==== Sys2Proof/Machine/Gates.lean ====
section
/-! DEFINITION. The Gates: the emulated sink, streams, pixels, takes and the clapper, catch-up and bandwidth requests
(R231–R256, R261, R264–R266). -/

namespace Sys2Proof.Machine

/-! ## State -/

def gate0 : GateSt :=
  { hpd := false, pulse := false, rate := 0, lanes := 0, msa := none, frame := none, dirty := [0, 0, 0, 0], lastFull := none,
    changed := 0, clapped := 0, sdpLen := 0, stalled := [], sizes := [], dpcd := [] }

def Hub.gateSt (h : Hub) (g : Nat) : GateSt := Tbl.get (fun _ => gate0) h.gates g

def Hub.setGate (h : Hub) (g : Nat) (x : GateSt) : Hub := { h with gates := Tbl.put (fun _ => gate0) h.gates g x }

def gateState (h : Hub) (g : Nat) : Nat := h.fget (F.gate_STATUS_STATE g)

/-! ## Takes (R241, R243, R245) -/

/-- CTL.FORMAT after the reserved code: bytes per pixel 5, 4, 4. -/
def gateFormat (h : Hub) (g : Nat) : Nat :=
  let f := h.fget (F.gate_CTL_FORMAT g)
  if f = 3 then 0 else f

def pixelBytes (format : Nat) : Nat := if format = 0 then 5 else 4

/-- MAX_SIZE, limited (R264). -/
def maxH (h : Hub) (g : Nat) : Nat := min (h.fget (F.gate_MAX_SIZE_H g)) 7680
def maxV (h : Hub) (g : Nat) : Nat := min (h.fget (F.gate_MAX_SIZE_V g)) 4320

/-- The line pitch and the size of a take in 64 KiB pages. -/
def takePitch (h : Hub) (g : Nat) : Nat := (maxH h g * pixelBytes (gateFormat h g) + 255) / 256 * 256
def takePages (h : Hub) (g : Nat) : Nat := (takePitch h g * maxV h g + 65535) / 65536

/-- PITCH and TAKE_SIZE follow MAX_SIZE and FORMAT. -/
def noteTakeSize (h : Hub) (g : Nat) : Hub :=
  (h.fset (F.gate_PITCH_BYTES g) (takePitch h g)).fset (F.gate_TAKE_SIZE_PAGES g) (takePages h g)

/-- The take count (R243). -/
def takeCount (h : Hub) (g : Nat) : Nat :=
  let t := h.fget (F.gate_CTL_TAKES g)
  if t < 2 then 2 else if 4 < t then 4 else t

def takeBase (h : Hub) (g t : Nat) : Nat := h.fget (F.gate_TAKE_BASE_PAGE g t)

/-- The takes in use fit below 4 GiB and no two overlap (R245). -/
def takesOk (h : Hub) (g : Nat) : Bool :=
  let n := takeCount h g
  let p := takePages h g
  (List.range n).all fun t => decide (takeBase h g t + p ≤ 65536) && (List.range n).all fun u =>
    t == u || decide (takeBase h g t + p ≤ takeBase h g u) || decide (takeBase h g u + p ≤ takeBase h g t)

/-- The size of the frame that a take holds. -/
def takeSize (h : Hub) (g t : Nat) : Nat × Nat := Tbl.get (fun _ => (0, 0)) (h.gateSt g).sizes t

/-- The bands of a take: 16 lines each. -/
def bandCount (h : Hub) (g : Nat) : Nat := (maxV h g + 15) / 16

def allBands (h : Hub) (g : Nat) : Nat := 2 ^ bandCount h g - 1

def popcount (n : Nat) : Nat := ((List.range 270).filter n.testBit).length

def dirtyOf (x : GateSt) (t : Nat) : Nat := x.dirty.getD t 0

/-- DIRTY01 and DIRTY23 count the dirty bands. -/
def setDirty (h : Hub) (g : Nat) (d : List Nat) : Hub :=
  let h := h.setGate g { h.gateSt g with dirty := d }
  let n (t : Nat) : Nat := popcount (d.getD t 0)
  (((h.fset (F.gate_DIRTY01_TAKE0 g) (n 0)).fset (F.gate_DIRTY01_TAKE1 g) (n 1)).fset (F.gate_DIRTY23_TAKE2 g) (n 2)).fset
    (F.gate_DIRTY23_TAKE3 g) (n 3)

/-- A take is latched by some Projector (R33): its head's active KIND names the Gate. -/
def takeLatched (h : Hub) (g t : Nat) : Bool :=
  (List.range 4).any fun p => (List.range 4).any fun q =>
    h.is (F.proj_LATCHED_VALID p q) && h.aget (F.proj_PSRC_KIND p q) == g + 1 && h.fget (F.proj_LATCHED_TAKE p q) == t

/-- The takes R33 allows: neither latched nor newest. -/
def allowedTakes (h : Hub) (g : Nat) : List Nat :=
  (List.range (takeCount h g)).filter fun t =>
    !(takeLatched h g t) && !(h.is (F.gate_STATUS_NEWEST_VALID g) && h.fget (F.gate_STATUS_NEWEST g) == t)

/-- The order of R246: fewest dirty bands, then lowest index. -/
def chooseTake (h : Hub) (g : Nat) (ts : List Nat) : Option Nat :=
  ts.foldl (fun best t =>
    match best with
    | none => some t
    | some b => if popcount (dirtyOf (h.gateSt g) t) < popcount (dirtyOf (h.gateSt g) b) then some t else some b) none

/-- STATUS.CREDIT_HELD takes a value; its rise is an event (R266). -/
def setHeld (h : Hub) (g : Nat) (b : Bool) : Hub :=
  let h' := h.flag (F.gate_STATUS_CREDIT_HELD g) b
  if b && !(h.is (F.gate_STATUS_CREDIT_HELD g)) then h'.event (Page.gate g) 9 else h'

/-- A Gate that is not DISABLED withholds ingest credit while no take is open or can be opened (R34, R234), and while pixels wait for
their band's catch-up (R251) or for Reel memory (R260). -/
def heldNow (h : Hub) (g : Nat) : Bool :=
  let x := h.gateSt g
  gateState h g != 0 && (!x.stalled.isEmpty || (x.frame.isNone && (allowedTakes h g).isEmpty))

/-- CREDIT_HELD follows. -/
def settleHeld (h : Hub) (g : Nat) : Hub := setHeld h g (heldNow h g)

/-- STATUS.LATCHED of every Gate, and the credit that hangs on it. -/
def noteLatched (h : Hub) : Hub :=
  (List.range 4).foldl (fun h g =>
    settleHeld (h.fset (F.gate_STATUS_LATCHED g) ((List.range 4).foldl (fun n t => if takeLatched h g t then n + 2 ^ t else n) 0)) g) h

/-! ## Frames -/

/-- A frame is abandoned before its clapper (R248). -/
def abandonFrame (h : Hub) (g : Nat) : Hub :=
  let x := h.gateSt g
  match x.frame with
  | none => h
  | some _ =>
    let h := h.setGate g { x with frame := none, stalled := [] }
    let h := setDirty h g (x.dirty.set (h.fget (F.gate_STATUS_WRITING g)) (allBands h g))
    ((h.flag (F.gate_STATUS_WRITE_ACTIVE g) false).bump (F.gate_ABANDONED_COUNT g) 1).event (Page.gate g) 3

/-- The bands a region touches. -/
def regionBands (r : Region) : Nat :=
  if r.lines = 0 then 0
  else (List.range ((r.y + r.lines - 1) / 16 + 1)).foldl (fun n b => if r.y / 16 ≤ b then n + 2 ^ b else n) 0

/-- A frame of this kind may come: full frames in STREAMING, and in STATIC selective updates alone, where they are advertised
(R235, R239). -/
def frameFits (h : Hub) (g : Nat) (su : Bool) : Bool :=
  if su then gateState h g == 4 && h.is (F.gate_CTL_SU_CAP g) else gateState h g == 3

/-- The start of a frame: a take is chosen and opened; with none allowed, credit is withheld until there is one (R34, R234, R246). -/
def frameStart (h : Hub) (g : Nat) (su : Bool) (regions : List Region) : Hub :=
  if !(frameFits h g su) || (h.gateSt g).frame.isSome then h
  else match chooseTake h g (allowedTakes h g) with
    | none => settleHeld h g
    | some t =>
      let bands := if su then regions.foldl (fun n r => n ||| regionBands r) 0 else allBands h g
      let h := (h.fset (F.gate_STATUS_WRITING g) t).flag (F.gate_STATUS_WRITE_ACTIVE g) true
      settleHeld (h.setGate g { h.gateSt g with frame := some { su := su, bands := bands, crc := crcStart, coded := [] } }) g

/-! ## Pixels (R240, R241) -/

/-- Rounding by a shift, ties to even. -/
def roundEven (v s : Nat) : Nat :=
  let q := v / 2 ^ s
  let r := v % 2 ^ s
  let half := 2 ^ s / 2
  if half < r ∨ (r = half ∧ q % 2 = 1) then q + 1 else q

/-- A component of 6, 8, 10 or 12 bits (codes 0–3) as 10 bits. -/
def widen10 (bpc v : Nat) : Nat :=
  match bpc with
  | 0 => v % 64 * 16 + v % 64 / 4
  | 1 => v % 256 * 4 + v % 256 / 64
  | 2 => v % 1024
  | _ => let r := roundEven (v % 4096) 2; if r = 1024 then (Config.freeRound (v % 4096)).toNat else r

/-- A component of a pixel: its one sample, or a value between those around it; where exactly, the spec does not state (R240;
assumption log 101). -/
def sampleOf (c : List Nat) : Nat :=
  match c with
  | [] => 0
  | v :: t =>
    let lo := t.foldl min v
    let hi := t.foldl max v
    lo + Config.freeChroma (v :: t) % (hi - lo + 1)

/-- The 40-bit form A R G B of a pixel (R240). -/
def pixel40 (msa : Msa) (p : SrcPixel) : BitVec 40 :=
  if msa.colour = 0 then
    BitVec.ofNat 40 (0x3FF * 2 ^ 30 + widen10 msa.bpc p.c0 * 2 ^ 20 + widen10 msa.bpc (p.c1.headD 0) * 2 ^ 10 + widen10 msa.bpc (p.c2.headD 0))
  else 0x3FF#10 ++ Config.freeRgb msa.matrix msa.bpc p.c0 (sampleOf p.c1) (sampleOf p.c2)

/-- A 10-bit component as 8 bits, ties to even, saturating (R241). -/
def narrow8 (v : Nat) : Nat := min 255 (roundEven v 2)

/-- The bytes of a pixel in a take, by format (R241). -/
def pixelStore (format : Nat) (p : BitVec 40) : Bytes :=
  let a := p.toNat / 2 ^ 30
  let r := p.toNat / 2 ^ 20 % 1024
  let g := p.toNat / 2 ^ 10 % 1024
  let b := p.toNat % 1024
  if format = 0 then leBytes 5 p.toNat
  else if format = 1 then leBytes 4 (narrow8 a * 2 ^ 24 + narrow8 r * 2 ^ 16 + narrow8 g * 2 ^ 8 + narrow8 b)
  else leBytes 4 (3 * 2 ^ 30 + p.toNat % 2 ^ 30)

/-- The byte address of a pixel of a take. -/
def pixelAddr (h : Hub) (g t x y : Nat) : Nat := takeBase h g t * 65536 + y * takePitch h g + x * pixelBytes (gateFormat h g)

/-! ## Catch-up (R250–R252) -/

/-- One band of a take is copied from the newest take and marked clean. -/
def copyBand (h : Hub) (m : Memory) (g t band : Nat) : Hub × Memory :=
  let n := 16 * takePitch h g
  let lines := min n (takePitch h g * (maxV h g - 16 * band))
  let src := takeBase h g (h.fget (F.gate_STATUS_NEWEST g)) * 65536 + band * n
  let dst := takeBase h g t * 65536 + band * n
  let (h, bs) := reelRead h m Client.catchUp src lines
  let (h, m) := reelWrite h m (cellsAt dst bs)
  let x := h.gateSt g
  (setDirty h g (x.dirty.set t (withBit (dirtyOf x t) band false)), m)

/-- The lowest dirty band of a take. -/
def firstDirty (d : Nat) : Option Nat := (List.range 270).find? d.testBit

/-- Bands of the open selective update that the pixels fall in and that are dirty in its take, each once (R251). Without a newest
take there is nothing to bring them up to date from. -/
def bandsDue (h : Hub) (g : Nat) (px : List SrcPixel) : List Nat :=
  let x := h.gateSt g
  match x.frame with
  | some f =>
    if f.su && h.is (F.gate_STATUS_NEWEST_VALID g) then
      ((px.map (·.y / 16)).eraseDups).filter (dirtyOf x (h.fget (F.gate_STATUS_WRITING g))).testBit
    else []
  | none => []

/-- The waiting pixels of the open frame land in its take once Reel memory serves and their bands are caught up (R251, R260). -/
def landStalled (h : Hub) (m : Memory) (g : Nat) : Hub × Memory :=
  let x := h.gateSt g
  match x.frame, x.msa with
  | some f, some msa =>
    if x.stalled.isEmpty || !(h.domOn 12) || !(bandsDue h g x.stalled).isEmpty then (h, m)
    else
      let t := h.fget (F.gate_STATUS_WRITING g)
      let fmt := gateFormat h g
      let cells := x.stalled.flatMap fun p => cellsAt (pixelAddr h g t p.x p.y) (pixelStore fmt (pixel40 msa p))
      let crc := x.stalled.foldl (fun c p => crcBytes c (leBytes 5 (pixel40 msa p).toNat)) f.crc
      let (h, m) := reelWrite (h.setGate g { x with frame := some { f with crc := crc }, stalled := [] }) m cells
      (settleHeld h g, m)
  | _, _ => (h, m)

/-- What every Gate has waiting lands. -/
def landAll (h : Hub) (m : Memory) : Hub × Memory := (List.range 4).foldl (fun r g => landStalled r.1 r.2 g) (h, m)

/-- The takes that the engine brings up to date: those allowed that have dirty bands; a full frame under way writes its own take whole
(R250; assumption log 101). -/
def catchUpTakes (h : Hub) (g : Nat) : List Nat :=
  let x := h.gateSt g
  let full := match x.frame with | some f => !f.su | none => false
  (allowedTakes h g).filter fun t => dirtyOf x t != 0 && !(full && t == h.fget (F.gate_STATUS_WRITING g))

/-- The catch-up engine completes a band: first one that pixels wait for (R251), then in STATIC one of the take that comes first by
R246 (R250). -/
def catchUp (h : Hub) (m : Memory) (g : Nat) : Hub × Memory :=
  if !(h.is (F.gate_STATUS_NEWEST_VALID g)) || !(h.domOn 12) then (h, m)
  else
    let x := h.gateSt g
    match bandsDue h g x.stalled with
    | b :: _ =>
      let r := copyBand h m g (h.fget (F.gate_STATUS_WRITING g)) b
      landStalled r.1 r.2 g
    | [] =>
      if gateState h g ≠ 4 then (h, m)
      else match chooseTake h g (catchUpTakes h g) with
        | none => (h, m)
        | some t =>
          match firstDirty (dirtyOf x t) with
          | none => (h, m)
          | some b => copyBand (if x.frame.isSome then h else h.fset (F.gate_STATUS_WRITING g) t) m g t b

/-! ## What outlet 20 delivers (R233, R240, R251) -/

/-- SDPs are captured in order of arrival, audio SDPs discarded; the oldest bytes give way (R235). -/
def captureSdps (h : Hub) (g : Nat) (sdps : List Sdp) : Hub :=
  let sdp := (sdps.filter (!·.audio)).flatMap (·.bytes)
  let x := h.gateSt g
  let old := (List.range x.sdpLen).map fun k => BitVec.ofNat 8 (h.fget (F.gate_SDP_BYTES g (k / 4)) / 2 ^ (8 * (k % 4)))
  let all := old ++ sdp
  let now := all.drop (all.length - 256)
  if sdp.isEmpty then h
  else
    let h := h.setGate g { x with sdpLen := now.length }
    (List.range 64).foldl (fun h w => h.fset (F.gate_SDP_BYTES g w) (ofBytes ((now.drop (4 * w)).take 4))) h

/-- The pixels of a packet: those of an uncompressed stream, or what the Gate's decoder makes of a compressed one (R242). -/
def decodedPixels (msa : Msa) (f : GateFrame) (d : GateData) : List SrcPixel :=
  if msa.dscBpp = 0 then d.pixels
  else (Config.dscDecode [msa.dscBpp, msa.bpc, msa.colour, msa.h, msa.v, msa.slices] f.coded d.coded).map fun q =>
    ⟨q.1, q.2.1, q.2.2.1, [q.2.2.2.1], [q.2.2.2.2]⟩

/-- Pixels of an open frame come behind those that wait, and land as soon as they may; a write that finds Reel memory asleep wakes
it (R251, R260). -/
def landPixels (h : Hub) (m : Memory) (g : Nat) (d : GateData) : Hub × Memory :=
  let x := h.gateSt g
  match x.frame, x.msa with
  | some f, some msa =>
    let px := (decodedPixels msa f d).filter fun p => decide (p.x < msa.h) && decide (p.y < msa.v)
    if px.isEmpty then (h.setGate g { x with frame := some { f with coded := f.coded ++ d.coded } }, m)
    else
      let h := h.setGate g { x with frame := some { f with coded := f.coded ++ d.coded }, stalled := x.stalled ++ px }
      let r := landStalled (if h.ready 12 then h else wake h 12) m g
      (settleHeld r.1 g, r.2)
  | _, _ => (h, m)

/-- A packet reaches the Gate of its path. On the main link its SDPs are captured and its pixels land, and a marked one ends the
frame (R248); the AUX path of the adapter carries neither. -/
def gateDeliver (h : Hub) (m : Memory) (p : Nat) (marked : Bool) (d : GateData) : Hub × Memory :=
  match gateOfPath h p with
  | none => (h, m)
  | some g =>
    if h.fget (F.gate_BIND_PATH g) ≠ p then (h, m)
    else if marked then (settleHeld (abandonFrame h g) g, m)
    else landPixels (captureSdps h g d.sdps) m g d

/-- The Gate of a path's main link gives it no credit: DISABLED, or credit withheld (R234, R239). -/
def gateWithholds (h : Hub) (p : Nat) : Bool :=
  match gateOfPath h p with
  | none => false
  | some g =>
    h.fget (F.gate_BIND_PATH g) == p && (gateState h g == 0 || heldNow h g)

/-- CREDIT_GRANT: what the Millrace grants (R133), where the path ends at a Gate only while that takes pixels (R234). -/
def grantCredit (h : Hub) (p : Nat) : Hub := if gateWithholds h p then h else creditGrant h p

/-! ## The clapper (R247, R249, R255, R256) -/

/-- The frame is complete and acknowledged: the take becomes newest, and its bands are dirty in the Gate's other takes. A selective
update waits for its catch-up. The first full frame has none before it to equal: its CHANGED reads 1 (DESIGN CHOICE, log 101). -/
def clapper (h : Hub) (g : Nat) : Hub :=
  let x := h.gateSt g
  match x.frame with
  | none => h
  | some f =>
    let t := h.fget (F.gate_STATUS_WRITING g)
    if (f.su && dirtyOf x t != 0) || !x.stalled.isEmpty then h
    else
      let sig := (~~~ f.crc).toNat
      let changed := f.su || x.lastFull != some sig
      let d := (List.range 4).map fun k => if k == t || takeCount h g ≤ k then 0 else dirtyOf x k ||| f.bands
      let sizes := match x.msa with | some msa => Tbl.put (fun _ => (0, 0)) x.sizes t (msa.h, msa.v) | none => x.sizes
      let h := h.setGate g { x with frame := none, sizes := sizes, lastFull := if f.su then x.lastFull else some sig
                                    changed := if changed then 0xFFFF else x.changed, clapped := 0xF }
      let h := setDirty h g d
      let h := ((h.fset (F.gate_STATUS_NEWEST g) t).flag (F.gate_STATUS_NEWEST_VALID g) true).flag (F.gate_STATUS_WRITE_ACTIVE g) false
      let h := h.fset (F.gate_CLAP_COUNT_COUNT g) (h.fget (F.gate_CLAP_COUNT_COUNT g) + 1)
      let h := h.pset (F.gate_CLAP_TIME_LO_TICKS g) h.ftime
      let h := h.fset (F.gate_ING_SIG_CRC g) sig
      settleHeld (((h.flag (F.gate_SIG_INFO_FULL g) !f.su).flag (F.gate_SIG_INFO_CHANGED g) changed).event (Page.gate g) 0) g

/-! ## The emulated sink (R235–R239, R253) -/

/-- The payload request of R253. -/
def requestBw (h : Hub) (g mbps : Nat) : Hub :=
  if h.is (F.gate_CTL_BW_AUTO g) then (h.fset (F.gate_BW_REQ_MBPS g) mbps).emit (.bwRequest g (mbps % 2 ^ 17)) else h

/-- The stream ends: a frame under way is abandoned (R239, R248). FRAME_SIZE and SRC_FMT keep what they last reported, and DSC reads 0
(DESIGN CHOICE, log 101). -/
def endStream (h : Hub) (g : Nat) (next : Nat) : Hub :=
  let st := gateState h g
  let h := abandonFrame h g
  let h := if 3 ≤ st then h.event (Page.gate g) 2 else h
  let h := (h.setGate g { h.gateSt g with msa := none }).flag (F.gate_STATUS_DSC g) false
  settleHeld (h.fset (F.gate_STATUS_STATE g) next) g

/-- The DP OUT adapter bound to a Gate presents its sink. -/
def gateSink (h : Hub) (g : Nat) : Bool := bindKeys.any fun k => bindUnit (bindCode h (k / 4) (k % 4)) == some (10 + g) && presentsSink h k

/-- The conditions of HPD (R238). -/
def gateHpdOk (h : Hub) (g : Nat) : Bool := h.is (F.gate_CTL_EN g) && h.is (F.gate_EDID_CTL_VALID g) && gateSink h g

/-- HPD changes its level. -/
def setHpd (h : Hub) (g : Nat) (b : Bool) : Hub :=
  if (h.gateSt g).hpd = b then h else (h.setGate g { h.gateSt g with hpd := b }).emit (.gateHpd g b)

/-- The Gate's state follows the conditions of R238 and R239; with DISPLAY at LOW it waits to leave DISABLED (R519). -/
def settleGate (h : Hub) (g : Nat) : Hub :=
  let st := gateState h g
  if gateHpdOk h g then
    let h := dropHeld h (· == .gate g)
    let h := if st = 0 then holdStart h 2 (.gate g) else h
    if st == 0 && lowNow h 2 then h
    else
      let h := dropHeld h (· == .gate g)
      let h := if (h.gateSt g).pulse then h else setHpd h g true
      if st = 0 then settleHeld (h.fset (F.gate_STATUS_STATE g) 1) g else h
  else
    let h := setHpd (dropHeld h (· == .gate g)) g false
    let h := h.setGate g { h.gateSt g with pulse := false, rate := 0, lanes := 0 }
    if st = 0 then h else dvfsSettle (endStream h g 0)

/-- Every Gate follows, with the takes that are latched and the credit that hangs on them (R33, R34). -/
def settleGates (h : Hub) : Hub :=
  noteLatched ((List.range 4).foldl (fun h g => if h.present .gate g then settleGate h g else h) h)

/-- The link of a Gate is lost: the stream ends and the Gate waits for training. -/
def gateLinkLost (h : Hub) (g : Nat) : Hub :=
  let h := h.setGate g { h.gateSt g with rate := 0, lanes := 0 }
  if 2 ≤ gateState h g then endStream h g 1 else h

/-- What a write of GATE.CTL does beyond the register (R245): an enable whose takes do not fit fails. -/
def gateEnabled (h : Hub) (g : Nat) (was : Bool) : Hub :=
  let h := noteTakeSize h g
  if h.is (F.gate_CTL_EN g) && !was && !(takesOk h g) then (h.flag (F.gate_CTL_EN g) false).event (Page.gate g) 5
  else
    let h := if h.is (F.gate_CTL_EN g) && !was then
        setDirty (h.flag (F.gate_STATUS_NEWEST_VALID g) false) g
          ((List.range 4).map fun t => if t < takeCount h g then dirtyOf (h.gateSt g) t else 0)
      else h
    dvfsSettle (settleHeld (settleGate (enforceFloor (enforceFloor h (13 + g)) 12) g) g)

/-- A change of EDID_CTL.VALID (R238, R261). -/
def edidValid (h : Hub) (g : Nat) (was : Bool) : Hub :=
  if !was && h.is (F.gate_EDID_CTL_VALID g) && (h.gateSt g).hpd then
    gateLinkLost (setHpd (h.setGate g { h.gateSt g with pulse := true }) g false) g
  else settleGate h g

/-- The low pulse ends (R238). -/
def hpdPulseEnd (h : Hub) (g : Nat) : Hub :=
  if (h.gateSt g).pulse then settleGate (h.setGate g { h.gateSt g with pulse := false }) g else h

/-- The EDID bytes presented: EDID_CTL.BLOCKS × 128 (R237). -/
def edidBytes (h : Hub) (g : Nat) : Bytes :=
  let b := h.fget (F.gate_EDID_CTL_BLOCKS g)
  let n := if b = 0 then 1 else if 4 < b then 4 else b
  (List.range (32 * n)).flatMap fun w => leBytes 4 (h.fget (F.gate_EDID_BYTES g w))

/-- DP_CAP after its reserved codes (R264, R265). -/
def gateMaxRate (h : Hub) (g : Nat) : Nat := min (h.fget (F.gate_DP_CAP_MAX_RATE g)) 6

def lanesOf (code : Nat) : Nat := if code = 1 ∨ code = 2 ∨ code = 4 then code else 4

/-- A byte of the DPCD (R236): a field that the host writes reads as written, one that the Gate answers follows R235 and the link,
and every other address reads 0. -/
def dpcdByte (h : Hub) (g a : Nat) : Byte :=
  let x := h.gateSt g
  let caps := [gateMaxRate h g, lanesOf (h.fget (F.gate_DP_CAP_LANES g)), h.fget (F.gate_CTL_DSC_CAP g),
    h.fget (F.gate_CTL_PR_CAP g), h.fget (F.gate_CTL_SU_CAP g), maxH h g, maxV h g, x.rate, x.lanes, gateState h g] ++ x.dpcd.map (·.2)
  match Config.dpcdField a with
  | 1 => Config.freeDpcd a caps
  | 2 => BitVec.ofNat 8 (Tbl.get (fun _ => 0) x.dpcd a)
  | _ => 0

/-- A write of the DPCD: fields of link configuration take it, every other address ignores it (R236). -/
def dpcdStore (h : Hub) (g a : Nat) (bs : Bytes) : Hub :=
  let puts := ((List.range bs.length).zip bs).filter fun q => Config.dpcdField (a + q.1) == 2
  h.setGate g { h.gateSt g with dpcd := puts.foldl (fun t q => Tbl.put (fun _ => 0) t (a + q.1) q.2.toNat) (h.gateSt g).dpcd }

/-- The Gate's answer to an AUX request (R236, R237), while its HPD is high. Beyond the EDID it presents there are no bytes to answer
with (DESIGN CHOICE, log 101). -/
def auxRequest (h : Hub) (g : Nat) (q : AuxReq) : Hub :=
  if gateState h g = 0 then h
  else match q with
    | .edidRead off len => h.emit (.auxReply g (((edidBytes h g).drop off).take len))
    | .dpcdRead addr len => h.emit (.auxReply g ((List.range len).map fun k => dpcdByte h g (addr + k)))
    | .dpcdWrite addr bs => (dpcdStore h g addr bs).emit (.auxReply g [])

/-- The host trains the emulated link at an advertised rate and lane count, and succeeds at the first attempt (R235). -/
def linkTraining (h : Hub) (g rate lanes : Nat) : Hub :=
  let st := gateState h g
  if st = 0 ∨ !(h.gateSt g).hpd ∨ gateMaxRate h g < rate ∨ lanesOf (h.fget (F.gate_DP_CAP_LANES g)) < lanes
      ∨ !(lanes == 1 || lanes == 2 || lanes == 4) then h
  else
    let h := if 3 ≤ st then endStream h g 1 else h
    settleHeld ((h.setGate g { h.gateSt g with rate := rate, lanes := lanes }).fset (F.gate_STATUS_STATE g) 2) g

/-- The stream keeps to R235 and MAX_SIZE. -/
def streamFits (h : Hub) (g : Nat) (m : Msa) : Bool :=
  decide (640 ≤ m.h) && decide (480 ≤ m.v) && decide (m.h ≤ maxH h g) && decide (m.v ≤ maxV h g) && decide (m.kpps ≤ 2457600)
    && decide (m.colour ≤ 3) && decide (m.bpc ≤ 3) && (m.colour == 0 || m.bpc != 0)
    && (m.dscBpp == 0 || (h.is (F.gate_CTL_DSC_CAP g) && m.bpc != 0 && decide (96 ≤ m.dscBpp) && decide (m.dscBpp ≤ 384)
          && decide (1 ≤ m.slices) && decide (m.slices ≤ 16) && (decide (m.kpps ≤ 1228800) || decide (2 ≤ m.slices))))

/-- What the stream registers report. -/
def noteStream (h : Hub) (g : Nat) (m : Msa) : Hub :=
  let h := (h.fset (F.gate_FRAME_SIZE_H g) m.h).fset (F.gate_FRAME_SIZE_V g) m.v
  let h := (h.fset (F.gate_SRC_FMT_COLOUR g) m.colour).fset (F.gate_SRC_FMT_BPC g) m.bpc
  ((h.fset (F.gate_SRC_FMT_DSC_BPP g) m.dscBpp).flag (F.gate_STATUS_DSC g) (m.dscBpp != 0)).setGate g { h.gateSt g with msa := some m }

/-- The first valid MSA: the stream starts or is refused (R239, R253). A stream that fits takes a refusal back to LINKED. -/
def streamUp (h : Hub) (g : Nat) (m : Msa) : Hub :=
  let st := gateState h g
  if st = 2 then
    if streamFits h g m then requestBw (((noteStream h g m).fset (F.gate_STATUS_STATE g) 3).event (Page.gate g) 1) g m.mbps
    else (((noteStream h g m).fset (F.gate_STATUS_STATE g) 5).bump (F.gate_ABANDONED_REFUSED g) 1).event (Page.gate g) 4
  else if st = 5 ∧ streamFits h g m then h.fset (F.gate_STATUS_STATE g) 2
  else h

/-- The stream ends, its MSA changes or its link is lost (R239). -/
def streamDown (h : Hub) (g : Nat) (why : StreamEnd) : Hub :=
  if gateState h g < 3 then (if why = .linkLost then gateLinkLost h g else h)
  else if why = .linkLost then gateLinkLost h g
  else endStream h g 2

/-- Panel Replay begins, where it is advertised (R239). -/
def prEnter (h : Hub) (g : Nat) : Hub :=
  if gateState h g = 3 ∧ h.is (F.gate_CTL_PR_CAP g) then (h.fset (F.gate_STATUS_STATE g) 4).event (Page.gate g) 6 else h

/-- Panel Replay ends; the payload rate is requested again (R253). A selective update that is open stays open: the rule does not say
whether an exit to STREAMING, which has the lower code, abandons it (DESIGN CHOICE, log 101). -/
def prExit (h : Hub) (g : Nat) : Hub :=
  if gateState h g = 4 then
    let h := (h.fset (F.gate_STATUS_STATE g) 3).event (Page.gate g) 7
    match (h.gateSt g).msa with
    | some m => requestBw h g m.mbps
    | none => h
  else h

/-- BW.IDLE_MS in STATIC have passed (R253). -/
def bwIdleDecrease (h : Hub) (g : Nat) : Hub :=
  if gateState h g = 4 ∧ h.fget (F.gate_BW_IDLE_MS g) ≠ 0 then requestBw h g (h.fget (F.gate_BW_FLOOR g)) else h

/-- RESERVED_RATE for a grant in Mbit/s: whole packets per turn, rounded up (R254). -/
def grantPackets (mbps : Nat) : Nat := (mbps * 1000000 * 625 + 10000000 * 2048 - 1) / (10000000 * 2048)

/-- The host's grant: RESERVED_RATE is staged with CTL last (R254). -/
def bwGrant (h : Hub) (g mbps : Nat) : Hub :=
  let h' := h.fset (F.gate_BW_GRANT_MBPS g) mbps
  let h' := if h.fget (F.gate_BW_GRANT_MBPS g) = h'.fget (F.gate_BW_GRANT_MBPS g) then h' else h'.event (Page.gate g) 8
  if h'.is (F.gate_BIND_BOUND g) then
    let p := h'.fget (F.gate_BIND_PATH g)
    (h'.fset (F.path_RSV_RESERVED_RATE p) (min (256 * grantPackets (h'.fget (F.gate_BW_GRANT_MBPS g))) (2 ^ 24 - 1))).flag
      (F.path_CTL_PENDING p) true
  else h'

/-- The Gate's unit is released or its slice resets: the frame under way is abandoned (R248, R261). -/
def gateDropped (h : Hub) (g : Nat) : Hub := settleGate (abandonFrame h g) g

/-- A block or domain reset of a Gate: its work in hand is abandoned, and it starts from DISABLED. -/
def gateReset (h : Hub) (g : Nat) : Hub := settleGate (h.setGate g gate0) g

end Sys2Proof.Machine
end

