-- ==== Sys2Proof/Machine/Projectors.lean ====
section
/-! DEFINITION. The Projectors: timing, COMMIT, latches, composition, underruns, the continuity check, and the DP
transmitters toward monitors (R270–R313). -/

namespace Sys2Proof.Machine

/-! ## State -/

def head0 : ProjSt :=
  { rank := 0, vblankAt := 0, acc := 0, extended := false, extLines := 0, bad := 0, line := 0, packet := 0, under := [], queue := []
    lastSig := 0, reference := 0, gates := [0, 0, 0, 0], last := none, takes := [] }

def Hub.head (h : Hub) (p : Nat) : ProjSt := Tbl.get (fun _ => head0) h.heads p

def Hub.setHead (h : Hub) (p : Nat) (x : ProjSt) : Hub := { h with heads := Tbl.put (fun _ => head0) h.heads p x }

/-- The head runs: it is enabled, and does not wait for its island (R519). -/
def headOn (h : Hub) (p : Nat) : Bool := h.is (F.proj_CTL_EN p) && !(h.power.heldStarts.contains (.head p))

/-! ## Plates (R282–R285), read from the shadow or the active copy through `get` -/

/-- PSRC.KIND after its reserved codes. -/
def plateKind (get : Fld → Nat) (p q : Nat) : Nat :=
  let k := get (F.proj_PSRC_KIND p q)
  if 5 < k then 0 else k

def plateOn (get : Fld → Nat) (p q : Nat) : Bool :=
  plateKind get p q != 0 && get (F.proj_SRC_SIZE_W p q) != 0 && get (F.proj_SRC_SIZE_H p q) != 0
    && get (F.proj_DST_SIZE_W p q) != 0 && get (F.proj_DST_SIZE_H p q) != 0

/-- The fetch of a plate per output line (R285). -/
def plateFetch (get : Fld → Nat) (p q : Nat) : Nat :=
  if !(plateOn get p q) then 0
  else
    let w := get (F.proj_SRC_SIZE_W p q)
    if get (F.proj_PSRC_FILTER p q) = 0 then w
    else w * ((get (F.proj_SRC_SIZE_H p q) + get (F.proj_DST_SIZE_H p q) - 1) / get (F.proj_DST_SIZE_H p q))

def headFetch (get : Fld → Nat) (p : Nat) : Nat := ((List.range 4).map (plateFetch get p)).sum

/-- SURF_PITCH without its ignored bits. -/
def surfPitch (get : Fld → Nat) (p q : Nat) : Nat := get (F.proj_SURF_PITCH_BYTES p q) / 256 * 256

/-- The bytes per pixel of a surface plate. -/
def surfBytes (get : Fld → Nat) (p q : Nat) : Nat := pixelBytes (get (F.proj_PSRC_FORMAT p q) % 3)

/-- A plate's scale is within a factor of four each way. -/
def scaleOk (get : Fld → Nat) (p q : Nat) : Bool :=
  let sw := get (F.proj_SRC_SIZE_W p q)
  let dw := get (F.proj_DST_SIZE_W p q)
  let sh := get (F.proj_SRC_SIZE_H p q)
  let dh := get (F.proj_DST_SIZE_H p q)
  decide (sw ≤ 4 * dw) && decide (dw ≤ 4 * sw) && decide (sh ≤ 4 * dh) && decide (dh ≤ 4 * sh)

/-- A surface plate lies below 4 GiB. -/
def surfaceOk (get : Fld → Nat) (p q : Nat) : Bool :=
  let y := get (F.proj_SRC_POS_Y p q) + get (F.proj_SRC_SIZE_H p q)
  let x := get (F.proj_SRC_POS_X p q) + get (F.proj_SRC_SIZE_W p q)
  decide (get (F.proj_SURF_BASE_PAGE p q) * 65536 + (y - 1) * surfPitch get p q + x * surfBytes get p q ≤ reelSize)

/-- The checks of R272, in the order of its table: 0, or the fault code of the first that fails. -/
def projCheck (get : Fld → Nat) (p : Nat) : Nat :=
  let ha := get (F.proj_TIMING_H_ACTIVE p)
  let ht := get (F.proj_TIMING_H_TOTAL p)
  let hs := get (F.proj_HSYNC_START p)
  let hw := get (F.proj_HSYNC_WIDTH p)
  let va := get (F.proj_TIMING_V_ACTIVE p)
  let vt := get (F.proj_TIMING_V_TOTAL p)
  let vs := get (F.proj_VSYNC_START p)
  let vw := get (F.proj_VSYNC_WIDTH p)
  let num := get (F.proj_SPROCKET_NUM_NUM p)
  let den := get (F.proj_SPROCKET_DEN_DEN p)
  let on := (List.range 4).filter (plateOn get p)
  if !(decide (640 ≤ ha) && decide (ha ≤ 7680) && decide (ha + 32 ≤ ht) && decide (ha ≤ hs) && decide (1 ≤ hw) && decide (hs + hw ≤ ht)) then 1
  else if !(decide (480 ≤ va) && decide (va ≤ 4320) && decide (va + 3 ≤ vt) && decide (va + 1 ≤ vs) && decide (1 ≤ vw) && decide (vs + vw ≤ vt)) then 2
  else if !(decide (1 ≤ num) && decide (1 ≤ den) && decide (num ≤ den)) then 3
  else if !(on.all (scaleOk get p)) then 4
  else if 2 * ht < headFetch get p then 5
  else if !(on.all fun q => plateKind get p q != 5 || surfaceOk get p q) then 6
  else 0

/-- Bits per pixel of the stream in sixteenths (R297). -/
def streamBpp16 (h : Hub) (p : Nat) : Nat :=
  if h.is (F.proj_DSC_EN p) then
    let b := h.fget (F.proj_DSC_BPP p)
    if 128 ≤ b ∧ b ≤ 240 then b else 192
  else
    let c := h.fget (F.proj_OUT_BPC p)
    16 * 3 * (if c = 0 then 8 else if c = 2 then 12 else 10)

/-- NEED.PACKETS of the active copy (R297), beside NEED.FETCH, which is `headFetch` of it (R285): 62.5 µs of pixels are 153,600 × NUM / DEN. -/
def headNeed (h : Hub) (p : Nat) : Nat :=
  let perLine := (h.aget (F.proj_TIMING_H_ACTIVE p) * streamBpp16 h p + 16 * 2048 - 1) / (16 * 2048)
  let d := h.aget (F.proj_SPROCKET_DEN_DEN p) * h.aget (F.proj_TIMING_H_TOTAL p)
  if d = 0 then 0 else (perLine * 153600 * h.aget (F.proj_SPROCKET_NUM_NUM p) + d - 1) / d

/-! ## Ports (R298, R299, R305) -/

/-- The unit of a bit of OUT.PORTS, by the unit bits of R105. -/
def portUnit (b : Nat) : Nat := if b < 8 then b else b + 6

/-- A DP OUT adapter binds a port in pass-through. -/
def boundThrough (h : Hub) (b : Nat) : Bool :=
  bindKeys.any fun k => h.present .slice (k / 4) && bindUnit (bindCode h (k / 4) (k % 4)) == some (portUnit b)

def portNamed (h : Hub) (p b : Nat) : Bool := (h.fget (F.proj_OUT_PORTS p)).testBit b

/-- Eligibility of a port for a head (R298). -/
def portEligible (h : Hub) (p b : Nat) : Bool :=
  let u := portUnit b
  let own := appliedOwner h (unitPage u) % 16
  unitPresent h u && (decide (8 ≤ b) || dpMode (h.fget (F.link_LINK_STATUS_MODE (4 + b))))
    && (own == 0 || (List.range 4).any (fun s => own == 2 ^ s && sliceOwns h (Page.proj p) s))
    && !(boundThrough h b) && !(unitReleased h u)

/-- The capacity P of a trained port (R75). -/
def portP (h : Hub) (b : Nat) : Nat :=
  let x := h.dpPort b
  if x.trained then dpPackets x.rate x.lanes else 0

/-- The MTP slots a head needs at a port (R305). -/
def headSlots (h : Hub) (p b : Nat) : Nat :=
  let c := portP h b
  if c = 0 then 64 else (63 * headNeed h p + c - 1) / c

/-- The enabled heads that name a port. -/
def headsAt (h : Hub) (b : Nat) : List Nat := (List.range 4).filter fun p => headOn h p && portNamed h p b && portEligible h p b

/-- The MST rule holds for a head at a port (R305): heads enabled before it count first, and a branch beyond the first level is not
reached. -/
def slotsOk (h : Hub) (p b : Nat) : Bool :=
  let before := (headsAt h b).filter fun q => q != p && decide ((h.head q).rank ≤ (h.head p).rank)
  let mst (q : Nat) : Bool := h.fget (F.proj_OUT_MST_PORT q) != 0
  let reached := (h.dpPort b).caps.mst && !((h.dpPort b).caps.deep.testBit (h.fget (F.proj_OUT_MST_PORT p)))
  if before.isEmpty then (if mst p then reached && decide (headSlots h p b ≤ 63) else true)
  else mst p && before.all mst && reached
    && decide (((before.map fun q => headSlots h q b).sum) + headSlots h p b ≤ 63)

/-- The sink decodes the head's DSC (R299). -/
def dscOk (h : Hub) (p b : Nat) : Bool :=
  let c := (h.dpPort b).caps
  !(h.is (F.proj_DSC_EN p)) || (c.dsc && decide (2 ^ h.fget (F.proj_DSC_SLICES p) ≤ c.dscSlices)
    && decide (c.dscMinBpp ≤ streamBpp16 h p) && decide (streamBpp16 h p ≤ c.dscMaxBpp))

def portUsable (h : Hub) (p b : Nat) : Bool :=
  decide (headNeed h p ≤ portP h b) && slotsOk h p b && dscOk h p b

/-- Raises an event when a flag rises, and sets the flag. -/
def raiseFlag (h : Hub) (f : Fld) (b : Bool) (page ev : Nat) : Hub :=
  let h' := if b && !(h.is f) then h.event page ev else h
  h'.flag f b

/-- A set of ports as a bitmap. -/
def portBits (f : Nat → Bool) : Nat := (List.range 10).foldl (fun n b => if f b then n + 2 ^ b else n) 0

/-- A head is dark while it has no usable port and no DP IN adapter carries it (R301). -/
def darkNow (h : Hub) (p : Nat) : Bool := h.fget (F.proj_PORT_STAT_UP p) == 0 && !(dpInCarries h p)

def setDark (h : Hub) (p : Nat) (b : Bool) : Hub :=
  if h.is (F.proj_STATUS_DARK p) = b then h else (h.flag (F.proj_STATUS_DARK p) b).event (Page.proj p) 11

/-- The head wants to extend (R280). -/
def adaptive (h : Hub) (p : Nat) : Bool :=
  h.ais (F.proj_CTL_ADAPTIVE p) && decide (h.aget (F.proj_TIMING_V_TOTAL p) < h.aget (F.proj_V_TOTAL_MAX_LINES p))

/-- The sprocket's accumulator since the start of the vertical blank, nothing released (R270): 4 × NUM more at each PROJ cycle, of which
a tick of fabric time holds 24/5. -/
def sprocketSum (h : Hub) (p : Nat) : Nat :=
  (h.head p).acc + 4 * h.aget (F.proj_SPROCKET_NUM_NUM p) * ((h.time - (h.head p).vblankAt) * 24 / 5)

/-- The pixel slots released since then, one for each DEN of the sum, and what the accumulator holds. -/
def slotsSince (h : Hub) (p : Nat) : Nat := sprocketSum h p / h.aget (F.proj_SPROCKET_DEN_DEN p)

def accNow (h : Hub) (p : Nat) : Nat := sprocketSum h p % h.aget (F.proj_SPROCKET_DEN_DEN p)

/-- Lines since the start of the vertical blank, and the pixel within the line (R271). -/
def linesSince (h : Hub) (p : Nat) : Nat := slotsSince h p / h.aget (F.proj_TIMING_H_TOTAL p)

def headPixel (h : Hub) (p : Nat) : Nat := slotsSince h p % h.aget (F.proj_TIMING_H_TOTAL p)

/-- The Gate of the plate that SYNC_PLATE names. -/
def syncGate (h : Hub) (p : Nat) : Option Nat :=
  let q := h.aget (F.proj_CTL_SYNC_PLATE p)
  let k := plateKind h.aget p q
  if plateOn h.aget p q ∧ 1 ≤ k ∧ k ≤ 4 then some (k - 1) else none

/-- The head extends its blank in this frame if it comes to line VSYNC.START so (R280, R281). -/
def mayExtend (h : Hub) (p : Nat) : Bool :=
  headOn h p && adaptive h p && !(h.is (F.proj_STATUS_AS_FAULT p)) && !((h.head p).extended)
    && (match syncGate h p with
        | some g => !((h.gateSt g).clapped.testBit p)
        | none => false)

/-- Blank lines before line VSYNC.START. -/
def frontLines (h : Hub) (p : Nat) : Nat := h.aget (F.proj_VSYNC_START p) - h.aget (F.proj_TIMING_V_ACTIVE p)

/-- The most lines by which a frame is extended: to V_TOTAL_MAX. -/
def mostExtra (h : Hub) (p : Nat) : Nat := h.aget (F.proj_V_TOTAL_MAX_LINES p) - h.aget (F.proj_TIMING_V_TOTAL p)

/-- The lines by which the frame has been extended so far. -/
def extraLines (h : Hub) (p : Nat) : Nat :=
  if (h.head p).extended then (h.head p).extLines
  else if mayExtend h p then min (linesSince h p - frontLines h p) (mostExtra h p) else 0

/-- The head extends its blank now: it repeats line VSYNC.START − 1 (R280). -/
def extending (h : Hub) (p : Nat) : Bool :=
  mayExtend h p && decide (frontLines h p ≤ linesSince h p) && decide (extraLines h p < mostExtra h p)

/-- A head that has come to line VSYNC.START without an extension, or whose extension is cut short, does not extend in this frame any
more, whatever changes then (R31, R280). -/
def notePassed (h : Hub) (p : Nat) : Hub :=
  if headOn h p && adaptive h p && !((h.head p).extended) && decide (frontLines h p ≤ linesSince h p) && !(extending h p) then
    h.setHead p { h.head p with extended := true, extLines := extraLines h p }
  else h

/-- The slots that a head takes at an MST port are allocated (R305). -/
def allocate (h : Hub) (p b : Nat) : Hub :=
  if h.fget (F.proj_OUT_MST_PORT p) = 0 then h else h.emit (.allocatePayload b p (h.fget (F.proj_OUT_MST_PORT p)) (headSlots h p b))

/-- The named ports that are not eligible: TARGET_FAULT, an event for each that joins them (R298). -/
def noteBad (h : Hub) (p bad : Nat) : Hub :=
  let new := (List.range 10).any fun b => bad.testBit b && !((h.head p).bad.testBit b)
  let h := (h.setHead p { h.head p with bad := bad }).flag (F.proj_STATUS_TARGET_FAULT p) (bad != 0)
  if new then h.event (Page.proj p) 15 else h

/-- The ports of a head, and what follows from them (R298, R299, R281, R301, R305). -/
def settleHead1 (h : Hub) (p : Nat) : Hub :=
  let on := headOn h p
  let named (b : Nat) : Bool := on && portNamed h p b
  let pg := Page.proj p
  let h := noteBad (notePassed h p) p (portBits fun b => named b && !(portEligible h p b))
  let trained (b : Nat) : Bool := named b && portEligible h p b && (h.dpPort b).trained
  let up := portBits fun b => trained b && portUsable h p b
  let short := portBits fun b => trained b && !(portUsable h p b)
  let rose := (List.range 10).any fun b => short.testBit b && !(h.bit (F.proj_PORT_STAT_SHORT p) b)
  let dsc := (List.range 10).any fun b => trained b && !(dscOk h p b)
  let as := adaptive h p && (List.range 10).any fun b => up.testBit b && !((h.dpPort b).caps.adaptive)
  let h := ((List.range 10).filter fun b => up.testBit b && !(h.bit (F.proj_PORT_STAT_UP p) b)).foldl (fun h b => allocate h p b) h
  let h := (h.fset (F.proj_PORT_STAT_UP p) up).fset (F.proj_PORT_STAT_SHORT p) short
  let h := if rose then h.event pg 12 else h
  let h := raiseFlag h (F.proj_STATUS_DSC_FAULT p) dsc pg 13
  let h := notePassed (raiseFlag h (F.proj_STATUS_AS_FAULT p) as pg 14) p
  if on && darkNow h p then setDark h p true else h

/-- The DPO registers follow its users (R312). Heads with an MST_PORT put the port under MST, whether or not their slots fit
(DEDUCED, log 102). -/
def settleDpo (h : Hub) (o : Nat) : Hub :=
  let b := 8 + o
  let hs := headsAt h b
  let mode := if (holderOf h (14 + o)).isSome then 1 else if hs.isEmpty then 0 else 2
  let mst := hs.filter fun p => h.fget (F.proj_OUT_MST_PORT p) != 0
  let free := if mst.isEmpty then 0 else 63 - ((mst.filter fun p => portUsable h p b).map fun p => headSlots h p b).sum
  ((h.fset (F.dpo_STATUS_MODE o) mode).fset (F.dpo_USERS_HEADS o) (hs.foldl (fun n p => n + 2 ^ p) 0)).fset (F.dpo_SLOTS_FREE o) free

/-- The head whose LINK_CTL governs a device port: the lowest-numbered enabled one that names it (R304). -/
def linkMaster (h : Hub) (b : Nat) : Option Nat := (List.range 4).find? fun p => headOn h p && portNamed h p b

/-- A port's lanes may train: a device port in DP Alt Mode, or an enabled DPO with HPD high. -/
def dpTrainable (h : Hub) (b : Nat) : Bool :=
  if b < 8 then h.present .link (4 + b) && dpMode (h.fget (F.link_LINK_STATUS_MODE (4 + b))) else h.hpdSeen (b - 8)

/-- An eligible port that an enabled head comes to name reads its sink's DPCD and trains, unless it is trained; a training ends with
what called for it (R304). -/
def settlePort (h : Hub) (b : Nat) : Hub :=
  let x := h.dpPort b
  if dpTrainable h b && !(headsAt h b).isEmpty then
    if x.started then h
    else if x.trained || x.training then h.setDpPort b { x with started := true }
    else (h.setDpPort b { x with started := true, training := true }).emit (.sinkDpcd b)
  else if x.started || x.training then h.setDpPort b { x with started := false, training := false } else h

/-- RETRAIN of a head reads 1 until no device port that it masters trains (R310), and that of a DPO until its port does not (R312). -/
def settleRetrain (h : Hub) : Hub :=
  let h := (List.range 4).foldl (fun h p =>
    if h.is (F.proj_LINK_CTL_RETRAIN p) && !((List.range 8).any fun c => linkMaster h c == some p && (h.dpPort c).training) then
      h.flag (F.proj_LINK_CTL_RETRAIN p) false else h) h
  (List.range 2).foldl (fun h o =>
    if h.is (F.dpo_CTL_RETRAIN o) && !((h.dpPort (8 + o)).training) then h.flag (F.dpo_CTL_RETRAIN o) false else h) h

/-- Everything that hangs on bindings, ports and owners of the display: bindings, Gates, heads, DPOs. -/
def settleDisplay (h : Hub) : Hub :=
  let h := settleGates (settleReports (settleBindings (capBack h)))
  let h := (List.range 4).foldl (fun h p => if h.present .proj p then settleHead1 h p else h) h
  settleDpo (settleDpo (settleRetrain ((List.range 10).foldl settlePort h)) 0) 1

/-! ## The frame cycle (R274, R275, R279, R280) -/

/-- Whether a plate is armed by its latch (R293). -/
def plateArms (h : Hub) (p q : Nat) : Bool :=
  let g := plateKind h.aget p q
  let mode := h.aget (F.proj_PSRC_ALPHA_MODE p q)
  plateOn h.aget p q && decide (1 ≤ g) && decide (g ≤ 4)
    && decide (h.aget (F.proj_DST_POS_X p q) < h.aget (F.proj_TIMING_H_ACTIVE p))
    && decide (h.aget (F.proj_DST_POS_Y p q) < h.aget (F.proj_TIMING_V_ACTIVE p))
    && !((mode == 2 || mode == 3) && h.aget (F.proj_GALPHA_ALPHA p q) == 0)
    && (h.gateSt (g - 1)).changed.testBit (4 * p + q)

/-- One plate latches its Gate's newest complete take (R30, R274). -/
def latchPlate (p : Nat) (hn : Hub × Bool) (q : Nat) : Hub × Bool :=
  let (h, new) := hn
  let k := plateKind h.aget p q
  if plateOn h.aget p q && decide (1 ≤ k) && decide (k ≤ 4) && h.is (F.gate_STATUS_NEWEST_VALID (k - 1)) then
    let t := h.fget (F.gate_STATUS_NEWEST (k - 1))
    let x := h.head p
    let fresh := !(h.is (F.proj_LATCHED_VALID p q)) || h.fget (F.proj_LATCHED_TAKE p q) != t || x.gates.getD q 0 != k
    (((h.setHead p { x with gates := x.gates.set q k }).fset (F.proj_LATCHED_TAKE p q) t).flag (F.proj_LATCHED_VALID p q) true, new || fresh)
  else (h.flag (F.proj_LATCHED_VALID p q) false, new)

/-- The head has seen the clappers up to a latch, and each plate that has latched has too (R280, R293). -/
def clearSeen (h : Hub) (p : Nat) : Hub :=
  (List.range 4).foldl (fun h g =>
    let x := h.gateSt g
    h.setGate g { x with changed := (List.range 4).foldl (fun n q =>
                           if h.is (F.proj_LATCHED_VALID p q) then withBit n (4 * p + q) false else n) x.changed
                         clapped := withBit x.clapped p false }) h

/-- A latch: takes, the arming of the continuity check (R293) and LATCH_NEW. -/
def latch (h : Hub) (p : Nat) : Hub :=
  let arms := (List.range 4).any (plateArms h p)
  let h := if arms && !(h.is (F.proj_CTL_STATIC_INTENT p)) && h.fget (F.proj_CONT_LIMIT p) != 0 && !(h.is (F.proj_CONT_STAT_ARMED p)) then
      ((h.flag (F.proj_CONT_STAT_ARMED p) true).fset (F.proj_CONT_STAT_COUNT p) 0).setHead p
        { h.head p with reference := (h.head p).lastSig }
    else h
  let (h, new) := (List.range 4).foldl (latchPlate p) (h, false)
  let h := clearSeen (noteLatched h) p
  if new then h.event (Page.proj p) 2 else h

/-- The shadow set applies at an apply point (R64); COMMIT_DONE. -/
def projApply (h : Hub) (p : Nat) : Hub :=
  let pg := Page.proj p
  if h.is (F.hdr_COMMIT_GO pg) && !(h.is (F.hdr_COMMIT_HOLD pg)) then
    (applyShadows h pg).event pg 1
  else h

/-- The symbol rate of a DP link in kHz, by rate code (PRESUMED, log 102: DisplayPort's; R265 names the rates). -/
def symbolKhz (rate : Nat) : Nat :=
  match rate with
  | 0 => 162000 | 1 => 270000 | 2 => 540000 | 3 => 810000 | 4 => 312500 | 5 => 421875 | _ => 625000

/-- The MSA that an egress builds for the head's stream: its timing, and Mvid and Nvid for the ratio of the pixel rate to the symbol
rate, held to the precision of their fields (R273). -/
def headMsa (h : Hub) (p b : Nat) : Emission :=
  let mn := Config.freeMvid (2457600 * h.aget (F.proj_SPROCKET_NUM_NUM p)) (h.aget (F.proj_SPROCKET_DEN_DEN p) * symbolKhz (h.dpPort b).rate)
  .headMsa b p [h.aget (F.proj_TIMING_H_ACTIVE p), h.aget (F.proj_TIMING_H_TOTAL p), h.aget (F.proj_HSYNC_START p), h.aget (F.proj_HSYNC_WIDTH p),
    h.aget (F.proj_TIMING_V_ACTIVE p), h.aget (F.proj_TIMING_V_TOTAL p), h.aget (F.proj_VSYNC_START p), h.aget (F.proj_VSYNC_WIDTH p),
    h.fget (F.proj_OUT_BPC p)] mn.1 mn.2

/-- What goes out at each usable port in the vertical blank: the MSA, and the Adaptive-Sync SDP while the head extends its frames
(R273, R281, R296). -/
def headInfo (h : Hub) (p : Nat) : Hub :=
  ((List.range 10).filter (h.bit (F.proj_PORT_STAT_UP p))).foldl (fun h b =>
    let h := h.emit (headMsa h p b)
    if adaptive h p && !(h.is (F.proj_STATUS_AS_FAULT p)) && (syncGate h p).isSome then h.emit (.adaptiveSdp b p) else h) h

/-- The start of a vertical blank (R274, R301): the sprocket goes on (R270). -/
def vblank (h : Hub) (p : Nat) : Hub :=
  if !(headOn h p) || !(h.domOn (17 + p)) then h
  else
    let h := h.setHead p { h.head p with vblankAt := h.time, acc := accNow h p, extended := false, extLines := 0, line := 0, packet := 0, under := [] }
    let h := settleHead1 (projApply h p) p
    let h := latch h p
    let h := h.fset (F.proj_FRAME_COUNT_COUNT p) (h.fget (F.proj_FRAME_COUNT_COUNT p) + 1)
    let h := setDark h p (darkNow h p)
    (headInfo h p).event (Page.proj p) 0

/-- A clapper of its SYNC_PLATE Gate ends an extension with a second latch (R280); the repeated line in progress is completed. `n` is
the number of lines repeated before it. -/
def endExtension (h : Hub) (p n : Nat) : Hub :=
  (latch (h.setHead p { h.head p with extended := true, extLines := n + 1 }) p).event (Page.proj p) 3

/-- A Gate's clapper as the heads see it: those that extend for it latch again. -/
def clapperSeen (h : Hub) (g : Nat) : Hub :=
  let due := (List.range 4).filter fun p => extending h p && syncGate h p == some g
  let h' := clapper ((List.range 4).foldl notePassed h) g
  if (h.gateSt g).frame.isSome && (h'.gateSt g).frame.isNone then due.foldl (fun k p => endExtension k p (extraLines h p)) h' else h'

/-- An extended frame reaches V_TOTAL_MAX lines and goes on at line VSYNC.START without another latch (R280). -/
def vTotalMax (h : Hub) (p : Nat) : Hub :=
  if mayExtend h p then h.setHead p { h.head p with extended := true, extLines := mostExtra h p } else h

/-- A head whose EN has been cleared finishes the line that was in progress (R279). -/
def finishing (h : Hub) (p : Nat) : Bool := !(h.is (F.proj_CTL_EN p)) && (h.head p).last == some (linesSince h p)

/-- PHASE and LINE (R310): from the time since the vertical blank. -/
def headPhase (h : Hub) (p : Nat) : Nat × Nat :=
  if !(headOn h p || finishing h p) then (0, 0)
  else
    let va := h.aget (F.proj_TIMING_V_ACTIVE p)
    let vt := h.aget (F.proj_TIMING_V_TOTAL p)
    let n := linesSince h p
    let k := n - extraLines h p
    if extending h p then (3, va + n)
    else if va + k < vt then (2, va + n)
    else (1, (va + k - vt) % max va 1)

/-- Horizontal and vertical sync at this slot (R271): by the pixel, and by the line without the extension's repeats. -/
def headSync (h : Hub) (p : Nat) : Bool × Bool :=
  let within (x start width : Nat) : Bool := decide (start ≤ x) && decide (x < start + width)
  let line := h.aget (F.proj_TIMING_V_ACTIVE p) + (linesSince h p - extraLines h p)
  (within (headPixel h p) (h.aget (F.proj_HSYNC_START p)) (h.aget (F.proj_HSYNC_WIDTH p)),
   !(extending h p) && within line (h.aget (F.proj_VSYNC_START p)) (h.aget (F.proj_VSYNC_WIDTH p)))

/-- An enabled head starts its first frame, its accumulator cleared (R270, R275). -/
def headStart (h : Hub) (p : Nat) : Hub :=
  let h := dropHeld h (· == .head p)
  vblank (settleDisplay (h.setHead p { h.head p with acc := 0, vblankAt := h.time, extended := false, extLines := 0, last := none, takes := [] })) p

/-- A head that is enabled starts at line V_ACTIVE with a vertical blank (R275, R277); a set that fails is refused.
With DISPLAY at LOW it waits for the raise (R519). -/
def projEnable (h : Hub) (p : Nat) : Hub :=
  let c := projCheck h.aget p
  if c ≠ 0 then (((h.flag (F.proj_CTL_EN p) false).fset (F.proj_FAULT_CODE p) c).event (Page.proj p) 10)
  else
    let h := { h.setHead p { h.head p with rank := h.headRank + 1 } with headRank := h.headRank + 1 }
    let h := holdStart (dvfsSettle (enforceFloor (enforceFloor h (17 + p)) 12)) 2 (.head p)
    if lowNow h 2 then h else headStart h p

/-- The take that a plate has latched. -/
def takeOf (h : Hub) (p q : Nat) : Option Nat :=
  if h.is (F.proj_LATCHED_VALID p q) then some (h.fget (F.proj_LATCHED_TAKE p q)) else none

/-- A head that is disabled releases its takes at once and stops after the line in progress, which shows them still (R279). The spec
does not say what becomes of CONT_STAT: ARMED is cleared, COUNT and FROZEN stay (DESIGN CHOICE, log 102). -/
def projDisable (h : Hub) (p : Nat) : Hub :=
  let runs := !(h.power.heldStarts.contains (.head p)) && !(h.is (F.proj_STATUS_DARK p))
  let x := h.head p
  let x := { x with last := if runs then some (linesSince h p) else none, takes := (List.range 4).map (takeOf h p) }
  let h := (List.range 4).foldl (fun h q => h.flag (F.proj_LATCHED_VALID p q) false) (dropHeld h (· == .head p))
  let h := (h.flag (F.proj_CONT_STAT_ARMED p) false).setHead p x
  dvfsSettle (settleDisplay (noteLatched (h.flag (F.proj_STATUS_DARK p) false)))

/-- A GO write on a PROJ page (R275, R276): the set is checked, and applied at once while EN = 0. It is so too while the domain is in
NAP or OFF, where no PROJ cycle follows the write and R41 wakes none (DESIGN CHOICE, log 102). -/
def projGo (h : Hub) (p : Nat) : Hub :=
  let c := projCheck h.fget p
  let pg := Page.proj p
  if c ≠ 0 then ((h.flag (F.hdr_COMMIT_GO pg) false).fset (F.proj_FAULT_CODE p) c).event pg 10
  else
    let h := h.flag (F.hdr_COMMIT_GO pg) true
    if h.is (F.proj_CTL_EN p) then h else projApply h p

/-- A write of STATIC_INTENT = 1 or CONT.LIMIT = 0 clears the check (R295). -/
def contWritten (h : Hub) (p : Nat) : Hub :=
  if h.is (F.proj_CTL_STATIC_INTENT p) || h.fget (F.proj_CONT_LIMIT p) == 0 then
    (h.flag (F.proj_CONT_STAT_ARMED p) false).flag (F.proj_CONT_STAT_FROZEN p) false
  else h

/-! ## Underruns (R289–R291) -/

/-- A line affected by an underrun or an output stall, from a pixel on. -/
def underrun (h : Hub) (p line pixel cause : Nat) : Hub :=
  let x := h.head p
  if !(headOn h p || finishing h p) || h.is (F.proj_STATUS_DARK p) || x.under.any (fun u => u.1 == line) then h
  else
    let h := h.bump (F.proj_UNDERRUNS_COUNT p) 1
    let h := if x.under.isEmpty then h.event (Page.proj p) 8 else h
    let h := if h.is (F.proj_UNDER_FIRST_VALID p) then h
      else (((h.fset (F.proj_UNDER_FIRST_LINE p) line).fset (F.proj_UNDER_FIRST_FRAME p) (h.fget (F.proj_FRAME_COUNT_COUNT p))).fset
        (F.proj_UNDER_FIRST_CAUSE p) cause).flag (F.proj_UNDER_FIRST_VALID p) true
    h.setHead p { x with under := x.under ++ [(line, pixel)] }

/-! ## Composition (R284, R286) -/

/-- A pixel stored in a format as 40 bits (R241, R286): the components of P32 widened, A of P30 too. -/
def pixelLoad (format : Nat) (bs : Bytes) : BitVec 40 :=
  let v := ofBytes bs
  if format = 0 then BitVec.ofNat 40 v
  else if format = 1 then
    BitVec.ofNat 40 (widen10 1 (v / 2 ^ 24) * 2 ^ 30 + widen10 1 (v / 2 ^ 16) * 2 ^ 20 + widen10 1 (v / 2 ^ 8) * 2 ^ 10 + widen10 1 v)
  else
    let a := v / 2 ^ 30 % 4
    BitVec.ofNat 40 ((a * 256 + a * 64 + a * 16 + a * 4 + a) * 2 ^ 30 + v % 2 ^ 30)

/-- Where a plate reads: first byte, pitch, format, and the width and height within which a source pixel is opaque. -/
def plateSurface (h : Hub) (p q : Nat) : Option (Nat × Nat × Nat × Nat × Nat) :=
  let k := plateKind h.aget p q
  if !(plateOn h.aget p q) then none
  else if k = 5 then
    some (h.aget (F.proj_SURF_BASE_PAGE p q) * 65536, surfPitch h.aget p q, h.aget (F.proj_PSRC_FORMAT p q) % 3,
          h.aget (F.proj_SRC_POS_X p q) + h.aget (F.proj_SRC_SIZE_W p q), h.aget (F.proj_SRC_POS_Y p q) + h.aget (F.proj_SRC_SIZE_H p q))
  else
    let g := k - 1
    match if finishing h p then (h.head p).takes.getD q none else takeOf h p q with
    | some t =>
      if h.is (F.gate_STATUS_NEWEST_VALID g) then
        some (takeBase h g t * 65536, takePitch h g, gateFormat h g, (takeSize h g t).1, (takeSize h g t).2)
      else none
    | none => none

/-- A source pixel of a plate; none where it is transparent. -/
def sourcePixel (h : Hub) (m : Memory) (p q : Nat) (x y : Int) : Option (BitVec 40) :=
  match plateSurface h p q with
  | none => none
  | some (base, pitch, fmt, w, ht) =>
    if x < 0 ∨ y < 0 ∨ (w : Int) ≤ x ∨ (ht : Int) ≤ y then none
    else some (pixelLoad fmt (m.bytes (base + y.toNat * pitch + x.toNat * pixelBytes fmt) (pixelBytes fmt)))

/-- A component of a 40-bit pixel: 3 A, 2 R, 1 G, 0 B. -/
def component (v : BitVec 40) (c : Nat) : Nat := v.toNat / 2 ^ (10 * c) % 1024

/-- The coordinate of the sample point in 1/(2 × DST) of a source pixel (R284). -/
def samplePoint (pos dpos out src dst : Nat) : Int :=
  2 * (dst : Int) * pos + (2 * ((out : Int) - dpos) + 1) * src - dst

/-- A component between four neighbours at fractions u and v of a pixel in 1/du and 1/dv: the exact value, or one of the two integers
around it, for how it is rounded is not stated (R284; log 102). -/
def bilinear (a b c d u du v dv : Nat) : Nat :=
  let n := (a * (du - u) + b * u) * (dv - v) + (c * (du - u) + d * u) * v
  n / (du * dv) + (if n % (du * dv) = 0 then 0 else Config.freeBilinear [a, b, c, d] u du v dv % 2)

/-- The opaque sample of a plate at an output pixel, or none (R284). A sample point midway between two pixels takes the higher one, and
a bilinear sample with a weighted neighbour that is transparent is transparent (DESIGN CHOICE, log 102). -/
def plateSample (h : Hub) (m : Memory) (p q X Y : Nat) : Option (BitVec 40) :=
  let g := h.aget
  let dx := g (F.proj_DST_POS_X p q)
  let dy := g (F.proj_DST_POS_Y p q)
  let dw := g (F.proj_DST_SIZE_W p q)
  let dh := g (F.proj_DST_SIZE_H p q)
  if !(plateOn g p q) || !(decide (dx ≤ X) && decide (X < dx + dw) && decide (dy ≤ Y) && decide (Y < dy + dh)) then none
  else
    let sx := samplePoint (g (F.proj_SRC_POS_X p q)) dx X (g (F.proj_SRC_SIZE_W p q)) dw
    let sy := samplePoint (g (F.proj_SRC_POS_Y p q)) dy Y (g (F.proj_SRC_SIZE_H p q)) dh
    let ux : Int := 2 * dw
    let uy : Int := 2 * dh
    if g (F.proj_PSRC_FILTER p q) = 0 then sourcePixel h m p q ((sx + dw) / ux) ((sy + dh) / uy)
    else
      let lo (v : Nat) (c : Int) : Int := max (v : Int) c
      let x0 := g (F.proj_SRC_POS_X p q)
      let y0 := g (F.proj_SRC_POS_Y p q)
      let clampX (x : Int) : Int := min (lo x0 x) ((x0 + g (F.proj_SRC_SIZE_W p q) : Nat) - 1)
      let clampY (y : Int) : Int := min (lo y0 y) ((y0 + g (F.proj_SRC_SIZE_H p q) : Nat) - 1)
      let fx := sx / ux
      let fy := sy / uy
      let u := (sx % ux).toNat
      let v := (sy % uy).toNat
      let gx := if u = 0 then fx else fx + 1
      let gy := if v = 0 then fy else fy + 1
      match sourcePixel h m p q (clampX fx) (clampY fy), sourcePixel h m p q (clampX gx) (clampY fy),
            sourcePixel h m p q (clampX fx) (clampY gy), sourcePixel h m p q (clampX gx) (clampY gy) with
      | some a, some b, some c, some d =>
        let mix (k : Nat) : Nat := bilinear (component a k) (component b k) (component c k) (component d k) u (2 * dw) v (2 * dh)
        some (BitVec.ofNat 40 (mix 3 * 2 ^ 30 + mix 2 * 2 ^ 20 + mix 1 * 2 ^ 10 + mix 0))
      | _, _, _, _ => none

/-- One component over another with weight a (R286). -/
def blend (a pv bv : Nat) : Nat := (a * pv + (1023 - a) * bv + 511) / 1023

/-- BG_COLOR of the active copy. -/
def bgColor (h : Hub) (p : Nat) : BitVec 40 := BitVec.ofNat 40 (h.aget (F.proj_BG_LO_COLOR p) + 2 ^ 32 * h.aget (F.proj_BG_HI_COLOR p))

/-- The weight of a plate's pixel (R286). -/
def plateWeight (h : Hub) (p q : Nat) (v : BitVec 40) : Nat :=
  let ga := h.aget (F.proj_GALPHA_ALPHA p q)
  match h.aget (F.proj_PSRC_ALPHA_MODE p q) with
  | 0 => 1023
  | 1 => component v 3
  | 2 => ga
  | _ => (component v 3 * ga + 511) / 1023

/-- One plate over what lies below. -/
def overPlate (h : Hub) (m : Memory) (p X Y : Nat) (below : BitVec 40) (q : Nat) : BitVec 40 :=
  match plateSample h m p q X Y with
  | none => below
  | some v =>
    let a := plateWeight h p q v
    let c (k : Nat) : Nat := blend a (component v k) (component below k)
    BitVec.ofNat 40 (component below 3 * 2 ^ 30 + c 2 * 2 ^ 20 + c 1 * 2 ^ 10 + c 0)

/-- A composed pixel (R286). -/
def composed (h : Hub) (m : Memory) (p X Y : Nat) : BitVec 40 := (List.range 4).foldl (overPlate h m p X Y) (bgColor h p)

/-- A pixel as sent: BG_COLOR from the pixel of an underrun to the end of its line (R289). -/
def sentPixel (h : Hub) (m : Memory) (p X Y : Nat) : BitVec 40 :=
  match (h.head p).under.find? (fun u => u.1 == Y) with
  | some u => if u.2 ≤ X then bgColor h p else composed h m p X Y
  | none => composed h m p X Y

/-! ## The stream (R287, R296, R306) -/

/-- A 10-bit component as OUT.BPC sends it (R287): 8 bits by ties to even, 12 bits with the upper two repeated. What rounds to 256
no 8-bit component holds, and the spec states no value for it. -/
def outComponent (bpc v : Nat) : Nat :=
  match bpc with
  | 0 => let r := roundEven v 2; if r = 256 then (Config.freeRound8 v).toNat else r
  | 2 => v * 4 + v / 256
  | _ => v

/-- The pixels of a line as sent: R, G, B (R287). -/
def linePixels (h : Hub) (m : Memory) (p Y : Nat) : List (Nat × Nat × Nat) :=
  let bpc := h.fget (F.proj_OUT_BPC p)
  (List.range (h.aget (F.proj_TIMING_H_ACTIVE p))).map fun X =>
    let v := sentPixel h m p X Y
    (outComponent bpc (component v 2), outComponent bpc (component v 1), outComponent bpc (component v 0))

/-- The bytes of a line's stream packets: its pixels, or with DSC what the encoder makes of them and of the lines above (R297, R306).
The packing into bytes is DisplayPort's, the compression DSC's. R303 gives DSC for 8 and 10 bits alone; with BPC at 12 the hub encodes
the 12-bit components (DESIGN CHOICE, log 102). -/
def lineBytes (h : Hub) (m : Memory) (p Y : Nat) : Bytes :=
  let n := (h.aget (F.proj_TIMING_H_ACTIVE p) * streamBpp16 h p + 127) / 128
  let bpc := h.fget (F.proj_OUT_BPC p)
  if h.is (F.proj_DSC_EN p) then
    let rows := (List.range (Y + 1)).map (linePixels h m p)
    (List.range n).map (Config.dscEncode [streamBpp16 h p, 2 ^ h.fget (F.proj_DSC_SLICES p), bpc] rows)
  else (List.range n).map (Config.packPixels bpc (linePixels h m p Y))

/-- The head sends its stream: it runs and is not dark (R301), or has packets left of the line that it finishes (R279). -/
def headSends (h : Hub) (p : Nat) : Bool :=
  decide (p < 4) && !(h.is (F.proj_STATUS_DARK p)) && h.domOn (17 + p)
    && (headOn h p || (finishing h p && ((headPhase h p).1 != 1 || decide ((h.head p).line ≤ (headPhase h p).2))))

/-- The head's next stream packet: pixel bytes of one line, or in the vertical blank one of the packets of its MSA and SDPs (R296). -/
def headPacket (h : Hub) (m : Memory) (p : Nat) (blank : Bytes) : Hub × Bytes :=
  let x := h.head p
  if (headPhase h p).1 ≠ 1 ∨ h.aget (F.proj_TIMING_V_ACTIVE p) ≤ x.line then (h, blank)
  else
    let bs := lineBytes h m p x.line
    let last := decide (bs.length ≤ 256 * (x.packet + 1))
    (h.setHead p { x with line := if last then x.line + 1 else x.line, packet := if last then 0 else x.packet + 1 },
     (bs.drop (256 * x.packet)).take 256)

/-- The head's next packets, while it sends. -/
def headPackets (h : Hub) (m : Memory) (p : Nat) (blanks : List Bytes) : Hub × List Bytes :=
  blanks.foldl (fun r b => if headSends r.1 p then let q := headPacket r.1 m p b; (q.1, r.2 ++ [q.2]) else r) (h, [])

/-- OUT_SIG of a frame (R255, R292). -/
def outSig (h : Hub) (m : Memory) (p : Nat) : Nat :=
  let line (c : BitVec 32) (Y : Nat) : BitVec 32 :=
    (List.range (h.aget (F.proj_TIMING_H_ACTIVE p))).foldl (fun c X => crcBytes c (leBytes 5 (sentPixel h m p X Y).toNat)) c
  (~~~ ((List.range (h.aget (F.proj_TIMING_V_ACTIVE p))).foldl line crcStart)).toNat

/-- The blocks with errors that a head's plates read, and the blocks they move: each source line once. -/
def headReads (h : Hub) (p : Nat) : Hub :=
  (List.range 4).foldl (fun h q =>
    match plateSurface h p q with
    | none => h
    | some (base, pitch, fmt, _, _) =>
      let x := h.aget (F.proj_SRC_POS_X p q) * pixelBytes fmt
      let n := h.aget (F.proj_SRC_SIZE_W p q) * pixelBytes fmt
      let ys := (List.range (h.aget (F.proj_SRC_SIZE_H p q))).map (h.aget (F.proj_SRC_POS_Y p q) + ·)
      let hit (b : Nat) : Bool := ys.any fun y =>
        let a := base + y * pitch + x
        decide (a / 64 ≤ b) && decide (b ≤ (a + n - 1) / 64)
      let h := ((h.reelBad.map (·.1)).filter hit).foldl (noteRead Client.projector) h
      moved h (ys.length * ((n + 63) / 64))) h

/-! ## The end of a frame (R292, R294) -/

/-- A signature enters the queue; the oldest is overwritten when it is full. -/
def pushSig (h : Hub) (p sig : Nat) : Hub :=
  let x := h.head p
  let l := x.queue ++ [sig]
  let l := l.drop (l.length - 16)
  (h.setHead p { x with queue := l, lastSig := sig }).fset (F.proj_SIG_LEVEL_COUNT p) l.length

/-- The continuity check of a frame (R294). -/
def continuity (h : Hub) (p sig : Nat) : Hub :=
  if !(h.is (F.proj_CONT_STAT_ARMED p)) || !((h.head p).under.isEmpty) then h
  else if sig ≠ (h.head p).reference then (h.flag (F.proj_CONT_STAT_ARMED p) false).flag (F.proj_CONT_STAT_FROZEN p) false
  else
    let h := h.bump (F.proj_CONT_STAT_COUNT p) 1
    if h.fget (F.proj_CONT_STAT_COUNT p) = h.fget (F.proj_CONT_LIMIT p) then (h.flag (F.proj_CONT_STAT_FROZEN p) true).event (Page.proj p) 9
    else h

/-- The end of a frame's active lines. -/
def frameEnd (h : Hub) (m : Memory) (p : Nat) : Hub :=
  if !(headOn h p) || h.is (F.proj_STATUS_DARK p) || !(h.domOn (17 + p)) then h
  else
    let sig := outSig h m p
    let h := headReads h p
    continuity (pushSig (h.fset (F.proj_OUT_SIG_CRC p) sig) p sig) p sig

/-- A read of SIG_POP (R292): the oldest signature, or 0. -/
def sigPop (h : Hub) (p : Nat) : Hub × Nat :=
  match (h.head p).queue with
  | [] => (h, 0)
  | v :: t => ((h.setHead p { h.head p with queue := t }).fset (F.proj_SIG_LEVEL_COUNT p) t.length, v)

/-! ## Links toward monitors (R303–R306, R312) -/

/-- The governing limits of a port: rate code and lanes (R304), of a device port within the Alt Mode's pin assignment (R303). -/
def portLimits (h : Hub) (b : Nat) : Nat × Nat :=
  if 8 ≤ b then (min (h.fget (F.dpo_CTL_MAX_RATE (b - 8))) 6, lanesOf (h.fget (F.dpo_CTL_MAX_LANES (b - 8))))
  else
    let pins := if h.fget (F.link_LINK_STATUS_MODE (4 + b)) = 0xD then 2 else 4
    match linkMaster h b with
    | some p => (min (h.fget (F.proj_LINK_CTL_MAX_RATE p)) 6, min pins (lanesOf (h.fget (F.proj_LINK_CTL_MAX_LANES p))))
    | none => (6, pins)

/-- The capacity of a device port in DP Alt Mode follows its trained lanes (R74, R75), and in mode 0xD its USB 3.2 link, which
carries nothing while it trains or is down (R78). -/
def noteAltCap (h : Hub) (b : Nat) : Hub :=
  let m := h.fget (F.link_LINK_STATUS_MODE (4 + b))
  let p := portP h b
  let u := if m = 0xD ∧ linkUp h (4 + b) then 295 else 0
  if dpMode m then (h.fset (F.link_CAP_CAP_TX (4 + b)) (p + u)).fset (F.link_CAP_CAP_RX (4 + b)) u else h

/-- The registers of a DPO follow its transmitter. -/
def noteDpo (h : Hub) (b : Nat) : Hub :=
  if b < 8 then noteAltCap h b
  else
    let o := b - 8
    let x := h.dpPort b
    let h := ((h.flag (F.dpo_STATUS_LINK_UP o) x.trained).fset (F.dpo_STATUS_RATE o) x.rate).fset (F.dpo_STATUS_LANES o) x.lanes
    ((h.flag (F.dpo_STATUS_MST_SINK o) x.caps.mst).flag (F.dpo_STATUS_DSC_SINK o) x.caps.dsc).flag (F.dpo_STATUS_AS_SINK o) x.caps.adaptive

/-- The DP lanes of a port stop: loss of HPD, a failed training or the start of a new one (R75). -/
def dpStop (h : Hub) (b : Nat) (training : Bool) : Hub :=
  let x := h.dpPort b
  let h := if x.trained ∧ 8 ≤ b then h.event (Page.dpo (b - 8)) 2 else h
  settleDisplay (noteDpo (h.setDpPort b { x with trained := false, rate := 0, lanes := 0, training := training }) b)

/-- Someone trains the port: the host whose DP OUT adapter holds it, or the hub for an enabled head of which it is eligible (R298,
R304). -/
def dpWanted (h : Hub) (b : Nat) : Bool := (holderOf h (portUnit b)).isSome || !(headsAt h b).isEmpty

/-- A training ends (R304): the rate and the lanes it reached, within the sink's capabilities and the governing limits, or a failure; of
a trained port that trained again, the failure loses the link (R313). -/
def dpTrained (h : Hub) (b : Nat) (ok : Bool) (rate lanes : Nat) (caps : SinkCaps) (ms : Nat) : Hub :=
  if 8 ≤ b ∧ !(h.listens (33 + (b - 8))) then wake h (33 + (b - 8))
  else if !(dpTrainable h b) || !(dpWanted h b) then h
  else
    let (mr, ml) := portLimits h b
    let x := h.dpPort b
    let h := if 8 ≤ b then
        let o := b - 8
        let h := h.fset (F.dpo_TRAIN_TIME_MS o) (min ms 0xFFFF)
        let h := if x.before then h.bump (F.dpo_ERR_RETRAINS o) 1 else h
        let h := if x.trained && !ok then h.event (Page.dpo o) 2 else h
        h.event (Page.dpo o) (if ok then 1 else 4)
      else h
    let x : DpPort := { x with
      trained := ok, rate := if ok then min (min rate mr) caps.maxRate else 0, lanes := if ok then min (min lanes ml) caps.maxLanes else 0
      before := true, training := false, caps := caps }
    settleDisplay (noteDpo (h.setDpPort b x) b)

/-- An HPD IRQ; a reported loss of lock starts a retraining of the port of an enabled head (R304). -/
def hpdIrq (h : Hub) (b : Nat) (lost : Bool) : Hub :=
  let h := if 8 ≤ b ∧ h.is (F.dpo_CTL_EN (b - 8)) then (h.bump (F.dpo_ERR_HPD_IRQ (b - 8)) 1).event (Page.dpo (b - 8)) 3 else h
  if lost && !(headsAt h b).isEmpty && dpTrainable h b then dpStop h b true else h

/-- PROJ.LINK_CTL.RETRAIN: the device ports the head masters train again; with none the bit returns to 0 at once. -/
def projRetrain (h : Hub) (p : Nat) : Hub :=
  let bs := (List.range 8).filter fun b => linkMaster h b == some p && portEligible h p b && dpTrainable h b
  if bs.isEmpty then h else bs.foldl (fun h b => dpStop h b true) (h.flag (F.proj_LINK_CTL_RETRAIN p) true)

/-- DPO.CTL.RETRAIN in retained use. -/
def dpoRetrain (h : Hub) (o : Nat) : Hub :=
  if h.fget (F.dpo_STATUS_MODE o) = 2 ∧ dpTrainable h (8 + o) then dpStop (h.flag (F.dpo_CTL_RETRAIN o) true) (8 + o) true else h

/-- A DPO has no sink any more. -/
def dpoGone (h : Hub) (o : Nat) : Hub := dpStop (h.setDpPort (8 + o) { h.dpPort (8 + o) with caps := dpPort0.caps }) (8 + o) false

/-- The HPD ball of a DPO has a level (R86, R312); the domain wakes on a rise (R512). With CTL.EN = 0 nothing but the level is noted. -/
def dpoHpd (h : Hub) (o : Nat) (high : Bool) : Hub :=
  let x := h.dpPort (8 + o)
  let h := h.setDpPort (8 + o) { x with hpd := high }
  if x.hpd = high ∨ !(h.is (F.dpo_CTL_EN o)) then h
  else
    let h := h.event (Page.dpo o) 0
    if high then settleDisplay (enforceFloor (wake h (33 + o)) (33 + o)) else dpoGone h o

/-- A write of DPO.CTL: with EN = 0 the PHY is off and no sink is there (R312). -/
def dpoWritten (h : Hub) (o : Nat) : Hub :=
  if h.is (F.dpo_CTL_EN o) then settleDisplay (enforceFloor h (33 + o)) else dpoGone h o

/-- A block or domain reset of a Projector or of a DPO. A head that stays enabled starts anew. -/
def projReset (h : Hub) (p : Nat) : Hub :=
  settleDisplay (noteLatched ((dropHeld h (· == .head p)).setHead p { head0 with rank := (h.head p).rank, vblankAt := h.time }))

def dpoReset (h : Hub) (o : Nat) : Hub :=
  settleDisplay (noteDpo (h.setDpPort (8 + o) { dpPort0 with hpd := (h.dpPort (8 + o)).hpd }) (8 + o))

end Sys2Proof.Machine
end

