-- ==== Sys2Proof/Machine/Penstock.lean ====
section
/-! DEFINITION. Penstock beside the window itself: the posted-write log, the record of non-posted errors, calm ranges,
and the outbound queues toward the hosts (R353–R376). -/

namespace Sys2Proof.Machine

/-- The REQ code of a requester (R366). -/
def reqCode : Req → Nat
  | .slice s => s.val
  | .miller c => 4 + c.val
  | .bmc => 8
  | .jtag => 9

/-- What function 0 of a slice's endpoint reports and supports (R346). -/
structure Function0 where
  vendor : Nat
  device : Nat
  classCode : Nat
  maxPayload : List Nat
  tag10Completer : Bool
  msixVectors : Nat
  flr : Bool
  ioBar : Bool
  expansionRom : Bool
  ats : Bool
  deriving DecidableEq, Repr

def function0 (h : Hub) : Function0 :=
  { vendor := h.otp.fn0Vendor, device := h.otp.fn0Device, classCode := 0x088000, maxPayload := [128, 256, 512], tag10Completer := true
    msixVectors := 32, flr := true, ioBar := false, expansionRom := false, ats := false }

/-- The CAUSE codes of R365. -/
def Cause.absent : Nat := 1
def Cause.owner : Nat := 2
def Cause.size : Nat := 3
def Cause.wake : Nat := 4
def Cause.reel : Nat := 5
def Cause.internal : Nat := 6

/-- A dropped or failed posted write enters the log, or overflows it; PWERR rises in any case (R364). -/
def logWrite (h : Hub) (req addr size cause : Nat) (reel : Bool) : Hub :=
  let h := h.event Page.pstk 0
  let n := h.fget F.pstk_LOG_CTL_COUNT
  if 16 ≤ n then (h.flag F.pstk_STAT_LOG_OVERFLOW true).bump F.pstk_LOG_LOST_COUNT 1
  else
    let h := (h.fset F.pstk_LOG_CTL_COUNT (n + 1)).fset (F.pstk_LOG_ADDR_ADDR n) addr
    let h := ((h.fset (F.pstk_LOG_INFO_CAUSE n) cause).flag (F.pstk_LOG_INFO_WINDOW n) reel).fset (F.pstk_LOG_INFO_REQ n) req
    let h := h.fset (F.pstk_LOG_INFO_SIZE n) size
    (h.fset (F.pstk_LOG_TIME_LO_TICKS n) (h.ftime % 2 ^ 32)).fset (F.pstk_LOG_TIME_HI_TICKS n) (h.ftime / 2 ^ 32)

/-- LOG_CTL.CLEAR empties the log (R364). -/
def logClear (h : Hub) : Hub := clearRange h (Page.pstk + 0x200) (Page.pstk + 0x300) [.n] |>.fset F.pstk_LOG_CTL_COUNT 0

/-- A non-posted access that ends in an error of R357 is counted and recorded. -/
def npError (h : Hub) (req addr cause : Nat) (reel : Bool) : Hub :=
  let h := (h.bump F.pstk_NP_ERR_COUNT 1).fset F.pstk_NP_LAST_ADDR_ADDR addr
  (((h.fset F.pstk_NP_LAST_CAUSE cause).flag F.pstk_NP_LAST_WINDOW reel).fset F.pstk_NP_LAST_REQ req).event Page.pstk 9

def absentAccess (h : Hub) : Hub := h.bump F.pstk_ABSENT_ACCESS_COUNT 1

def ownerFault (h : Hub) : Hub := h.bump F.pstk_OWNER_FAULT_COUNT 1

/-! ## Calm ranges (R358–R361) -/

/-- An address lies in an enabled calm range of a window, with the end of that range. -/
def calmEnd (h : Hub) (reel : Bool) (lo hi : Nat) : Option Nat :=
  ((List.range 16).find? fun k => h.is (F.pstk_CALM_CTL_EN k) && h.is (F.pstk_CALM_CTL_WINDOW k) == reel
      && decide (64 * h.fget (F.pstk_CALM_BASE_BASE k) ≤ lo) && decide (hi ≤ 64 * h.fget (F.pstk_CALM_LIMIT_LIMIT k) + 64)).map
    fun k => 64 * h.fget (F.pstk_CALM_LIMIT_LIMIT k) + 64

/-- A range covers an RS zone of a present page (R361). -/
def calmConflict (h : Hub) (k : Nat) : Bool :=
  h.is (F.pstk_CALM_CTL_EN k) && !(h.is (F.pstk_CALM_CTL_WINDOW k)) &&
    let lo := 64 * h.fget (F.pstk_CALM_BASE_BASE k)
    let hi := 64 * h.fget (F.pstk_CALM_LIMIT_LIMIT k) + 64
    h.fget (F.pstk_CALM_BASE_BASE k) ≤ h.fget (F.pstk_CALM_LIMIT_LIMIT k) && allPages.any fun q => q.1.rsZone && h.present q.1 q.2.1 && decide (lo < q.2.2 + 0x1000) && decide (q.2.2 + 0xF00 < hi)

/-- CONFLICT follows a change of a range. -/
def calmWritten (h : Hub) (k : Nat) : Hub :=
  let c := calmConflict h k
  let h := h.flag (F.pstk_CALM_CTL_CONFLICT k) c
  if c then (h.flag F.pstk_STAT_CALM_CONFLICT true).event Page.pstk 8 else h

/-! ## Outbound traffic (R367–R375) -/

def pen0 : PenSt := ⟨[], [], [], []⟩

def Hub.penSt (h : Hub) (s : Nat) : PenSt := Tbl.get (fun _ => pen0) h.pen s

def Hub.setPen (h : Hub) (s : Nat) (x : PenSt) : Hub := { h with pen := Tbl.put (fun _ => pen0) h.pen s x }

def OutTlp.posted : OutTlp → Bool
  | .write .. | .msix .. => true
  | .read .. | .completion .. => false

def OutTlp.isRead : OutTlp → Bool
  | .read .. => true
  | .write .. | .msix .. | .completion .. => false

def OutTlp.isCompletion : OutTlp → Bool
  | .completion .. => true
  | .write .. | .msix .. | .read .. => false

/-- The function whose master sent it; a completion has none. -/
def OutTlp.func : OutTlp → Nat
  | .write f _ _ => f
  | .read f _ _ => f
  | .msix .. => 0
  | .completion .. => 2

/-- An access of a slice's host through its management endpoint. -/
def ofHost (s : Nat) (a : Access) : Bool := !a.dock && (match a.req with | .slice t => t.val == s | _ => false)

/-- A slice's inbound non-posted queue holds a request without completion: internal masters wait (R372). -/
def hostReadWaits (h : Hub) (s : Nat) : Bool := h.stalled.any fun a => !a.write && ofHost s a

/-- Bytes of the posted writes of a slice's host that Penstock holds. -/
def postedBytes (h : Hub) (s : Nat) : Nat := ((h.stalled.filter fun a => a.write && ofHost s a).map (·.size)).sum

/-- A slice's inbound queue has no room for an access (R367): 64 TLPs and 32 KiB of posted writes, 32 reads. Its management endpoint
advertises no credit for it (R368). -/
def noInbound (h : Hub) (a : Access) : Bool :=
  match a.req with
  | .slice t =>
    let s := t.val
    let held := (h.stalled.filter fun e => e.write == a.write && ofHost s e).length
    !a.dock && (if a.write then decide (64 ≤ held) || decide (32768 < postedBytes h s + a.size) else decide (32 ≤ held))
  | _ => false

/-- The completions that bring the parts of an answer, each with its address and EP bit: of at most 512 B, a poisoned part in one of its
own (R350, R353). -/
def completionsOf : List (Nat × Bytes × Bool) → List OutTlp
  | [] => []
  | (a, bs, ep) :: t =>
    match completionsOf t with
    | .completion b cs false :: r =>
      if !ep && decide (bs.length + cs.length ≤ 512) then .completion a (bs ++ cs) false :: r
      else .completion a bs ep :: .completion b cs false :: r
    | r => .completion a bs ep :: r

/-- The completions of a host's read enter the slice's outbound traffic behind what was queued before them (R370). -/
def queueCompletion (h : Hub) (a : Access) (parts : List (Nat × Bytes × Bool)) : Hub :=
  match a.req with
  | .slice t =>
    if a.dock then h
    else h.setPen t.val { h.penSt t.val with outq := (h.penSt t.val).outq ++ completionsOf parts }
  | _ => h

/-- The outbound completion buffer of 32 takes the answer to a host's read (R367); it takes any answer while it is empty. -/
def completionRoom (h : Hub) (a : Access) (n : Nat) : Bool :=
  match a.req with
  | .slice t =>
    let held := ((h.penSt t.val).outq.filter (·.isCompletion)).length
    a.dock || a.write || held == 0 || decide (held + n ≤ 32)
  | _ => true

/-- A ring wrote back: its interrupt bit, at most once per ITR µs (R325). -/
def ringInterrupt (h : Hub) (s r : Nat) : Hub :=
  let k := 8 * s + r
  if h.net.itrRuns.testBit k then { h with net := { h.net with itrDue := withBit h.net.itrDue k true } }
  else
    let h := h.putBit (F.nic_INT_STAT_RING s) r true
    if h.fget (F.nic_ITR_US s) = 0 then h else { h with net := { h.net with itrRuns := withBit h.net.itrRuns k true } }

/-- Waiting posted TLPs enter a slice's outbound queue, of 32 (R367), unless a host's read waits (R372); an interrupt follows only then its
write-back (R375). -/
def admitOut (h : Hub) (s : Nat) : Hub :=
  let x := h.penSt s
  let room := 32 - (x.outq.filter (·.posted)).length
  if hostReadWaits h s || x.blocked.isEmpty then h
  else
    let go := x.blocked.take room
    let h := h.setPen s { x with outq := x.outq ++ go.map (·.1), blocked := x.blocked.drop room }
    (go.filterMap (·.2)).foldl (fun h r => ringInterrupt h s r) h

/-- The k-th of the outstanding reads has left: those still in the queue are the last ones. -/
def readSent (x : PenSt) (k : Nat) : Bool := decide (k + (x.outq.filter (·.isRead)).length < x.reads.length)

/-- Completion space reserved (R373). -/
def reserved (x : PenSt) : Nat := (x.reads.map fun r => (r.len - r.got.length + 63) / 64 * 64).sum

/-- A posted TLP of a function's master, for a ring whose write-back it is; what the queue does not take waits in its block (R367,
R372). -/
def sendPosted (h : Hub) (s func addr : Nat) (bytes : Bytes) (ring : Option Nat) : Hub :=
  let h := if hostReadWaits h s then h.bump F.pstk_YIELDS_COUNT 1 else h
  let x := h.penSt s
  admitOut (h.setPen s { x with blocked := x.blocked ++ [(.write func addr bytes, ring)] }) s

/-- Data goes to host memory in TLPs of at most 256 bytes (assumption log 24); `fuel` is the number of bytes. -/
def sendData (h : Hub) (s func addr : Nat) (bytes : Bytes) : Nat → Hub
  | 0 => h
  | fuel + 1 =>
    if bytes.isEmpty then h
    else sendData (sendPosted h s func addr (bytes.take 256) none) s func (addr + 256) (bytes.drop 256) fuel

/-- The oldest outbound TLP enters ingress 22 (R370). -/
def popOutbound (h : Hub) (s : Nat) : Hub :=
  let x := h.penSt s
  match x.outq with
  | [] => h
  | t :: l => (admitOut (h.setPen s { x with outq := l }) s).emit (.tlp s t)

/-- An FLR discards the outbound requests of its function (R347, R376). -/
def dropOutbound (h : Hub) (s : Nat) (func : Nat) : Hub :=
  let x := h.penSt s
  h.setPen s { x with outq := x.outq.filter (·.func != func), blocked := x.blocked.filter (·.1.func != func)
                      reads := if func = 1 then [] else x.reads }

/-- The requests of a slice that Penstock has not yet performed are discarded (R347). -/
def dropInbound (h : Hub) (s : Nat) : Hub :=
  { h with stalled := h.stalled.filter fun a => match a.req with | .slice t => t.val != s | _ => true }

/-- FLR of function 0 (R347): its MSI-X table goes back to its reset values, and messages that wait are gone (assumption log 97). -/
def flr0 (h : Hub) (s : Nat) : Hub :=
  let h := dropOutbound (dropInbound h s) s 0
  let h := clearRange h (Page.msix s) (Page.msix s + 0x10000) [.n]
  let h := { h with cue := { h.cue with waiting := Tbl.put (fun _ => []) h.cue.waiting s [] } }
  h.setPen s { h.penSt s with streams := [] }

end Sys2Proof.Machine
end

