-- ==== Sys2Proof/Machine/Network.lean ====
section
/-! DEFINITION. Ethernet frames and their FCS, the MACs, the Tailrace switch, the NIC functions, pause, and the PCIe
storage ports (R314–R344). -/

namespace Sys2Proof.Machine

/-! ## Frames -/

/-- The number that bytes spell, the first byte the most significant. -/
def beNat (bs : Bytes) : Nat := bs.foldl (fun n b => 256 * n + b.toNat) 0

def beBytes (n v : Nat) : Bytes := (leBytes n v).reverse

/-- The FCS of a frame: the complement of the CRC of R255, its low byte first. -/
def fcs (bs : Bytes) : Bytes := leBytes 4 (~~~(crcBytes crcStart bs)).toNat

def withFcs (bs : Bytes) : Bytes := bs ++ fcs bs

/-- A frame without its last four bytes. -/
def noFcs (bs : Bytes) : Bytes := bs.take (bs.length - 4)

def fcsOk (bs : Bytes) : Bool := bs.drop (bs.length - 4) == fcs (noFcs bs)

/-- Bytes 12 to 15 hold an 802.1Q tag (R314). -/
def tagged (bs : Bytes) : Bool := beNat ((bs.drop 12).take 2) == 0x8100

/-- TCI of a tagged frame: PCP in bits 15–13, DEI in bit 12, VID in bits 11–0. -/
def tciOf (bs : Bytes) : Nat := beNat ((bs.drop 14).take 2)

def addTag (bs : Bytes) (tci : Nat) : Bytes := withFcs (bs.take 12 ++ beBytes 2 0x8100 ++ beBytes 2 tci ++ (noFcs bs).drop 12)

def setTci (bs : Bytes) (tci : Nat) : Bytes := withFcs (bs.take 14 ++ beBytes 2 tci ++ (noFcs bs).drop 16)

/-- A frame without its tag; its FCS is made anew. -/
def stripTag (bs : Bytes) : Bytes := withFcs (bs.take 12 ++ (noFcs bs).drop 16)

/-- A frame as packets of at most 256 bytes; `fuel` is its length. -/
def splitPackets (bs : Bytes) : Nat → List Bytes
  | 0 => []
  | fuel + 1 => if bs.isEmpty then [] else bs.take 256 :: splitPackets (bs.drop 256) fuel

def packetsOf (bs : Bytes) : List Bytes := splitPackets bs bs.length

def packetCount (n : Nat) : Nat := (n + 255) / 256

/-! ## PVID and the VLAN table (R316, R318, R338, R341) -/

/-- A switch port is present (R338). -/
def portPresent (h : Hub) (p : Nat) : Bool :=
  match p with
  | 0 | 1 => h.present .ethmac p
  | 2 | 3 => h.present .leat (p - 2)
  | _ => decide (p < 8) && h.present .slice (p - 4)

/-- PVID of a port: 0 and 4,095 act as 1. -/
def pvidOf (h : Hub) (p : Nat) : Nat :=
  let v := h.fget (F.tailrace_PVID_VID p)
  if v = 0 ∨ v = 4095 then 1 else v

def portPcp (h : Hub) (p : Nat) : Nat := h.fget (F.tailrace_PVID_PCP p)

/-- VLAN_DATA after reset (R341). -/
def vlanReset (vid : Nat) : Nat := if vid = 1 then 0x8000FFFF else 0

def vlanOf (h : Hub) (vid : Nat) : Nat := Tbl.get vlanReset h.net.vlans vid

def setVlan (h : Hub) (vid v : Nat) : Hub :=
  { h with net := { h.net with vlans := Tbl.put vlanReset h.net.vlans vid (v &&& 0x803FFFFF) } }

def vlanMembers (h : Hub) (vid : Nat) : List Nat := (List.range 8).filter fun p => (vlanOf h vid).testBit p && portPresent h p

def vlanUntags (h : Hub) (vid p : Nat) : Bool := (vlanOf h vid).testBit (8 + p)

def vlanGroup (h : Hub) (vid : Nat) : Nat := vlanOf h vid / 2 ^ 16 % 64

def vlanValid (h : Hub) (vid : Nat) : Bool := (vlanOf h vid).testBit 31

/-! ## The forwarding database (R319, R341) -/

def fdbAt (h : Hub) (i : Nat) : Option FdbEntry := Tbl.get (fun _ => none) h.net.fdb i

def setFdb (h : Hub) (i : Nat) (e : Option FdbEntry) : Hub :=
  { h with net := { h.net with fdb := Tbl.put (fun _ => none) h.net.fdb i e } }

/-- The entry of a VID and an address. -/
def fdbFind (h : Hub) (vid mac : Nat) : Option (Nat × FdbEntry) :=
  h.net.fdb.findSome? fun (i, e) => match e with
    | some x => if x.vid == vid && x.mac == mac then some (i, x) else none
    | none => none

/-- Learning (R318, R319). -/
def fdbLearn (h : Hub) (vid mac port : Nat) : Hub :=
  match fdbFind h vid mac with
  | some (i, e) => if e.fixed then h else setFdb h i (some { e with port := port })
  | none =>
    match (Config.freeFdbSet mac vid).find? fun i => decide (i < 4096) && (fdbAt h i).isNone with
    | some i => setFdb h i (some { mac := mac, vid := vid, port := port, fixed := false })
    | none => (h.bump F.tailrace_DROPS_LEARN_FULL 1).event Page.tailrace 0

/-- A dynamic entry has gone unseen for AGE seconds (R319). -/
def ageOut (h : Hub) (i : Nat) : Hub :=
  match fdbAt h i with
  | some e => if e.fixed || h.fget F.tailrace_AGE_SECONDS == 0 then h else setFdb h i none
  | none => h

/-- An operation of FDB_CMD, which ends at once and reads 0 (R341). -/
def fdbCommand (h : Hub) : Hub :=
  let op := h.fget F.tailrace_FDB_CMD_OP
  let i := h.fget F.tailrace_FDB_CMD_INDEX
  let h := h.fset F.tailrace_FDB_CMD_OP 0
  match op with
  | 1 =>
    let e := (fdbAt h i).getD ⟨0, 0, 0, false⟩
    let h := (h.fset F.tailrace_FDB_MAC_LO_ADDR e.mac).fset F.tailrace_FDB_KEY_ADDR (e.mac / 2 ^ 32)
    let h := (h.fset F.tailrace_FDB_KEY_VID e.vid).fset F.tailrace_FDB_KEY_PORT e.port
    (h.flag F.tailrace_FDB_KEY_VALID (fdbAt h i).isSome).flag F.tailrace_FDB_CMD_STATIC e.fixed
  | 2 =>
    let p := h.fget F.tailrace_FDB_KEY_PORT
    if !(portPresent h p) then h.event Page.tailrace 2
    else if h.is F.tailrace_FDB_KEY_VALID then
      setFdb h i (some { mac := h.fget F.tailrace_FDB_MAC_LO_ADDR + 2 ^ 32 * h.fget F.tailrace_FDB_KEY_ADDR,
                         vid := h.fget F.tailrace_FDB_KEY_VID, port := p, fixed := h.is F.tailrace_FDB_CMD_STATIC })
    else setFdb h i none
  | 3 => setFdb h i none
  | 4 => { h with net := { h.net with fdb := h.net.fdb.filter fun (_, e) => match e with | some x => x.fixed | none => false } }
  | _ => h

/-! ## Pause and PFC (R326–R328) -/

/-- The classes that a MAC's partner pauses at its outlet (R328). -/
def settlePause (h : Hub) (e : Nat) : Hub :=
  let rx := h.fget (F.ethmac_STATUS_RX_PAUSED e)
  let m := if !(h.is (F.ethmac_PFC_CTL_HONOUR e)) then 0
    else if h.net.pauseAll.testBit e then 0xFF
    else (List.range 8).foldl (fun m p => if rx.testBit p then m ||| 2 ^ h.fget (F.tailrace_PCP_CLASS_CLASS p) else m) 0
  refreshOutlet (h.setOutlet (14 + e) { h.outlet (14 + e) with paused := m }) (14 + e)

/-- A pause frame arrives: PFC with the priorities it stops and starts, or 802.3x (R328). -/
def pauseReceived (h : Hub) (e : Nat) (pfc : Bool) (xoff xon : Nat) : Hub :=
  let h := (h.bump (F.ethmac_PAUSE_CNT_RX e) 1).event (Page.ethmac e) 3
  if !(h.is (F.ethmac_PFC_CTL_HONOUR e)) then h
  else
    let old := h.fget (F.ethmac_STATUS_RX_PAUSED e)
    let new := if pfc then (List.range 8).foldl (fun m p => withBit m p ((old.testBit p || xoff.testBit p) && !(xon.testBit p))) 0
      else if xoff != 0 then 0xFF else 0
    let all := if pfc then h.net.pauseAll else withBit h.net.pauseAll e (xoff != 0)
    settlePause { h.fset (F.ethmac_STATUS_RX_PAUSED e) new with net := { h.net with pauseAll := all } } e

/-- The pause time of a priority, or of an 802.3x pause, ends (R328). -/
def pauseExpiry (h : Hub) (e : Nat) (prio : Option Nat) : Hub :=
  match prio with
  | some p => settlePause (if h.net.pauseAll.testBit e then h else h.putBit (F.ethmac_STATUS_RX_PAUSED e) (p % 8) false) e
  | none =>
    if h.net.pauseAll.testBit e then
      settlePause { h.fset (F.ethmac_STATUS_RX_PAUSED e) 0 with net := { h.net with pauseAll := withBit h.net.pauseAll e false } } e
    else h

/-- The PCP that a frame at ingress 14 + e came with: of a tagged one its own, whatever its VID (DEDUCED, log 103), else the hop number
that it took from PVID. -/
def rxPcp (c : Chain) : Nat :=
  match c.cells with
  | x :: _ => if tagged x.bytes then tciOf x.bytes / 8192 else c.hop
  | [] => c.hop

/-- Cells of frames received at MAC e with PCP p that the hub holds (R326); a copy handed to a NIC counts as departed (DESIGN CHOICE, log 103). -/
def heldCells (h : Hub) (e p : Nat) : Nat :=
  ((h.chains.filter fun c => (c.ingress == 14 + e && rxPcp c == p) || (c.ingress == 21 && c.entryPort == e && c.hop % 8 == p)).map
      (·.cells.length)).sum
  + ((h.net.queue.filter fun f => f.inPort == e && (if tagged f.bytes then tciOf f.bytes / 8192 else portPcp h e) == p).map
      fun f => packetCount f.bytes.length).sum
  + (((h.forebay 21).chains.filter fun c => c.entryPort == e && c.hop % 8 == p).map (·.packets.length)).sum

/-- The cells have fallen to XON; a THRESH.XON at or above XOFF acts as XOFF − 1 (R326), which no count reaches for an XOFF of 0. -/
def xonReached (h : Hub) (e q : Nat) : Bool :=
  let off := h.fget (F.ethmac_THRESH_XOFF e)
  let on := h.fget (F.ethmac_THRESH_XON e)
  if off ≤ on then decide (q < off) else decide (q ≤ on)

/-- A pause frame is sent (R326, R327). -/
def sendPause (h : Hub) (e : Nat) (pfc : Bool) (prios : Nat) (xoff : Bool) : Hub :=
  let h := (h.bump (F.ethmac_PAUSE_CNT_TX e) 1).emit (.pause e pfc prios xoff)
  if xoff then h.event (Page.ethmac e) 2 else h

/-- Priority p under PFC. -/
def settlePfc (e : Nat) (h : Hub) (p : Nat) : Hub :=
  let held := (h.fget (F.ethmac_STATUS_XOFF_HELD e)).testBit p
  let q := heldCells h e p
  if !((h.fget (F.ethmac_PFC_CTL_NODROP e)).testBit p) then h.putBit (F.ethmac_STATUS_XOFF_HELD e) p false
  else if !held && decide (h.fget (F.ethmac_THRESH_XOFF e) ≤ q) then
    sendPause (h.putBit (F.ethmac_STATUS_XOFF_HELD e) p true) e true (2 ^ p) true
  else if held && xonReached h e q then
    sendPause (h.putBit (F.ethmac_STATUS_XOFF_HELD e) p false) e true (2 ^ p) false
  else h

/-- XOFF and XON follow what the hub holds (R326). A MAC without a link sends none and holds none, and a priority or a mode that
firmware takes away in mid-pause is dropped without an XON: the partner's own pause time ends it (DESIGN CHOICE, log 103). -/
def settleXoff (h : Hub) (e : Nat) : Hub :=
  let nodrop := h.fget (F.ethmac_PFC_CTL_NODROP e)
  if !(h.is (F.ethmac_STATUS_LINK_UP e)) then h.fset (F.ethmac_STATUS_XOFF_HELD e) 0
  else match h.fget (F.ethmac_PFC_CTL_MODE e) with
  | 2 => (List.range 8).foldl (settlePfc e) h
  | 1 =>
    let held := h.fget (F.ethmac_STATUS_XOFF_HELD e) != 0
    let q := (((List.range 8).filter nodrop.testBit).map (heldCells h e)).sum
    if !held && nodrop != 0 && decide (h.fget (F.ethmac_THRESH_XOFF e) ≤ q) then
      sendPause (h.fset (F.ethmac_STATUS_XOFF_HELD e) nodrop) e false nodrop true
    else if held && xonReached h e q then
      sendPause (h.fset (F.ethmac_STATUS_XOFF_HELD e) 0) e false nodrop false
    else h
  | _ => h.fset (F.ethmac_STATUS_XOFF_HELD e) 0

def settleXoffs (h : Hub) : Hub := settleXoff (settleXoff h 0) 1

/-- Half of the sent quanta has elapsed (R327). -/
def xoffRepeat (h : Hub) (e : Nat) : Hub :=
  let held := h.fget (F.ethmac_STATUS_XOFF_HELD e)
  if held = 0 then h else sendPause h e (h.fget (F.ethmac_PFC_CTL_MODE e) == 2) held true

/-! ## The MACs (R315, R316, R342) -/

def maxFrame (h : Hub) (e : Nat) : Nat := min 9216 (max 64 (h.fget (F.ethmac_MAX_FRAME_BYTES e)))

/-- The last chain of a Forebay turns out bad after its first packet was written (R139). -/
def lastBad (h : Hub) (i : Nat) : Hub :=
  let f := h.forebay i
  match f.chains.getLast? with
  | none => h
  | some c => h.setForebay i { f with chains := f.chains.dropLast ++ [{ c with bad := true }] }

/-- The hop number of a received frame (R316). -/
def framePcp (h : Hub) (e : Nat) (bs : Bytes) : Nat :=
  if tagged bs && tciOf bs % 4096 != 0 then tciOf bs / 8192 else portPcp h e

/-- A MAC receives a frame, FCS included; `late` says that its first packet is written before the FCS comes (R315, R139). -/
def ethReceive (h : Hub) (e : Nat) (bs : Bytes) (late : Bool) : Hub :=
  let n := if tagged bs then bs.length else bs.length + 4
  if !(h.present .ethmac e) || !(h.is (F.ethmac_CTL_EN e)) || !(h.is (F.ethmac_STATUS_LINK_UP e)) then h
  else if n < 64 ∨ maxFrame h e < n then (h.bump (F.ethmac_ERR_LENGTH e) 1).event (Page.ethmac e) 4
  else
    let ok := fcsOk bs
    let h := if ok then h else (h.bump (F.ethmac_ERR_FCS e) 1).event (Page.ethmac e) 4
    if !ok && !late then h
    else
      let dei := if tagged bs && (tciOf bs).testBit 12 then 1 else 0
      let h := h.pbump (F.ethmac_RX_FRAMES_LO_COUNT e) 1
      let before := (h.forebay (14 + e)).chains.length
      let h := chainArrival h (14 + e) (framePcp h e bs) (packetsOf bs) true false dei none e
      if ok || (h.forebay (14 + e)).chains.length == before then h else lastBad h (14 + e)

/-- The rate of a link: by the mode, and with USXGMII by the PHY's word (R314). -/
def macSpeed (h : Hub) (e phy : Nat) : Nat :=
  match h.fget (F.ethmac_CTL_MODE e) with
  | 0 => 6
  | 2 => if 1 ≤ phy ∧ phy ≤ 5 then phy else 5
  | _ => 5

def heldEth (e : Nat) (x : HeldStart) : Bool :=
  match x with
  | .eth k _ => k == e
  | _ => false

/-- A MAC's link comes up; 25GBASE-R waits for its island (R519). -/
def ethUp (h : Hub) (e phy : Nat) : Hub :=
  if h.present .ethmac e && !(h.listens 35) then wake h 35
  else if !(h.present .ethmac e) || !(h.is (F.ethmac_CTL_EN e)) || (busPowered h && h.fget (F.ethmac_CTL_MODE e) == 0) then h
  else
    let h := dropHeld h (heldEth e)
    let h := if macSpeed h e phy = 6 then holdStart h 3 (.eth e phy) else h
    if lowNow h 3 && macSpeed h e phy == 6 then h
    else
      let h := dropHeld h (heldEth e)
      let h := settleXoff (((h.flag (F.ethmac_STATUS_LINK_UP e) true).fset (F.ethmac_STATUS_SPEED e) (macSpeed h e phy)).event (Page.ethmac e) 0) e
      dvfsSettle (wake (enforceFloor (capBack h) 3) 35)

def ethDown (h : Hub) (e : Nat) : Hub :=
  let h := dropHeld h (heldEth e)
  if h.is (F.ethmac_STATUS_LINK_UP e) then
    dvfsSettle (settleXoff (((h.flag (F.ethmac_STATUS_LINK_UP e) false).fset (F.ethmac_STATUS_SPEED e) 0).event (Page.ethmac e) 1) e)
  else h

/-- A frame's last four bytes, its FCS, inverted (R137). -/
def invertFcs (bs : Bytes) : Bytes := bs.take (bs.length - 4) ++ (bs.drop (bs.length - 4)).map (~~~·)

/-- What an ETH egress puts on the wire for the next packet of a copy: a frame whose VID has the port's UNTAG bit loses
its tag (R320), and with it four bytes of its first packet. A marked frame ends with its FCS inverted (R137): the one it brought, or,
where it ends early (R149), that of what has been sent of it. -/
def ethWire (h : Hub) (e : Nat) (x : XEntry) : Bytes :=
  match h.chain x.chain with
  | none => x.bytes
  | some c =>
    let all := c.cells.flatMap (·.bytes)
    let n := ((c.copies.find? (·.outlet == 14 + e)).map (·.departed)).getD 0
    let bytes :=
      if tagged all && vlanUntags h (tciOf all % 4096) e then
        let out := if c.complete then stripTag all else all.take 12 ++ all.drop 16
        if n = 0 then out.take 252 else (out.drop (256 * n - 4)).take 256
      else x.bytes
    if x.last && x.marked then
      if c.complete && n + 1 == c.cells.length then invertFcs bytes
      else
        let sent := (c.cells.take (n + 1)).flatMap (·.bytes)
        bytes ++ ((withFcs sent).drop sent.length).map (~~~·)
    else bytes

/-! ## The NICs (R320–R325) -/

def ringSize (h : Hub) (s r : Nat) : Nat := 2 ^ min 12 (max 4 (h.fget (F.nic_RING_CTL_SIZE s r)))

def ringBuf (h : Hub) (s r : Nat) : Nat := 256 * min 36 (max 1 (h.fget (F.nic_RING_CTL_BUF s r)))

def ringRuns (h : Hub) (s r : Nat) : Bool := h.is (F.nic_NIC_CTL_EN s) && h.is (F.nic_RING_CTL_EN s r)

/-- Descriptors that the host has posted and the NIC has not used. -/
def ringPosted (h : Hub) (s r : Nat) : Nat :=
  let n := ringSize h s r
  if ringRuns h s r then (h.fget (F.nic_PTR_TAIL s r) % n + n - h.fget (F.nic_PTR_HEAD s r) % n) % n else 0

/-- The host address of the k-th descriptor from HEAD. -/
def descAddr (h : Hub) (s r k : Nat) : Nat :=
  let base := h.fget (F.nic_BASE_LO_ADDR s r) / 64 * 64 + 2 ^ 32 * h.fget (F.nic_BASE_HI_ADDR s r)
  base + 16 * ((h.fget (F.nic_PTR_HEAD s r) + k) % ringSize h s r)

/-- HEAD moves past a number of descriptors. -/
def ringUsed (h : Hub) (s r k : Nat) : Hub :=
  h.fset (F.nic_PTR_HEAD s r) ((h.fget (F.nic_PTR_HEAD s r) + k) % ringSize h s r)

/-- The ITR interval of a ring ends (R325). -/
def itrExpiry (h : Hub) (s r : Nat) : Hub :=
  let k := 8 * s + r
  if !(h.net.itrRuns.testBit k) then h
  else if h.net.itrDue.testBit k then
    { h.putBit (F.nic_INT_STAT_RING s) r true with net := { h.net with itrDue := withBit h.net.itrDue k false } }
  else { h with net := { h.net with itrRuns := withBit h.net.itrRuns k false } }

/-- The descriptor that the NIC writes back (R322). -/
def descBytes (addr len tci : Nat) (eop err : Bool) : Bytes :=
  leBytes 8 addr ++ leBytes 4 (len % 2 ^ 14 + (if eop then 2 ^ 14 else 0) + 2 ^ 15 + if err then 2 ^ 16 else 0) ++ leBytes 4 tci

/-- A transmit descriptor is written back (R323). -/
def txWriteBack (h : Hub) (s r addr len : Nat) (err : Bool) : Hub :=
  ringUsed (sendPosted h s 1 (descAddr h s r 0) (descBytes addr len 0 false err) (some r)) s r 1

def fetchOf (h : Hub) (s r : Nat) : Option NicFetch := Tbl.get (fun _ => none) h.net.fetch (4 * s + r)

def setFetch (h : Hub) (s r : Nat) (f : Option NicFetch) : Hub :=
  { h with net := { h.net with fetch := Tbl.put (fun _ => none) h.net.fetch (4 * s + r) f } }

/-- A NIC asks for more of a frame, in reads of at most 512 bytes with their space reserved (R367, R372, R373). -/
def fetchMore (h : Hub) (s r : Nat) : Nat → Hub
  | 0 => h
  | fuel + 1 =>
    match fetchOf h s r with
    | none => h
    | some f =>
      let n := min 512 (f.len - f.asked)
      let x := h.penSt s
      if n = 0 ∨ 8192 < reserved x + (n + 63) / 64 * 64 ∨ 16 ≤ (x.outq.filter (·.isRead)).length ∨ hostReadWaits h s then h
      else
        let h := h.setPen s { x with outq := x.outq ++ [.read 1 (f.addr + f.asked) n],
                                     reads := x.reads ++ [{ ring := r, offset := f.asked, len := n, got := [] }] }
        fetchMore (setFetch h s r (some { f with asked := f.asked + n })) s r fuel

/-- The fetches of a NIC go on as far as space, queue and the host's reads let them (R367, R372, R373). -/
def fetchAll (h : Hub) (s : Nat) : Hub := (List.range 4).foldl (fun h r => fetchMore h s r 20) h

/-- A NIC gives up the frame of a ring: reads of it that are out answer to no one (R374). -/
def dropFetch (h : Hub) (s r : Nat) : Hub :=
  let x := h.penSt s
  setFetch (h.setPen s { x with reads := x.reads.map fun rd => if rd.ring = r then { rd with ring := 4 } else rd }) s r none

/-- Cells of frames that NIC s sent with a PCP and the hub holds (R324). -/
def nicHeld (h : Hub) (s p : Nat) : Nat :=
  ((h.chains.filter fun c => c.ingress == 21 && c.entryPort == 4 + s && c.hop % 8 == p).map (·.cells.length)).sum
  + ((h.net.queue.filter fun f => f.inPort == 4 + s && tciOf f.bytes / 8192 == p).map fun f => packetCount f.bytes.length).sum
  + (((h.forebay 21).chains.filter fun c => c.entryPort == 4 + s && c.hop % 8 == p).map (·.packets.length)).sum

/-- The longest frame that some MAC takes, without FCS (R323). -/
def nicMax (h : Hub) : Nat := (((List.range 2).filter (h.present .ethmac)).map fun e => maxFrame h e - 4).foldl max 0

/-- A NIC handles the transmit descriptor at HEAD (R323, R324): `addr` and `len` are what it holds. -/
def nicTransmit (h : Hub) (s r addr len : Nat) : Hub :=
  let limit := max 1 (h.fget F.tailrace_NIC_TX_LIMIT_CELLS)
  if ringPosted h s r = 0 ∨ (fetchOf h s r).isSome then h
  else if hostReadWaits h s then h.bump F.pstk_YIELDS_COUNT 1
  else if len = 0 then txWriteBack h s r addr 0 false
  else if nicMax h < len then txWriteBack h s r addr len true
  else if limit ≤ nicHeld h s (h.fget (F.nic_RING_CTL_PCP s r)) then h
  else fetchMore (setFetch h s r (some { addr := addr, len := len, asked := 0, parts := [] })) s r 20

/-- A fetched frame goes to the switch: padded to 60 bytes, an untagged one with the ring's PCP (R323). -/
def nicSend (h : Hub) (s r : Nat) (bs : Bytes) : Hub :=
  let bs := bs ++ (List.range (60 - bs.length)).map (Config.freePad h.fresh)
  let f := withFcs bs
  let f := if tagged f then f else addTag f (h.fget (F.nic_RING_CTL_PCP s r) * 8192)
  { h.draw with net := { h.net with queue := h.net.queue ++ [{ inPort := 4 + s, colour := 0, bytes := f }] } }

/-- Data of an outbound read that has left arrives into its reserved space, which returns (R373); a frame that is whole is sent (R323),
and reads that waited for space go out. `k` names the read among those outstanding, the oldest 0. -/
def outboundCompletion (h : Hub) (s k : Nat) (data : Bytes) : Hub :=
  let x := h.penSt s
  match x.reads[k]? with
  | none => h
  | some rd =>
    let got := (rd.got ++ data).take rd.len
    if !(readSent x k) then h
    else if got.length < rd.len then h.setPen s { x with reads := x.reads.set k { rd with got := got } }
    else
      let h := h.setPen s { x with reads := x.reads.eraseIdx k }
      match if rd.ring < 4 then fetchOf h s rd.ring else none with
      | none => fetchAll h s
      | some f =>
        let parts := Tbl.ins f.parts rd.offset got
        let whole := parts.flatMap (·.2)
        if whole.length < f.len then
          let h := setFetch h s rd.ring (some { f with parts := parts })
          fetchAll (if f.asked < f.len ∧ hostReadWaits h s then h.bump F.pstk_YIELDS_COUNT 1 else h) s
        else fetchAll (txWriteBack (nicSend (setFetch h s rd.ring none) s rd.ring whole) s rd.ring f.addr f.len false) s

/-- An outbound read has gone unanswered for 50 ms since it was sent (R374): it ends alone, and the NIC gives up its frame. -/
def outboundTimeout (h : Hub) (s k : Nat) : Hub :=
  let x := h.penSt s
  match x.reads[k]? with
  | none => h
  | some rd =>
    if !(readSent x k) then h
    else
      let h := ((h.setPen s { x with reads := x.reads.eraseIdx k }).bump F.pstk_OUT_TIMEOUTS_COUNT 1).event Page.pstk 11
      match if rd.ring < 4 then fetchOf h s rd.ring else none with
      | none => fetchAll h s
      | some f => fetchAll (txWriteBack (dropFetch h s rd.ring) s rd.ring f.addr f.len true) s

/-- A frame at a NIC is written to its ring's buffers, one after the other as far as there are free ones (R325): `bufs` are the
addresses that the descriptors from HEAD hold. A frame that has begun waits for more. -/
def nicReceive (h : Hub) (s : Nat) (bufs : List Nat) : Hub :=
  match Tbl.get (fun _ => []) h.net.rx s with
  | [] => h
  | f :: t =>
    let pop (h : Hub) : Hub := { h with net := { h.net with rx := Tbl.put (fun _ => []) h.net.rx s t } }
    let q := 4 + h.fget (F.nic_RX_MAP_RING s (f.tci / 8192))
    let size := ringBuf h s q
    let left := f.bytes.drop f.sent
    let need := max 1 ((left.length + size - 1) / size)
    let n := min need (min (ringPosted h s q) bufs.length)
    if f.sent = 0 ∧ ringPosted h s q = 0 then pop ((h.bump (F.nic_RX_NOBUF_COUNT s) 1).flag (F.nic_INT_STAT_RX_NOBUF s) true)
    else if hostReadWaits h s then h.bump F.pstk_YIELDS_COUNT 1
    else
      let h := (List.range n).foldl (fun h k =>
        let a := bufs.getD k 0
        let part := (left.drop (k * size)).take size
        let h := sendData h s 1 a part part.length
        sendPosted h s 1 (descAddr h s q k) (descBytes a part.length f.tci (k + 1 == need) false) (some q)) h
      let h := ringUsed h s q n
      if n = need then pop h
      else { h with net := { h.net with rx := Tbl.put (fun _ => []) h.net.rx s ({ f with sent := f.sent + n * size } :: t) } }

/-- RING_CTL.EN = 0 resets HEAD to TAIL (R343). -/
def ringWritten (h : Hub) (s r : Nat) : Hub :=
  if h.is (F.nic_RING_CTL_EN s r) then h
  else
    let h := h.fset (F.nic_PTR_HEAD s r) (h.fget (F.nic_PTR_TAIL s r))
    if r < 4 then dropFetch h s r else h

/-- What the NIC of a slice has under way is dropped. -/
def nicDrop (h : Hub) (s : Nat) : Hub :=
  let h := (List.range 4).foldl (fun h r => dropFetch h s r) h
  let off (n : Nat) : Nat := (List.range 8).foldl (fun n r => withBit n (8 * s + r) false) n
  { h with net := { h.net with rx := Tbl.put (fun _ => []) h.net.rx s [], itrRuns := off h.net.itrRuns, itrDue := off h.net.itrDue } }

/-- FLR of function 1 clears every NIC register of the slice (R343). -/
def flr1 (h : Hub) (s : Nat) : Hub :=
  nicDrop (dropOutbound (clearRange h (Page.nic s) (Page.nic s + 0x1000) [.n, .s, .d, .l]) s 1) s

/-! ## The switch (R318) -/

/-- NIC_CTL filters: its own address, broadcast, and what PROMISC and ALLMULTI add. -/
def nicAccepts (h : Hub) (s da : Nat) : Bool :=
  h.is (F.nic_NIC_CTL_EN s) &&
    (h.is (F.nic_NIC_CTL_PROMISC s) || da == h.fget (F.nic_MAC_LO_ADDR s) + 2 ^ 32 * h.fget (F.nic_MAC_HI_ADDR s)
      || da == 2 ^ 48 - 1 || (h.is (F.nic_NIC_CTL_ALLMULTI s) && da.testBit 40))

/-- A frame is delivered to a NIC: stripped when UNTAG says so, with its TCI (R320). -/
def toNic (h : Hub) (s : Nat) (bs : Bytes) : Hub :=
  let tci := tciOf bs
  if !(nicAccepts h s (beNat (bs.take 6))) then h
  else
    let out := noFcs (if vlanUntags h (tci % 4096) (4 + s) then stripTag bs else bs)
    let l := Tbl.get (fun _ => []) h.net.rx s
    { h with net := { h.net with rx := Tbl.put (fun _ => []) h.net.rx s (l ++ [{ tci := tci, bytes := out, sent := 0 }]) } }

/-- Every frame carries a tag inside the switch. -/
def switchTag (h : Hub) (p : Nat) (bs : Bytes) : Bytes :=
  if !(tagged bs) then addTag bs (portPcp h p * 8192 + pvidOf h p)
  else if tciOf bs % 4096 = 0 then setTci bs (tciOf bs + pvidOf h p) else bs

/-- The hop number of the copy for the wire (R318). -/
def wireHop (h : Hub) (vid pcp : Nat) (wires : List Nat) (hit : Bool) : Nat :=
  match wires with
  | [w] => if hit then 8 * w + pcp else 0x100 + 8 * vlanGroup h vid + pcp
  | _ => 0x100 + 8 * vlanGroup h vid + pcp

/-- The switch forwards a frame. -/
def forwardFrame (h : Hub) (x : SwFrame) : Hub :=
  let bs := switchTag h x.inPort x.bytes
  let vid := tciOf bs % 4096
  let da := beNat (bs.take 6)
  let sa := beNat ((bs.drop 6).take 6)
  let members := vlanMembers h vid
  if h.is F.tailrace_CTL_INGRESS_FILTER && (!(vlanValid h vid) || !(members.contains x.inPort)) then
    (h.bump F.tailrace_DROPS_VLAN 1).event Page.tailrace 1
  else
    let h := if h.is F.tailrace_CTL_LEARN && !(sa.testBit 40) then fdbLearn h vid sa x.inPort else h
    let e := fdbFind h vid da
    let t := (match e with
      | some (_, y) => members.filter (· == y.port)
      | none => members).filter (· != x.inPort)
    let h := (t.filter (4 ≤ ·)).foldl (fun h p => toNic h (p - 4) bs) h
    let w := t.filter (· < 4)
    if w.isEmpty then h
    else chainArrival h 21 (wireHop h vid (tciOf bs / 8192) w e.isSome) (packetsOf bs) true false x.colour none x.inPort

/-- The oldest frame in the switch is forwarded. -/
def switchForward (h : Hub) : Hub :=
  match h.net.queue with
  | [] => h
  | x :: t => forwardFrame { h with net := { h.net with queue := t } } x

/-- The switch port of an ingress point (R318). -/
def switchPort (i : Nat) : Option Nat :=
  match i with
  | 14 => some 0 | 15 => some 1 | 18 => some 2 | 19 => some 3 | _ => none

/-- An internal sink takes a packet of a chain: the whole chain once its last packet is there, and nothing of a marked one (R137). -/
def sinkTakes (h : Hub) (o : Nat) (x : XEntry) : Hub × Option Bytes :=
  let bs := Tbl.get (fun _ => []) h.net.arriving (32 * x.chain + o) ++ x.bytes
  let store (b : Bytes) : Hub := { h with net := { h.net with arriving := Tbl.put (fun _ => []) h.net.arriving (32 * x.chain + o) b } }
  if !x.last then (store bs, none) else (store [], if x.marked then none else some bs)

/-- A packet departs to outlet 21: a chain that is whole enters the switch. A frame too short to have addresses is none and is dropped. -/
def switchDeliver (h : Hub) (x : XEntry) (ingress colour : Nat) : Hub :=
  let r := sinkTakes h 21 x
  match switchPort ingress, r.2 with
  | some p, some bs =>
    if bs.length < 18 then r.1
    else { r.1 with net := { r.1.net with queue := r.1.net.queue ++ [{ inPort := p, colour := colour, bytes := bs }] } }
  | _, _ => r.1

/-- A packet departs to outlet 23: the USB 3.2 hub of the slice that its path names as OWNER takes the chain (R403). -/
def usbDeliver (h : Hub) (x : XEntry) : Hub :=
  let r := sinkTakes h 23 x
  match r.2 with
  | some bs => r.1.emit (.usbPacket (h.aget (F.path_CTL_OWNER x.path)) x.hop bs)
  | none => r.1

/-! ## The PCIe storage ports (R331–R337) -/

/-- A unit's hold: that of R88, or the one for a slice reset (R98). -/
def unitSt0 : UnitSt := ⟨false, false, 0, false⟩

def Hub.unitSt (h : Hub) (u : Nat) : UnitSt := Tbl.get (fun _ => unitSt0) h.units u

def Hub.setUnit (h : Hub) (u : Nat) (x : UnitSt) : Hub := { h with units := Tbl.put (fun _ => unitSt0) h.units u x }

/-- A cause of R335 holds PERST# asserted. -/
def perstHeld (h : Hub) (x : Nat) : Bool :=
  (unitOwner h (8 + x)).isNone || (h.unitSt (8 + x)).hold || h.is (F.pciedn_PERST_CTL_FORCE x)

def outstandingAt (h : Hub) (x : Nat) : List Nat := Tbl.get (fun _ => []) h.net.outstanding x

def setOutstanding (h : Hub) (x : Nat) (l : List Nat) : Hub :=
  { h with net := { h.net with outstanding := Tbl.put (fun _ => []) h.net.outstanding x l } }

/-- A request ends with status UR (R336). -/
def completeUr (h : Hub) (x tag : Nat) : Hub :=
  ((h.bump (F.pciedn_ERR_UR_CPL x) 1).emit (.urCompletion x tag)).event (Page.pciedn x) 3

/-- Every request outstanding at a port ends with status UR (R336). -/
def urAll (h : Hub) (x : Nat) : Hub := setOutstanding ((outstandingAt h x).foldl (fun h t => completeUr h x t) h) x []

def heldPcie (x : Nat) (e : HeldStart) : Bool :=
  match e with
  | .pcie k _ _ _ => k == x
  | _ => false

/-- The Data Link Layer goes down, or a training ends without a link: PCIE_LINK_DOWN and what takes the link along. -/
def pcieDown (h : Hub) (x : Nat) : Hub :=
  let up := h.is (F.pciedn_STATUS_DLL_UP x)
  let h := (((dropHeld h (heldPcie x)).flag (F.pciedn_STATUS_DLL_UP x) false).fset (F.pciedn_STATUS_GEN x) 0).fset (F.pciedn_STATUS_WIDTH x) 0
  let h := h.flag (F.pciedn_CTL_RETRAIN x) false
  if up then settleReports (dvfsSettle (urAll (h.event (Page.pciedn x) 2) x)) else h

/-- PERST# follows its causes (R335): asserted at once; PERST_RELEASE releases it. -/
def settlePerst (h : Hub) (x : Nat) : Hub :=
  if perstHeld h x then pcieDown (h.flag (F.pciedn_STATUS_PERST x) true) x else h

def perstRelease (h : Hub) (x : Nat) : Hub := if perstHeld h x then h else h.flag (F.pciedn_STATUS_PERST x) false

def pciePresence (h : Hub) (x : Nat) (present : Bool) : Hub :=
  if h.is (F.pciedn_STATUS_PRESENT x) == present then h
  else
    let h := (h.flag (F.pciedn_STATUS_PRESENT x) present).event (Page.pciedn x) 0
    settleReports (if present then wake h (36 + x) else pcieDown h x)

/-- The highest rate and width that CTL allows (R344), within the bus-powered profile (R100). -/
def pcieMaxGen (h : Hub) (x : Nat) : Nat := min (if busPowered h then 3 else 5) (max 1 (h.fget (F.pciedn_CTL_MAX_GEN x)))

def pcieMaxWidth (h : Hub) (x : Nat) : Nat :=
  match h.fget (F.pciedn_CTL_MAX_WIDTH x) with
  | 0 => 1 | 1 => 2 | _ => 4

/-- The lanes of a training: 1, 2 or 4 (R331). -/
def pcieLanes (w : Nat) : Nat := if 4 ≤ w then 4 else if 2 ≤ w then 2 else 1

/-- A PCIe link trains (R331): a drive is present, PERST# is released, and the port is not released and unattached (R96, R337). Above 8 GT/s it waits for its island (R519). -/
def pcieUp (h : Hub) (x gen width ms : Nat) : Hub :=
  if !(h.is (F.pciedn_STATUS_PRESENT x)) || h.is (F.pciedn_STATUS_PERST x) || (unitReleased h (8 + x) && !(h.unitSt (8 + x)).attaching) then h
  else
    let g := min (max 1 gen) (pcieMaxGen h x)
    let h := dropHeld h (heldPcie x)
    let h := if 3 < g then holdStart h 3 (.pcie x gen width ms) else h
    if lowNow h 3 && decide (3 < g) then h
    else
      let h := ((dropHeld h (heldPcie x)).flag (F.pciedn_STATUS_DLL_UP x) true).fset (F.pciedn_STATUS_GEN x) g
      let h := h.fset (F.pciedn_STATUS_WIDTH x) (min (pcieLanes width) (pcieMaxWidth h x))
      let h := (h.fset (F.pciedn_TRAIN_TIME_MS x) (min ms 0xFFFF)).flag (F.pciedn_CTL_RETRAIN x) false
      settleReports (dvfsSettle (wake (enforceFloor (capBack (h.event (Page.pciedn x) 1)) 3) (36 + x)))

/-- CTL.RETRAIN starts a training, which a link that is up enters through Recovery (R344). -/
def pcieRetrain (h : Hub) (x : Nat) : Hub :=
  let h := h.flag (F.pciedn_CTL_RETRAIN x) true
  if h.is (F.pciedn_STATUS_DLL_UP x) then h.bump (F.pciedn_ERR_RECOVERIES x) 1 else h

/-- A non-posted request departs to the port: outstanding, or completed with UR while the link is down (R336). -/
def pcieRequest (h : Hub) (x tag : Nat) : Hub :=
  if h.is (F.pciedn_STATUS_DLL_UP x) then setOutstanding h x (outstandingAt h x ++ [tag]) else completeUr h x tag

/-- A completion TLP is the last of its request: it has no data, or its Byte Count is within its own data (the header of the PCI Express
Base Specification, PRESUMED, log 103); one too short for a header ends the request. -/
def lastCompletion (bs : Bytes) : Bool :=
  let dw (k : Nat) : Nat := beNat ((bs.drop (4 * k)).take 4)
  let field (v n : Nat) : Nat := if v = 0 then 2 ^ n else v
  decide (bs.length < 12) || !((dw 0).testBit 30) ||
    decide (field (dw 1 % 2 ^ 12) 12 + dw 2 % 4 ≤ 4 * field (dw 0 % 2 ^ 10) 10)

/-- A TLP from the endpoint enters ingress 16 + x (R332): `kind` 0 posted, 1 non-posted, 2 completion with its tag. A
completion for no outstanding request is discarded as unexpected (R337), and whatever comes after the release write is discarded as
R89 has it. -/
def tlpReceive (h : Hub) (x kind tag : Nat) (packets : List Bytes) (credit : Option Nat) : Hub :=
  let n := packets.length
  if !(h.is (F.pciedn_STATUS_DLL_UP x)) then
    if (List.range 4).any (fun s => h.bit (F.slice_RELEASE_UNITS s) (8 + x)) then
      returnCredit (match lookup h (16 + x) kind with | some p => countRed h p n | none => h) (16 + x) kind credit n
    else h
  else if kind = 2 then
    if (outstandingAt h x).contains tag then
      let h := if lastCompletion packets.flatten then setOutstanding h x ((outstandingAt h x).erase tag) else h
      chainArrival h (16 + x) 2 packets true false 0 credit 8
    else returnCredit h (16 + x) 2 credit n
  else if kind < 2 then chainArrival h (16 + x) kind packets true false 0 credit 8
  else h

end Sys2Proof.Machine
end

