-- ==== Sys2Proof/Machine/Vault.lean ====
section
/-! DEFINITION. The Vault: root, measurements, slots, commands, tamper and entropy (R588–R609). -/

namespace Sys2Proof.Machine

/-! ## Bytes and the algorithms -/

/-- The first n bytes of what a byte function gives. -/
def bytesOf (n : Nat) (f : Nat → Byte) : Bytes := (List.range n).map f

def hash384 (m : Bytes) : Bytes := bytesOf 48 (Config.sha384 m)

def mac384 (k m : Bytes) : Bytes := bytesOf 48 (Config.hmac384 k m)

def publicKey (k : Bytes) : Bytes := bytesOf 96 (Config.p384Public k)

def xorBytes (a b : Bytes) : Bytes := List.zipWith (· ^^^ ·) a b

/-- The order of P-384. -/
def p384Order : Nat :=
  39402006196394479212279040100143613805079739270465446667946905279627659399113263569398956308152294913554433653942643

/-- Bytes held in consecutive words from a field on, and their storing (little-endian). -/
def wordBytes (h : Hub) (f : Nat → Fld) (words : Nat) : Bytes := (List.range words).flatMap fun w => leBytes 4 (h.fget (f w))

def setWordBytes (h : Hub) (f : Nat → Fld) (words : Nat) (bs : Bytes) : Hub :=
  (List.range words).foldl (fun h w => h.fset (f w) (ofBytes ((bs.drop (4 * w)).take 4))) h

/-! ## Root and slots -/

/-- The root, as the key-derivation engine sees it (R589). -/
def vaultRoot (h : Hub) : Option Bytes := h.vault.masked.map fun m => xorBytes m h.vault.mask

/-- STATUS.PROV (R590). -/
def provState (h : Hub) : Nat :=
  if h.vault.masked.isSome then 1 else if h.is F.vault_STATUS_ENROL then 0 else 2

def vaultSlot (h : Hub) (s : Nat) : Option VSlot := Tbl.get (fun _ => none) h.vault.slots s

def setSlot (h : Hub) (s : Nat) (x : Option VSlot) : Hub :=
  { h with vault := { h.vault with slots := Tbl.put (fun _ => none) h.vault.slots s x } }

/-- SLOT_INFO of a slot in its register layout (R596, R608). -/
def slotInfo (h : Hub) (s : Nat) : Nat :=
  match vaultSlot h s with
  | none => 0
  | some x => 1 + (if x.ecdsa then 2 else 0) + 4 + 8 + (if x.derived then 16 else 0) + 32 * (x.msel % 16) + 1024 * (x.users % 64)

/-- A key that SEC.KEY_SLOT of a Leat link may name (R631). -/
def linkKeyOk (h : Hub) (s : Nat) : Bool :=
  match vaultSlot h s with
  | some x => !x.ecdsa && x.derived
  | none => false

/-! ## Measurements (R592–R595) -/

def measOf (h : Hub) (m : Nat) : Bytes := wordBytes h (F.vault_MEAS_BYTES m) 12

/-- MEASm := SHA-384(MEASm ‖ D), and its count. -/
def extendMeas (h : Hub) (m : Nat) (d : Bytes) : Hub :=
  let v := hash384 (measOf h m ++ d)
  (setWordBytes h (F.vault_MEAS_BYTES m) 12 v).bump (F.vault_MEAS_COUNT_COUNT m) 1

/-- K(1) ‖ K(2) of SP 800-108 in counter mode (R595). -/
def kdf (key : Bytes) (ecdsa : Bool) (c : Bytes) : Bytes :=
  let t : Byte := if ecdsa then 2 else 1
  let l := if ecdsa then 448 else 256
  let k (i : Nat) : Bytes := mac384 key (beBytes 4 i ++ [t, 0] ++ c ++ beBytes 4 l)
  k 1 ++ k 2

/-- The key of a derivation: 32 bytes for AES, the private key d for ECDSA (R595). -/
def kdfKey (key : Bytes) (ecdsa : Bool) (c : Bytes) : Bytes :=
  let k := kdf key ecdsa c
  if ecdsa then beBytes 48 (beNat (k.take 56) % (p384Order - 1) + 1) else k.take 32

/-- C of R595. -/
def kdfContext (h : Hub) (msel : Nat) (label : Bytes) (s : Nat) : Bytes :=
  ((List.range 4).filter msel.testBit).flatMap (measOf h) ++ label ++ [BitVec.ofNat 8 s]

/-- A key is derived from the root into a slot. -/
def deriveInto (h : Hub) (root : Bytes) (s : Nat) (ecdsa : Bool) (msel : Nat) (label : Bytes) (users : Nat) : Hub :=
  setSlot h s (some { ecdsa := ecdsa, derived := true, msel := msel, users := users, key := kdfKey root ecdsa (kdfContext h msel label s) })

/-- The identity and the alias key (R594); without a root both slots stay empty. -/
def deriveIdentity (h : Hub) : Hub :=
  match vaultRoot h with
  | some r => deriveInto h r 0 true 1 [0] 0x10
  | none => h

def deriveAlias (h : Hub) : Hub :=
  match vaultRoot h with
  | some r => deriveInto h r 1 true 7 [1] 0x10
  | none => h

/-- Lock bits set (R593, R594). -/
def lockMeas (h : Hub) (bits : Nat) : Hub :=
  let old := h.fget F.vault_MEAS_LOCK_LOCK
  let new := old ||| (bits % 16)
  let h := h.fset F.vault_MEAS_LOCK_LOCK new
  let h := if new.testBit 0 && !old.testBit 0 then deriveIdentity h else h
  if new.testBit 2 && !old.testBit 2 then deriveAlias h else h

/-! ## Entropy (R601) -/

/-- The DRBG gives bytes; it reseeds after 65,536 requests. -/
def drbg (h : Hub) (n : Nat) : Hub × Bytes :=
  let r := h.vault.requests + 1
  ({ h.draw with vault := { h.vault with requests := if 65536 ≤ r then 0 else r } }, bytesOf n (Config.freeRandom h.fresh))

def reseed (h : Hub) : Hub := { h.draw with vault := { h.vault with requests := 0 } }

def entropyFail (h : Hub) : Hub := ((h.flag F.vault_STATUS_ENTROPY_OK false).bump F.vault_ENTROPY_HEALTH_FAILS 1).event Page.vault 9

def entropyBack (h : Hub) : Hub := h.flag F.vault_STATUS_ENTROPY_OK true

/-- Every 1 ms a new mask, and VTIME's milliseconds (R589, R604; assumption log 25). -/
def maskRewrite (h : Hub) : Hub :=
  let m := bytesOf 32 (Config.freeRandom h.fresh)
  let ms := h.vault.ms + 1
  let v := { h.vault with masked := (vaultRoot h).map (xorBytes · m), mask := m, ms := ms % 1000 }
  let h := { h.draw with vault := v }
  if ms = 1000 then h.fset F.vault_VTIME_COUNT (h.fget F.vault_VTIME_COUNT + 1) else h

/-! ## Commands (R597, R598) -/

/-- The USE bit of a requester (R596); JTAG has none. -/
def userBit : Req → Nat
  | .slice s => s.val
  | .miller _ => 4
  | .bmc => 5
  | .jtag => 6

/-- A write of CMD with OP not 0: a command starts, or is dropped while one runs (R597). `w` is the word written. -/
def vaultCommand (h : Hub) (req : Req) (w : Nat) : Hub :=
  let op := w % 16
  if h.is F.vault_STATUS_BUSY then h.flag F.vault_STATUS_DROPPED true
  else
    let h := ((h.fset F.vault_CMD_OP op).fset F.vault_CMD_SLOT (w / 2 ^ 4)).fset F.vault_CMD_TSLOT (w / 2 ^ 9)
    let h := (h.fset F.vault_CMD_MSEL (w / 2 ^ 14)).fset F.vault_CMD_KTYPE (w / 2 ^ 18)
    if op = 0 then h
    else
      let slot := h.fget F.vault_CMD_SLOT
      let n := h.fget F.vault_LEN_IN_LEN
      let r : VRun := { op := op, slot := slot, tslot := h.fget F.vault_CMD_TSLOT, msel := h.fget F.vault_CMD_MSEL,
                        ecdsa := h.is F.vault_CMD_KTYPE
                        input := if n ≤ 1024 then (wordBytes h F.vault_IN_BYTES 256).take n else List.replicate n 0
                        aad := h.fget F.vault_LEN_AAD_LEN, user := userBit req, useNext := h.fget F.vault_USE_NEXT_USE
                        locked := (h.fget F.vault_MEAS_LOCK_LOCK).testBit (slot % 4) }
      { h.flag F.vault_STATUS_BUSY true with vault := { h.vault with run := some r } }

/-- The end of a command: RESULT, OUT and OUT_LEN, BUSY and OP clear, CMD_DONE rises (R597). -/
def vaultFinish (h : Hub) (result : Nat) (out : Bytes) : Hub :=
  let out := if result = 1 then out else []
  let h := setWordBytes h F.vault_OUT_BYTES 256 out
  let h := (h.fset F.vault_OUT_LEN_BYTES out.length).fset F.vault_CMD_RESULT result
  let h := (h.fset F.vault_CMD_OP 0).flag F.vault_STATUS_BUSY false
  { h with vault := { h.vault with run := none } }.event Page.vault 0

/-- A requester may use a key (R596). -/
def mayUse (x : VSlot) (r : VRun) : Bool := decide (r.user < 6) && x.users.testBit r.user

/-- The key of a slot for a command: RESULT 5 for an empty slot or one of the wrong kind, 3 where USE lacks the
requester (R597, R599). -/
def slotFor (h : Hub) (r : VRun) (s : Nat) (ecdsa : Option Bool) : Except Nat VSlot :=
  match vaultSlot h s with
  | none => .error 5
  | some x => if ecdsa == some (!x.ecdsa) then .error 5 else if mayUse x r then .ok x else .error 3

/-- An ECDSA signature with a nonce from the DRBG over the domain byte and what it signs (R598). -/
def signWith (h : Hub) (x : VSlot) (domain : Byte) (m : Bytes) : Hub × Bytes :=
  let (h, k) := drbg h 48
  (h, bytesOf 96 (Config.p384Sign x.key (hash384 (domain :: m)) k))

/-- A quote up to its signature (R600). -/
def quoteBody (h : Hub) (hub : Nat) (s : Nat) (x : VSlot) (nonce : Bytes) : Bytes :=
  leBytes 2 1 ++ [BitVec.ofNat 8 h.variant, BitVec.ofNat 8 hub, BitVec.ofNat 8 (h.fget F.vault_MEAS_LOCK_LOCK), 0, 0, 0]
    ++ leBytes 4 (h.fget F.vault_VTIME_COUNT) ++ [0, 0, 0, 0] ++ (List.range 4).flatMap (measOf h)
    ++ (List.range 4).flatMap (fun m => leBytes 2 (h.fget (F.vault_MEAS_COUNT_COUNT m)))
    ++ leBytes 4 (slotInfo h s) ++ [0, 0, 0, 0]
    ++ (if x.ecdsa then publicKey x.key else List.replicate 96 0)
    ++ leBytes 2 nonce.length ++ [0, 0] ++ nonce ++ List.replicate (64 - nonce.length) 0

/-- Firmware alone: PROVISION (R591). -/
def vaultProvision (h : Hub) (r : VRun) : Hub :=
  if r.user ≠ 4 then vaultFinish h 3 []
  else if provState h ≠ 0 then vaultFinish h 11 []
  else if !(h.is F.vault_STATUS_ENTROPY_OK) then vaultFinish h 10 []
  else
    let root := bytesOf 32 (Config.freeRandom h.fresh)
    let h := h.draw
    let mask := bytesOf 32 (Config.freeRandom h.fresh)
    let h := { h.draw with vault := { h.vault with masked := some (xorBytes root mask), mask := mask } }
    let h := deriveIdentity h
    match vaultSlot h 0 with
    | none => vaultFinish h 4 []
    | some x =>
      let p := publicKey x.key
      let (h, sig) := signWith h { x with key := h.otp.enrolPriv } 3 p
      vaultFinish { h.flag F.vault_STATUS_ENROL false with otp := { h.otp with enrolKey := false } } 1 (p ++ sig)

/-- Where two checks of a command fail, RESULT is the lower step of this order (assumption log 26): OP and lengths,
reserved slots, entropy, keys and their USE. -/
def vaultRun (h : Hub) (r : VRun) (hub : Nat) : Hub :=
  let n := r.input.length
  let entropy := h.is F.vault_STATUS_ENTROPY_OK
  let iv := r.input.take 12
  let aad := (r.input.drop 12).take r.aad
  match r.op with
  | 1 =>
    if n ≠ 48 then vaultFinish h 6 []
    else if r.locked then vaultFinish h 7 []
    else vaultFinish (extendMeas h (r.slot % 4) r.input) 1 []
  | 2 =>
    if n < 1 ∨ 64 < n then vaultFinish h 6 []
    else if r.slot < 2 then vaultFinish h 3 []
    else match vaultRoot h with
      | none => vaultFinish h 4 []
      | some k => vaultFinish (deriveInto h k r.slot r.ecdsa r.msel r.input r.useNext) 1 []
  | 3 =>
    if r.slot < 2 then vaultFinish h 3 []
    else if !entropy then vaultFinish h 10 []
    else
      let (h, k) := drbg h (if r.ecdsa then 48 else 32)
      vaultFinish (setSlot h r.slot (some { ecdsa := r.ecdsa, derived := false, msel := 0, users := r.useNext, key := k })) 1 []
  | 4 =>
    if 512 < r.aad ∨ n < 12 + r.aad ∨ 1008 < n then vaultFinish h 6 []
    else match slotFor h r r.slot (some false) with
      | .error e => vaultFinish h e []
      | .ok x =>
        let p := r.input.drop (12 + r.aad)
        let c := xorBytes p (bytesOf p.length (Config.gcmStream x.key iv))
        vaultFinish h 1 (c ++ bytesOf 16 (Config.gcmTag x.key iv aad c))
  | 5 =>
    if 512 < r.aad ∨ n < 28 + r.aad ∨ 1024 < n then vaultFinish h 6 []
    else match slotFor h r r.slot (some false) with
      | .error e => vaultFinish h e []
      | .ok x =>
        let c := (r.input.drop (12 + r.aad)).take (n - 28 - r.aad)
        if r.input.drop (n - 16) = bytesOf 16 (Config.gcmTag x.key iv aad c) then
          vaultFinish h 1 (xorBytes c (bytesOf c.length (Config.gcmStream x.key iv)))
        else vaultFinish h 8 []
  | 6 =>
    if n ≠ 48 then vaultFinish h 6 []
    else if r.slot = 0 then vaultFinish h 3 []
    else if !entropy then vaultFinish h 10 []
    else match slotFor h r r.slot (some true) with
      | .error e => vaultFinish h e []
      | .ok x => let (h, sig) := signWith h x 2 r.input; vaultFinish h 1 sig
  | 7 =>
    if n < 16 ∨ 64 < n then vaultFinish h 6 []
    else if !entropy then vaultFinish h 10 []
    else if (vaultRoot h).isNone then vaultFinish h 4 []
    else if (vaultSlot h 1).isNone then vaultFinish h 7 []
    else match slotFor h r 1 (some true), slotFor h r r.slot none with
      | .ok signer, .ok x =>
        let b := quoteBody h hub r.slot x r.input
        let (h, sig) := signWith h signer 1 b
        vaultFinish h 1 (b ++ sig)
      | .error e, _ => vaultFinish h e []
      | _, .error e => vaultFinish h e []
  | 8 =>
    match slotFor h r r.slot (some true) with
    | .error e => vaultFinish h e []
    | .ok x => vaultFinish h 1 (publicKey x.key)
  | 9 =>
    if n < 97 ∨ 160 < n then vaultFinish h 6 []
    else if r.tslot < 2 then vaultFinish h 3 []
    else match slotFor h r r.slot (some true) with
      | .error e => vaultFinish h e []
      | .ok x =>
        let peer := r.input.take 96
        if !(Config.p384OnCurve peer) then vaultFinish h 9 []
        else
          let k := kdfKey (bytesOf 48 (Config.p384Shared x.key peer)) false (r.input.drop 96 ++ [BitVec.ofNat 8 r.tslot])
          vaultFinish (setSlot h r.tslot (some { ecdsa := false, derived := true, msel := 0, users := r.useNext, key := k })) 1 []
  | 10 =>
    if 1024 < n then vaultFinish h 6 []
    else if !entropy then vaultFinish h 10 []
    else let (h, b) := drbg h n; vaultFinish h 1 b
  | 11 => if r.slot < 2 then vaultFinish h 3 [] else vaultFinish (setSlot h r.slot none) 1 []
  | 12 => vaultProvision h r
  | 13 =>
    if !entropy then vaultFinish h 10 []
    else if (vaultRoot h).isNone then vaultFinish h 4 []
    else match slotFor h r 0 (some true), slotFor h r 1 (some true) with
      | .ok idKey, .ok aliasKey =>
        let b := publicKey aliasKey.key ++ (List.range 3).flatMap (measOf h)
        let (h, sig) := signWith h idKey 4 b
        vaultFinish h 1 (b ++ sig)
      | .error e, _ => vaultFinish h e []
      | _, .error e => vaultFinish h e []
  | _ => vaultFinish h 6 []

/-- The command under way ends. -/
def vaultDone (h : Hub) (hub : Nat) : Hub :=
  match h.vault.run with
  | none => h
  | some r => vaultRun h r hub

/-! ## Tamper (R602–R605) -/

/-- The armed sources of a trip (R602): the lid once the part has been provisioned, a zeroised part included (DEDUCED, log 106). -/
def armed (h : Hub) (sources : Nat) : Nat :=
  let on (f : Fld) : Bool := let m := h.fget f; m == 1 || m == 2
  let s := sources % 64
  let s := if on F.vault_TAMPER_CTL_MODE01 then s else withBit s 0 false
  let s := if on F.vault_TAMPER_CTL_MODE23 then s else withBit s 1 false
  if provState h ≠ 0 then s else withBit s 2 false

/-- A record is written, or OVERFLOW set (R604). -/
def tamperRecord (h : Hub) (sources : Nat) : Hub :=
  let n := h.fget F.vault_TLOG_CTL_COUNT
  if 4 ≤ n then h.flag F.vault_TLOG_CTL_OVERFLOW true
  else
    let h := (h.fset (F.vault_TLOG_CAUSE_SOURCES n) sources).fset (F.vault_TLOG_TIME_VTIME n) (h.fget F.vault_VTIME_COUNT)
    h.fset F.vault_TLOG_CTL_COUNT (n + 1)

/-- Zeroisation (R603): root, mask, slots and the DRBG's state. -/
def zeroise (h : Hub) : Hub :=
  { h.draw with vault := { h.vault with masked := none, mask := [], slots := [], requests := 0 } }

/-- Sensors trip (R603); the lock and the modes are class V, which tamper clears (R604, R605). -/
def tamper (h : Hub) (sources : Nat) : Hub :=
  let h := h.fset F.vault_TAMPER_STAT_LIVE sources
  let s := armed h sources
  if s = 0 then h
  else
    let h := zeroise h
    let h := match h.vault.run with
      | some _ => vaultFinish h 12 []
      | none => h
    let h := ((h.fset F.vault_TAMPER_CTL_MODE01 0).fset F.vault_TAMPER_CTL_MODE23 0).flag F.vault_TAMPER_CTL_LOCK false
    (tamperRecord (h.flag F.vault_STATUS_RETAIN_LOST true) s).event Page.vault 8

/-- TLOG_CTL.CLEAR empties the records (R604). -/
def tlogClear (h : Hub) : Hub :=
  let h := (List.range 4).foldl (fun h i => (h.fset (F.vault_TLOG_CAUSE_SOURCES i) 0).fset (F.vault_TLOG_TIME_VTIME i) 0) h
  h.fset F.vault_TLOG_CTL_COUNT 0

/-- What the Vault holds in class N is gone after a chip reset or a wake from SHELF: slots and the command (R593, R596). -/
def vaultClearN (h : Hub) : Hub := { h with vault := { h.vault with slots := [], run := none } }

end Sys2Proof.Machine
end

