-- ==== Sys2Proof/Machine/Fabric.lean ====
section
/-! DEFINITION. Leat links and the fabric of hubs: roles, head, sync words, agreement, Quarantine, link security and
messages (R610–R642). -/

namespace Sys2Proof.Machine

/-! ## Roles and links -/

/-- The hub acts as standalone (R611, R612, R638). -/
def standalone (h : Hub) : Bool :=
  let r := h.fget F.fabric_STRAP_ROLE
  !(h.present .fabric 0) || r == 0 || r == 3 || !(h.is F.fabric_CTL_EN)

/-- The hub number (R612). -/
def hubNumber (h : Hub) : Nat := if standalone h then 0 else h.fget F.fabric_STRAP_ID

/-- The strapped role lets the hub become head (R611). -/
def candidate (h : Hub) : Bool := !(standalone h) && h.fget F.fabric_STRAP_ROLE == 1

def leat0 : LeatSt := ⟨false, ⟨0, 0, 0⟩, ⟨false, false, false, false, []⟩, none, none, 0, none, 0, 0⟩

def Hub.leatSt (h : Hub) (l : Nat) : LeatSt := Tbl.get (fun _ => leat0) h.fabric.links l

def Hub.setLeat (h : Hub) (l : Nat) (x : LeatSt) : Hub :=
  { h with fabric := { h.fabric with links := Tbl.put (fun _ => leat0) h.fabric.links l x } }

def cause (h : Hub) (b : Nat) : Bool := (h.fget F.fabric_STATE_CAUSES).testBit b

def quarantined (h : Hub) : Bool := h.is F.fabric_STATE_QUARANTINE

/-- LEAT.STATUS.HOLD (R100, R611, R613, R639). -/
def leatHold (h : Hub) (l : Nat) : Nat :=
  if busPowered h then 4
  else if standalone h then 1
  else if !(h.is (F.leat_CTL_EN l)) then 2
  else if l = 1 ∧ (h.leatSt 0).trained ∧ (h.leatSt 1).trained ∧ (h.leatSt 0).peer.id = (h.leatSt 1).peer.id then 3
  else 0

/-- A link passes control messages: trained and not held. -/
def leatTalks (h : Hub) (l : Nat) : Bool := leatUp h l

/-- SECURE: a key is in use on a trained link. -/
def leatSecure (h : Hub) (l : Nat) : Bool := (h.leatSt l).trained && (h.leatSt l).key.isSome

/-- LSTATE (R627, R629, R635). -/
def leatLstate (h : Hub) (l : Nat) : Nat :=
  let x := h.leatSt l
  if leatHold h l ≠ 0 then 4
  else if !x.trained then 1
  else if quarantined h || x.status.quarantine || h.fget F.fabric_STATE_ROLE_NOW == 0
      || (h.is F.fabric_CTL_REQUIRE_AUTH && !(leatSecure h l && x.status.secure)) then 2
  else 3

/-- The sync link: the fewer hops to the head, LEAT0 on a tie (R621). -/
def syncLink (h : Hub) : Option Nat :=
  let hop (l : Nat) : Option Nat := if leatTalks h l then (h.leatSt l).syncHops else none
  match hop 0, hop 1 with
  | some a, some b => if b < a then some 1 else some 0
  | some _, none => some 0
  | none, some _ => some 1
  | none, none => none

/-- LSTATE, HOLD, SECURE, CAP and SYNC_SRC of a link follow its condition (R627, R629, R639). -/
def settleLeat (h : Hub) (l : Nat) : Hub :=
  if !(h.present .leat l) then h
  else
    let h := (h.fset (F.leat_STATUS_LSTATE l) (leatLstate h l)).fset (F.leat_STATUS_HOLD l) (leatHold h l)
    let h := h.flag (F.leat_STATUS_SECURE l) (leatSecure h l)
    let h := h.fset (F.leat_CAP_TUNNEL l) (if h.fget (F.leat_STATUS_LSTATE l) = 3 then 12207 else 0)
    h.flag (F.leat_STATUS_SYNC_SRC l) (h.fget F.fabric_STATE_ROLE_NOW == 2 && syncLink h == some l)

def settleLeats (h : Hub) : Hub := capBack (dvfsSettle (settleLeat (settleLeat h 0) 1))

/-! ## Quarantine (R626–R628) -/

/-- A cause sets or clears; the first one puts the hub into Quarantine, which ends at a turn boundary. -/
def setCause (h : Hub) (b : Nat) (on : Bool) : Hub :=
  let h := h.putBit F.fabric_STATE_CAUSES b on
  if on && !(quarantined h) then
    settleLeats (((h.flag F.fabric_STATE_QUARANTINE true).bump F.fabric_QUAR_COUNT_COUNT 1).event Page.fabric 3)
  else h

/-- FORCED follows CTL.QUAR_FORCE, but not on the head (R626). -/
def settleForced (h : Hub) : Hub :=
  setCause h 6 (h.is F.fabric_CTL_QUAR_FORCE && h.fget F.fabric_STATE_ROLE_NOW != 1 && !(standalone h))

/-- AUTH: a member whose sync link is not SECURE while authentication is required (R635). -/
def settleAuth (h : Hub) : Hub :=
  setCause h 3 (h.is F.fabric_CTL_REQUIRE_AUTH && h.fget F.fabric_STATE_ROLE_NOW == 2 &&
    (match syncLink h with | some l => !(leatSecure h l) | none => false))

/-- What writes of FABRIC.CTL, LEAT.CTL and SEC change at once; without a fabric FEAT_AGREED equals FEATURES (R641). -/
def settleFabric (h : Hub) : Hub :=
  let h := settleLeats (settleAuth (settleForced h))
  if h.fget F.fabric_STATE_ROLE_NOW = 0 then h.fset F.fabric_FEAT_AGREED_BITS (h.fget F.fabric_FEATURES_BITS) else h

/-! ## Who is in the fabric (R613, R614, R624) -/

/-- The hubs that a link reaches. -/
def linkHubs (h : Hub) (l : Nat) : List FabricHub := if leatTalks h l then (h.leatSt l).status.hubs else []

/-- A reachable hub by the link with the fewer hops, with that link. -/
def reach (h : Hub) (id : Nat) : Option (Nat × FabricHub) :=
  match (linkHubs h 0).find? (·.id == id), (linkHubs h 1).find? (·.id == id) with
  | some a, some b => if b.hops < a.hops then some (1, b) else some (0, a)
  | some a, none => some (0, a)
  | none, some b => some (1, b)
  | none, none => none

/-- The candidate with the lowest CASC_ID among those reachable, this hub included (R614). -/
def lowestCandidate (h : Hub) : Option Nat :=
  (List.range 4).find? fun i =>
    if i = hubNumber h then candidate h && !(cause h 4)
    else match reach h i with
      | some (_, x) => x.candidate
      | none => false

/-- ROUTE as this hub computes it: NEXT in bits 0–7, HOPS in bits 8–15 (R641). -/
def routeOf (h : Hub) : Nat :=
  (List.range 4).foldl (fun n i =>
    if i = hubNumber h then n
    else match reach h i with
      | some (l, x) => n + (l + 1) * 4 ^ i + 256 * (min x.hops 3) * 4 ^ i
      | none => n + 3 * 4 ^ i) 0

def setRoute (h : Hub) (r : Nat) : Hub :=
  (List.range 4).foldl (fun h i => (h.fset (F.fabric_ROUTE_NEXT i) (r / 4 ^ i)).fset (F.fabric_ROUTE_HOPS i) (r / 256 / 4 ^ i)) h

def getRoute (h : Hub) : Nat :=
  (List.range 4).foldl (fun n i => n + h.fget (F.fabric_ROUTE_NEXT i) * 4 ^ i + 256 * h.fget (F.fabric_ROUTE_HOPS i) * 4 ^ i) 0

def membersOf (h : Hub) : Nat :=
  (List.range 4).foldl (fun n i => if i = hubNumber h ∨ (reach h i).isSome then n + 2 ^ i else n) 0

/-- 0 none, 1 line, 2 ring (R641): in a ring both links reach a common hub. -/
def topology (h : Hub) : Nat :=
  if (linkHubs h 0).any (fun a => (linkHubs h 1).any (·.id == a.id)) then 2
  else if leatTalks h 0 || leatTalks h 1 then 1 else 0

/-- The Leat link toward a hub of the fabric, by ROUTE (R387); none: it is unreachable. -/
def routeTo (h : Hub) (id : Nat) : Option Nat :=
  let n := h.fget (F.fabric_ROUTE_NEXT id)
  if standalone h then none
  else if n = 1 ∧ leatTalks h 0 then some 0 else if n = 2 ∧ leatTalks h 1 then some 1 else none

/-! ## Sync words (R619–R625) -/

/-- The digest that is compared (R623). -/
def cfgHashWritten (h : Hub) : Hub :=
  { h with fabric := { h.fabric with hash := h.fget F.fabric_CFG_HASH_LO_HASH + 2 ^ 32 * h.fget F.fabric_CFG_HASH_HI_HASH } }

/-- A word leaves on a link with that link's delay added (R619, R620). -/
def sendSync (h : Hub) (l : Nat) (w : SyncWord) : Hub :=
  if leatTalks h l then h.emit (.syncWord l { w with delay := w.delay + h.fget (F.leat_DELAY_SIXTEENTHS l), hops := w.hops + 1 }) else h

/-- The head's word at a turn boundary (R619). -/
def headWord (h : Hub) : SyncWord :=
  { ftime := h.ftime, epoch := h.epoch, phase := h.fget F.sluice_TURN_PHASE_TICKS, gen := h.fget F.fabric_GEN_COUNT
    headId := hubNumber h, cfgHash := h.fabric.hash, fwMajor := h.fget F.fabric_FW_VER_MAJOR, fwMinor := h.fget F.fabric_FW_VER_MINOR
    features := h.fabric.features.getD (h.fget F.fabric_FEAT_AGREED_BITS), members := h.fget F.fabric_STATE_MEMBERS
    quarMap := h.fget F.fabric_STATE_QUAR_MAP, route := getRoute h, delay := 0, hops := 0 }

/-- d of R621: local fabric time less the word's and its delay, in whole ticks, as a signed number of 40 bits. -/
def syncOffset (h : Hub) (w : SyncWord) : Int :=
  toInt 40 (ofInt 40 ((16 * (h.ftime : Int) - 16 * w.ftime - w.delay) / 16))

/-- CONFIG and VERSION at a sync word (R623). -/
def checkAgreement (h : Hub) (w : SyncWord) : Hub :=
  let h := setCause h 1 (h.fget F.fabric_FW_VER_MAJOR != w.fwMajor)
  let bad := h.fabric.hash != w.cfgHash
  let h := { h with fabric := { h.fabric with differs := bad } }
  if !bad then setCause h 2 false else if h.fget F.fabric_HASH_GRACE_MS = 0 then setCause h 2 true else h

/-- CFG_HASH has differed for HASH_GRACE.MS without a break (R623). -/
def graceExpiry (h : Hub) : Hub :=
  if h.fabric.differs && h.fget F.fabric_STATE_ROLE_NOW == 2 then setCause h 2 true else h

/-- The head's tables, where they differ from this hub's (R624, R625). -/
def checkTables (h : Hub) (w : SyncWord) : Hub :=
  let m := if h.fget F.fabric_STATE_MEMBERS = w.members then none else some w.members
  let r := if getRoute h = w.route then none else some w.route
  let p := if h.fget F.sluice_TURN_PHASE_TICKS = w.phase then none else some w.phase
  let f := if h.fget F.fabric_FEAT_AGREED_BITS = w.features then none else some w.features
  let h := h.fset F.fabric_STATE_QUAR_MAP w.quarMap
  { h with fabric := { h.fabric with members := m, route := r, phase := p, features := f } }

/-- A start taken at `t` as it lies before the time `now` that the hub takes in place of `old`. -/
def movedStart (old now t : Nat) : Nat := now - (old - t)

/-- Fabric time steps to `now` (R621); what the hub measures from an earlier moment lasts as long as before. -/
def retime (h : Hub) (now : Nat) : Hub :=
  let mv := movedStart h.time now
  { h with
    ftime := now % 2 ^ 40, epoch := now / 2 ^ 40 % 2 ^ 32
    boot := { h.boot with since := mv h.boot.since, wdtAt := mv h.boot.wdtAt }
    domains := h.domains.map fun e => (e.1, { e.2 with wakeAt := mv e.2.wakeAt })
    units := h.units.map fun e => (e.1, { e.2 with relAt := mv e.2.relAt })
    heads := h.heads.map fun e => (e.1, { e.2 with vblankAt := mv e.2.vblankAt })
    pen := h.pen.map fun e => (e.1, { e.2 with streams := e.2.streams.map fun st => { st with at_ := mv st.at_ } }) }

/-- The hub joins a fabric with its first sync word (R621). -/
def joinFabric (h : Hub) (w : SyncWord) : Hub :=
  let t := w.ftime + w.delay / 16
  let toStep : Int := (w.epoch * 2 ^ 40 + t : Nat) - (h.time : Int)
  let toRefill := h.turn.refillAt - h.time
  let h := retime h (w.epoch * 2 ^ 40 + t)
  let h := { h with turn := { h.turn with lastBoundary := some h.time, refillAt := h.time + toRefill } }
  let h := if h.fget F.sluice_TURN_PHASE_TICKS = w.phase ∧ toStep = 0 then h else h.event Page.sluice 3
  let h := h.fset F.sluice_TURN_PHASE_TICKS w.phase
  let h := setRoute ((h.fset F.fabric_STATE_MEMBERS w.members).fset F.fabric_GEN_COUNT w.gen) w.route
  let h := (h.fset F.fabric_STATE_ROLE_NOW 2).fset F.fabric_STATE_HEAD_ID w.headId
  let h := { h with fabric := { h.fabric with cleanSyncs := 0, cleanTurns := 0, step := none } }
  setCause (setCause (h.event Page.fabric 0) 5 false) 0 true

/-- A member compares its time (R621). -/
def compareTime (h : Hub) (w : SyncWord) : Hub :=
  let d := syncOffset h w
  let other := h.epoch != w.epoch && h.time / 2 ^ 40 != (w.epoch * 2 ^ 40 + w.ftime + w.delay / 16) / 2 ^ 40
  let h := h.fset F.fabric_OFFSET_TICKS (ofInt 16 (max (-32768) (min 32767 d)))
  if d.natAbs ≤ 2 ∧ !other then
    let n := h.fabric.cleanSyncs + 1
    let h := { h with fabric := { h.fabric with cleanSyncs := n } }
    if 16 ≤ n then setCause h 0 false else h
  else
    let h := { h with fabric := { h.fabric with cleanSyncs := 0, step := some (d, if other then some w.epoch else none),
                                                phase := if h.fget F.sluice_TURN_PHASE_TICKS = w.phase then none else some w.phase } }
    if 64 < d.natAbs || other then setCause h 0 true else h

/-- A head steps back for a candidate with a lower CASC_ID that has taken its fabric over: it stays in the fabric as a member, with its
time and tables (R615; DEDUCED, log 107). -/
def stepsBack (h : Hub) (w : SyncWord) : Bool :=
  h.fget F.fabric_STATE_ROLE_NOW == 1 && decide (w.headId < hubNumber h) && w.members.testBit (hubNumber h) &&
    (h.fget F.fabric_STATE_MEMBERS).testBit w.headId

/-- A sync word arrives on a link, `dt` ticks after the last command (R615, R616, R619, R621–R625, R635). -/
def syncWord (h : Hub) (l dt : Nat) (w : SyncWord) : Hub :=
  let h := advance h dt
  let h := if stepsBack h w then h.fset F.fabric_STATE_ROLE_NOW 2 else h
  let role := h.fget F.fabric_STATE_ROLE_NOW
  if standalone h || !(leatTalks h l) || w.headId == hubNumber h then h
  else if role == 1 && h.fget F.fabric_STATE_MEMBERS != 2 ^ hubNumber h then h
  else
    let h := h.setLeat l { h.leatSt l with syncHops := some w.hops }
    let h := { h with fabric := { h.fabric with gotSync := true, missed := 0 } }
    let h := sendSync h (1 - l) w
    if syncLink h ≠ some l then settleLeats h
    else
      let h := if role = 2 then
          let h := if h.fget F.fabric_STATE_HEAD_ID = w.headId then h else (h.fset F.fabric_STATE_HEAD_ID w.headId).event Page.fabric 2
          checkTables (compareTime (h.fset F.fabric_GEN_COUNT w.gen) w) w
        else checkTables (joinFabric h w) w
      settleFabric (checkAgreement h w)

/-- The round trip of a link, with what its control channel reports (R620). -/
def roundTrip (h : Hub) (l sixteenths : Nat) (s : LeatStatus) : Hub :=
  if leatTalks h l then
    let h := h.setLeat l { h.leatSt l with status := s }
    let h := h.fset (F.leat_DELAY_SIXTEENTHS l) (min sixteenths (2 ^ 20 - 1))
    settleLeats (if s.hubs.any (·.id == hubNumber h) then setCause h 4 true else h)
  else h

/-! ## Protection of frames and messages (R630) -/

/-- Frames and messages are protected: SEC_MODE is not 0 and a key is in use. -/
def tagChecked (h : Hub) (l : Nat) : Bool := h.fget (F.leat_CTL_SEC_MODE l) != 0 && leatSecure h l

/-- The key that the link takes from its Vault slot (R631). -/
def leatKey (h : Hub) (l : Nat) : Bytes := (((h.leatSt l).key.bind (vaultSlot h)).map (·.key)).getD []

/-- The 96-bit nonce: 0x01 from the sender with the lower CASC_ID and 0x02 from the other, three zero bytes, the frame counter. -/
def leatNonce (lower : Bool) (n : Nat) : Bytes := [if lower then 1 else 2, 0, 0, 0] ++ leBytes 8 n

/-- Payload and tag on the link: clear with a tag in SEC_MODE 1, encrypted otherwise. -/
def leatSeal (h : Hub) (l : Nat) (nonce bs : Bytes) : Bytes × Bytes :=
  if h.fget (F.leat_CTL_SEC_MODE l) = 1 then (bs, bytesOf 16 (Config.gcmTag (leatKey h l) nonce bs []))
  else
    let c := xorBytes bs (bytesOf bs.length (Config.gcmStream (leatKey h l) nonce))
    (c, bytesOf 16 (Config.gcmTag (leatKey h l) nonce [] c))

/-- What the link sends next, with its nonce: the counter goes on. -/
def nextNonce (h : Hub) (l : Nat) : Bytes := leatNonce (decide (hubNumber h < (h.leatSt l).peer.id)) (h.leatSt l).sent

/-- The nonce of what comes next from the peer. -/
def peerNonce (h : Hub) (l : Nat) : Bytes := leatNonce (decide ((h.leatSt l).peer.id < hubNumber h)) (h.leatSt l).received

/-- The counter reaches 2^40: SECURE clears (R632). -/
def counterLimit (h : Hub) (l : Nat) : Hub := settleFabric (h.setLeat l { h.leatSt l with key := none })

def countSent (h : Hub) (l : Nat) : Hub :=
  let n := (h.leatSt l).sent + 1
  let h := h.setLeat l { h.leatSt l with sent := n }
  if n = 2 ^ 40 then counterLimit h l else h

/-- A packet goes to the peer in a frame of its own (R629, R630; log 107). -/
def sendFrame (h : Hub) (l : Nat) (bs : Bytes) : Hub :=
  if tagChecked h l then
    let x := leatSeal h l (nextNonce h l) bs
    countSent (h.emit (.leatFrame l (nextNonce h l) x.1 x.2)) l
  else h

/-- A protected frame carries the tag that the key, the nonce and its payload give. -/
def leatTagOk (h : Hub) (l : Nat) (bs : Bytes) (tag : Option Bytes) : Bool := tag == some (leatSeal h l (peerNonce h l) bs).2

/-! ## Messages (R634) -/

/-- What a message is on the link: with its tag at the end where the channel is protected (R630). -/
def messageWire (h : Hub) (l : Nat) (bs : Bytes) : Bytes :=
  if tagChecked h l then (leatSeal h l (nextNonce h l) bs).1 ++ (leatSeal h l (nextNonce h l) bs).2 else bs

/-- A message leaves when the peer's RX_FULL is 0; until then it waits with TX_BUSY. -/
def sendMessage (h : Hub) (l : Nat) : Hub :=
  let n := min 512 (h.fget (F.leat_MSG_CTL_TX_LEN l))
  if n = 0 then (h.flag (F.leat_MSG_CTL_TX_GO l) false).flag (F.leat_MSG_CTL_TX_BUSY l) false
  else if !(leatTalks h l) || (h.leatSt l).status.rxFull then h.flag (F.leat_MSG_CTL_TX_BUSY l) true
  else
    let h := h.emit (.leatMessage l (messageWire h l ((wordBytes h (F.leat_TX_MSG_BYTES l) 128).take n)))
    let h := if tagChecked h l then countSent h l else h
    let h := h.setLeat l { h.leatSt l with status := { (h.leatSt l).status with rxFull := true } }
    ((h.flag (F.leat_MSG_CTL_TX_GO l) false).flag (F.leat_MSG_CTL_TX_BUSY l) false).event (Page.leat l) 3

/-- A waiting message leaves once it can. -/
def settleMessage (h : Hub) (l : Nat) : Hub := if h.is (F.leat_MSG_CTL_TX_BUSY l) then sendMessage h l else h

/-- A message of the peer in clear, into RX_MSG. -/
def takeMessage (h : Hub) (l : Nat) (bs : Bytes) : Hub :=
  if !(leatTalks h l) || h.is (F.leat_MSG_CTL_RX_FULL l) || bs.isEmpty then h
  else
    let bs := bs.take 512
    let h := (List.range ((bs.length + 3) / 4)).foldl (fun h w => h.fset (F.leat_RX_MSG_BYTES l w) (ofBytes ((bs.drop (4 * w)).take 4))) h
    ((h.fset (F.leat_MSG_CTL_RX_LEN l) bs.length).flag (F.leat_MSG_CTL_RX_FULL l) true).event (Page.leat l) 2

/-- A frame or a message whose tag fails is discarded (R633). -/
def tagFailed (h : Hub) (l : Nat) : Hub :=
  let h := (h.bump (F.leat_ERR_AUTH_FAIL l) 1).event (Page.leat l) 4
  h.setLeat l { h.leatSt l with fails := (h.leatSt l).fails + 1 }

/-! ## Link state and security (R629–R633) -/

def heldLeat (l : Nat) (x : HeldStart) : Bool :=
  match x with
  | .leat k _ _ => k == l
  | _ => false

/-- A Leat link is trained and knows its peer. -/
def leatLinked (h : Hub) (l : Nat) (peer : LeatPeer) (s : LeatStatus) : Hub :=
  let change := (h.leatSt l).peer != peer
  let h := h.setLeat l { h.leatSt l with trained := true, peer := peer, status := s, syncHops := none, fails := 0 }
  let h := ((h.fset (F.leat_STATUS_PEER_ID l) peer.id).fset (F.leat_STATUS_PEER_LEAT l) peer.leat).fset (F.leat_STATUS_PEER_ROLE l) peer.role
  let h := (h.flag (F.leat_CTL_RETRAIN l) false).event (Page.leat l) 0
  let h := if change then h.event (Page.leat l) 6 else h
  let h := if peer.id == hubNumber h || s.hubs.any (·.id == hubNumber h) then setCause h 4 true else h
  let h := settleFabric h
  settleMessage (leatRefBack (wake (enforceFloor h 3) (38 + l)) l) l

/-- A link trains and learns its peer (R613, R617, R629); a sleeping domain only wakes (R512, R523). -/
def leatLinkUp (h : Hub) (l : Nat) (peer : LeatPeer) (s : LeatStatus) : Hub :=
  if h.present .leat l && !(h.listens (38 + l)) then wake h (38 + l)
  else if !(h.present .leat l) || (leatHold h l != 0 && leatHold h l != 3) || (h.leatSt l).trained then h
  else
    let h := holdStart (dropHeld h (heldLeat l)) 3 (.leat l peer s)
    if lowNow h 3 then h else leatLinked (dropHeld h (heldLeat l)) l peer s

/-- A link is lost (R622, R629). -/
def leatLinkDown (h : Hub) (l : Nat) : Hub :=
  let h := dropHeld h (heldLeat l)
  if !(h.leatSt l).trained then h
  else
    let h := h.setLeat l { h.leatSt l with trained := false, status := leat0.status, syncHops := none }
    let h := endUnfinished (h.event (Page.leat l) 1) (18 + l)
    leatRefLost (settleFabric h) l

/-- LEAT.CTL.RETRAIN, or 16 failed frames in one turn (R633): the link trains again. -/
def leatRetrain (h : Hub) (l : Nat) : Hub := leatLinkDown (h.flag (F.leat_CTL_RETRAIN l) true) l

/-- A write of SEC.KEY_SLOT: the link takes the slot's key, or the write is refused (R631). A write that names the slot whose key is in use
starts no new key (R630; DEDUCED, log 107). -/
def keySlot (h : Hub) (l s : Nat) : Hub :=
  if linkKeyOk h s then
    if (h.leatSt l).key = some s then h else
    settleFabric ((h.fset (F.leat_SEC_KEY_SLOT l) s).setLeat l { h.leatSt l with key := some s, sent := 0, received := 0 })
  else (h.flag (F.leat_SEC_SEC_FAULT l) true).event (Page.leat l) 7

/-- A key slot has been emptied (R631). -/
def keysGone (h : Hub) : Hub :=
  settleFabric ([0, 1].foldl (fun h l =>
    match (h.leatSt l).key with
    | some s => if (vaultSlot h s).isSome then h else h.setLeat l { h.leatSt l with key := none }
    | none => h) h)

/-- SEC.ROLL arms NEXT_SLOT as it stands (R632, R686); a slot that holds no fit key is refused as R631 says. -/
def rollKey (h : Hub) (l : Nat) : Hub :=
  if linkKeyOk h (h.fget (F.leat_SEC_NEXT_SLOT l)) then
    (h.flag (F.leat_SEC_ROLL l) true).setLeat l { h.leatSt l with armed := some (h.fget (F.leat_SEC_NEXT_SLOT l)) }
  else (h.flag (F.leat_SEC_SEC_FAULT l) true).event (Page.leat l) 7

/-- Both ends have armed a key: the new one takes over at this boundary (R632). A slot emptied since it was armed leaves no key (R631). -/
def takeRoll (h : Hub) (l : Nat) : Hub :=
  let x := h.leatSt l
  match x.armed, x.status.armed with
  | some s, true =>
    let h := h.setLeat l { x with key := if linkKeyOk h s then some s else none, armed := none, sent := 0, received := 0
                                  status := { x.status with armed := false } }
    let h := (h.fset (F.leat_SEC_KEY_SLOT l) s).flag (F.leat_SEC_ROLL l) false
    (h.flag (F.leat_STATUS_KEY_PHASE l) !(h.is (F.leat_STATUS_KEY_PHASE l))).event (Page.leat l) 5
  | _, _ => h

/-- A frame or a message from the peer has used the next number of its counter. -/
def countReceived (h : Hub) (l : Nat) : Hub :=
  if tagChecked h l then h.setLeat l { h.leatSt l with received := (h.leatSt l).received + 1 } else h

/-- After 16 failed frames in one turn the link retrains (R633). -/
def failsEnough (h : Hub) (l : Nat) : Hub := if 16 ≤ (h.leatSt l).fails then leatRetrain h l else h

/-- A message arrives; on a protected channel it ends with its tag (R630, R633, R634). -/
def receiveMessage (h : Hub) (l : Nat) (bs : Bytes) : Hub :=
  if !(leatTalks h l) then h
  else if tagChecked h l then
    let wire := bs.take (bs.length - 16)
    let nonce := peerNonce h l
    let clear := if h.fget (F.leat_CTL_SEC_MODE l) = 1 then wire
      else xorBytes wire (bytesOf wire.length (Config.gcmStream (leatKey h l) nonce))
    let ok := leatTagOk h l clear (some (bs.drop (bs.length - 16)))
    let h := countReceived h l
    if ok then takeMessage h l clear else failsEnough (tagFailed h l) l
  else takeMessage h l bs

/-- A Leat frame arrives: its pieces as their clear content, its tag where it carries one (R627, R630, R633). -/
def leatFrame (h : Hub) (l : Nat) (tag : Option Bytes) (pieces : List LeatPiece) : Hub :=
  let n := (pieces.map (·.packets.length)).sum
  if !(h.leatSt l).trained || leatHold h l != 0 then h
  else
    let bad := tagChecked h l && !(leatTagOk h l (pieces.flatMap fun p => p.packets.flatten) tag)
    let h := countReceived h l
    if bad then failsEnough (endUnfinished (tagFailed h l) (18 + l)) l
    else if h.fget (F.leat_STATUS_LSTATE l) ≠ 3 then h.bump (F.leat_ERR_RX_DISCARD l) n
    else pieces.foldl (fun h p => chainArrival h (18 + l) p.hop p.packets p.closed false p.colour p.credit 8) h

/-! ## The turn boundary (R614–R616, R621, R624, R625, R628, R632) -/

/-- What waited for the boundary: the step, the tables and the features. -/
def applyWord (h : Hub) : Hub :=
  let f := h.fabric
  let h := { h with fabric := { f with step := none, members := none, route := none, phase := none, features := none } }
  let h := match f.step with
    | none => h
    | some (d, e) =>
      let t := ofInt 40 ((h.ftime : Int) - d)
      let now := e.getD h.epoch * 2 ^ 40 + t
      let h := retime h now
      let h := { h with turn := { h.turn with lastBoundary := some now, refillAt := now + 640 } }
      (h.bump F.fabric_OFFSET_STEPS 1).event Page.sluice 3
  let conflict (t : Nat) (h : Hub) : Hub := ((h.bump F.fabric_CONFLICT_COUNT 1).fset F.fabric_CONFLICT_TABLE t).event Page.fabric 5
  let h := match f.members with
    | some m => conflict 0 (h.fset F.fabric_STATE_MEMBERS m)
    | none => h
  let h := match f.route with
    | some r => conflict 1 (setRoute h r)
    | none => h
  let h := match f.phase with
    | some p => (conflict 2 (h.fset F.sluice_TURN_PHASE_TICKS p)).event Page.sluice 3
    | none => h
  match f.features with
  | some b => (h.fset F.fabric_FEAT_AGREED_BITS b).event Page.fabric 6
  | none => h

/-- The hub becomes head (R614–R616). -/
def becomeHead (h : Hub) : Hub :=
  let h := (h.fset F.fabric_STATE_ROLE_NOW 1).fset F.fabric_STATE_HEAD_ID (hubNumber h)
  let h := (h.fset F.fabric_GEN_COUNT (h.fget F.fabric_GEN_COUNT + 1)).event Page.fabric 2
  settleForced (setCause (setCause (setCause (setCause (setCause h 0 false) 1 false) 2 false) 3 false) 5 false)

/-- No candidate is reachable (R614). -/
def noHead (h : Hub) : Hub :=
  let was := h.fget F.fabric_STATE_ROLE_NOW
  let h := (h.fset F.fabric_STATE_ROLE_NOW 0).fset F.fabric_STATE_MEMBERS 0
  setCause (if was = 0 then h else h.event Page.fabric 1) 5 true

/-- The head's part: MEMBERS, ROUTE, TOPO, QUAR_MAP, FEAT_AGREED and the sync word (R619, R624, R625, R628). -/
def headBoundary (h : Hub) : Hub :=
  let h := setRoute (h.fset F.fabric_STATE_MEMBERS (membersOf h)) (routeOf h)
  let hubs := (List.range 4).filterMap fun i => (reach h i).map (·.2)
  let q := (hubs.filter (·.quarantine)).foldl (fun n x => withBit n x.id true) (if quarantined h then 2 ^ hubNumber h else 0)
  let h := h.fset F.fabric_STATE_QUAR_MAP q
  let agreed := (hubs.filter (fun x => x.major == h.fget F.fabric_FW_VER_MAJOR)).foldl (fun n x => n &&& x.features) (h.fget F.fabric_FEATURES_BITS)
  let h := { h with fabric := { h.fabric with features := if agreed = h.fget F.fabric_FEAT_AGREED_BITS then none else some agreed } }
  sendSync (sendSync h 0 (headWord h)) 1 (headWord h)

/-- A member's part: the count of boundaries without a sync word, the loss of the head, and a candidate that takes over
(R615, R616). -/
def memberBoundary (h : Hub) : Hub :=
  let n := if h.fabric.gotSync then 0 else h.fabric.missed + 1
  let h := { h with fabric := { h.fabric with gotSync := false, missed := n } }
  let h := if n = 2 then h.event Page.fabric 7 else h
  if 4 ≤ n then
    match lowestCandidate h with
    | none => noHead h
    | some i => if i = hubNumber h then becomeHead h else h
  else if candidate h && decide (hubNumber h < h.fget F.fabric_STATE_HEAD_ID) && decide (16 ≤ h.fabric.cleanTurns) then becomeHead h
  else h

/-- Quarantine ends at the boundary after its last cause has cleared (R628). -/
def quarantineExit (h : Hub) : Hub :=
  if quarantined h && h.fget F.fabric_STATE_CAUSES == 0 then (h.flag F.fabric_STATE_QUARANTINE false).event Page.fabric 4 else h

/-- The fabric at a turn boundary. A standalone hub has left it, and only DUP_ID stays (R612, R617). -/
def fabricBoundary (h : Hub) : Hub :=
  if !(h.present .fabric 0) then h
  else if standalone h then
    let h := if h.fget F.fabric_STATE_ROLE_NOW = 0 then h else h.event Page.fabric 1
    let h := ((h.fset F.fabric_STATE_ROLE_NOW 0).fset F.fabric_STATE_MEMBERS 0).fset F.fabric_STATE_TOPO 0
    settleFabric (quarantineExit ([0, 1, 2, 3, 5, 6].foldl (fun h b => setCause h b false) h))
  else
    let inside := quarantined h
    let h := quarantineExit (applyWord h)
    let h := { h with fabric := { h.fabric with cleanTurns := if inside then 0 else h.fabric.cleanTurns + 1 } }
    let h := match h.fget F.fabric_STATE_ROLE_NOW with
      | 1 => h
      | 2 => memberBoundary h
      | _ => match lowestCandidate h with
        | none => noHead h
        | some i => if i = hubNumber h then becomeHead h else setCause h 5 false
    let h := (h.fset F.fabric_STATE_TOPO (topology h))
    let h := takeRoll (takeRoll h 0) 1
    let h := [0, 1].foldl (fun h l => h.setLeat l { h.leatSt l with fails := 0 }) h
    let h := if h.fget F.fabric_STATE_ROLE_NOW = 1 then headBoundary h
      else if h.fget F.fabric_STATE_ROLE_NOW = 0 then h.fset F.fabric_FEAT_AGREED_BITS (h.fget F.fabric_FEATURES_BITS) else h
    settleMessage (settleMessage (settleFabric h) 0) 1

end Sys2Proof.Machine
end

