-- ==== Sys2Proof/Machine/Flags.lean ====
section
/-! DEFINITION. Interrupt flags: the assigned EVENT bits of each page, its INT_LINE bits (R43), and the raw line of every
Cue source (R564). -/

namespace Sys2Proof.Machine

/-- The EVENT bits that a page's chapter assigns. -/
def eventMask (k : Kind) (i : Nat) : Nat :=
  match k with
  | .chip | .miller => 1
  | .pwr => 0x30F
  | .clk => 0x7F
  | .cue0 => 0x1FF
  | .pstk => 0xF01
  | .tally => 0xF0101
  | .vault => 0x301
  | .bist => 7
  | .typec => 0x1FF7F
  | .link | .mill | .usbhub => 0x3F
  | .weir => if i = 12 then 0x37F else 0x7F
  | .hopper => 0x7F
  | .sluice | .dpo | .ethmac | .pciedn => 0x1F
  | .sluiceOut | .tailrace | .aud => 7
  | .gate => 0x3FF
  | .reel => 0xF
  | .proj => 0xFF0F
  | .slice | .leat | .fabric => 0xFF
  | .dockfn => 0x1FF
  | _ => 0

/-- The EVENT bits of a page's source m. -/
def sourceMask (k : Kind) (i m : Nat) : Nat :=
  let all := eventMask k i
  match pageSources k i, m with
  | 1, 0 => all
  | 2, 0 => all % 2 ^ 8
  | 2, 1 => all / 2 ^ 8 * 2 ^ 8
  | 3, 0 => all % 2 ^ 8
  | 3, 1 => all / 2 ^ 8 % 2 ^ 8 * 2 ^ 8
  | 3, 2 => all / 2 ^ 16 * 2 ^ 16
  | _, _ => 0

/-- INT_LINE bit m of a page (R43). -/
def intLine (h : Hub) (k : Kind) (i page m : Nat) : Bool :=
  (h.fget (F.hdr_INT_STAT_EVENT page) &&& h.fget (F.hdr_INT_EN_EN page) &&& sourceMask k i m) != 0

/-- The page and its source that feed a Cue source (R110, R155–R159, R225, R264, R310, R340, R395, R427–R431, R469, R501,
R535, R562, R586, R608, R639–R641, R664–R666). -/
def sourcePage (id : Nat) : Option (Kind × Nat × Nat) :=
  if id = 1 then some (.chip, 0, 0)
  else if id = 2 then some (.miller, 0, 0)
  else if id = 4 ∨ id = 5 then some (.pwr, 0, id - 4)
  else if id = 6 then some (.clk, 0, 0)
  else if id = 7 then some (.cue0, 0, 0)
  else if id = 16 ∨ id = 17 then some (.pstk, 0, id - 16)
  else if 24 ≤ id ∧ id ≤ 26 then some (.tally, 0, id - 24)
  else if id = 32 ∨ id = 33 then some (.vault, 0, id - 32)
  else if id = 40 then some (.bist, 0, 0)
  else if 48 ≤ id ∧ id < 96 then
    let n := (id - 48) / 4
    match id % 4 with
    | 0 => some (.typec, n, 0)
    | 1 => some (.typec, n, 1)
    | 2 => some (.link, n, 0)
    | _ => if n < 4 then some (.slice, n, 0) else none
  else if 96 ≤ id ∧ id < 110 then some (.weir, id - 96, 0)
  else if id = 110 then some (.weir, 12, 1)
  else if id = 112 then some (.mill, 0, 0)
  else if id = 113 then some (.hopper, 0, 0)
  else if id = 114 then some (.sluice, 0, 0)
  else if 115 ≤ id ∧ id < 139 then some (.sluiceOut, id - 115, 0)
  else if 144 ≤ id ∧ id < 148 then some (.gate, id - 144, 0)
  else if 148 ≤ id ∧ id < 156 then some (.proj, (id - 148) / 2, (id - 148) % 2)
  else if id = 156 ∨ id = 157 then some (.dpo, id - 156, 0)
  else if id = 176 then some (.reel, 0, 0)
  else if 192 ≤ id ∧ id < 196 then some (.usbhub, id - 192, 0)
  else if 196 ≤ id ∧ id < 200 then some (.dockfn, id - 196, 0)
  else if id = 200 then some (.aud, 0, 0)
  else if id = 224 then some (.tailrace, 0, 0)
  else if id = 225 ∨ id = 226 then some (.ethmac, id - 225, 0)
  else if id = 232 ∨ id = 233 then some (.pciedn, id - 232, 0)
  else if id = 240 ∨ id = 241 then some (.leat, id - 240, 0)
  else if id = 242 then some (.fabric, 0, 0)
  else none

/-- The first address of a page. -/
def pageBase (k : Kind) (i : Nat) : Nat :=
  match allPages.find? (fun q => q.1 == k && q.2.1 == i) with
  | some q => q.2.2
  | none => 0

/-- Interrupt level of a NIC (R343). -/
def nicLine (h : Hub) (s : Nat) : Bool :=
  ((h.fget (F.nic_INT_STAT_RING s) + 256 * h.fget (F.nic_INT_STAT_RX_NOBUF s)) &&& h.fget (F.nic_INT_EN_EN s)) != 0

/-- The level of a GPIO source (R683). -/
def gpioLine (h : Hub) (g : Nat) : Bool :=
  if (h.fget F.misc_GPIO_EDGE_EN_EN).testBit g then (h.fget F.misc_GPIO_EDGE_SEEN).testBit g
  else xor ((h.fget F.misc_GPIO_IN_IN).testBit g) ((h.fget F.misc_GPIO_POL_INV).testBit g)

/-- The raw line of a Cue source (R8, R564, R581). -/
def rawLine (h : Hub) (id : Nat) : Bool :=
  if 256 ≤ id ∧ id < 288 then gpioLine h (id - 256)
  else if 288 ≤ id ∧ id < 292 then !(Tbl.get (fun _ => []) h.tally.inbox (id - 287)).isEmpty
  else if 292 ≤ id ∧ id < 512 then (h.fget (F.cue3_DB_SET_BELLS ((id - 288) / 32))).testBit ((id - 288) % 32)
  else if 227 ≤ id ∧ id < 231 then h.present .nic (id - 227) && nicLine h (id - 227)
  else match sourcePage id with
    | some (k, i, m) => h.present k i && intLine h k i (pageBase k i) m
    | none => false

end Sys2Proof.Machine
end

