-- ==== Sys2Proof/Machine/Cue.lean ====
section
/-! DEFINITION. Cue: filtering, arbitration, claim, completion, delivery and doorbells (R564–R587). -/

namespace Sys2Proof.Machine

/-! ## Sources (R565, R566, R583) -/

/-- A target is present (R583). -/
def targetPresent (h : Hub) (t : Nat) : Bool := decide (t < 4) || (decide (t < 8) && h.present .slice (t - 4))

/-- The filtered level of a source (R565). -/
def cueLevel (h : Hub) (id : Nat) : Bool :=
  if h.fget (F.cue1_SRC_FILTER_N id) = 0 then rawLine h id else h.cue.level.testBit id

/-- A source is pending (R566). -/
def cuePending (h : Hub) (id : Nat) : Bool :=
  decide (0 < id) && h.is (F.cue1_SRC_EN id) && targetPresent h (h.fget (F.cue1_SRC_TARGET id)) && !(h.cue.active.testBit id)
    && cueLevel h id

def cuePrio (h : Hub) (id : Nat) : Nat := h.fget (F.cue1_SRC_PRIO id)

/-- group(p) for a target (R567). -/
def cueGroup (h : Hub) (t p : Nat) : Nat := p / 2 ^ (6 - min 6 (h.fget (F.cue0_TCTL_GROUP_BITS t)))

def cueThreshold (h : Hub) (t : Nat) : Nat := min 64 (h.fget (F.cue0_TCTL_THRESHOLD t))

def cueDepth (h : Hub) (t : Nat) : Nat := h.fget (F.cue0_TSTAT_DEPTH t)

def cueFrozen (h : Hub) (t : Nat) : Bool := h.is (F.cue0_TSTAT_FROZEN t)

/-- A claim whose source falls before its target has read the source's page is vanishing (R576); doorbells never are. -/
def noteGone (h : Hub) (id : Nat) : Hub :=
  if 288 ≤ id ∨ cueLevel h id then h
  else (List.range 128).foldl (fun h k =>
    if h.is (F.cue0_STACK_VALID (k / 16) (k % 16)) && h.fget (F.cue0_STACK_ID (k / 16) (k % 16)) == id && !(h.cue.seen.testBit k)
    then { h with cue := { h.cue with gone := withBit h.cue.gone k true } } else h) h

/-- The filter of a source takes the raw line's value (R565); a source that asserts wakes its page's domain (R512). -/
def filterSource (h : Hub) (id : Nat) : Hub :=
  if id = 0 ∨ 512 ≤ id then h
  else
    let v := rawLine h id
    let h := noteGone { h with cue := { h.cue with level := withBit h.cue.level id v } } id
    match v, sourcePage id with
    | true, some (k, i, _) => wake h (k.domain i)
    | _, _ => h

/-! ## Delivery (R578–R580) -/

/-- The address that the entry of a vector gives its message. -/
def msixAddr (h : Hub) (s v : Nat) : Nat := 4 * h.fget (F.msix_ADDR_LO_ADDR s v) + 2 ^ 32 * h.fget (F.msix_ADDR_HI_ADDR s v)

/-- A vector is masked, by itself or with its function (R579). -/
def msixMasked (h : Hub) (s v : Nat) : Bool := h.is (F.msix_CTL_FUNC_MASK s) || h.is (F.msix_VECTOR_CTL_MASK s v)

/-- MSI-X messages that wait enter the outbound queue once no host read of the slice waits (R372). -/
def flushMsix (h : Hub) (s : Nat) : Hub :=
  let l := Tbl.get (fun _ => []) h.cue.waiting s
  if hostReadWaits h s || l.isEmpty then h
  else
    let x := h.penSt s
    let h := { h with cue := { h.cue with waiting := Tbl.put (fun _ => []) h.cue.waiting s [] } }
    admitOut (h.setPen s { x with blocked := x.blocked ++ l.map fun v => (.msix v (msixAddr h s v) (h.fget (F.msix_DATA_DATA s v)), none) }) s

/-- An MSI-X message of an unmasked vector waits for its slice's outbound queue. -/
def queueMsix (h : Hub) (s vector : Nat) : Hub :=
  let l := Tbl.get (fun _ => []) h.cue.waiting s
  let h := { h with cue := { h.cue with waiting := Tbl.put (fun _ => []) h.cue.waiting s (l ++ [vector]) } }
  flushMsix (if hostReadWaits h s then h.bump F.pstk_YIELDS_COUNT 1 else h) s

/-- Cue sends an MSI-X message to a slice; a mask defers it, its pending bit set (R579). Before the host enables MSI-X there is none. -/
def sendMsix (h : Hub) (s vector : Nat) : Hub :=
  if !(h.is (F.msix_CTL_ENABLE s)) then h
  else if msixMasked h s vector then h.putBit (F.msix_PBA_PENDING s) vector true
  else queueMsix h s vector

/-- Deferred messages whose vectors are no longer masked go out, the lowest vector first (R579). -/
def msixUnmasked (h : Hub) (s : Nat) : Hub :=
  (List.range 32).foldl (fun h v =>
    if h.bit (F.msix_PBA_PENDING s) v && h.is (F.msix_CTL_ENABLE s) && !(msixMasked h s v) then
      queueMsix (h.putBit (F.msix_PBA_PENDING s) v false) s v
    else h) h

/-- LINE of a slice's target has fallen: what it deferred is no longer pending, but for the vector of a fault that still freezes the
target (R579; assumption log 97). -/
def msixSatisfied (h : Hub) (t : Nat) : Hub :=
  let v := Tbl.get (fun _ => 0) h.cue.lineVec (t - 4)
  if t < 4 ∨ (cueFrozen h t ∧ h.fget (F.cue0_TCTL_VEC_FAULT t) = v) then h else h.putBit (F.msix_PBA_PENDING (t - 4)) v false

/-! ## Arbitration (R568) -/

/-- BEST of a target: the least PRIO, the least ID among equals. -/
def cueBest (h : Hub) (t : Nat) : Nat :=
  ((List.range 512).filter fun id => cuePending h id && h.fget (F.cue1_SRC_TARGET id) == t && decide (cuePrio h id < cueThreshold h t)).foldl
    (fun b id => if b = 0 ∨ cuePrio h id < cuePrio h b then id else b) 0

/-- LINE of a target with a BEST (R568, R578). -/
def cueLine (h : Hub) (t best : Nat) : Bool :=
  h.is F.cue0_CTL_EN && best != 0 && !(cueFrozen h t) && decide (cueDepth h t < 16) &&
    (cueDepth h t == 0 || decide (cueGroup h t (cuePrio h best) < cueGroup h t (h.fget (F.cue0_TSTAT_TOP_PRIO t))))

/-- One target is arbitrated; a rise of LINE sends a slice its MSI-X message (R579). -/
def arbitrate1 (h : Hub) (t : Nat) : Hub :=
  if !(targetPresent h t) then h
  else
    let best := cueBest h t
    let line := cueLine h t best
    let old := h.is (F.cue0_TSTAT_LINE t)
    let h := (h.fset (F.cue0_BEST_ID t) best).flag (F.cue0_TSTAT_LINE t) line
    let h := if old && !line then msixSatisfied h t else h
    if line && !old && decide (4 ≤ t) then
      let v := h.fget (F.cue1_SRC_VECTOR best)
      sendMsix { h with cue := { h.cue with lineVec := Tbl.put (fun _ => 0) h.cue.lineVec (t - 4) v } } (t - 4) v
    else h

def arbitrate (h : Hub) : Hub :=
  let h := [0, 1, 2, 3].foldl flushMsix h
  (List.range 8).foldl arbitrate1 h

/-! ## Claim, complete and the stack (R570–R577) -/

/-- The top of a stack, and TOP_PRIO that follows it. -/
def cueTop (h : Hub) (t : Nat) : Nat := if cueDepth h t = 0 then 0 else h.fget (F.cue0_STACK_ID t (cueDepth h t - 1))

def settleTop (h : Hub) (t : Nat) : Hub :=
  h.fset (F.cue0_TSTAT_TOP_PRIO t) (if cueDepth h t = 0 then 0 else h.fget (F.cue0_STACK_PRIO t (cueDepth h t - 1)))

def stackBit (h : Hub) (k : Nat) (seen gone : Bool) : Hub :=
  { h with cue := { h.cue with seen := withBit h.cue.seen k seen, gone := withBit h.cue.gone k gone } }

/-- The latch of a software doorbell. -/
def doorbell (h : Hub) (id : Nat) (on : Bool) : Hub :=
  if 292 ≤ id ∧ id < 512 then h.putBit (F.cue3_DB_SET_BELLS ((id - 288) / 32)) ((id - 288) % 32) on else h

/-- A read of CLAIM t (R570, R571): the hub after it and the ID it returns. -/
def claim (h : Hub) (t : Nat) : Hub × Nat :=
  let id := h.fget (F.cue0_BEST_ID t)
  if !(targetPresent h t) || !(h.is (F.cue0_TSTAT_LINE t)) || id == 0 || cueFrozen h t then (h, 0)
  else
    let d := cueDepth h t
    let p := cuePrio h id
    let raced := !(h.is (F.cue1_SRC_EN id)) || !(cueLevel h id) || decide (cueThreshold h t ≤ p)
    let h := ((h.fset (F.cue0_STACK_ID t d) id).fset (F.cue0_STACK_PRIO t d) p).flag (F.cue0_STACK_VALID t d) true
    let h := settleTop (h.fset (F.cue0_TSTAT_DEPTH t) (d + 1)) t
    let h := stackBit h (16 * t + d) false false
    let h := { h with cue := { h.cue with active := withBit h.cue.active id true } }
    let h := if raced then h.bump (F.cue0_COUNTS_RACED t) 1 else h
    let h := doorbell h id false
    let h := if d + 1 = 16 then h.event Page.cue0 8 else h
    (arbitrate1 h t, id)

/-- The page that feeds a source, by its address (R340, R564). -/
def feedingPage (id : Nat) : Option Nat :=
  if 227 ≤ id ∧ id < 231 then some (Page.nic (id - 227)) else (sourcePage id).map fun p => pageBase p.1 p.2.1

/-- A read of offset 0x010 or 0x01C of a page by the claiming target (R576). -/
def pageSeen (h : Hub) (t page : Nat) : Hub :=
  (List.range 16).foldl (fun h d =>
    let id := h.fget (F.cue0_STACK_ID t d)
    if h.is (F.cue0_STACK_VALID t d) && feedingPage id == some page && !(h.cue.seen.testBit (16 * t + d)) then
      let h := noteGone h id
      { h with cue := { h.cue with seen := withBit h.cue.seen (16 * t + d) true } }
    else h) h

/-- The top entry of a stack is popped (R573, R576). -/
def popStack (h : Hub) (t : Nat) : Hub :=
  let d := cueDepth h t - 1
  let id := h.fget (F.cue0_STACK_ID t d)
  let h := noteGone h id
  let h := if h.cue.gone.testBit (16 * t + d) then h.bump (F.cue0_COUNTS_VANISHED t) 1 else h
  let h := ((h.fset (F.cue0_STACK_ID t d) 0).fset (F.cue0_STACK_PRIO t d) 0).flag (F.cue0_STACK_VALID t d) false
  let h := stackBit h (16 * t + d) false false
  let h := { h with cue := { h.cue with active := withBit h.cue.active id false } }
  settleTop (h.fset (F.cue0_TSTAT_DEPTH t) d) t

/-- A write of COMPLETE t (R573, R578, R579, R584). -/
def complete (h : Hub) (t id : Nat) : Hub :=
  if !(targetPresent h t) || cueFrozen h t then h
  else if 0 < cueDepth h t ∧ cueTop h t = id then arbitrate1 (popStack h t) t
  else
    let h := (h.fset (F.cue0_FAULT_ID t) id).fset (F.cue0_FAULT_TOP_ID t) (cueTop h t)
    let h := if h.is (F.cue0_TSTAT_LINE t) then msixSatisfied h t else h
    let h := ((h.flag (F.cue0_TSTAT_FROZEN t) true).flag (F.cue0_TSTAT_LINE t) false).event Page.cue0 t
    if 4 ≤ t then sendMsix h (t - 4) (h.fget (F.cue0_TCTL_VEC_FAULT t)) else h.emit (.coreNmi t)

/-- STACK_RESET, a slice reset, an FLR or a core reset on a target (R574, R577). -/
def stackReset (h : Hub) (t : Nat) : Hub :=
  if !(targetPresent h t) then h
  else
    let h := (List.range 16).foldl (fun h d =>
      let id := h.fget (F.cue0_STACK_ID t d)
      let h := if h.is (F.cue0_STACK_VALID t d) then { h with cue := { h.cue with active := withBit h.cue.active id false } } else h
      let h := ((h.fset (F.cue0_STACK_ID t d) 0).fset (F.cue0_STACK_PRIO t d) 0).flag (F.cue0_STACK_VALID t d) false
      stackBit h (16 * t + d) false false) h
    settleTop ((h.fset (F.cue0_TSTAT_DEPTH t) 0).flag (F.cue0_TSTAT_FROZEN t) false) t

/-- A write to DB_SET or DB_CLR word w (R581). -/
def doorbells (h : Hub) (w v : Nat) (on : Bool) : Hub :=
  (List.range 32).foldl (fun h b => if v.testBit b then doorbell h (288 + 32 * w + b) on else h) h

end Sys2Proof.Machine
end

