-- ==== Sys2Proof/Machine/Tally.lean ====
section
/-! DEFINITION. Tally: words, slots, events and inboxes (R377–R396). -/

namespace Sys2Proof.Machine

/-! ## Words (R377–R382) -/

/-- An entry is on: KIND not 0 and a reader that exists (R396). -/
def wordOn (h : Hub) (w : Nat) : Bool :=
  h.fget (F.tallyTab_MAP_CTL_KIND w) != 0 && decide (h.fget (F.tallyTab_MAP_CTL_READER w) < 6)

def lastSent (h : Hub) (w : Nat) : Nat := Tbl.get (fun _ => 0) h.tally.sent w

/-- VALUE takes a new value; one that had not been sent counts as superseded (R380). -/
def wordUpdate (h : Hub) (w v : Nat) : Hub :=
  let old := h.fget (F.tallyTab_MAP_VALUE_VALUE w)
  let v := v % 2 ^ 32
  if v = old then h
  else
    let h := if old = lastSent h w then h else h.fset F.tally_SUPERSEDED_COUNT (h.fget F.tally_SUPERSEDED_COUNT + 1)
    h.fset (F.tallyTab_MAP_VALUE_VALUE w) v

/-- A KIND 1 source that is never sampled (R378); otherwise its page. -/
def sampleOk (h : Hub) (w : Nat) : Option (Kind × Nat × Nat) :=
  let a := h.fget (F.tallyTab_MAP_SRC_ADDR w) / 4 * 4
  match pageAt a with
  | none => none
  | some (k, i, base) =>
    if 0x100000 ≤ a ∨ a - base < 0x40 ∨ 0xF00 ≤ a - base then none else some (k, i, a)

/-- A slot takes a value (R381, R382). -/
def slotReceive (h : Hub) (slot value word hub reader : Nat) : Hub :=
  let h := (h.fset (F.tallyTab_SLOT_VALUE_VALUE slot) value).fset (F.tallyTab_SLOT_INFO_SRC_WORD slot) word
  let h := (h.fset (F.tallyTab_SLOT_INFO_SRC_HUB slot) hub).fset (F.tallyTab_SLOT_INFO_READER slot) reader
  h.fset (F.tallyTab_SLOT_INFO_SEQ slot) (h.fget (F.tallyTab_SLOT_INFO_SEQ slot) + 1)

/-- A changed word is sent to its slot (R380); toward a hub that no link reaches it is kept (R387). -/
def wordSend (h : Hub) (w : Nat) : Hub :=
  let v := h.fget (F.tallyTab_MAP_VALUE_VALUE w)
  let hub := h.fget (F.tallyTab_MAP_CTL_HUB w)
  let slot := h.fget (F.tallyTab_MAP_CTL_SLOT w)
  let reader := h.fget (F.tallyTab_MAP_CTL_READER w)
  let done (h : Hub) : Hub :=
    { h.fset F.tally_SENT_COUNT (h.fget F.tally_SENT_COUNT + 1) with
      tally := { h.tally with sent := Tbl.put (fun _ => 0) h.tally.sent w v } }
  if !(h.is F.tally_CTL_EN) || !(wordOn h w) || v == lastSent h w then h
  else if hub = hubNumber h then done (slotReceive h slot v w hub reader)
  else match routeTo h hub with
    | some l => done (h.emit (.tallyWord l hub slot v w reader))
    | none => h

/-! ## Events (R383–R388) -/

def inbox (h : Hub) (t : Nat) : List TEvent := Tbl.get (fun _ => []) h.tally.inbox t

def setInbox (h : Hub) (t : Nat) (l : List TEvent) : Hub :=
  { h with tally := { h.tally with inbox := Tbl.put (fun _ => []) h.tally.inbox t l } }

/-- FW_INBOX and BMC_INBOX hold while their inbox does (R388, R394). -/
def settleInbox (h : Hub) : Hub :=
  (h.putBit (F.hdr_INT_STAT_EVENT Page.tally) 0 !(inbox h 0).isEmpty).putBit (F.hdr_INT_STAT_EVENT Page.tally) 8 !(inbox h 5).isEmpty

/-- An event enters an inbox of this hub, or is dropped when it is full (R385). -/
def inboxPush (h : Hub) (t : Nat) (e : TEvent) : Hub :=
  if 16 ≤ (inbox h t).length then (h.bump F.tally_INBOX_FULL_COUNT 1).event Page.tally 17
  else settleInbox (setInbox h t (inbox h t ++ [e]))

/-- A KIND 3 word takes an event (R377). -/
def eventWord (h : Hub) (arg w : Nat) : Hub :=
  let v := h.fget (F.tallyTab_MAP_VALUE_VALUE w)
  wordUpdate h w (arg % 2 ^ 16 + 2 ^ 16 * ((v / 2 ^ 16 + 1) % 2 ^ 16))

def eventWords (h : Hub) (id : Nat) : List Nat :=
  (List.range 256).filter fun w => h.fget (F.tallyTab_MAP_CTL_KIND w) == 3 && wordOn h w && h.fget (F.tallyTab_MAP_CTL_EVENT_ID w) == id

def routeEntry (h : Hub) (id : Nat) : Option Nat :=
  (List.range 128).find? fun i => h.is (F.tallyTab_ROUTE_KEY_EN i) &&
    (id &&& h.fget (F.tallyTab_ROUTE_KEY_MASK i)) == (h.fget (F.tallyTab_ROUTE_KEY_MATCH i) &&& h.fget (F.tallyTab_ROUTE_KEY_MASK i))

def unrouted (h : Hub) : Hub := (h.bump F.tally_DROPS_UNROUTED 1).event Page.tally 16

/-- Delivery to an inbox of a hub (R385, R387). -/
def deliverEvent (h : Hub) (hub t : Nat) (e : TEvent) : Hub :=
  if 6 ≤ t then unrouted h
  else if hub = hubNumber h then inboxPush h t e
  else match routeTo h hub with
    | some l => h.emit (.tallyEvent l hub t e)
    | none => (h.bump F.tally_DROPS_UNREACHABLE 1).event Page.tally 19

/-- Routing (R384); ID 0 raises nothing, and CTL.EN = 0 routes no event. -/
def routeEvent (h : Hub) (e : TEvent) : Hub :=
  if e.id = 0 ∨ !(h.is F.tally_CTL_EN) then h
  else match eventWords h e.id with
    | w :: ws => (w :: ws).foldl (fun h w => eventWord h e.arg w) h
    | [] =>
      match routeEntry h e.id with
      | none => unrouted h
      | some i => deliverEvent (h.bump (F.tallyTab_ROUTE_DEST_HITS i) 1) (h.fget (F.tallyTab_ROUTE_DEST_HUB i)) (h.fget (F.tallyTab_ROUTE_DEST_TARGET i)) e

/-- The reader code of a requester (R385): firmware and JTAG read inbox 0. -/
def readerOf : Req → Nat
  | .slice s => 1 + s.val
  | .miller _ => 0
  | .bmc => 5
  | .jtag => 6

/-- An INBOX word (R393). -/
def eventBits (e : TEvent) : Nat := e.id % 2 ^ 12 + 2 ^ 12 * (e.hub % 4) + 2 ^ 14 * (e.kind % 4) + 2 ^ 16 * (e.arg % 2 ^ 16)

/-- A read of INBOX t (R386). -/
def inboxRead (h : Hub) (req : Req) (t : Nat) : Hub × Nat :=
  if readerOf req ≠ t ∧ req ≠ .jtag then (ownerFault h, 0)
  else match inbox h t with
    | [] => (h, 0)
    | e :: l => (settleInbox (setInbox h t l), eventBits e)

end Sys2Proof.Machine
end

