-- ==== Sys2Proof/Machine/Paths.lean ====
section
/-! DEFINITION. The path table entries that the hub writes: those of a connection manager (R79–R81, R231, R232) and those it
keeps for itself (R333, R369, R402), with the lowest free entry (R689) and the clearing of VALID (R89, R98, R127). -/

namespace Sys2Proof.Machine

/-- An entry as the hub writes it. -/
structure Entry where
  ingress : Nat
  hop : Nat
  outlet : Nat
  outHop : Nat
  cls : Nat
  credited : Bool
  elastic : Bool
  cut : Bool
  weight : Nat
  shapeRate : Nat
  reserved : Nat
  owner : Nat

/-- An entry is free (R689). -/
def entryFree (h : Hub) (p : Nat) : Bool :=
  !(h.is (F.path_CTL_VALID p)) && !(h.ais (F.path_CTL_VALID p)) && !(h.is (F.path_CTL_PENDING p))
    && h.fget (F.path_QUEUE_QUEUED p) == 0 && h.fget (F.path_CREDIT_CRED_OUT p) == 0

/-- The lowest free entry. -/
def freeEntry (h : Hub) : Option Nat := (List.range 1024).find? (entryFree h)

/-- The hub writes an entry: every field of the staged copy, CTL last (R124). -/
def stageEntry (h : Hub) (p : Nat) (e : Entry) : Hub :=
  let lo := Page.path + 64 * p
  let h := clearKeys' (setAuxGate h p none) lo
  let h := (h.fset (F.path_ROUTE_OUT_OUTLET p) e.outlet).fset (F.path_ROUTE_OUT_HOP p) e.outHop
  let h := (h.fset (F.path_SHAPE_WEIGHT p) e.weight).fset (F.path_RATE_SHAPE_RATE p) e.shapeRate
  let h := (h.fset (F.path_RSV_RESERVED_RATE p) e.reserved).fset (F.path_CTL_CLASS p) e.cls
  let h := (h.flag (F.path_CTL_MODE p) e.credited).flag (F.path_CTL_CUT p) e.cut
  let h := (h.flag (F.path_CTL_RATE_MODE p) e.elastic).fset (F.path_CTL_OWNER p) e.owner
  let h := (h.fset (F.path_CTL_HUB p) (hubNumber h)).fset (F.path_CTL_IN_OUTLET p) e.ingress
  ((h.fset (F.path_CTL_IN_HOP p) e.hop).flag (F.path_CTL_VALID p) true).flag (F.path_CTL_PENDING p) true
where
  /-- The staged copy of the entry returns to 0. -/
  clearKeys' (h : Hub) (lo : Nat) : Hub :=
    { h with regs := Tbl.keep (fun k => !(decide (32 * lo ≤ k) && decide (k < 32 * (lo + 0x20)))) h.regs }

def cmPath (h : Hub) (p : Nat) : Option CmPath := Tbl.get (fun _ => none) h.cmPaths p

def setCmPath (h : Hub) (p : Nat) (c : Option CmPath) : Hub :=
  { h with cmPaths := Tbl.put (fun _ => none) h.cmPaths p c }

/-- R80. -/
def scaledWeight (h : Hub) (s w : Nat) : Nat := min 4095 (max 1 (w * max 1 (h.fget (F.slice_WEIGHT_SCALE_SCALE s))))

/-- The Gate that a DP OUT adapter of a slice is bound to (R231). -/
def boundGate (h : Hub) (s adapter : Nat) : Option Nat :=
  let c := bindCode h s adapter
  if decide (0x11 ≤ c) && decide (c ≤ 0x14) && bindHolds h (4 * s + adapter) then some (c - 0x11) else none

/-- An ingress point or an outlet is an adapter of a slice: its own host port, what it owns, and the internal units. -/
def pointOfSlice (h : Hub) (s k : Nat) : Bool :=
  if k < 4 then k == s
  else if k < 12 then unitOwned h (k - 4) s
  else if k = 12 ∨ k = 13 then unitOwned h (k + 2) s
  else if k = 16 ∨ k = 17 then unitOwned h (k - 8) s
  else k == 20 || k == 22 || k == 23

/-- The egress of a path is USB4: the port's link runs a USB4 mode. -/
def egressUsb4 (h : Hub) (o : Nat) : Bool := decide (o < 12) && usb4Mode (h.fget (F.link_LINK_STATUS_MODE o))

/-- The defaults of R79 for a path of a connection manager; a path to a Gate is CREDITED (R231), an AUX path of class 0. -/
def cmEntry (h : Hub) (r : PathReq) : Entry :=
  let s := r.slice.val
  let fixed := h.fget F.sluice_FIXED_DEFAULT_RATE
  let base (cls : Nat) (credited elastic cut : Bool) (rsv : Nat) : Entry :=
    { ingress := r.ingress, hop := r.hop, outlet := r.outlet, outHop := r.outHop, cls := cls, credited := credited
      elastic := elastic, cut := cut, weight := scaledWeight h s r.weight, shapeRate := if elastic || rsv != 0 then 0 else fixed
      reserved := rsv, owner := s }
  let rsv := min (256 * grantPackets r.mbps) (2 ^ 24 - 1)
  let gate := r.outlet == 20 && (boundGate h s r.adapter).isSome
  match r.kind with
  | .dpOut => base 1 gate false false rsv
  | .dpAux => base 0 gate false false rsv
  | .dpIn => base 1 false false false rsv
  | .pcie => base 2 true true (egressUsb4 h r.outlet) 0
  | .usb3 => base 4 true true (egressUsb4 h r.outlet) 0
  | .transit =>
    if r.hop = 0 then base 0 true false true 0
    else
      let c := h.fget (F.slice_PRIO_MAP_CLASS s (r.prio % 8))
      base c (c != 1) (decide (2 ≤ c)) true 0

/-- A main-link path is recorded in the Gate that its adapter is bound to, and an AUX path with it (R232). -/
def recordBind (h : Hub) (r : PathReq) (p : Nat) : Hub :=
  if r.kind == .dpOut && r.outlet == 20 then
    match boundGate h r.slice.val r.adapter with
    | some g =>
      let h := (h.fset (F.gate_BIND_PATH g) p).fset (F.gate_BIND_SLICE g) r.slice.val
      (h.fset (F.gate_BIND_ADAPTER g) r.adapter).flag (F.gate_BIND_BOUND g) true
    | none => h
  else if r.kind == .dpAux && r.outlet == 20 then setAuxGate h p (boundGate h r.slice.val r.adapter)
  else h

/-- BOUND clears when the entry has lost VALID (R232). -/
def settleBound (h : Hub) : Hub :=
  (List.range 4).foldl (fun h g =>
    let p := h.fget (F.gate_BIND_PATH g)
    if h.is (F.gate_BIND_BOUND g) && !(h.ais (F.path_CTL_VALID p)) && !(h.is (F.path_CTL_VALID p) && h.is (F.path_CTL_PENDING p))
    then h.flag (F.gate_BIND_BOUND g) false else h) h

/-- The tunnel that a path of a connection manager toward its host establishes: PCIe or USB3 from the slice's internal
switch or hub (R333, R369, R402). -/
def tunnelKey (r : PathReq) : Option Nat :=
  if r.kind == .pcie && r.ingress == 22 && r.outlet == r.slice.val then some (2 * r.slice.val)
  else if r.kind == .usb3 && r.ingress == 23 && r.outlet == r.slice.val then some (2 * r.slice.val + 1)
  else none

def tunnel (h : Hub) (k : Nat) : Option (Nat × Nat × Nat) := Tbl.get (fun _ => none) h.tunnels k

def setTunnel (h : Hub) (k : Nat) (v : Option (Nat × Nat × Nat)) : Hub :=
  { h with tunnels := Tbl.put (fun _ => none) h.tunnels k v }

/-- R81: the quota is used up. -/
def quotaFull (h : Hub) (s : Nat) : Bool :=
  decide (min 1024 (h.fget (F.slice_PATH_QUOTA_QUOTA s)) ≤ h.fget (F.slice_PATH_QUOTA_USED s))

def refusePath (h : Hub) (s : Nat) : Hub := (h.bump (F.slice_PATHS_REFUSED_COUNT s) 1).event (Page.slice s) 5

/-- The entry that the hub created for a key. -/
def cmPathAt (h : Hub) (ingress hop : Nat) : Option Nat :=
  (h.cmPaths.map (·.1)).find? fun p =>
    (cmPath h p).isSome && h.fget (F.path_CTL_IN_OUTLET p) == ingress && h.fget (F.path_CTL_IN_HOP p) == hop

/-- A connection manager sets a path valid (R79, R81). -/
def pathValid (h : Hub) (r : PathReq) : Hub :=
  let s := r.slice.val
  if !(h.present .slice s) || !(pointOfSlice h s r.ingress) || !(pointOfSlice h s r.outlet) then h
  else if (r.kind == .dpOut || r.kind == .dpAux) && r.outlet == 20 && (boundGate h s r.adapter).isNone then h
  else if quotaFull h s then refusePath h s
  else match freeEntry h with
  | none => refusePath h s
  | some p =>
    let h := setCmPath (stageEntry h p (cmEntry h r)) p (some { slice := s, kind := r.kind, adapter := r.adapter, byCm := true })
    recordBind (h.fset (F.slice_PATH_QUOTA_USED s) (h.fget (F.slice_PATH_QUOTA_USED s) + 1)) r p

/-- The hub's own entry loses VALID through its staged copy. -/
def removeEntry (h : Hub) (p : Nat) : Hub :=
  (setCmPath h p none).flag (F.path_CTL_VALID p) false |>.flag (F.path_CTL_PENDING p) true

/-- A connection manager clears a path's Valid bit (R81). -/
def pathInvalid (h : Hub) (s ingress hop : Nat) : Hub :=
  match cmPathAt h ingress hop with
  | none => h
  | some p =>
    match cmPath h p with
    | some c =>
      if c.byCm && c.slice == s then
        (removeEntry h p).fset (F.slice_PATH_QUOTA_USED s) (h.fget (F.slice_PATH_QUOTA_USED s) - 1)
      else h
    | none => h

/-! ## Entries of the hub's own (R333, R369, R402) -/

/-- The slice's USB 3.2 port k is connected, as USBHUB.CONN shows it. -/
def usb3Connected (h : Hub) (s k : Nat) : Bool := (h.fget (F.usbhub_CONN_USB3 s)).testBit k

def sysEntry (ingress hop outlet outHop cls weight owner : Nat) : Entry :=
  { ingress := ingress, hop := hop, outlet := outlet, outHop := outHop, cls := cls, credited := true, elastic := true, cut := true
    weight := weight, shapeRate := 0, reserved := 0, owner := owner }

/-- The entries that a slice calls for now, each with the page and the event of its NO_PATH. -/
def sysWanted (h : Hub) (s : Nat) : List (Entry × Nat × Nat) :=
  if !(h.present .slice s) || h.fget (F.slice_STATUS_ROUTER s) == 6 then []
  else
    let pcie := match tunnel h (2 * s) with
      | none => []
      | some (_, hop, w) =>
        ((List.range 2).filter (fun x => unitOwned h (8 + x) s)).flatMap (fun x => (List.range 3).map fun i =>
          (sysEntry (16 + x) i s hop 2 (scaledWeight h s w) s, Page.pciedn x, 4))
        ++ [(sysEntry 22 s s hop (h.fget F.pstk_OUT_PATH_CLASS) (max 1 (h.fget F.pstk_OUT_PATH_WEIGHT)) s, Page.pstk, 10)]
    let uw := max 1 (h.fget (F.usbhub_PATH_WEIGHT_WEIGHT s))
    let ports := ((List.range 8).filter (usb3Connected h s)).flatMap fun k =>
      [sysEntry 23 (16 * s + k) (4 + k) 0 4 uw s, sysEntry (4 + k) 0 23 0 4 uw s]
    let native := usb3Mode (h.fget (F.link_LINK_STATUS_MODE s))
    let up := if h.is (F.usbhub_STATUS_UP3 s) || h.is (F.usbhub_STATUS_U3 s) then
        [sysEntry 23 (16 * s + 8) s ((tunnel h (2 * s + 1)).map (·.2.1) |>.getD 0) 4 uw s] else []
    let down := if native then [sysEntry s 0 23 0 4 uw s] else []
    pcie ++ (ports ++ up ++ down).map fun e => (e, Page.usbhub s, 5)

/-- The hub creates an entry of its own, or reports NO_PATH; one it has takes a new class, weight or hop number. -/
def keepEntry (h : Hub) (q : Entry × Nat × Nat) : Hub :=
  let e := q.1
  match cmPathAt h e.ingress e.hop with
  | some p =>
    let same := h.fget (F.path_SHAPE_WEIGHT p) == e.weight && h.fget (F.path_CTL_CLASS p) == e.cls
      && h.fget (F.path_ROUTE_OUT_HOP p) == e.outHop && h.fget (F.path_ROUTE_OUT_OUTLET p) == e.outlet
    if same then h
    else
      let h := ((h.fset (F.path_SHAPE_WEIGHT p) e.weight).fset (F.path_CTL_CLASS p) e.cls).fset (F.path_ROUTE_OUT_HOP p) e.outHop
      (h.fset (F.path_ROUTE_OUT_OUTLET p) e.outlet).flag (F.path_CTL_PENDING p) true
  | none =>
    match freeEntry h with
    | none => h.event q.2.1 q.2.2
    | some p => setCmPath (stageEntry h p e) p (some { slice := e.owner, kind := .transit, adapter := 0, byCm := false })

/-- The hub's own entries follow their conditions. -/
def settleSys (h : Hub) : Hub :=
  let want := (List.range 4).flatMap (sysWanted h)
  let gone := (h.cmPaths.map (·.1)).filter fun p =>
    match cmPath h p with
    | some c => !c.byCm && !(want.any fun q => q.1.ingress == h.fget (F.path_CTL_IN_OUTLET p) && q.1.hop == h.fget (F.path_CTL_IN_HOP p))
    | none => false
  want.foldl keepEntry (gone.foldl removeEntry h)

/-- The entry of a connection manager takes a new weight (R80). -/
def entryWeight (h : Hub) (s ingress hop w : Nat) : Hub :=
  match cmPathAt h ingress hop with
  | none => h
  | some p =>
    match cmPath h p with
    | some c => if c.byCm && c.slice == s then (h.fset (F.path_SHAPE_WEIGHT p) (scaledWeight h s w)).flag (F.path_CTL_PENDING p) true else h
    | none => h

/-- A connection manager changes a path's USB4 Weight (R80): that of its PCIe tunnel toward the host, or that of an entry. -/
def weightChange (h : Hub) (s ingress hop w : Nat) : Hub :=
  match tunnel h (2 * s) with
  | some (inHop, hp, _) =>
    if ingress = 22 ∧ inHop = hop then settleSys (setTunnel h (2 * s) (some (hop, hp, w))) else entryWeight h s ingress hop w
  | none => entryWeight h s ingress hop w

/-! ## Clearing VALID (R89, R98, R127, R186) -/

/-- Packets of a path that the hub discards: those stored, and those still to come of a chain under way, count as dropped
red. A chain that waits at a Forebay keeps its credit until it is admitted and discarded (R153). -/
def discardPath (h : Hub) (p : Nat) : Hub :=
  let ids := (h.chains.filter (·.path == p)).map (·.id)
  ids.foldl (fun h id => completeChain (discardChain h id) id false) (dropArriving h p)

/-- The packets at the Forebays that hold a credit of a path hold it no more. -/
def voidCredits (h : Hub) (p : Nat) : Hub :=
  (List.range 24).foldl (fun h i =>
    let f := h.forebay i
    if f.chains.any (·.credit == some p) then
      h.setForebay i { f with chains := f.chains.map fun x => { x with credit := if x.credit == some p then none else x.credit } }
    else h) h

/-- VALID of an entry is cleared in both copies with PENDING; its credits return and it keeps no rate (R127, R186). -/
def clearEntry (h : Hub) (p : Nat) : Hub :=
  let n := creditsOf h (· / 32 == p)
  let h := emitReturns (voidCredits (discardPath h p) p) (h.aget (F.path_CTL_IN_OUTLET p)) (h.aget (F.path_CTL_IN_HOP p)) n
  let h := { h with credits := Tbl.keep (· / 32 != p) h.credits }
  let h := (h.flag (F.path_CTL_VALID p) false).aset (F.path_CTL_VALID p) 0
  let h := ((h.flag (F.path_CTL_PENDING p) false).fset (F.path_ALLOT_ALLOT p) 0).fset (F.path_CREDIT_CRED_OUT p) 0
  let h := h.setPst p { h.pst p with arrived := 0, limitedNow := false, provisional := false }
  endFlows (setAuxGate h p none) p

/-- An entry of a connection manager ends with its slice's quota (R81). -/
def clearCmEntry (h : Hub) (p : Nat) : Hub :=
  let h := match cmPath h p with
    | some c => if c.byCm then h.fset (F.slice_PATH_QUOTA_USED c.slice) (h.fget (F.slice_PATH_QUOTA_USED c.slice) - 1) else h
    | none => h
  clearEntry (setCmPath h p none) p

/-- An entry is valid in either copy. -/
def entryUsed (h : Hub) (p : Nat) : Bool := h.is (F.path_CTL_VALID p) || h.ais (F.path_CTL_VALID p)

/-- Paths of a unit with a slice as OWNER (R89): those at its outlet; of a Gate, the path its BIND names and the AUX path of the same
adapter. An entry counts by its active copy and by its staged copy. -/
def unitPaths (h : Hub) (u s : Nat) : List Nat :=
  (List.range 1024).filter fun p =>
    let gate := gateOfPath h p == some (u - 10)
    let here (valid owner inn out : Nat) : Bool :=
      valid != 0 && owner == s && (if 10 ≤ u ∧ u < 14 then gate else inn == unitOutlet u || out == unitOutlet u)
    here (h.fget (F.path_CTL_VALID p)) (h.fget (F.path_CTL_OWNER p)) (h.fget (F.path_CTL_IN_OUTLET p)) (h.fget (F.path_ROUTE_OUT_OUTLET p))
      || here (h.aget (F.path_CTL_VALID p)) (h.aget (F.path_CTL_OWNER p)) (h.aget (F.path_CTL_IN_OUTLET p)) (h.aget (F.path_ROUTE_OUT_OUTLET p))

end Sys2Proof.Machine
end

