-- ==== Sys2Proof/Machine/Usb.lean ====
section
/-! DEFINITION. The USB hubs of the slices, the dock functions and the AUD port (R397–R432). -/

namespace Sys2Proof.Machine

/-- The speed of the USB 2.0 device on Dk. -/
def dev2 (h : Hub) (k : Nat) : Nat := Tbl.get (fun _ => 0) h.usb.dev2 k

/-- Sets or changes bits of a table of bitmaps by slice. -/
def orBits (t : Tbl Nat) (s v : Nat) : Tbl Nat := Tbl.upd (fun _ => 0) t s (· ||| v)

def setBits (t : Tbl Nat) (s n : Nat) (b : Bool) : Tbl Nat := Tbl.upd (fun _ => 0) t s (fun x => withBit x n b)

/-! ## Connections (R399, R404) -/

/-- The rate of the USB 3.2 hub's upstream as a code of SPEED3: that of the native link, Gen 2x1 over the slowest USB4 link and up to 20 Gbit/s
over any other (R72, R398; DEDUCED, log 109). -/
def up3Rate (h : Hub) (s : Nat) : Nat :=
  match h.fget (F.link_LINK_STATUS_MODE s) with
  | 7 | 9 => 2
  | 10 => 1
  | _ => 4

/-- What USB 2.0 port k and USB 3.2 port k of a slice report: SPEED2 and SPEED3 of R427, 0 when not connected. -/
def portSpeeds (h : Hub) (s k : Nat) : Nat × Nat :=
  if k = 8 then
    let v := h.fget (F.dockfn_STATUS_SPEED s)
    if v = 1 then (3, 0) else if 2 ≤ v then (0, up3Rate h s) else (0, 0)
  else if 8 < k then (0, 0)
  else if !(unitPresent h k) || !(unitOwned h k s) || unitReleased h k || h.usb.oc.testBit k then (0, 0)
  else
    let m := h.fget (F.link_LINK_STATUS_MODE (4 + k))
    if !(linkUp h (4 + k)) then (dev2 h k, 0)
    else if m = 0xD then (dev2 h k, 2)
    else if m = 8 then (0, 4)
    else if m = 9 then (0, 2)
    else if m = 10 then (0, 1)
    else (dev2 h k, 0)

/-- A port's link carries native USB 3.2, whose packets have hop number 0 (R401). -/
def usb3Link (h : Hub) (n : Nat) : Bool :=
  let m := h.fget (F.link_LINK_STATUS_MODE n)
  usb3Mode m || m == 0xD

/-- USBHUB.PORT_INFO as PORT_SEL shows it. -/
def portInfo (h : Hub) (s : Nat) : Nat :=
  let k := h.fget (F.usbhub_PORT_SEL_PORT s)
  if 8 < k then 0
  else
    let (a, b) := portSpeeds h s k
    let su := Tbl.get (fun _ => 0) h.usb.suspended s
    let oc := decide (k < 8) && h.usb.oc.testBit k && unitOwned h k s
    a + 4 * b + (if oc then 32 else 0) + (if su.testBit k || su.testBit (16 + k) then 64 else 0)

/-- The USB 3.2 hub has an upstream: EN3, and a USB3 tunnel or the host port in native USB 3.2. -/
def up3Wanted (h : Hub) (s : Nat) : Bool :=
  h.is (F.usbhub_CTL_EN3 s) && ((tunnel h (2 * s + 1)).isSome || usb3Mode (h.fget (F.link_LINK_STATUS_MODE s)))

/-- The hub's upstream is up, in U3 included. -/
def up3 (h : Hub) (s : Nat) : Bool := h.is (F.usbhub_STATUS_UP3 s) || h.is (F.usbhub_STATUS_U3 s)

/-- The speed at which the dock function connects (R404); 0: it does not. -/
def dockSpeed (h : Hub) (s : Nat) : Nat :=
  if !(h.is (F.dockfn_CTL_CONNECT s)) then 0
  else if h.is (F.dockfn_CTL_SS_EN s) && up3 h s then
    (if up3Rate h s = 1 then 2 else 3)
  else 1

/-- A stalled register access of a slice's dock function (R408). -/
def ofDock (s : Nat) (a : Access) : Bool := a.dock && (match a.req with | .slice t => t.val == s | _ => false)

/-- A control transfer in progress is aborted: a mailbox request that waits, or a register access that Penstock has not performed (R409,
R416). -/
def abortControl (h : Hub) (s : Nat) : Hub :=
  if Tbl.get (fun _ => 0) h.usb.waiting s = 0 ∧ h.stalled.any (ofDock s) = false then h
  else { h.bump (F.dockfn_CTRL_ERR_ABORTS s) 1 with
    usb := { h.usb with waiting := Tbl.put (fun _ => 0) h.usb.waiting s 0 }, stalled := h.stalled.filter fun a => !(ofDock s a) }

/-- The USB state of a dock function returns to its defaults (R416). -/
def dockDefaults (h : Hub) (s : Nat) : Hub :=
  let h := abortControl h s
  let h := (h.fset (F.dockfn_STATUS_ADDR s) 0).flag (F.dockfn_STATUS_RWAKE_EN s) false
  let h := ((h.fset (F.dockfn_STATUS_PLAY_ALT s) 0).fset (F.dockfn_STATUS_CAP_ALT s) 0).fset (F.dockfn_STATUS_RATE s) 0
  let h := ((h.flag (F.dockfn_HID_SEND s) false).flag (F.dockfn_MBOX_IN_READY s) false).flag (F.dockfn_WAKE_REQ s) false
  { h with usb := { h.usb with
      notify := withBit h.usb.notify s false, driving := withBit h.usb.driving s false
      before := Tbl.put (fun _ => 0) h.usb.before s 0, play := Tbl.put (fun _ => []) h.usb.play s []
      capture := Tbl.put (fun _ => []) h.usb.capture s [], part := Tbl.put (fun _ => 0) h.usb.part s 0
      halts := Tbl.put (fun _ => 0) h.usb.halts s 0, feats := Tbl.put (fun _ => 0) h.usb.feats s 0 } }

/-- The dock function connects, disconnects or changes the hub it connects on (R404, R405). -/
def settleDock (h : Hub) (s : Nat) : Hub :=
  let w := dockSpeed h s
  if w = h.fget (F.dockfn_STATUS_SPEED s) then h
  else ((dockDefaults h s).fset (F.dockfn_STATUS_SPEED s) w).fset (F.dockfn_STATUS_STATE s) (if w = 0 then 0 else 1)

/-- The hubs of a slice follow their ports and their upstream (R399, R427, R428). In a slice reset the dock function alone does, which reconnects at
once (R416). -/
def settleUsb1 (h : Hub) (s : Nat) : Hub :=
  if !(h.present .usbhub s) then h
  else
    let held := h.fget (F.slice_STATUS_ROUTER s) == 6
    let was := up3 h s
    let now := up3Wanted h s && !held
    let h := if was == now then h
      else (((h.flag (F.usbhub_STATUS_UP3 s) now).flag (F.usbhub_STATUS_U3 s) false).event (Page.usbhub s) 4)
    let h := settleDock h s
    let ports := if held then [8] else List.range 9
    let c2 := ports.foldl (fun n k => if (portSpeeds h s k).1 != 0 then n + 2 ^ k else n) 0
    let c3 := ports.foldl (fun n k => if (portSpeeds h s k).2 != 0 then n + 2 ^ k else n) 0
    let diff := (c2 ^^^ h.fget (F.usbhub_CONN_USB2 s)) + 2 ^ 16 * (c3 ^^^ h.fget (F.usbhub_CONN_USB3 s))
    if diff = 0 then h
    else
      let h := ((h.fset (F.usbhub_CONN_USB2 s) c2).fset (F.usbhub_CONN_USB3 s) c3).event (Page.usbhub s) 0
      { h with usb := { h.usb with connChange := orBits h.usb.connChange s diff } }

/-- The hubs of every slice, and the entries that hang on them (R402). -/
def settleUsb (h : Hub) : Hub := settleSys (enforceFloor ((List.range 4).foldl settleUsb1 h) 41)

/-- A USB 2.0 device connects to or leaves Dk (speed 0): CONNECT_CHANGE. -/
def connectChange (h : Hub) (k speed : Nat) : Hub :=
  if 8 ≤ k then h
  else settleUsb { h with usb := { h.usb with dev2 := Tbl.put (fun _ => 0) h.usb.dev2 k (min 3 speed) } }

/-- The Weir of Dk has tripped (R400, R425). -/
def overCurrent (h : Hub) (k : Nat) : Hub :=
  match unitOwner h k with
  | none => h
  | some s =>
    if unitReleased h k || h.usb.oc.testBit k then h
    else
      let h := (h.bump (F.usbhub_OC_COUNT_COUNT s) 1).event (Page.usbhub s) 3
      settleUsb { h with usb := { h.usb with oc := withBit h.usb.oc k true
                                             ocChange := orBits h.usb.ocChange s (2 ^ k + 2 ^ (16 + k)) } }

/-- The Weir of Dk is enabled again: over-current ends. -/
def overCurrentEnd (h : Hub) (k : Nat) : Hub :=
  if h.usb.oc.testBit k then settleUsb { h with usb := { h.usb with oc := withBit h.usb.oc k false } } else h

/-! ## Requests to the dock function (R406–R411) -/

def dockState (h : Hub) (s : Nat) : Nat := h.fget (F.dockfn_STATUS_STATE s)

/-- The function answers requests: connected and not suspended. -/
def dockAnswers (h : Hub) (s : Nat) : Bool := decide (1 ≤ dockState h s) && decide (dockState h s ≤ 3)

def usbStall (h : Hub) (s : Nat) : Hub := (h.bump (F.dockfn_CTRL_ERR_STALLS s) 1).emit (.usbStall s)

/-- The handshakes of the OUT data packets on endpoint 0 that carry so many bytes: at high speed NYET where no room for another is left
(R412). -/
def ep0Out (h : Hub) (s n : Nat) : Hub :=
  if h.fget (F.dockfn_STATUS_SPEED s) != 1 then h
  else (List.range ((n + 63) / 64)).foldl (fun h _ => (h.emit (.usbHandshake s (if Config.freeEp0Room h.fresh then 0 else 1))).draw) h

/-- A PING is answered with ACK only when endpoint 0 can hold a packet (R412); a mailbox that is full cannot (R410). -/
def ep0Ping (h : Hub) (s : Nat) : Hub :=
  if h.fget (F.dockfn_STATUS_SPEED s) != 1 then h
  else
    let room := Tbl.get (fun _ => 0) h.usb.waiting s != 1 && Config.freeEp0Room h.fresh
    (h.emit (.usbHandshake s (if room then 0 else 2))).draw

/-- The rate code of the AUD port at its set rate: 2, 4 or 6 (R418). -/
def portRateCode (h : Hub) : Nat :=
  match h.fget F.aud_CTL_RATE with
  | 1 => 4 | 2 => 6 | _ => 2

/-- The interfaces of the dock function, without those whose enable bit is 0 (R406). -/
def dockInterfaces (h : Hub) (s : Nat) : List DockIface :=
  let audio := h.is (F.dockfn_CTL_AUDIO_EN s)
  let all : List (Bool × DockIface) :=
    [(true, ⟨0, 0xFF, 0, [⟨1, true, 3, 1000, 4⟩]⟩),
     (audio, ⟨1, 1, 0, []⟩),
     (audio, ⟨2, 1, 2, [⟨2, false, 1, 125, 800⟩, ⟨2, true, 1, 1000, 4⟩]⟩),
     (audio, ⟨3, 1, 2, [⟨3, true, 1, 125, 800⟩]⟩),
     (h.is (F.dockfn_CTL_HID_EN s), ⟨4, 3, 0, [⟨4, true, 3, 8000, 2⟩]⟩),
     (h.is (F.dockfn_CTL_BB_EN s), ⟨5, 0x11, 0, []⟩)]
  (all.filter (·.1)).map (·.2)

/-- What a descriptor depends on. -/
def descriptorInputs (h : Hub) (s : Nat) : List Nat :=
  [h.fget (F.dockfn_IDS_VID s), h.fget (F.dockfn_IDS_PID s), h.fget (F.dockfn_BCD_DEVICE s), h.fget (F.dockfn_STATUS_SPEED s),
   h.fget (F.dockfn_CTL_AUDIO_EN s), h.fget (F.dockfn_CTL_HID_EN s), h.fget (F.dockfn_CTL_BB_EN s),
   h.fget (F.dockfn_BB_STATUS s), dockState h s, h.fget (F.dockfn_STATUS_PLAY_ALT s), h.fget (F.dockfn_STATUS_CAP_ALT s)]

/-- The descriptor of a type: 1 the device, 2 its configuration, 15 its capabilities, the Billboard's with one alternate mode (R398, R404, R406). -/
def dockDescriptor (h : Hub) (s kind len : Nat) : DockDesc :=
  match kind with
  | 1 => .device (h.fget (F.dockfn_IDS_VID s)) (h.fget (F.dockfn_IDS_PID s)) (h.fget (F.dockfn_BCD_DEVICE s))
      (if h.fget (F.dockfn_STATUS_SPEED s) = 1 then 64 else 512)
  | 2 => .configuration (dockInterfaces h s)
  | 15 => .capabilities (Config.containerId s).toNat
      (if h.is (F.dockfn_CTL_BB_EN s) then [(0x3BD2, 1, h.fget (F.dockfn_BB_STATUS s))] else [])
  | _ => .bytes ((List.range len).map fun i => Config.freeDescriptor kind (descriptorInputs h s) i)

/-- An endpoint that an enabled interface has, by its number and direction as bits of `halts`. -/
def dockHasEp (h : Hub) (s e : Nat) : Bool :=
  e == 0 || e == 16 || (dockInterfaces h s).any fun x => x.eps.any fun p => p.num + (if p.input then 16 else 0) == e

/-- An interrupt endpoint, the one kind that a host halts. -/
def dockHalts (h : Hub) (s e : Nat) : Bool :=
  (dockInterfaces h s).any fun x => x.eps.any fun p => p.type == 3 && p.num + (if p.input then 16 else 0) == e

def halted (h : Hub) (s e : Nat) : Bool := (Tbl.get (fun _ => 0) h.usb.halts s).testBit e

/-- The answer of GET_STATUS: remote wake of the device at high speed, U1 and U2 at SuperSpeed, the halt of an endpoint; the device's other
bits are free (R407; log 109). -/
def dockStatus (h : Hub) (s : Nat) (e : Option Nat) : Nat :=
  match e with
  | some e => if halted h s e then 1 else 0
  | none =>
    let free := (Config.freeStatus h.fresh).toNat % 2
    if h.fget (F.dockfn_STATUS_SPEED s) = 1 then free + 2 * h.fget (F.dockfn_STATUS_RWAKE_EN s)
    else free + 4 * (Tbl.get (fun _ => 0) h.usb.feats s % 4)

/-- A change of an alternate setting of interface 2 or 3 (R406, R430). -/
def setAlt (h : Hub) (s num alt : Nat) : Hub :=
  let f := if num = 2 then F.dockfn_STATUS_PLAY_ALT s else F.dockfn_STATUS_CAP_ALT s
  let h' := h.fset f alt
  let h' := if alt != 0 && h'.fget (F.dockfn_STATUS_RATE s) == 0 then h'.fset (F.dockfn_STATUS_RATE s) (portRateCode h') else h'
  if h.fget f = alt then h' else h'.event (Page.dockfn s) 7

/-- A standard request (R407). -/
def standardRequest (h : Hub) (s : Nat) (q : StdReq) : Hub :=
  if !(dockAnswers h s) then h
  else match q with
    | .setAddress a =>
      if dockState h s = 3 then usbStall h s
      else (h.fset (F.dockfn_STATUS_ADDR s) a).fset (F.dockfn_STATUS_STATE s) (if a % 128 = 0 then 1 else 2) |>.emit (.usbReply s [])
    | .setConfiguration v =>
      if dockState h s = 1 || decide (1 < v) then usbStall h s
      else if v = 1 then
        let h' := (h.fset (F.dockfn_STATUS_STATE s) 3).emit (.usbReply s [])
        if dockState h s = 3 then h' else h'.event (Page.dockfn s) 3
      else ({ setAlt (setAlt (h.fset (F.dockfn_STATUS_STATE s) 2) s 2 0) s 3 0 with
        usb := { h.usb with halts := Tbl.put (fun _ => 0) h.usb.halts s 0 } }).emit (.usbReply s [])
    | .setInterface n alt =>
      let en := if n = 0 then true else if n ≤ 3 then h.is (F.dockfn_CTL_AUDIO_EN s) else if n = 4 then h.is (F.dockfn_CTL_HID_EN s)
        else decide (n = 5) && h.is (F.dockfn_CTL_BB_EN s)
      let most := if n = 2 ∨ n = 3 then 2 else 0
      if dockState h s != 3 || !en || decide (most < alt) then usbStall h s
      else if n = 2 ∨ n = 3 then (setAlt h s n alt).emit (.usbReply s [])
      else h.emit (.usbReply s [])
    | .remoteWake on => (h.flag (F.dockfn_STATUS_RWAKE_EN s) on).emit (.usbReply s [])
    | .vendor _ => usbStall h s
    | .ping => ep0Ping h s
    | .get kind len => h.emit (.usbDescriptor s (dockDescriptor h s kind len) len)
    | .getStatus e =>
      if e.any fun e => !(dockHasEp h s e) then usbStall h s else (h.emit (.usbReply s (leBytes 2 (dockStatus h s e)))).draw
    | .getConfiguration => h.emit (.usbReply s [if dockState h s = 3 then 1 else 0])
    | .getInterface n =>
      if dockState h s != 3 || !((dockInterfaces h s).any (·.num == n)) then usbStall h s
      else h.emit (.usbReply s [BitVec.ofNat 8
        (if n = 2 then h.fget (F.dockfn_STATUS_PLAY_ALT s) else if n = 3 then h.fget (F.dockfn_STATUS_CAP_ALT s) else 0)])
    | .endpointHalt e on =>
      if dockState h s != 3 || !(dockHalts h s e) then usbStall h s
      else { h.emit (.usbReply s []) with usb := { h.usb with halts := setBits h.usb.halts s e on } }
    | .functionSuspend suspend wake =>
      if h.fget (F.dockfn_STATUS_SPEED s) = 1 ∨ dockState h s ≠ 3 then usbStall h s
      else { (h.flag (F.dockfn_STATUS_RWAKE_EN s) wake).emit (.usbReply s []) with usb := { h.usb with feats := setBits h.usb.feats s 2 suspend } }
    | .linkFeature u2 on =>
      if h.fget (F.dockfn_STATUS_SPEED s) = 1 ∨ dockState h s ≠ 3 then usbStall h s
      else { h.emit (.usbReply s []) with usb := { h.usb with feats := setBits h.usb.feats s (if u2 then 1 else 0) on } }
    | .setSel _ | .isochDelay _ => if h.fget (F.dockfn_STATUS_SPEED s) = 1 then usbStall h s else h.emit (.usbReply s [])
    | .synchFrame _ => usbStall h s

/-- GET_INFO (R407): variant code, slice, hub number, reserved, and the firmware version in 4 bytes. -/
def getInfo (h : Hub) (s len : Nat) : Hub :=
  if !(dockAnswers h s) then h
  else
    let fw := leBytes 2 (h.fget F.fabric_FW_VER_MINOR) ++ leBytes 2 (h.fget F.fabric_FW_VER_MAJOR)
    let all := [BitVec.ofNat 8 h.variant, BitVec.ofNat 8 s, BitVec.ofNat 8 (hubNumber h), 0] ++ fw
    h.emit (.usbReply s (all.take len))

def setWaiting (h : Hub) (s v : Nat) : Hub :=
  { h with usb := { h.usb with waiting := Tbl.put (fun _ => 0) h.usb.waiting s v } }

/-- A mailbox request waits: its data stage is NAKed at high speed and answered with NRDY at SuperSpeed (R410). -/
def mailboxWaits (h : Hub) (s which : Nat) : Hub :=
  setWaiting (h.emit (.usbHandshake s (if h.fget (F.dockfn_STATUS_SPEED s) = 1 then 2 else 3))) s which

/-- A transfer that ends without its status stage has no effect (R409) and counts as aborted. -/
def transferAborted (h : Hub) (s : Nat) : Hub := setWaiting (h.bump (F.dockfn_CTRL_ERR_ABORTS s) 1) s 0

/-- MAILBOX_OUT (R409, R410): NAKed while OUT_FULL, delivered when its status stage completes. A clear of OUT_FULL in the same REG cycle is lost
(R14), so that the coincidence of R425 is this command alone. -/
def mailboxOut (h : Hub) (s : Nat) (data : Bytes) (complete : Bool) : Hub :=
  if !(dockAnswers h s) then h
  else if data.isEmpty || decide (512 < data.length) then usbStall h s
  else if h.is (F.dockfn_MBOX_OUT_FULL s) then mailboxWaits h s 1
  else if !complete then transferAborted (ep0Out h s data.length) s
  else
    let h := (List.range 128).foldl (fun h w =>
      if 4 * w < data.length then h.fset (F.dockfn_MBOX_OUT_BYTES s w) (ofBytes ((data.drop (4 * w)).take 4)) else h) h
    let h := (h.fset (F.dockfn_MBOX_OUT_LEN s) data.length).flag (F.dockfn_MBOX_OUT_FULL s) true
    ep0Out (setWaiting (h.event (Page.dockfn s) 0) s 0) s data.length

/-- MAILBOX_IN (R410, R411). -/
def mailboxIn (h : Hub) (s len : Nat) (complete : Bool) : Hub :=
  if !(dockAnswers h s) then h
  else if !(h.is (F.dockfn_MBOX_IN_READY s)) then mailboxWaits h s 2
  else
    let n := min len (min 512 (h.fget (F.dockfn_MBOX_IN_LEN s)))
    let all := (List.range 128).flatMap fun w => leBytes 4 (h.fget (F.dockfn_MBOX_IN_BYTES s w))
    if !complete then transferAborted h s
    else
      let h := (h.emit (.usbReply s (all.take n))).flag (F.dockfn_MBOX_IN_READY s) false
      setWaiting (h.event (Page.dockfn s) 1) s 0

/-- VREQ_TIMEOUT (R410). -/
def vreqTimeout (h : Hub) (s : Nat) : Hub :=
  if Tbl.get (fun _ => 0) h.usb.waiting s = 0 then h else setWaiting (usbStall h s) s 0

/-! ## Suspend, wake, reset (R413–R416) -/

/-- A hub of a slice resumes, and its floor holds again (R509, R511). -/
def hubResume (h : Hub) (s : Nat) (u : UsbUnit) : Hub :=
  match u with
  | .hub2 =>
    if h.is (F.usbhub_STATUS_SUSP2 s) then enforceFloor ((h.flag (F.usbhub_STATUS_SUSP2 s) false).event (Page.usbhub s) 2) 41 else h
  | .hub3 =>
    if h.is (F.usbhub_STATUS_U3 s) then
      enforceFloor (((h.flag (F.usbhub_STATUS_U3 s) false).flag (F.usbhub_STATUS_UP3 s) true).event (Page.usbhub s) 2) 41
    else h
  | .dock => h

/-- A suspended dock function goes back to the state it had. -/
def dockResume (h : Hub) (s : Nat) : Hub :=
  if dockState h s = 4 then
    let st := Tbl.get (fun _ => 0) h.usb.before s
    let h := { h with usb := { h.usb with before := Tbl.put (fun _ => 0) h.usb.before s 0, driving := withBit h.usb.driving s false
                                          suspended := setBits (setBits h.usb.suspended s 8 false) s 24 false } }
    (h.fset (F.dockfn_STATUS_STATE s) st).event (Page.dockfn s) 5
  else h

/-- The wake is counted as sent and REQ clears (R414). -/
def wakeSent (h : Hub) (s : Nat) : Hub :=
  (h.fset (F.dockfn_WAKE_SENT s) (h.fget (F.dockfn_WAKE_SENT s) + 1)).flag (F.dockfn_WAKE_REQ s) false

/-- A wake is asked for, by WAKE.REQ or by a HID report: the hub drives K, or begins to exit U3 (R414). -/
def signalWake (h : Hub) (s : Nat) : Hub :=
  if dockState h s = 4 then
    if !(h.is (F.dockfn_STATUS_RWAKE_EN s)) then h.flag (F.dockfn_WAKE_REQ s) false
    else { h.emit (.usbResume s (h.fget (F.dockfn_STATUS_SPEED s) != 1)) with usb := { h.usb with driving := withBit h.usb.driving s true } }
  else if h.is (F.dockfn_STATUS_RWAKE_EN s) then h
  else h.flag (F.dockfn_WAKE_REQ s) false

/-- SUSPEND of a hub or of the dock function; a wake that waits for it is signalled once it has lasted 5 ms (R414, log 2). -/
def usbSuspend (h : Hub) (s : Nat) (u : UsbUnit) : Hub :=
  match u with
  | .hub2 =>
    if !(h.present .usbhub s) || h.is (F.usbhub_STATUS_SUSP2 s) then h
    else (h.flag (F.usbhub_STATUS_SUSP2 s) true).event (Page.usbhub s) 1
  | .hub3 =>
    if h.is (F.usbhub_STATUS_UP3 s) then
      ((h.flag (F.usbhub_STATUS_UP3 s) false).flag (F.usbhub_STATUS_U3 s) true).event (Page.usbhub s) 1
    else h
  | .dock =>
    let st := dockState h s
    if !(dockAnswers h s) then h
    else
      let h := { h with usb := { h.usb with before := Tbl.put (fun _ => 0) h.usb.before s st
                                            suspended := setBits h.usb.suspended s (if h.fget (F.dockfn_STATUS_SPEED s) = 1 then 8 else 24) true } }
      let h := (h.fset (F.dockfn_STATUS_STATE s) 4).event (Page.dockfn s) 4
      if h.is (F.dockfn_WAKE_REQ s) || h.is (F.dockfn_HID_SEND s) then signalWake h s else h

/-- The hub's resume signalling ends, a K after 10 ms; the function and its hub have resumed. After an exit from U3, which ends in the same
way (DEDUCED, log 109), a Function Wake follows (R414). -/
def resumeKEnd (h : Hub) (s : Nat) : Hub :=
  if !(h.usb.driving.testBit s) then h
  else if h.fget (F.dockfn_STATUS_SPEED s) = 1 then dockResume (hubResume (wakeSent h s) s .hub2) s
  else (dockResume (hubResume (wakeSent h s) s .hub3) s).emit (.usbFunctionWake s)

/-- The hub stops its own wake, and follows the host's resume (R415). -/
def absorbWake (h : Hub) (s : Nat) : Hub :=
  let h := dockResume h s
  (((h.flag (F.dockfn_WAKE_REQ s) false).fset (F.dockfn_WAKE_ABSORBED s) (h.fget (F.dockfn_WAKE_ABSORBED s) + 1))).event (Page.dockfn s) 6

/-- The host resumes (R415): a wake of the hub's own under way on the same bus is absorbed. -/
def hostResume (h : Hub) (s : Nat) (u : UsbUnit) : Hub :=
  match u with
  | .dock => if dockState h s == 4 && (h.usb.driving.testBit s || h.is (F.dockfn_WAKE_REQ s)) then absorbWake h s else dockResume h s
  | .hub2 =>
    let h := hubResume h s .hub2
    if h.usb.driving.testBit s && h.fget (F.dockfn_STATUS_SPEED s) == 1 then absorbWake h s else h
  | .hub3 =>
    let h := hubResume h s .hub3
    if h.usb.driving.testBit s && h.fget (F.dockfn_STATUS_SPEED s) != 1 then absorbWake h s else h

/-- BUS_RESET (R416). -/
def busReset (h : Hub) (s : Nat) : Hub :=
  if dockState h s = 0 then h
  else
    let h := (dockDefaults h s).fset (F.dockfn_STATUS_STATE s) 1
    let h := { h with usb := { h.usb with suspended := setBits (setBits h.usb.suspended s 8 false) s 24 false } }
    h.event (Page.dockfn s) 2

/-- The host takes a HID report (R429). -/
def hidSend (h : Hub) (s : Nat) (polled : Bool) : Hub :=
  if !(h.is (F.dockfn_HID_SEND s)) then h
  else if dockState h s = 4 then (if h.is (F.dockfn_STATUS_RWAKE_EN s) then signalWake h s else h)
  else if polled && dockState h s == 3 && h.is (F.dockfn_CTL_HID_EN s) then
    if halted h s 20 then h.emit (.usbHandshake s 4) else
    (h.emit (.usbReport s (h.fget (F.dockfn_HID_REPORT s)))).flag (F.dockfn_HID_SEND s) false
  else h

/-- A write to NOTIFY (R429); `polled`: the host's next poll takes it at once. -/
def notify (h : Hub) (s v : Nat) : Hub :=
  if h.usb.notify.testBit s then h.bump (F.dockfn_CTRL_ERR_NOTIFY_LOST s) 1
  else { h.fset (F.dockfn_NOTIFY_DATA s) v with usb := { h.usb with notify := withBit h.usb.notify s true } }

def notifyPoll (h : Hub) (s : Nat) : Hub :=
  if h.usb.notify.testBit s && dockState h s == 3 then
    if halted h s 17 then h.emit (.usbHandshake s 4) else
    { h.emit (.usbNotify s (h.fget (F.dockfn_NOTIFY_DATA s))) with usb := { h.usb with notify := withBit h.usb.notify s false } }
  else h

/-! ## Class requests (R398, R418) -/

/-- The port that a class request names: port k carries the number k + 1 (R397). -/
def classPort (number : Nat) : Option Nat := if 1 ≤ number ∧ number ≤ 9 then some (number - 1) else none

def hubPort (three : Bool) (port : Nat) : Nat := (if three then 16 else 0) + port

/-- A change bit or the suspension of a port that a class request names. -/
def setPortBit (t : Tbl Nat) (s : Nat) (three : Bool) (number : Nat) (on : Bool) : Tbl Nat :=
  match classPort number with
  | some k => setBits t s (hubPort three k) on
  | none => t

/-- What a hub answers of one of its ports (R398). -/
def portStatus (h : Hub) (s : Nat) (three : Bool) (number k : Nat) : Emission :=
  let c := h.fget (if three then F.usbhub_CONN_USB3 s else F.usbhub_CONN_USB2 s)
  let b (t : Tbl Nat) : Bool := (Tbl.get (fun _ => 0) t s).testBit (hubPort three k)
  .usbPort s (if three then 3 else 2) number (c.testBit k) (b h.usb.suspended)
    (decide (k < 8) && h.usb.oc.testBit k && unitOwned h k s) (b h.usb.connChange) (b h.usb.ocChange)

/-- A rate code of DOCKFN.STATUS.RATE in Hz (R418). -/
def rateHz (code : Nat) : Nat :=
  match code with
  | 1 => 44100 | 2 => 48000 | 3 => 88200 | 4 => 96000 | 5 => 176400 | 6 => 192000 | _ => 0

/-- The rates that the clock source offers: the port's and its 44.1 kHz counterpart. -/
def rateOffered (h : Hub) (code : Nat) : Bool := code == portRateCode h || code + 1 == portRateCode h

def classRequest (h : Hub) (s : Nat) (q : ClassReq) : Hub :=
  if !(h.present .usbhub s) then h
  else match q with
    | .configure on =>
      if h.is (F.usbhub_STATUS_UP2 s) == on then h
      else enforceFloor ((h.flag (F.usbhub_STATUS_UP2 s) on).event (Page.usbhub s) 4) 41
    | .portStatus three n =>
      (match classPort n with
        | some k => h.emit (portStatus h s three n k)
        | none => h)
    | .portPower _ _ _ => h
    | .portSuspend three n on => { h with usb := { h.usb with suspended := setPortBit h.usb.suspended s three n on } }
    | .clearConnection three n => { h with usb := { h.usb with connChange := setPortBit h.usb.connChange s three n false } }
    | .clearOverCurrent three n => { h with usb := { h.usb with ocChange := setPortBit h.usb.ocChange s three n false } }
    | .setRate code =>
      if !(dockAnswers h s) then h
      else if h.is (F.dockfn_CTL_AUDIO_EN s) && rateOffered h code then (h.fset (F.dockfn_STATUS_RATE s) code).emit (.usbReply s [])
      else usbStall h s
    | .getRate =>
      if !(dockAnswers h s) then h
      else if h.is (F.dockfn_CTL_AUDIO_EN s) then 
        h.emit (.usbReply s (leBytes 4 (rateHz (if h.fget (F.dockfn_STATUS_RATE s) = 0 then portRateCode h else h.fget (F.dockfn_STATUS_RATE s)))))
      else usbStall h s
    | .hubDescriptor three =>
      h.emit (.usbHubDescriptor s (if three then 3 else 2) 9 (2 ^ 9) (if three then 0 else 8) (!three) false true (Config.containerId s).toNat)
    | .linkPower three => h.emit (.usbLinkPower s (if three then 3 else 2) (h.is (if three then F.usbhub_CTL_U12_EN s else F.usbhub_CTL_LPM_EN s)))
    | .rateRange =>
      if !(dockAnswers h s) then h
      else if h.is (F.dockfn_CTL_AUDIO_EN s) then h.emit (.usbRates s [rateHz (portRateCode h), rateHz (portRateCode h - 1)])
      else usbStall h s

/-! ## Audio (R418–R424) -/

/-- AUD.STATUS follows CTL; `lock` is what the slave's measurement says (R424). -/
def settleAud (h : Hub) (lock : Bool) : Hub :=
  let en := h.is F.aud_CTL_EN
  let l := en && (h.is F.aud_CTL_MASTER || lock)
  let h' := (h.flag F.aud_STATUS_RUN en).flag F.aud_STATUS_LOCK l
  if h.is F.aud_STATUS_LOCK == l then h' else h'.event Page.aud 0

/-- Any slice streams (R419). -/
def anyStreaming (h : Hub) : Bool :=
  (List.range 4).any fun s => h.fget (F.dockfn_STATUS_PLAY_ALT s) != 0 || h.fget (F.dockfn_STATUS_CAP_ALT s) != 0

/-- A block of 250 µs in frames (R421). -/
def blockFrames (h : Hub) : Nat :=
  match h.fget F.aud_CTL_RATE with
  | 1 => 24 | 2 => 48 | _ => 12

/-- A stream of the 44.1 kHz family passes through the converter. -/
def converted (h : Hub) (s : Nat) : Bool :=
  let r := h.fget (F.dockfn_STATUS_RATE s)
  r == 1 || r == 3 || r == 5

/-- A slice's playback contributes: streaming, not suspended, not muted (R421). -/
def plays (h : Hub) (s : Nat) : Bool :=
  h.present .dockfn s && h.fget (F.dockfn_STATUS_PLAY_ALT s) != 0 && dockState h s == 3 && !(h.is (F.aud_GAIN_MUTE s))

def channelsOf (alt : Nat) : Nat := if alt = 1 then 2 else if alt = 2 then 8 else 0

/-- Rounding to the nearest, ties to even, of a division by 16,384. -/
def roundQ14 (x : Int) : Int :=
  let q := x / 16384
  let r := x % 16384
  if 8192 < r ∨ (r = 8192 ∧ q % 2 = 1) then q + 1 else q

/-- The frames of a block that a slice gives: those of its buffer, or what the converter makes of them. -/
def playFrames (h : Hub) (s : Nat) : List (List Nat) :=
  let l := Tbl.get (fun _ => []) h.usb.play s
  let ch := channelsOf (h.fget (F.dockfn_STATUS_PLAY_ALT s))
  if converted h s then
    (List.range (blockFrames h)).map fun f => (List.range ch).map fun c => (Config.freeAudio (h.fresh + s) f c).toNat
  else l.take (blockFrames h)

/-- One output sample of R421, with whether it saturates. -/
def mixSample (h : Hub) (frames : Nat → List (List Nat)) (f c : Nat) : Int × Bool :=
  let acc : Int := ((List.range 4).filter (plays h)).foldl (fun (a : Int) s =>
    if c < channelsOf (h.fget (F.dockfn_STATUS_PLAY_ALT s)) then
      a + toInt 24 ((((frames s)[f]?.getD [])[c]?.getD 0) % 2 ^ 24) * ((min 0x4000 (h.fget (F.aud_GAIN_GAIN s)) : Nat) : Int)
    else a) 0
  let y := roundQ14 acc
  if 0x7FFFFF < y then (0x7FFFFF, true) else if y < -0x800000 then (-0x800000, true) else (y, false)

/-- What a block takes from a slice's playback buffer: at 147:160 for a converted stream. -/
def drainPlay (h : Hub) (s : Nat) : Hub :=
  let n := blockFrames h
  let p := Tbl.get (fun _ => 0) h.usb.part s + 147 * n
  let (k, r) := if converted h s then (p / 160, p % 160) else (n, 0)
  let l := Tbl.get (fun _ => []) h.usb.play s
  { h with usb := { h.usb with play := Tbl.put (fun _ => []) h.usb.play s (l.drop k), part := Tbl.put (fun _ => 0) h.usb.part s r } }

/-- A slice's capture takes its channels of the port's input (R422). -/
def captureFrames (h : Hub) (s : Nat) (input : List (List Nat)) : List (List Nat) :=
  let alt := h.fget (F.dockfn_STATUS_CAP_ALT s)
  let q := h.fget (F.aud_CAP_PAIR_PAIR s)
  input.map fun fr => if alt = 2 then (List.range 8).map (fun c => fr[c]?.getD 0) else [fr[2 * q]?.getD 0, fr[2 * q + 1]?.getD 0]

def captures (h : Hub) (s : Nat) : Bool := h.present .dockfn s && h.fget (F.dockfn_STATUS_CAP_ALT s) != 0 && dockState h s == 3

/-- The mixer takes the oldest input block that the port holds, for the capture streams (R422). -/
def takeInput (h : Hub) : Hub :=
  match h.usb.audIn with
  | [] => h
  | b :: l =>
    ((List.range 4).filter (captures h)).foldl (fun h s =>
      { h with usb := { h.usb with capture := Tbl.upd (fun _ => []) h.usb.capture s (· ++ captureFrames h s b) } })
      { h with usb := { h.usb with audIn := l } }

/-- One output block of the mixer, with the number of its samples that saturate (R421). -/
def mixBlock (h : Hub) : List (List Nat) × Nat :=
  let out := (List.range (blockFrames h)).map fun f => (List.range 8).map fun c => mixSample h (playFrames h) f c
  (out.map fun fr => fr.map fun q => ofInt 24 q.1, (out.map fun fr => (fr.filter (·.2)).length).sum)

/-- The mixer runs once: it takes a block of input and, where the port has room for it, delivers a block of output (R421–R423). -/
def mixerRuns (h : Hub) : Hub :=
  let h := takeInput h
  if 2 ≤ h.usb.audOut.length then h
  else
    let r := mixBlock h
    let h := (((List.range 4).filter (plays h)).foldl drainPlay h).bump F.aud_MIX_STAT_SAT r.2
    { h with fresh := h.fresh + 4, usb := { h.usb with audOut := h.usb.audOut ++ [r.1] } }

/-- The rate at which the AUD port runs, in Hz (R418). -/
def portHz (h : Hub) : Nat := rateHz (portRateCode h)

/-- What the port drives as clock master: MCLK, BCLK of 32-bit slots, two a frame on each I²S line or eight on the TDM line, and the frame clock
(R424). -/
def audClocks (h : Hub) : Option (Nat × Nat × Nat) :=
  if h.is F.aud_CTL_MASTER then some (256 * portHz h, (if h.fget F.aud_CTL_FORMAT = 1 then 256 else 64) * portHz h, portHz h) else none

/-- A block leaves the port; while it is unlocked, zeros (R424). -/
def audSend (h : Hub) (frames : List (List Nat)) : Hub :=
  let zeros : List (List Nat) := (List.range (blockFrames h)).map fun _ => (List.range 8).map fun _ => 0
  h.emit (.audBlock (h.fget F.aud_CTL_FORMAT == 1) (audClocks h) (if h.is F.aud_STATUS_LOCK && !frames.isEmpty then frames else zeros))

/-- The AUD port has received a block of input and needs its next one of output; `delivered` counts the blocks that the mixer has delivered since the
last. The port holds two for each direction; where it holds none, it sends zeros (R423; a third block of input takes the place of the
oldest: DESIGN CHOICE, log 109). -/
def audioBlock (h : Hub) (delivered : Nat) (input : List (List Nat)) : Hub :=
  if !(h.is F.aud_CTL_EN) then h
  else
    let h := (List.range (min 2 delivered)).foldl (fun h _ => mixerRuns h) h
    let held := h.usb.audIn ++ [input.take (blockFrames h)]
    let h := { h with usb := { h.usb with audIn := held.drop (held.length - 2) } }
    let h := h.fset F.aud_BLOCKS_COUNT (h.fget F.aud_BLOCKS_COUNT + 1)
    match h.usb.audOut with
    | [] => audSend ((h.bump F.aud_MIX_STAT_LATE 1).event Page.aud 1) []
    | b :: l => audSend { h with usb := { h.usb with audOut := l } } b

/-- An isochronous packet of playback (R423), which takes no handshake (R412). -/
def isoOut (h : Hub) (s : Nat) (frames : List (List Nat)) : Hub :=
  if h.fget (F.dockfn_STATUS_PLAY_ALT s) = 0 ∨ dockState h s ≠ 3 then h
  else { h with usb := { h.usb with play := Tbl.upd (fun _ => []) h.usb.play s (· ++ frames) } }

/-- An isochronous packet of capture is due, of so many frames. -/
def isoIn (h : Hub) (s n : Nat) : Hub :=
  if !(captures h s) then h
  else
    let l := Tbl.get (fun _ => []) h.usb.capture s
    let ch := channelsOf (h.fget (F.dockfn_STATUS_CAP_ALT s))
    let out := if converted h s then
        (List.range n).map fun f => (List.range ch).map fun c => (Config.freeAudio h.fresh f c).toNat
      else l.take n
    let k := if converted h s then n * 160 / 147 else n
    { (h.draw.emit (.usbAudio s out)) with usb := { h.usb with capture := Tbl.put (fun _ => []) h.usb.capture s (l.drop k) } }

/-- The samples per microframe in Q16.16 that a slice's stream is consumed at, where the AUD port's frame clock has run `clocks` 256ths of a frame in
the last 64 ms, the host's last 512 microframes; converted through the rate ratio for a stream of the 44.1 kHz family (R418,
R420). -/
def feedbackValue (h : Hub) (s clocks : Nat) : Nat :=
  (if converted h s then clocks * 65536 * 147 / (256 * 512 * 160) else clocks * 65536 / (256 * 512)) % 2 ^ 32

/-- The feedback endpoint sends what it has measured (R420). -/
def feedback (h : Hub) (s clocks : Nat) : Hub :=
  if h.fget (F.dockfn_STATUS_PLAY_ALT s) = 0 ∨ dockState h s ≠ 3 then h
  else (h.fset (F.dockfn_FEEDBACK_VALUE s) (feedbackValue h s clocks)).emit (.usbFeedback s (feedbackValue h s clocks))

/-- Everything of a slice's USB beside the class L fields is gone with a slice reset (R98, R416). -/
def usbSliceReset (h : Hub) (s : Nat) : Hub :=
  let h := abortControl h s
  let z (t : Tbl Nat) : Tbl Nat := Tbl.put (fun _ => 0) t s 0
  { h with usb := { h.usb with
      suspended := z h.usb.suspended, connChange := z h.usb.connChange, ocChange := z h.usb.ocChange
      before := z h.usb.before, waiting := z h.usb.waiting, part := z h.usb.part, halts := z h.usb.halts, feats := z h.usb.feats
      notify := withBit h.usb.notify s false, driving := withBit h.usb.driving s false
      play := Tbl.put (fun _ => []) h.usb.play s [], capture := Tbl.put (fun _ => []) h.usb.capture s [] } }

end Sys2Proof.Machine
end

