-- ==== Sys2Proof/Machine/Slices.lean ====
section
/-! DEFINITION. Host slices: Type-C links, the handover of units, slice resets and the bus-powered profile (R69–R110, R691). -/

namespace Sys2Proof.Machine

/-! ## Links (R74, R77, R78, R109) -/

/-- CAP_TX and CAP_RX of a mode (R74); the DP modes take theirs from the trained lanes (R75). -/
def modeCap (m : Nat) : Nat × Nat :=
  match m with
  | 1 => (2400, 2400) | 2 => (3600, 1200) | 3 => (1200, 3600) | 4 => (1180, 1180) | 5 => (590, 590) | 6 => (590, 590)
  | 7 => (295, 295) | 8 => (590, 590) | 9 => (295, 295) | 10 => (120, 120) | _ => (0, 0)

/-- The generation that LINK_CTL and the profile allow: 0 Gen 2, 1 Gen 3, 2 Gen 4 (R78, R100, R108). -/
def maxGen (h : Hub) (n : Nat) : Nat := if busPowered h then 0 else min 2 (h.fget (F.link_LINK_CTL_MAX_GEN n))

/-- Asymmetric links are accepted (R77, R100). -/
def asymOk (h : Hub) (n : Nat) : Bool := h.is (F.link_LINK_CTL_ALLOW_ASYM n) && maxGen h n == 2

/-- The mode in which a link that could run `m` trains, under LINK_CTL and the profile. -/
def clampMode (h : Hub) (n m : Nat) : Nat :=
  let m := if usb4Mode m && !(h.is (F.link_LINK_CTL_USB4_EN n)) then (if m = 5 ∨ m = 7 then 9 else 8) else m
  let m := if (m = 2 ∨ m = 3) ∧ !(asymOk h n) then 1 else m
  let g := maxGen h n
  let m := if g = 0 then (if 1 ≤ m ∧ m ≤ 4 then 6 else if m = 5 then 7 else m)
    else if g = 1 ∧ 1 ≤ m ∧ m ≤ 3 then 4 else m
  if busPowered h ∧ m = 8 then 9 else m

/-- MODE takes a value, with the capacity of R74 and MODE_CHANGE (R109). -/
def setMode (h : Hub) (n m : Nat) : Hub :=
  let c := modeCap m
  let h' := ((h.fset (F.link_LINK_STATUS_MODE n) m).fset (F.link_CAP_CAP_TX n) c.1).fset (F.link_CAP_CAP_RX n) c.2
  let h' := if 4 ≤ n ∧ dpMode m then noteAltCap h' (n - 4) else h'
  if h.fget (F.link_LINK_STATUS_MODE n) = m then h' else h'.event (Page.link n) 2

def lstate (h : Hub) (n : Nat) : Nat := h.fget (F.link_LINK_STATUS_LSTATE n)

/-- LSTATE takes a value, and with it what the USB 3.2 link of mode 0xD carries (R74, R108). -/
def setLstate (h : Hub) (n l : Nat) : Hub :=
  let h := h.fset (F.link_LINK_STATUS_LSTATE n) l
  if 4 ≤ n then noteAltCap h (n - 4) else h

/-- The DP Alt Mode configuration of a port is in force: mode 0xC or 0xD (R75). -/
def altInForce (h : Hub) (n m : Nat) : Hub := setMode (setLstate h n 2) n m

/-- A training of a link starts (R78, R109): traffic stops until it ends. MODE keeps 0xD while the DP Alt Mode configuration is in
force, and the USB 3.2 link beside it trains; mode 0xC has no link to train. -/
def startTraining (h : Hub) (n : Nat) : Hub :=
  let m := h.fget (F.link_LINK_STATUS_MODE n)
  if !(h.present .link n) || lstate h n == 6 || m == 0xC then h
  else
    let h := if linkUp h n then (h.bump (F.link_ERR_RETRAINS n) 1).event (Page.link n) 3 else h
    let h := setLstate (if m = 0xD then h else setMode h n 0xE) n 1
    if n < 4 ∧ h.fget (F.slice_STATUS_ROUTER n) = 0 then h.fset (F.slice_STATUS_ROUTER n) 1 else h

/-- Everything that hangs on a port's link: floors, DVFS, bindings, the USB hubs and the hub's own entries. -/
def settleLinks (h : Hub) : Hub := settleUsb (settleDisplay (dvfsSettle h))

/-- LINK_CTL.RETRAIN reads 1 until the training it started ends. -/
def linkRetrain (h : Hub) (n : Nat) : Hub :=
  let h' := startTraining h n
  settleLinks (if lstate h' n = 1 then h'.flag (F.link_LINK_CTL_RETRAIN n) true else h')

def heldLink (n : Nat) (x : HeldStart) : Bool :=
  match x with
  | .link k _ _ => k == n
  | _ => false

/-- A link has no partner any more: down, or disabled where the port has no owner (R71). LINK_DOWN, of which R109 gives the name alone, is raised
also where a training that never came up ends so (DESIGN CHOICE, log 111). -/
def linkGone (h : Hub) (n : Nat) : Hub :=
  let was := lstate h n
  let h := (setMode (dropHeld h (heldLink n)) n 0).fset (F.link_LINK_STATUS_LSTATE n) (if 4 ≤ n && (unitOwner h (n - 4)).isNone then 6 else 0)
  let h := h.flag (F.link_LINK_CTL_RETRAIN n) false
  if was = 0 ∨ was = 6 then h else endUnfinished (h.event (Page.link n) 1) n

/-- The USB 3.2 link of a port in mode 0xD goes; the DP lanes stay (R75, R108). -/
def altLinkGone (h : Hub) (n : Nat) : Hub :=
  if h.fget (F.link_LINK_STATUS_MODE n) = 0xD ∧ lstate h n ≠ 0 then
    endUnfinished (((setLstate h n 0).flag (F.link_LINK_CTL_RETRAIN n) false).event (Page.link n) 1) n
  else h

/-- STATUS.ROUTER of a slice whose host link has just trained in a mode (R105). -/
def routerOf (h : Hub) (s m : Nat) : Nat :=
  let r := h.fget (F.slice_STATUS_ROUTER s)
  if r = 6 then 6 else if usb4Mode m then (if r = 3 then 3 else 2) else if usb3Mode m then 4 else if m = 0xB then 5 else r

/-! ## Handover (R88–R96) -/

/-- A release runs or has run its course, and no attach trains the unit's link. -/
def unitParked (h : Hub) (u : Nat) : Bool := unitReleased h u && !(h.unitSt u).attaching

/-- The attach is done, trained or timed out: the unit is reported to its slice (R91, R92, R95, R105). EMU_DONE, of which R109 gives the name
alone, is raised here on the port's LINK page, and not when a release parks the unit (DESIGN CHOICE, log 100). -/
def attachDone (h : Hub) (s u : Nat) : Hub :=
  let x := h.unitSt u
  let released := unitReleased h u
  let h := h.putBit (F.slice_ATTACH_UNITS s) u false
  let h := if u < 8 then (h.fset (F.link_LINK_STATUS_EMU (4 + u)) 0).event (Page.link (4 + u)) 4 else h
  let h := (List.range 4).foldl (fun h a => if h.present .slice a then h.putBit (F.slice_RELEASED_UNITS a) u false else h) h
  let h := if released then h.fset (F.slice_HO_DURATION_US s) (min ((h.time - x.relAt) / 128) 0xFFFFF) else h
  settleLinks ((h.setUnit u { x with attaching := false }).event (Page.slice s) 2)

/-- The hold has ended, and the attach trains the unit's link; a DP Alt Mode port, a Gate or a DPO needs no training. -/
def attachTrain (h : Hub) (s u : Nat) : Hub :=
  if 10 ≤ u then attachDone h s u
  else if u < 8 then
    let n := 4 + u
    let h := h.fset (F.link_LINK_STATUS_EMU n) 3
    if dpMode (h.fget (F.link_LINK_STATUS_MODE n)) then attachDone (if linkUp h n then h else startTraining h n) s u
    else if linkUp h n then attachDone h s u
    else startTraining (h.setUnit u { h.unitSt u with attaching := true }) n
  else if h.is (F.pciedn_STATUS_DLL_UP (u - 8)) then attachDone h s u
  else h.setUnit u { h.unitSt u with attaching := true }

/-- An attach goes on once PENDING has cleared (R91, R92). -/
def attachGo (h : Hub) (s u : Nat) : Hub :=
  if !(unitOwned h u s) then (h.putBit (F.slice_ATTACH_UNITS s) u false).event (Page.slice s) 4
  else if (h.unitSt u).hold then h
  else attachTrain h s u

/-- A write of 1 to a bit of ATTACH (R91, R104). -/
def attach (h : Hub) (s u : Nat) : Hub :=
  if !(unitPresent h u) then h.event (Page.slice s) 4
  else
    let h := h.putBit (F.slice_ATTACH_UNITS s) u true
    if h.is (F.hdr_OWNER_PENDING (unitPage u)) then h else attachGo h s u

/-- A DP OUT binding of a slice to a unit becomes 0x00 (R88). -/
def unbind (h : Hub) (s u : Nat) : Hub :=
  (List.range 4).foldl (fun h n => if bindUnit (bindCode h s n) == some u then h.fset (F.slice_DP_OUT_BIND_TARGET s n) 0 else h) h

/-- The device's side of a release (R88): lanes idle, PERST# asserted, the idle pattern. -/
def unplug (h : Hub) (s u : Nat) : Hub :=
  if u < 8 then
    let n := 4 + u
    let h := h.fset (F.link_LINK_STATUS_EMU n) 1
    if dpMode (h.fget (F.link_LINK_STATUS_MODE n)) then altLinkGone (dpStop h u false) n else linkGone h n
  else if u < 10 then settlePerst h (u - 8)
  else if u < 14 then gateDropped (unbind h s u) (u - 10)
  else dpStop (unbind h s u) (u - 6) false

/-- A write of 1 to a bit of RELEASE (R88–R90, R104). -/
def release (h : Hub) (s u : Nat) : Hub :=
  if !(unitPresent h u) || !(unitOwned h u s) || h.bit (F.slice_RELEASE_UNITS s) u || h.bit (F.slice_RELEASED_UNITS s) u then
    h.event (Page.slice s) 4
  else
    let h := (h.putBit (F.slice_RELEASE_UNITS s) u true).putBit (F.slice_ATTACH_UNITS s) u false
    let h := h.setUnit u { hold := decide (u < 10), train := false, relAt := h.time, attaching := false }
    let h := (unitPaths h u s).foldl discardPath h
    settleLinks (unplug h s u)

/-- The unit's packets are discarded and its entries have lost VALID (R89). -/
def releaseDone (h : Hub) (s u : Nat) : Hub :=
  if !(h.bit (F.slice_RELEASE_UNITS s) u) then h
  else
    let h := settleBound ((unitPaths h u s).foldl clearCmEntry h)
    let h := (h.putBit (F.slice_RELEASE_UNITS s) u false).putBit (F.slice_RELEASED_UNITS s) u true
    let h := if u < 8 then h.fset (F.link_LINK_STATUS_EMU (4 + u)) 2 else h
    settleLinks (h.event (Page.slice s) 1)

/-- A path that a running release discards (R89). -/
def releasingPath (h : Hub) (p : Nat) : Bool :=
  (List.range 4).any fun s => h.fget (F.slice_RELEASE_UNITS s) != 0 &&
    (List.range 16).any fun u => h.bit (F.slice_RELEASE_UNITS s) u && (unitPaths h u s).contains p

/-- Admission; a chain of a path that a running release discards is admitted, then discarded (R89, R118, R153). -/
def admitFrom (h : Hub) (i : Nat) : Hub :=
  let n := h.nextChain
  let h := admitPacket h i
  match h.chain n with
  | some c => if releasingPath h c.path then discardPath h c.path else h
  | none => h

/-- The disconnect hold of a unit ends (R93, R98). -/
def holdEnd (h : Hub) (u : Nat) : Hub :=
  let x := h.unitSt u
  if !x.hold then h
  else
    let h := h.setUnit u { x with hold := false, train := false }
    let h := if 8 ≤ u ∧ u < 10 then settlePerst h (u - 8) else h
    match unitOwner h u with
    | none => h
    | some s =>
      if h.bit (F.slice_ATTACH_UNITS s) u && !(h.is (F.hdr_OWNER_PENDING (unitPage u))) then attachTrain h s u
      else if x.train && decide (u < 8) && !(unitReleased h u) then startTraining h (4 + u)
      else h

/-- The link has not trained within its limit (R95). -/
def attachTimeout (h : Hub) (u : Nat) : Hub :=
  match unitOwner h u with
  | none => h
  | some s =>
    if (h.unitSt u).attaching then attachDone (if u < 8 then linkGone h (4 + u) else h) s u else h

/-- An attach that waits for a training is done with it. -/
def attachTrained (h : Hub) (u : Nat) : Hub :=
  match unitOwner h u with
  | some s => if (h.unitSt u).attaching then attachDone h s u else h
  | none => h

/-- What LINK_CTL permits of CL0s, CL1 and CL2 as bits 0–2. -/
def allowBits (h : Hub) (n : Nat) : Nat :=
  h.fget (F.link_LINK_CTL_ALLOW_CL0S n) + 2 * h.fget (F.link_LINK_CTL_ALLOW_CL1 n) + 4 * h.fget (F.link_LINK_CTL_ALLOW_CL2 n)

/-- The link is up in a mode (R74, R95, R109), with the CL states that LINK_CTL permits now (R78). A training longer than TRAIN_TIME.MS holds reads
0xFFFF there (DESIGN CHOICE, log 111). -/
def linkUpIn (h : Hub) (n m ms : Nat) : Hub :=
  let h := setMode (setLstate { h with linkAllow := Tbl.put (fun _ => 0) h.linkAllow n (allowBits h n) } n 2) n m
  let h := ((h.fset (F.link_TRAIN_TIME_MS n) (min ms 0xFFFF)).flag (F.link_LINK_CTL_RETRAIN n) false).event (Page.link n) 0
  let h := if n < 4 then h.fset (F.slice_STATUS_ROUTER n) (routerOf h n m) else h
  let h := settleLinks (wake (enforceFloor h 3) (21 + n))
  if 4 ≤ n then attachTrained h (n - 4) else h

/-- A link completes training (R74, R95, R109). Toward a sleeping domain it is activity on the link, which only wakes it (R512, R523). A parked device port, and one whose LSTATE is disabled,
has no link (R71, R96). A mode that LOW cannot carry waits
for its island (R519). -/
def linkTrained (h : Hub) (n mode ms : Nat) : Hub :=
  if !(h.present .link n) || (decide (4 ≤ n) && (unitParked h (n - 4) || lstate h n == 6 || (h.unitSt (n - 4)).hold)) then h
  else if h.fget (F.link_LINK_STATUS_MODE n) = 0xC then h
  else if h.fget (F.link_LINK_STATUS_MODE n) = 0xD then (if linkUp h n then h else linkUpIn h n 0xD ms)
  else if mode = 0 ∨ 0xB < mode then h
  else
    let m := clampMode h n mode
    let h := dropHeld h (heldLink n)
    if !(h.listens (21 + n)) then wake h (21 + n) else
    let h := if [1, 2, 3, 4, 5, 8].contains m then holdStart h 3 (.link n mode ms) else h
    if lowNow h 3 && [1, 2, 3, 4, 5, 8].contains m then h else linkUpIn (dropHeld h (heldLink n)) n m ms

/-- The partner of a device port presents itself as a USB4 host router: it receives no USB4 link, LSTATE reads down, and the slice
reports nothing connected (R73). -/
def hostRouter (h : Hub) (n : Nat) : Hub :=
  if !(h.present .link n) || decide (n < 4) || dpMode (h.fget (F.link_LINK_STATUS_MODE n)) then h else settleLinks (linkGone h n)

/-- A trained USB4 link enters a CL state or returns to CL0; one that LINK_CTL did not permit at its training is not entered
(R72, R78, R108). -/
def linkIdle (h : Hub) (n cl : Nat) : Hub :=
  if linkUp h n && usb4Mode (h.fget (F.link_LINK_STATUS_MODE n)) && (cl == 0 || (Tbl.get (fun _ => 0) h.linkAllow n).testBit (cl - 1)) then
    h.fset (F.link_LINK_STATUS_LSTATE n) (2 + cl)
  else h

/-- Symbols that FEC corrected and blocks that it could not are counted; the latter raise UNCORR (R108, R109). -/
def linkErrors (h : Hub) (n corrected uncorrectable : Nat) : Hub :=
  if !(linkUp h n) then h
  else
    let h := h.pbump (F.link_FEC_CORR_LO_COUNT n) corrected
    if uncorrectable = 0 then h else (h.bump (F.link_ERR_UNCORR n) uncorrectable).event (Page.link n) 5

/-- What a link's logic reports. -/
def linkReport (h : Hub) (n : Nat) (r : LinkReport) (ms : Nat) : Hub :=
  match r with
  | .trained mode => linkTrained h n mode ms
  | .hostRouter => hostRouter h n
  | .idle cl => linkIdle h n cl
  | .errors corrected uncorrectable => linkErrors h n corrected uncorrectable

/-- A PCIe link trains; an attach that waits for it is done. A sleeping domain only wakes (R512, R523). -/
def pcieTrained (h : Hub) (x gen width ms : Nat) : Hub :=
  if !(h.listens (36 + x)) then wake h (36 + x) else
  let h := pcieUp h x gen width ms
  if h.is (F.pciedn_STATUS_DLL_UP x) then attachTrained h (8 + x) else h

/-- A connection manager asks for an asymmetric link (R77): `tx3` three lanes transmit. -/
def asymmetric (h : Hub) (n : Nat) (tx3 : Bool) : Hub :=
  let m := h.fget (F.link_LINK_STATUS_MODE n)
  if h.present .link n && linkUp h n && decide (1 ≤ m) && decide (m ≤ 3) && asymOk h n then
    dvfsSettle (setMode h n (if tx3 then 2 else 3))
  else h

/-- A connection manager has enumerated the router (R105). -/
def enumerated (h : Hub) (s : Nat) : Hub :=
  if h.fget (F.slice_STATUS_ROUTER s) = 2 then (h.fset (F.slice_STATUS_ROUTER s) 3).event (Page.slice s) 0 else h

/-! ## Paths and tunnels -/

/-- A connection manager sets a path valid: a tunnel toward its host, or an entry (R79, R81). -/
def pathSetValid (h : Hub) (r : PathReq) : Hub :=
  match tunnelKey r with
  | some k =>
    if h.present .slice r.slice.val then settleUsb (setTunnel h k (some (r.hop, r.outHop, r.weight))) else h
  | none => pathValid h r

/-- A connection manager clears a path's Valid bit: the tunnel toward its host ends, or the entry goes (R79, R81). -/
def pathSetInvalid (h : Hub) (s ingress hop : Nat) : Hub :=
  let k := if ingress = 22 then 2 * s else 2 * s + 1
  if (ingress = 22 ∨ ingress = 23) ∧ (tunnel h k).map (·.1) = some hop then settleUsb (setTunnel h k none)
  else pathInvalid h s ingress hop

/-! ## Slice reset (R97, R98, R376, R577, R691) -/

/-- The pages of a slice in the sense of R98: its own, and those whose applied owner includes it. -/
def slicePages (h : Hub) (s : Nat) : List Nat :=
  let own := [Page.slice s, Page.usbhub s, Page.dockfn s]
  own ++ ((allPages.map (·.2.2)).filter fun p => !(own.contains p) && sliceOwns h p s)

/-- A device port of the slice goes through a disconnect hold and a new training. -/
def portThroughHold (h : Hub) (u : Nat) : Hub :=
  if unitReleased h u then h
  else
    let h := h.setUnit u { h.unitSt u with hold := true, train := true }
    if dpMode (h.fget (F.link_LINK_STATUS_MODE (4 + u))) then altLinkGone (dpStop h u false) (4 + u) else linkGone h (4 + u)

/-- The cause of a slice reset is recorded (R97). -/
def sliceCause (h : Hub) (s cause : Nat) : Hub := (h.putBit (F.slice_RESET_CAUSE_CAUSE s) cause true).event (Page.slice s) 3

/-- What a slice reset clears at once: the slice's entries and tunnels, and the class L fields of its pages; its router reads in
reset (R97, R98). -/
def sliceCleared (h : Hub) (s : Nat) : Hub :=
  let cm := (h.cmPaths.map (·.1)).filter fun p => match cmPath h p with | some c => c.byCm && c.slice == s | none => false
  let h := settleBound (cm.foldl clearCmEntry h)
  let h := (slicePages h s).foldl (fun h p => clearPage h p [.l]) h
  let h := (h.fset (F.slice_STATUS_ROUTER s) 6).flag (F.slice_SLICE_CTL_SLICE_RESET s) true
  setTunnel (setTunnel h (2 * s) none) (2 * s + 1) none

/-- What follows on the slice's units, which are those that it owns in `o` (R98, R376, R577). -/
def sliceSides (o h : Hub) (s : Nat) : Hub :=
  let gates := (List.range 4).filter fun g => o.present .gate g && unitOwned o (10 + g) s
  let ports := (List.range 8).filter fun u => unitOwned o u s
  let drives := (List.range 2).filter fun x => unitOwned o (8 + x) s
  let h := stackReset (flr1 (flr0 (usbSliceReset h s) s) s) (4 + s)
  let h := { h with snaps := h.snaps.filter (fun e => e.1 % 16 != s), staging := h.staging.filter (fun e => e.1 % 16 != s) }
  let h := gates.foldl gateDropped h
  let h := ports.foldl portThroughHold h
  let h := drives.foldl (fun h x => settlePerst (h.setUnit (8 + x) { h.unitSt (8 + x) with hold := true }) x) h
  settleLinks (unitSideDown h s)

/-- A slice reset, with its cause bit: 0 detach, 1 link loss, 2 host request, 3 firmware; 4 a chip reset, which is no cause
of R97 and records none. -/
def sliceReset (h : Hub) (s cause : Nat) : Hub :=
  if !(h.present .slice s) then h
  else
    let h := if cause < 4 then sliceCause h s cause else h
    sliceSides h (sliceCleared h s) s

/-- The reset completes (R691): the router starts from the state of its host link. -/
def sliceResetDone (h : Hub) (s : Nat) : Hub :=
  if h.fget (F.slice_STATUS_ROUTER s) = 6 then
    let m := h.fget (F.link_LINK_STATUS_MODE s)
    let r := if usb4Mode m then 2 else if usb3Mode m then 4 else if m = 0xB then 5 else if m = 0xE then 1 else 0
    settleLinks ((h.fset (F.slice_STATUS_ROUTER s) r).flag (F.slice_SLICE_CTL_SLICE_RESET s) false)
  else h

/-- A Type-C link is lost (R97, R109); of a port in DP Alt Mode it is the USB 3.2 link of mode 0xD. -/
def linkLost (h : Hub) (n : Nat) : Hub :=
  if !(h.present .link n) || lstate h n == 0 || lstate h n == 6 then h
  else
    let m := h.fget (F.link_LINK_STATUS_MODE n)
    if n < 4 then
      let r := h.fget (F.slice_STATUS_ROUTER n)
      let h := settleLinks (linkGone h n)
      if usb4Mode m || (m == 0xE && (r == 2 || r == 3)) then sliceReset h n 1
      else if r = 4 then h.fset (F.slice_STATUS_ROUTER n) 5
      else h
    else if dpMode m then settleLinks (altLinkGone h n)
    else settleLinks (linkGone h n)

/-! ## Owners take effect (R51, R91, R335) -/

/-- The pending owners are applied at a turn boundary, and what hangs on them follows. -/
def applyOwners (h : Hub) : Hub :=
  let pages := h.ownerApplied.map (·.1)
  if pages.isEmpty then h
  else
    let h := pages.foldl (fun h p => h.flag (F.hdr_OWNER_PENDING p) false) { h with ownerApplied := [] }
    let us := pages.filterMap pageUnit
    let h := us.foldl (fun h u =>
      let h := if 8 ≤ u ∧ u < 10 then settlePerst h (u - 8) else h
      if u < 8 ∧ (lstate h (4 + u) = 0 ∨ lstate h (4 + u) = 6) then
        h.fset (F.link_LINK_STATUS_LSTATE (4 + u)) (if (unitOwner h u).isNone then 6 else 0) else h) h
    let h := settleLinks h
    us.foldl (fun h u => (List.range 4).foldl (fun h s => if h.bit (F.slice_ATTACH_UNITS s) u then attachGo h s u else h) h) h

/-! ## The bus-powered profile (R99–R103) -/

/-- The profile begins or ends, with PROFILE_CHANGE on every slice (R99, R102, R107). -/
def markProfile (h : Hub) (b : Bool) : Hub :=
  let h := { h with input := { h.input with profile := b } }
  (List.range 4).foldl (fun h s => if h.present .slice s then h.event (Page.slice s) 7 else h) h

/-- A domain is in a low-power state at once, whatever it was entering; a wake cause of it stays (R515). -/
def putInto (h : Hub) (d st : Nat) : Hub := (enterState h d st).setDom d { h.dom d with state := st, entering := 0 }

/-- The holds of the bus-powered profile (R100): a wake that runs waits for its end (R510); a Gate's stream ends as by a link loss (R261). -/
def profileHolds (h : Hub) : Hub :=
  let h := settleGates h
  let h := ((List.range 8).map (· + 13)).foldl (fun h d => if (h.dom d).state = 3 then h else putInto h d 3) h
  let h := if (h.dom 12).state = 3 then wakeUp h 12 2
    else if (h.dom 12).state = 2 ∧ (h.dom 12).entering = 0 then h else putInto h 12 2
  let h := (List.range 4).foldl (fun h i => if h.present .gate i then gateReset (projReset h i) i else h) h
  let h := (List.range 12).foldl (fun h n =>
    let m := h.fget (F.link_LINK_STATUS_MODE n)
    if (1 ≤ m ∧ m ≤ 5) ∨ m = 8 then startTraining h n else h) h
  let h := (List.range 2).foldl (fun h x =>
    let h := if h.is (F.pciedn_STATUS_DLL_UP x) && decide (3 < h.fget (F.pciedn_STATUS_GEN x)) then pcieRetrain h x else h
    let h := if h.present .ethmac x && h.fget (F.ethmac_CTL_MODE x) == 0 then ethDown h x else h
    if h.present .leat x then leatLinkDown h x else h) h
  settleLinks (settleFabric h)

/-- The hub enters the profile and applies its holds (R100). -/
def enterProfile (h : Hub) : Hub := if busPowered h then h else profileHolds (markProfile h true)

/-- The sink contract lifts the holds, and what waits for a held domain goes on (R102, R510). -/
def exitProfile (h : Hub) : Hub :=
  if !(busPowered h) then h
  else
    let h := markProfile h false
    let h := ((List.range 9).map (· + 12)).foldl (fun h d => enforcePolicy (enforceFloor (h.setDom d { h.dom d with wakeAt := h.time }) d) d) h
    settleLinks (settleFabric h)

end Sys2Proof.Machine
end

