-- ==== Sys2Proof/Machine/Misc.lean ====
section
/-! DEFINITION. The MISC page: GPIOs, the I2C/I3C and PWR buses with the CONV_SAFE write, flash and UART (R682–R684). -/

namespace Sys2Proof.Machine

/-! ## GPIOs (R683) -/

/-- The Cue level of a GPIO before the edge latch. -/
def gpioLevel (h : Hub) (g : Nat) : Bool := h.bit F.misc_GPIO_IN_IN g != h.bit F.misc_GPIO_POL_INV g

/-- A change made by `f` latches the rising edges of the GPIOs' levels where EDGE_EN says so. -/
def gpioEdges (h : Hub) (f : Hub → Hub) : Hub :=
  let h' := f h
  (List.range 32).foldl (fun h2 g =>
    if gpioLevel h' g && !(gpioLevel h g) && h.bit F.misc_GPIO_EDGE_EN_EN g then h2.putBit F.misc_GPIO_EDGE_SEEN g true else h2) h'

/-- GPIO_IN follows what the hub drives and what the board drives. -/
def noteGpio (h : Hub) : Hub :=
  let oe := h.fget F.misc_GPIO_OE_OE
  h.fset F.misc_GPIO_IN_IN ((h.fget F.misc_GPIO_OUT_OUT &&& oe) ||| (h.misc.pins &&& (0xFFFFFFFF ^^^ oe)))

/-- The board drives a level on a GPIO. -/
def gpioPin (h : Hub) (g : Nat) (high : Bool) : Hub :=
  if 32 ≤ g then h
  else gpioEdges h fun h => noteGpio { h with misc := { h.misc with pins := withBit h.misc.pins g high } }

/-! ## Buses (R682, R684) -/

def busRunning (h : Hub) (n : Nat) : Nat := Tbl.get (fun _ => 0) h.misc.busRun n

def setBusRun (h : Hub) (n v : Nat) : Hub := { h with misc := { h.misc with busRun := Tbl.put (fun _ => 0) h.misc.busRun n v } }

/-- The transfer of a bus controller as its GO took it: address, READ, and length (R682, R686). -/
def busAddr (h : Hub) (n : Nat) : Nat := Tbl.get (fun _ => 0) h.misc.busCmd n % 2 ^ 7

def busReads (h : Hub) (n : Nat) : Bool := (Tbl.get (fun _ => 0) h.misc.busCmd n).testBit 7

def busLen (h : Hub) (n : Nat) : Nat := min 16 (Tbl.get (fun _ => 0) h.misc.busCmd n / 2 ^ 8 % 2 ^ 5)

/-- BUS_CMD as it stands, without GO. -/
def busCmdWord (h : Hub) (n : Nat) : Nat :=
  h.fget (F.misc_BUS_CMD_ADDR n) + 2 ^ 7 * h.fget (F.misc_BUS_CMD_READ n) + 2 ^ 8 * h.fget (F.misc_BUS_CMD_LEN n)

/-- The speed of a bus in kHz: 12.5 MHz for I3C alone, and no less than 400 kHz on the PWR bus (R682). -/
def busKhz (h : Hub) (n : Nat) : Nat :=
  match h.fget (F.misc_BUS_CTL_SPEED n) with
  | 0 => if n = 1 then 400 else 100
  | 1 => 400
  | 2 => 1000
  | _ => if h.is (F.misc_BUS_CTL_I3C n) then 12500 else 1000

/-- A firmware transfer starts on a bus. -/
def startTransfer (h : Hub) (n : Nat) : Hub :=
  let rd := busReads h n
  let len := busLen h n
  let tx := Tbl.get (fun _ => []) h.misc.busTx n
  let out := if rd then [] else tx.take len
  let h := if rd then h else { h with misc := { h.misc with busTx := Tbl.put (fun _ => []) h.misc.busTx n (tx.drop len) } }
  setBusRun (h.emit (.busTransfer n (h.is (F.misc_BUS_CTL_I3C n)) (busKhz h n) (busAddr h n) rd len out)) n 1

/-- A CONV_SAFE write takes the PWR bus. -/
def startConv (h : Hub) (p : Nat) : Hub :=
  setBusRun (h.emit (.convSafe p (h.fget (F.typec_CONV_SAFE_ADDR p)) (h.fget (F.typec_CONV_SAFE_REG p)) (h.fget (F.typec_CONV_SAFE_VALUE p)))) 1 2

/-- A bus that has become idle takes what waits: CONV_SAFE writes first (R684). -/
def nextTransfer (h : Hub) (n : Nat) : Hub :=
  match n, h.misc.conv with
  | 1, p :: t => startConv { h with misc := { h.misc with conv := t } } p
  | _, _ => if h.is (F.misc_BUS_CMD_GO n) then startTransfer h n else h

/-- A loaded CONV_SAFE write of a port is sent as the next transfer (R464, R684). -/
def convWrite (h : Hub) (p : Nat) : Hub :=
  let h := { h with misc := { h.misc with conv := h.misc.conv ++ [p] } }
  if busRunning h 1 = 0 then nextTransfer h 1 else h

/-- BUS_CMD.GO (R682, R684). -/
def busGo (h : Hub) (n : Nat) : Hub :=
  if h.is (F.misc_BUS_CMD_GO n) || !(h.is (F.misc_BUS_CTL_EN n)) then h
  else
    let h := h.flag (F.misc_BUS_CMD_GO n) true
    let h := { h with misc := { h.misc with busCmd := Tbl.put (fun _ => 0) h.misc.busCmd n (busCmdWord h n) } }
    if busRunning h n = 0 then startTransfer h n else h.flag (F.misc_BUS_STAT_PREEMPTED n) true

def busRx (h : Hub) (n : Nat) : Bytes := Tbl.get (fun _ => []) h.misc.busRx n

def setBusRx (h : Hub) (n : Nat) (l : Bytes) : Hub :=
  ({ h with misc := { h.misc with busRx := Tbl.put (fun _ => []) h.misc.busRx n l } }).fset (F.misc_BUS_STAT_LEVEL n) l.length

/-- A transfer ends: DONE or NACK, with the bytes read (R682). -/
def busDone (h : Hub) (n : Nat) (nack : Bool) (data : Bytes) : Hub :=
  match busRunning h n with
  | 0 => h
  | 1 =>
    let rd := busReads h n
    let h := (h.flag (F.misc_BUS_CMD_GO n) false).flag (F.misc_BUS_STAT_DONE n) true
    let h := if nack then h.flag (F.misc_BUS_STAT_NACK n) true
      else if rd then setBusRx h n ((busRx h n ++ data.take (busLen h n)).take 16) else h
    nextTransfer (setBusRun h n 0) n
  | _ => nextTransfer (setBusRun h n 0) n

/-- A read of BUS_RX pops a byte; 0 when empty. -/
def popBusRx (h : Hub) (n : Nat) : Hub × Nat :=
  match busRx h n with
  | [] => (h, 0)
  | b :: t => (setBusRx h n t, b.toNat)

def pushBusTx (h : Hub) (n : Nat) (b : Byte) : Hub :=
  { h with misc := { h.misc with busTx := Tbl.upd (fun _ => []) h.misc.busTx n (fun l => (l ++ [b]).take 16) } }

/-! ## Flash and UART (R682) -/

/-- READ and the length of the running flash command, as its GO took them (R686). -/
def spiReads (h : Hub) : Bool := h.misc.spiCmd.testBit 9

def spiLen (h : Hub) : Nat := min 256 (h.misc.spiCmd / 2 ^ 10 % 2 ^ 9)

/-- SPI_CMD as it stands, without GO. -/
def spiCmdWord (h : Hub) : Nat :=
  h.fget F.misc_SPI_CMD_OPCODE + 2 ^ 8 * h.fget F.misc_SPI_CMD_ADDR_EN + 2 ^ 9 * h.fget F.misc_SPI_CMD_READ + 2 ^ 10 * h.fget F.misc_SPI_CMD_LEN

/-- The width code of the flash controller, and the half period of SCK in cycles of 768 MHz (R682). -/
def spiWidth (h : Hub) : Nat := h.fget F.misc_SPI_CTL_WIDTH % 3

def spiDiv (h : Hub) : Nat := max 1 (h.fget F.misc_SPI_CTL_DIV)

/-- SPI_CMD.GO (R682). -/
def spiGo (h : Hub) : Hub :=
  if h.is F.misc_SPI_CMD_GO || !(h.is F.misc_SPI_CTL_EN) then h
  else
    let h := { h with misc := { h.misc with spiCmd := spiCmdWord h } }
    let rd := spiReads h
    let n := spiLen h
    let out := if rd then [] else h.misc.spiTx.take n
    let h' := if rd then h else { h with misc := { h.misc with spiTx := [] } }
    (h'.flag F.misc_SPI_CMD_GO true).emit
      (.spiCommand (spiWidth h) (spiDiv h) (h.fget F.misc_SPI_CMD_OPCODE) (if h.is F.misc_SPI_CMD_ADDR_EN then some (h.fget F.misc_SPI_ADDR_ADDR) else none) rd n out)

def spiDone (h : Hub) (data : Bytes) : Hub :=
  if !(h.is F.misc_SPI_CMD_GO) then h
  else
    let rx := if spiReads h then h.misc.spiRx ++ data.take (spiLen h) else h.misc.spiRx
    { h.flag F.misc_SPI_CMD_GO false with misc := { h.misc with spiRx := rx } }

def popSpiRx (h : Hub) : Hub × Nat :=
  ({ h with misc := { h.misc with spiRx := h.misc.spiRx.drop 4 } }, ofBytes (h.misc.spiRx.take 4))

def pushSpiTx (h : Hub) (v : Nat) : Hub := { h with misc := { h.misc with spiTx := (h.misc.spiTx ++ leBytes 4 v).take 256 } }

def setUartTx (h : Hub) (l : Bytes) : Hub :=
  ({ h with misc := { h.misc with uartTx := l } }).flag F.misc_UART_STAT_TX_FULL (decide (16 ≤ l.length))

/-- The length of a UART bit in cycles of 38.4 MHz (R682). -/
def uartBit (h : Hub) : Nat := 16 * max 1 (h.fget F.misc_UART_CTL_DIV)

/-- The UART has sent bytes on its line. -/
def uartSent (h : Hub) (n : Nat) : Hub :=
  if h.is F.misc_UART_CTL_EN then
    setUartTx ((h.misc.uartTx.take n).foldl (fun h b => h.emit (.uartByte (uartBit h) b)) h) (h.misc.uartTx.drop n)
  else h

/-- A byte to send, dropped while the FIFO is full. -/
def uartTx (h : Hub) (b : Byte) : Hub := if 16 ≤ h.misc.uartTx.length then h else setUartTx h (h.misc.uartTx ++ [b])

def setUartRx (h : Hub) (l : Bytes) : Hub :=
  ({ h with misc := { h.misc with uartRx := l } }).flag F.misc_UART_STAT_RX_EMPTY l.isEmpty

/-- The UART receives a byte; its receive FIFO holds 16 (assumption log 27). -/
def uartReceive (h : Hub) (b : Byte) : Hub :=
  if !(h.is F.misc_UART_CTL_EN) then h
  else if 16 ≤ h.misc.uartRx.length then h.flag F.misc_UART_STAT_OVERRUN true
  else setUartRx h (h.misc.uartRx ++ [b])

def popUartRx (h : Hub) : Hub × Nat :=
  match h.misc.uartRx with
  | [] => (h, 0)
  | b :: t => (setUartRx h t, b.toNat)

end Sys2Proof.Machine
end

