-- ==== Sys2Proof/Machine/Rails.lean ====
section
/-! DEFINITION. What a Type-C port and its Weir share: the contract and its end, the CONV_SAFE write, the closing of
channels and their trips (R464–R466, R472–R495). -/

namespace Sys2Proof.Machine

/-! ## Ports (R438, R442) -/

def port0 : PortSt :=
  { seen := 0, pin2 := false, ra := false, vbus := false, hardReset := false, reserves := false, setMax := 0, lower := none, lowerStage := 0
    spr := none, epr := [], sent := [], trans := false, before := 0, selfRdy := false, await := 0, asked := none, cmdWaits := false
    prWaits := false, txOk := false, unsafeNext := false, fwWait := false, tries := 0, held := [], window := false, disc := 0, usb4 := false, dpSvid := false
    ufpD := false, multi := false, frs := 0, frsFails := 0 }

def Hub.port (h : Hub) (p : Nat) : PortSt := Tbl.get (fun _ => port0) h.ports p

def Hub.setPort (h : Hub) (p : Nat) (x : PortSt) : Hub := { h with ports := Tbl.put (fun _ => port0) h.ports p x }

def tcState (h : Hub) (p : Nat) : Nat := h.fget (F.typec_STATUS_TC_STATE p)

/-- The port is in ATTACHED_SRC or ATTACHED_SNK. -/
def attached (h : Hub) (p : Nat) : Bool := tcState h p == 6 || tcState h p == 3

/-- A PD message of the hub's. -/
def pdSend (h : Hub) (p : Nat) (m : PdOut) : Hub := h.emit (.pd p m)

/-- The contract in force, or the transition under way, is above 5 V (R466). -/
def aboveFive (h : Hub) (p : Nat) : Bool :=
  let x := h.port p
  (decide (5000 < h.fget (F.typec_CONTRACT_MV p)) && (x.trans || h.fget (F.typec_STATUS_CONTRACT p) != 0)) || (x.trans && decide (5000 < x.before))

/-- The CONV_SAFE write, or what R466 does in its place. -/
def convSafe (h : Hub) (p : Nat) : Hub :=
  if h.is (F.typec_CONV_SAFE_EN p) then convWrite h p
  else if aboveFive h p then (h.flag (F.typec_STATUS_CONV_UNSAFE p) true).event (Page.typec p) 16
  else h

/-- The end of a command (R470). -/
def cmdDone (h : Hub) (p r : Nat) : Hub :=
  ((((h.fset (F.typec_CMD_OP p) 0).flag (F.typec_CMD_BUSY p) false).fset (F.typec_CMD_RESULT p) r).event (Page.typec p) 4).setPort p
    { h.port p with cmdWaits := false }

/-- The alternate mode ends: a DP Alt Mode link goes (R75, R464). -/
def dropAlt (h : Hub) (p : Nat) : Hub :=
  let dp := decide (4 ≤ p) && dpMode (h.fget (F.link_LINK_STATUS_MODE p))
  let h := (h.fset (F.typec_STATUS_ALT p) 0).flag (F.typec_STATUS_FY9_MODE p) false
  if dp then settleLinks (linkGone (dpStop h (p - 4) false) p) else h

/-- The contract, the RDO, EPR_MODE and ALT are cleared and every AMS is abandoned without PS_RDY (R464, R486). A command
whose AMS is abandoned has had no answer (DESIGN CHOICE, log 41). -/
def dropContract (h : Hub) (p : Nat) : Hub :=
  let h := if h.is (F.typec_CMD_BUSY p) then cmdDone h p 4 else h
  let h := ((h.fset (F.typec_STATUS_CONTRACT p) 0).fset (F.typec_CONTRACT_MV p) 0).fset (F.typec_CONTRACT_MA p) 0
  let h := (h.fset (F.typec_RDO_RDO p) 0).flag (F.typec_STATUS_EPR_MODE p) false
  let x := h.port p
  dropAlt (h.setPort p { x with trans := false, before := 0, await := 0, asked := none, held := [], disc := 0, tries := 0
                                selfRdy := false, prWaits := false, lowerStage := min 1 x.lowerStage }) p

/-! ## Channels (R472–R495) -/

def weir0 : WeirSt := { t := [0, 0, 0, 0, 0, 0, 0, 0], soa := 0, loss := 0, overV := false, held := none, frac := 0 }

def Hub.weir (h : Hub) (c : Nat) : WeirSt := Tbl.get (fun _ => weir0) h.weirs c

def Hub.setWeir (h : Hub) (c : Nat) (x : WeirSt) : Hub := { h with weirs := Tbl.put (fun _ => weir0) h.weirs c x }

def chState (h : Hub) (c : Nat) : Nat := h.fget (F.weir_STATUS_STATE c)

/-- A channel is closed: in RAMP or ON. -/
def chClosed (h : Hub) (c : Nat) : Bool := chState h c == 1 || chState h c == 2

/-- The input power-good of R434: STATUS.PG of W12 (R493). -/
def inputGood (h : Hub) : Bool := h.is (F.weir_STATUS_PG 12)

/-- The sink path of a host port's channel is closed. -/
def sinkClosed (h : Hub) (c : Nat) : Bool := decide (c < 4) && chClosed h c && h.fget (F.weir_STATUS_PATH c) == 2

def anySinkClosed (h : Hub) : Bool := (List.range 4).any (sinkClosed h)

/-- What R472 lets a channel close: 0 nothing, 1 its source path, 2 its sink path, 3 a channel without paths. A sink path
waits until W12 is open; W12 opens for one that waits once its input has failed (DEDUCED from R462, R495, log 42). -/
def wantedPath (h : Hub) (c : Nat) : Nat :=
  let en := h.is (F.weir_CTL_CH_EN c)
  if h.is (F.weir_STATUS_LATCHED c) || !(h.present .weir c) then 0
  else if c < 12 then
    if en && tcState h c == 6 && (h.port c).vbus && !(h.is (F.typec_STATUS_CONV_UNSAFE c)) then 1
    else if decide (c < 4) && h.input.sinks.testBit c && (en || h.input.deadBattery.testBit c) && !(chClosed h 12)
        && !((List.range 4).any fun d => d != c && sinkClosed h d) then 2
    else 0
  else if c = 12 then
    if en && !(anySinkClosed h) && !h.input.rev && (h.input.sinks == 0 || inputGood h) then 3 else 0
  else if en then 3 else 0

/-- STATUS.PG changes: PG_RISE or PG_FALL (R491). -/
def setPg (h : Hub) (c : Nat) (b : Bool) : Hub :=
  if h.is (F.weir_STATUS_PG c) == b then h else (h.flag (F.weir_STATUS_PG c) b).event (Page.weir c) (if b then 1 else 2)

/-- The gate is pulled to source: PG falls but on W12 (R491, R493); the timers of the ramp and of the window end, the step
timers stand (R482). -/
def chOpen (h : Hub) (c st : Nat) : Hub :=
  let h := (h.fset (F.weir_STATUS_STATE c) st).fset (F.weir_STATUS_PATH c) 0
  let h := if c = 12 then h else setPg h c false
  h.setWeir c (if c = 12 then { h.weir c with soa := 0, overV := false }
    else { h.weir c with soa := 0, loss := 0, overV := false, held := none })

/-- A ramp starts (R479). -/
def chRamp (h : Hub) (c path : Nat) : Hub :=
  let h := (h.fset (F.weir_STATUS_STATE c) 1).fset (F.weir_STATUS_PATH c) (if path = 3 then 0 else path)
  h.setWeir c { h.weir c with soa := 0, overV := false }

/-- The path a closed channel closes, in the code of `wantedPath`. -/
def closedPath (h : Hub) (c : Nat) : Nat := if 12 ≤ c then 3 else h.fget (F.weir_STATUS_PATH c)

def settleOpen (h : Hub) (c : Nat) : Hub := if chClosed h c && wantedPath h c != closedPath h c then chOpen h c 0 else h

def settleClose (h : Hub) (c : Nat) : Hub :=
  let w := wantedPath h c
  if chState h c == 0 && w != 0 then chRamp h c w else h

/-- Every channel opens that may no longer be closed, then those close that may. -/
def settleChannels (h : Hub) : Hub :=
  enforceFloor ((List.range 14).foldl settleClose ((List.range 14).foldl settleOpen h)) 42

/-! ## The ledger (R449–R454) -/

def floorMw (h : Hub) (p : Nat) : Nat :=
  match h.fget (F.typec_CFG_RP p) with
  | 0 => 4500
  | 1 => 7500
  | _ => 15000

def reservation (h : Hub) (p : Nat) : Nat :=
  if h.present .typec p && (h.port p).reserves then max (floorMw h p) (h.port p).setMax else 0

def budget (h : Hub) : Nat :=
  if busPowered h then h.fget (F.typec_LEDGER_PROFILE_PROFILE_MW 0) else h.fget (F.typec_LEDGER_BUDGET_MW 0)

def ledgerUsed (h : Hub) : Nat := ((List.range 12).map (reservation h)).sum

/-- RESERVATION and LEDGER_USED follow the reservations. -/
def noteLedger (h : Hub) : Hub :=
  let h := (List.range 12).foldl (fun h p => h.fset (F.typec_RESERVATION_MW p) (min (reservation h p) 0xFFFFF)) h
  h.fset (F.typec_LEDGER_USED_MW 0) (min (ledgerUsed h) 0xFFFFF)

/-- The floor of a port fits the budget in force (R452); ports that wait themselves do not count against it (DEDUCED from
the row of R467 on two ports in BUDGET_WAIT, log 43). -/
def floorFits (h : Hub) (p : Nat) : Bool :=
  let others := (List.range 12).filter fun q => q != p && tcState h q != 5 && tcState h q != 9
  decide ((others.map (reservation h)).sum + floorMw h p ≤ budget h)

/-! ## States (R434, R438) -/

/-- A port as the domain rules and the ledger see it in a state. -/
def setTc (h : Hub) (p st : Nat) : Hub :=
  let h := h.fset (F.typec_STATUS_TC_STATE p) st
  enforceFloor (if st = 0 ∨ st = 1 ∨ st = 4 then h else wake h (21 + p)) (21 + p)

def roleOf (h : Hub) (p : Nat) : Nat :=
  if 4 ≤ p then 2 else match h.fget (F.typec_CFG_ROLE p) with | 1 => 1 | 2 => 2 | _ => 0

/-- The unattached state of a port's role, or DISABLED. -/
def idleState (h : Hub) (p : Nat) : Nat :=
  if !(h.is (F.typec_CFG_EN p)) then 0 else if p < 4 ∧ !(inputGood h) then 1 else if roleOf h p = 2 then 4 else 1

/-- The link of a port that carries no alternate mode may train: its unit is not released and not held. -/
def trainPort (h : Hub) (n : Nat) : Hub :=
  if n < 4 then startTraining h n
  else if unitReleased h (n - 4) || (h.unitSt (n - 4)).hold then h
  else startTraining h n

/-- STATUS fields of an attached port (R433), its lanes and VCONN by the orientation (R436), ATTACH, and the training of its link. -/
def attachState (h : Hub) (p : Nat) (source : Bool) : Hub :=
  let x := h.port p
  let h := setTc h p (if source then 6 else 3)
  let h := (h.flag (F.typec_STATUS_POWER_ROLE p) source).flag (F.typec_STATUS_DATA_ROLE p) (decide (4 ≤ p))
  let h := ((h.emit (.laneRoute p x.pin2)).flag (F.typec_STATUS_ORIENT p) x.pin2).flag (F.typec_STATUS_VCONN_ON p) (source && x.ra)
  let h := ((h.fset (F.typec_STATUS_CABLE p) 0).fset (F.typec_STATUS_PARTNER_FRS p) 0).flag (F.typec_STATUS_PARTNER_FY9 p) false
  let h := h.fset (F.typec_STATUS_CONTRACT p) (if source then 0 else 1)
  let h := h.setPort p { h.port p with vbus := source, reserves := source, window := true, hardReset := false, await := 0
                                       asked := none, cmdWaits := false, prWaits := false, txOk := false, tries := 0, held := [], disc := 0
                                       usb4 := false, dpSvid := false, ufpD := false, multi := false, frs := 0, frsFails := 0 }
  trainPort (noteLedger (h.event (Page.typec p) 0)) p

/-- A source attach that has passed its debounce: into ATTACHED_SRC when the ledger and CONV_UNSAFE allow, else BUDGET_WAIT
(R452, R466). -/
def admitSource (h : Hub) (p : Nat) : Hub :=
  if floorFits h p && !(h.is (F.typec_STATUS_CONV_UNSAFE p)) then settleChannels (attachState h p true)
  else if tcState h p = 9 then h
  else
    let h := setTc h p 9
    noteLedger ((h.setPort p { h.port p with reserves := true }).event (Page.typec p) 10)

/-- The ledger, or the budget in force, has changed: ports in BUDGET_WAIT are tried again, lowest number first (R452). -/
def settleLedger (h : Hub) : Hub :=
  (List.range 12).foldl (fun h p => if tcState h p = 9 then admitSource h p else h) (noteLedger h)

/-- A path of the profile: VIN is taken from a host port without an explicit sink contract (R99). -/
def profileWanted (h : Hub) : Bool :=
  (List.range 4).any fun p => sinkClosed h p && !(tcState h p == 3 && h.fget (F.typec_STATUS_CONTRACT p) == 2)

/-- The channels after a change; a sink path that closes starts the profile, which ends once VIN is no longer taken from a host
port without a contract (R99, R102), and the ledger changes with the budget in force (R452, R453). -/
def settleWeirs (h : Hub) : Hub :=
  let was := anySinkClosed h
  let h := settleChannels h
  if busPowered h && !(profileWanted h) then settleLedger (exitProfile h)
  else if !was && profileWanted h then settleLedger (enterProfile h) else h

/-- A port is attached, as source or as sink. -/
def attachPort (h : Hub) (p : Nat) (source : Bool) : Hub := settleWeirs (attachState h p source)

/-! ## CTL, SETUP and the curve (R478, R482, R487, R499) -/

/-- CTL.CH_EN is written (R472, R475, R487). -/
def chEnable (h : Hub) (c : Nat) (on : Bool) : Hub :=
  if on then
    if h.fget (F.weir_SETUP_SHUNT_UOHM c) < 100 then h.event (Page.weir c) 5
    else if h.is (F.weir_STATUS_LATCHED c) then
      if h.is (F.weir_CTL_CH_EN c) then h
      else if h.is (F.weir_STATUS_OFF_MET c) then
        let h := ((h.flag (F.weir_CTL_CH_EN c) true).flag (F.weir_STATUS_LATCHED c) false).fset (F.weir_STATUS_STATE c) 0
        let h := h.flag (F.weir_STATUS_OFF_MET c) false
        settleWeirs (if 4 ≤ c ∧ c < 12 then overCurrentEnd h (c - 4) else h)
      else h.event (Page.weir c) 4
    else settleWeirs ((h.flag (F.weir_CTL_CH_EN c) true).flag (F.weir_STATUS_OFF_MET c) false)
  else settleWeirs ((h.flag (F.weir_CTL_CH_EN c) false).flag (F.weir_STATUS_OFF_MET c) false)

/-- 10 ms have passed since CH_EN was written 0 (R487). -/
def offMet (h : Hub) (c : Nat) : Hub :=
  if h.present .weir c && !(h.is (F.weir_CTL_CH_EN c)) then h.flag (F.weir_STATUS_OFF_MET c) true else h

def energyClear (h : Hub) (c : Nat) : Hub :=
  (h.pset (F.weir_ENERGY_LO_MJ c) 0).setWeir c { h.weir c with frac := 0 }

/-- SETUP is written outside OFF and TRIPPED: dropped (R499). -/
def setupRefused (h : Hub) (c : Nat) : Bool := chClosed h c

/-- A step of the curve has changed while the channel is closed: its timer restarts (R499). -/
def curveChanged (h : Hub) (c k : Nat) : Hub :=
  if chClosed h c then h.setWeir c { h.weir c with t := (h.weir c).t.set k 0 } else h

end Sys2Proof.Machine
end

