-- ==== Sys2Proof/Machine/TypeC.lean ====
section
/-! DEFINITION. The Type-C ports: attach and detach, the board power ledger, PD messages and commands, discovery, swaps
(R433–R471). PDO and RDO layouts are those of USB PD Revision 3.2, which R442 names (PRESUMED, log 40). -/

namespace Sys2Proof.Machine

/-! ## Objects of USB PD (R445, R447) -/

/-- A fixed PDO of a voltage and a current. -/
def fixedPdo (mv ma : Nat) : Nat := mv / 50 * 2 ^ 10 + ma / 10

/-- 0 a fixed PDO, 1 an SPR PPS APDO, 2 an EPR AVS APDO, 3 any other. -/
def pdoKind (w : Nat) : Nat :=
  if w / 2 ^ 30 = 0 then 0 else if w / 2 ^ 28 = 0xC then 1 else if w / 2 ^ 28 = 0xD then 2 else 3

def pdoMaxMv (w : Nat) : Nat :=
  match pdoKind w with
  | 0 => w / 2 ^ 10 % 2 ^ 10 * 50
  | 1 => w / 2 ^ 17 % 2 ^ 8 * 100
  | _ => w / 2 ^ 17 % 2 ^ 9 * 100

/-- The lowest voltage of an APDO. -/
def pdoMinMv (w : Nat) : Nat := w / 2 ^ 8 % 2 ^ 8 * 100

/-- The maximum current; an AVS APDO states a power instead. -/
def pdoMaxMa (w : Nat) : Nat :=
  match pdoKind w with
  | 0 => w % 2 ^ 10 * 10
  | 1 => w % 2 ^ 7 * 50
  | _ => 0

/-- The power of a PDO in mW (R449). -/
def pdoMw (w : Nat) : Nat := if pdoKind w = 2 then w % 2 ^ 8 * 1000 else pdoMaxMv w * pdoMaxMa w / 1000

/-- The maximum current clipped to 3 A (R445). -/
def clipPdo (fiveAmp : Bool) (w : Nat) : Nat :=
  if fiveAmp then w
  else match pdoKind w with
    | 0 => if 300 < w % 2 ^ 10 then w / 2 ^ 10 * 2 ^ 10 + 300 else w
    | 1 => if 60 < w % 2 ^ 7 then w / 2 ^ 7 * 2 ^ 7 + 60 else w
    | _ => w

/-- A PDO within the limit of a port (R445). -/
def pdoValid (p w : Nat) (epr : Bool) : Bool :=
  let lim := if p < 4 then 48000 else if p < 6 then 28000 else 20000
  let kinds := if epr then [0, 2] else [0, 1]
  kinds.contains (pdoKind w) && decide (pdoMaxMv w ≤ lim) && decide (pdoMaxMa w ≤ 5000)

/-- What a Request for a PDO asks for: the voltage and the current in mV and mA, when it lies within the PDO (R443). -/
def judgeRequest (pdo rdo : Nat) : Option (Nat × Nat) :=
  match pdoKind pdo with
  | 0 =>
    let ma := rdo / 2 ^ 10 % 2 ^ 10 * 10
    if ma ≤ pdoMaxMa pdo then some (pdoMaxMv pdo, ma) else none
  | 1 =>
    let mv := rdo / 2 ^ 9 % 2 ^ 12 * 20
    let ma := rdo % 2 ^ 7 * 50
    if pdoMinMv pdo ≤ mv ∧ mv ≤ pdoMaxMv pdo ∧ ma ≤ pdoMaxMa pdo then some (mv, ma) else none
  | 2 =>
    let mv := rdo / 2 ^ 9 % 2 ^ 12 * 25
    let ma := rdo % 2 ^ 7 * 50
    if pdoMinMv pdo ≤ mv ∧ mv ≤ pdoMaxMv pdo ∧ mv * ma ≤ pdoMw pdo * 1000 then some (mv, ma) else none
  | _ => none

/-! ## States (R434, R438) -/

/-- A port becomes unattached: its reservation is released (R454). -/
def unattach (h : Hub) (p st : Nat) : Hub :=
  let x := h.port p
  let h := setTc h p st
  let h := (h.flag (F.typec_STATUS_POWER_ROLE p) false).flag (F.typec_STATUS_VCONN_ON p) false
  let h := h.setPort p { x with seen := 0, ra := false, vbus := false, hardReset := false, reserves := false, window := false
                                setMax := x.lower.getD x.setMax, lower := none, frs := 0, frsFails := 0, txOk := false, lowerStage := 0 }
  let h := { h with input := { h.input with sinks := withBit h.input.sinks p false, deadBattery := withBit h.input.deadBattery p false } }
  settleLedger (settleWeirs h)

/-- A port with CFG.EN = 1 leaves DISABLED (R438). -/
def portReady (h : Hub) (p : Nat) : Hub :=
  if h.present .typec p && tcState h p == 0 && h.is (F.typec_CFG_EN p) && h.power.shelf != 2 then unattach h p (idleState h p) else h

/-- The end of an attachment: no path of the port closes any more, DETACH, and what hangs on the port's link (R97, R109). -/
def detached (h : Hub) (p : Nat) : Hub :=
  let h := h.setPort p { h.port p with vbus := false, hardReset := false, window := false, frs := 0 }
  let h := { h with input := { h.input with sinks := withBit h.input.sinks p false, deadBattery := withBit h.input.deadBattery p false } }
  let h := (settleWeirs (h.flag (F.typec_STATUS_VCONN_ON p) false)).event (Page.typec p) 1
  if p < 4 then sliceReset (settleLinks (linkGone h p)) p 0 else settleLinks (linkGone h p)

/-- CC is open for 1 ms on a source port: DISCHARGE and the actions of R464. -/
def ccOpen (h : Hub) (p : Nat) : Hub :=
  if tcState h p = 6 then detached (setTc (dropContract (convSafe h p) p) p 10) p else h

/-- VBUS has fallen below 0.8 V: the end of DISCHARGE, or the vSafe0V of a Hard Reset (R464, R465). -/
def vbusDischarged (h : Hub) (p : Nat) : Hub :=
  if tcState h p = 10 then unattach h p (idleState h p)
  else if tcState h p = 6 ∧ (h.port p).hardReset then settleWeirs (h.setPort p { h.port p with hardReset := false, vbus := true })
  else h

def dischargeSlow (h : Hub) (p : Nat) : Hub := if tcState h p = 10 then h.event (Page.typec p) 14 else h

/-- A sink port has lost VBUS outside a power role swap. -/
def vbusLost (h : Hub) (p : Nat) : Hub :=
  if tcState h p = 3 ∧ (h.port p).await ≠ 5 then
    unattach (detached (dropContract h p) p) p (if h.is (F.typec_CFG_EN p) then 1 else 0)
  else h

/-- A port sees Rp or Rd (R437, R438). In SHELF the ports present what R529 says and attach nothing. -/
def ccSeen (h : Hub) (p : Nat) (seen : CcSeen) (pin2 ra : Bool) : Hub :=
  if h.power.shelf = 2 then h
  else
  let h := portReady h p
  let note (h : Hub) : Hub :=
    h.setPort p { h.port p with seen := (match seen with | .rd => 1 | .rp => 2 | .double => 3), pin2 := pin2, ra := ra }
  match tcState h p, seen with
  | 1, .rp => note (setTc h p 2)
  | 4, .rd =>
    let h := note (setTc h p 5)
    settleLedger (h.setPort p { h.port p with reserves := true })
  | 7, .rd => note h
  | 8, .rp => note h
  | _, _ => h

def termLost (h : Hub) (p : Nat) : Hub :=
  match tcState h p with
  | 2 => unattach h p 1
  | 5 | 9 => unattach h p 4
  | 7 | 8 => h.setPort p { h.port p with seen := 0 }
  | _ => h

/-- The CC debounce completes; `vbus`: VBUS is present. -/
def ccDebounce (h : Hub) (p : Nat) (vbus : Bool) : Hub :=
  match tcState h p with
  | 2 =>
    if !vbus then h
    else if h.is (F.typec_CFG_TRY_SRC p) && roleOf h p == 0 && inputGood h then setTc (h.setPort p { h.port p with seen := 0 }) p 7
    else attachPort h p false
  | 5 => admitSource h p
  | 8 => if vbus && (h.port p).seen == 2 then attachPort h p false else h
  | _ => h

def drpToggle (h : Hub) (p : Nat) : Hub :=
  let h := portReady h p
  if h.power.shelf != 2 && decide (p < 4) && roleOf h p == 0 && inputGood h then
    (if tcState h p = 1 then setTc h p 4 else if tcState h p = 4 then setTc h p 1 else h)
  else h

def tryDebounce (h : Hub) (p : Nat) : Hub := if tcState h p = 7 ∧ (h.port p).seen = 1 then admitSource h p else h

def tryPeriodEnd (h : Hub) (p : Nat) : Hub :=
  if tcState h p = 7 then setTc (h.setPort p { h.port p with seen := 0 }) p 8
  else if tcState h p = 8 then unattach h p 1 else h

def recoveryEnd (h : Hub) (p : Nat) : Hub := if tcState h p = 11 then unattach h p (idleState h p) else h

/-- CFG has been written (R433, R438, R449): a port in ATTACHED_SRC or in DISCHARGE reaches DISABLED through the end of
DISCHARGE (DEDUCED from the exits that R438 gives, log 44). -/
def cfgWritten (h : Hub) (p : Nat) : Hub :=
  let h := portReady h p
  let h :=
    if !(h.is (F.typec_CFG_EN p)) then
      match tcState h p with
      | 6 => ccOpen h p
      | 3 => unattach (detached (dropContract h p) p) p 0
      | 0 | 10 | 11 => h
      | _ => unattach h p 0
    else if (tcState h p = 1 ∨ tcState h p = 4) ∧ roleOf h p ≠ 0 then setTc h p (idleState h p)
    else h
  settleLedger h

/-- W12's power-good has changed (R434): without it, host ports that are not attached present Rd. -/
def inputChanged (h : Hub) : Hub :=
  (List.range 4).foldl (fun h p =>
    let st := tcState h p
    if inputGood h then (if st = 1 ∧ roleOf h p = 2 then setTc h p 4 else h)
    else if st = 4 ∨ st = 5 ∨ st = 7 ∨ st = 9 then unattach h p 1 else h) h

/-- Where VCONN comes from (R436): 0 the hub sources none, 1 the internal 5 V rail, 2 VBUS. -/
def vconnSupply (h : Hub) (p : Nat) : Nat :=
  if !(h.is (F.typec_STATUS_VCONN_ON p)) then 0 else if 6500 ≤ h.fget F.pwr_MON0_VIN_MV then 1 else 2

/-- An AMS of the hub's own runs that PD commands or a role swap started. -/
def ownAms (h : Hub) (p : Nat) : Bool := let a := (h.port p).await; decide (2 ≤ a) && decide (a ≤ 5)

/-- As source, any AMS of the hub's own runs: one of `ownAms`, the offer from Source_Capabilities to PS_RDY, or discovery. -/
def amsRuns (h : Hub) (p : Nat) : Bool := ownAms h p || (h.port p).await == 1 || (h.port p).trans || (h.port p).disc != 0

/-- The Rp that a port presents (R434, R435): 0 none, 1 default USB, 2 1.5 A, 3 3.0 A. Under an explicit contract 3.0 A is SinkTxOK and
1.5 A, while an AMS of the hub's own runs, SinkTxNG. -/
def rpLevel (h : Hub) (p : Nat) : Nat :=
  if h.power.shelf = 2 ∨ (p < 4 ∧ !(inputGood h)) ∨ !([4, 5, 6, 7, 9, 10].contains (tcState h p)) then 0
  else if tcState h p = 6 ∧ h.fget (F.typec_STATUS_CONTRACT p) = 2 then (if amsRuns h p then 2 else 3)
  else match h.fget (F.typec_CFG_RP p) with | 0 => 1 | 1 => 2 | _ => 3

/-- The port presents Rd (R433, R434, R438): every host port without input power-good and in SHELF, whatever its state. -/
def rdPresented (h : Hub) (p : Nat) : Bool :=
  decide (p < 4) && (h.power.shelf == 2 || !(inputGood h) || [1, 2, 3, 8].contains (tcState h p))

/-- The pair of the connector, 0 for TX1 and RX1, that carries lane 0 or 1 of the port's link (R436). -/
def connectorPair (h : Hub) (p lane : Nat) : Nat := if h.is (F.typec_STATUS_ORIENT p) then 1 - lane else lane

/-! ## Capabilities and contracts as source (R439, R443–R446) -/

/-- The cable reports 5 A. -/
def fiveAmp (h : Hub) (p : Nat) : Bool := decide (2 ≤ h.fget (F.typec_STATUS_CABLE p))

/-- The set in force: SRC_PDO 0 from OTP until firmware commits one (R439). -/
def sprSet (h : Hub) (p : Nat) : List Nat := (h.port p).spr.getD [h.otp.srcPdo0]

/-- Source_Capabilities, or in EPR mode EPR_Source_Capabilities, are sent; a Request is awaited. -/
def sendCaps (h : Hub) (p : Nat) : Hub :=
  let c := clipPdo (fiveAmp h p)
  let spr := (sprSet h p).map c
  let epr := if h.is (F.typec_STATUS_EPR_MODE p) then (h.port p).epr.map c else []
  let sent := (List.range spr.length).map (fun i => (i + 1, spr.getD i 0)) ++ (List.range epr.length).map (fun i => (i + 8, epr.getD i 0))
  let m : PdOut := if h.is (F.typec_STATUS_EPR_MODE p) then .eprSourceCaps (spr ++ List.replicate (7 - spr.length) 0 ++ epr) else .sourceCaps spr
  let x := h.port p
  (pdSend h p m).setPort p { x with sent := sent, await := 1, lowerStage := if x.lower.isSome ∧ x.lowerStage = 0 then 1 else x.lowerStage }

/-- VBUS is at vSafe5V on a source port: the implicit contract, the question to an e-marker, then the offer (R446, R448). A
port that has swapped back owes its PS_RDY (R463). -/
def portPowered (h : Hub) (p : Nat) : Hub :=
  if tcState h p ≠ 6 then h
  else
    let h := if h.fget (F.typec_STATUS_CONTRACT p) = 0 then h.fset (F.typec_STATUS_CONTRACT p) 1 else h
    let h := if (h.port p).frs = 3 then (pdSend h p .psRdy).setPort p { h.port p with frs := 0 } else h
    let h := h.setPort p { h.port p with window := true, tries := 0 }
    if h.is (F.typec_STATUS_VCONN_ON p) && h.fget (F.typec_STATUS_CABLE p) == 0 then
      (pdSend h p .discoverCable).setPort p { h.port p with disc := 1 }
    else sendCaps h p

/-- A set that lowers the reservation has its effect at the first contract under it: the PS_RDY of a Request that was accepted after
the set was sent (R451). -/
def lowerSet (h : Hub) (p : Nat) : Hub :=
  match (h.port p).lower with
  | some m =>
    if (h.port p).lowerStage = 2 then settleLedger (h.setPort p { h.port p with setMax := m, lower := none, lowerStage := 0 }) else h
  | none => h

/-- Discovery of a device-port partner starts (R455). -/
def startDiscovery (h : Hub) (p : Nat) : Hub :=
  if decide (4 ≤ p) && tcState h p == 6 && h.is (F.typec_CFG_EN p) then
    (pdSend h p .discoverIdentity).setPort p { h.port p with disc := 2, tries := 0, usb4 := false, dpSvid := false, ufpD := false, multi := false }
  else h

/-- PS_RDY as source: the contract is explicit. The first one on a device port starts discovery (log 45). -/
def sendPsRdy (h : Hub) (p : Nat) : Hub :=
  let first := h.fget (F.typec_STATUS_CONTRACT p) != 2
  let h := ((pdSend h p .psRdy).fset (F.typec_STATUS_CONTRACT p) 2).event (Page.typec p) 3
  let h := lowerSet (h.setPort p { h.port p with trans := false, selfRdy := false, window := false }) p
  if first && (h.port p).disc == 0 && h.fget (F.typec_STATUS_ALT p) == 0 then startDiscovery h p else h

/-- A Hard Reset, sent or received (R465–R467). -/
def hardReset (h : Hub) (p : Nat) : Hub :=
  if !(attached h p) then h
  else
    let h := (h.bump (F.typec_COUNTS_HARD_RESETS p) 1).event (Page.typec p) 8
    let source := tcState h p == 6
    let unloaded := source && !(h.is (F.typec_CONV_SAFE_EN p))
    let h := dropContract (if source then convSafe h p else h) p
    let h := h.fset (F.typec_STATUS_CONTRACT p) (if source then 0 else 1)
    let x := h.port p
    settleWeirs (h.setPort p { x with window := true, unsafeNext := x.unsafeNext || unloaded, vbus := false, hardReset := source, cmdWaits := false })

def sendHardReset (h : Hub) (p : Nat) : Hub := if attached h p then hardReset (pdSend h p .hardReset) p else h

/-- The command that runs is the one whose AMS is under way. -/
def cmdRuns (h : Hub) (p : Nat) : Bool :=
  let a := (h.port p).await
  h.is (F.typec_CMD_BUSY p) && (a == 2 || a == 3 || a == 4) && h.fget (F.typec_CMD_OP p) == a + 1

/-- A Soft_Reset, sent or received: the AMS in hand ends, a window opens (R459). As sink the hub starts its own again afterwards
(R461); as source the command whose AMS ends so has had no answer (DESIGN CHOICE, log 41). -/
def softReset (h : Hub) (p : Nat) : Hub :=
  let h := h.bump (F.typec_COUNTS_SOFT_RESETS p) 1
  let sink := tcState h p == 3
  let runs := cmdRuns h p
  let h := if runs && !sink then cmdDone h p 4 else h
  let x := h.port p
  h.setPort p { x with trans := false, selfRdy := false, await := 0, asked := none, held := [], window := true
                       cmdWaits := x.cmdWaits || (runs && sink), prWaits := x.prWaits || x.await == 5
                       lowerStage := min 1 x.lowerStage }

/-- Soft_Reset goes out after a protocol error or a timeout (R442). -/
def sendSoftReset (h : Hub) (p : Nat) : Hub :=
  let h := pdSend (softReset (h.event (Page.typec p) 15) p) p .softReset
  h.setPort p { h.port p with await := 4 }

/-- The voltage in force, before a transition under way. -/
def voltageNow (h : Hub) (p : Nat) : Nat :=
  if (h.port p).trans then (h.port p).before
  else if h.fget (F.typec_STATUS_CONTRACT p) = 2 then h.fget (F.typec_CONTRACT_MV p) else 5000

/-- The Weir measures VBUS within ±5 % of the contracted voltage (R443). -/
def vbusInRange (h : Hub) (p : Nat) : Bool :=
  let mv := h.fget (F.weir_MEAS_MV p)
  let want := h.fget (F.typec_CONTRACT_MV p)
  decide ((if mv < want then want - mv else mv - want) * 20 ≤ want)

/-- A Request or EPR_Request (R443, R441). PS_RDY for the voltage already in force goes out at once, or once VBUS is in range. -/
def answerRequest (h : Hub) (p rdo : Nat) : Hub :=
  let pos := rdo / 2 ^ 28
  let want := match (h.port p).sent.find? (fun e => e.1 == pos) with
    | some (_, pdo) => match judgeRequest pdo rdo with
      | some (mv, ma) => if ma ≤ 3000 || fiveAmp h p then some (mv, ma) else none
      | none => none
    | none => none
  let h := h.setPort p { h.port p with await := 0, tries := 0 }
  match want with
  | none => (pdSend h p .reject).bump (F.typec_COUNTS_REJECTS p) 1
  | some (mv, ma) =>
    let now := voltageNow h p
    if mv ≠ now ∧ (h.port p).fwWait then pdSend h p .wait
    else
      let h := ((pdSend h p .accept).fset (F.typec_RDO_RDO p) rdo).event (Page.typec p) 2
      let h := (h.fset (F.typec_CONTRACT_MV p) mv).fset (F.typec_CONTRACT_MA p) ma
      let h := h.setPort p { h.port p with lowerStage := if (h.port p).lowerStage = 1 then 2 else (h.port p).lowerStage }
      if mv = now ∧ vbusInRange h p then sendPsRdy h p
      else h.setPort p { h.port p with trans := true, selfRdy := mv == now, before := now }

/-! ## The contract as sink (R440, R447) -/

def sinkMax (h : Hub) (p : Nat) : Nat := min (h.fget (F.typec_SNK_CTL_MAX_MW p)) 100000

/-- The object position and PDO that the hub picks: the first with the greatest V × I within MAX_MW. -/
def bestPdo (m : Nat) : Nat → List Nat → Option (Nat × Nat) → Option (Nat × Nat)
  | _, [], best => best
  | pos, w :: t, best =>
    let ok := pdoKind w == 0 && decide (0 < pdoMaxMv w) && decide (pdoMaxMv w ≤ 20000)
    let better := match best with
      | some (_, b) => decide (min (pdoMw b) m < min (pdoMw w) m)
      | none => true
    bestPdo m (pos + 1) t (if ok && better then some (pos, w) else best)

/-- The partner's capabilities are stored in PARTNER_PDO. -/
def storePartner (h : Hub) (p : Nat) (pdos : List Nat) : Hub :=
  (List.range 7).foldl (fun h i => h.fset (F.typec_PARTNER_PDO_PDO p i) (pdos.getD i 0)) h

/-- Source_Capabilities on a sink port: the request of R447. The source's AMS crosses one of the hub's (R461). -/
def sourceCaps (h : Hub) (p : Nat) (pdos : List Nat) : Hub :=
  if tcState h p = 6 then pdSend h p .notSupported
  else if tcState h p ≠ 3 then h
  else
    let h := storePartner h p pdos
    let x := h.port p
    let cmd := h.is (F.typec_CMD_BUSY p)
    let m := sinkMax h p
    let h := h.setPort p { x with txOk := false, cmdWaits := x.cmdWaits || cmd, await := 0, prWaits := x.prWaits || x.await == 5 }
    match bestPdo m 1 (pdos.take 7) none with
    | none => h
    | some (pos, w) =>
      let mv := pdoMaxMv w
      let ma := min (min (pdoMaxMa w) (m * 1000 / mv)) (if fiveAmp h p then 5000 else 3000)
      let c := ma / 10
      let rdo := pos * 2 ^ 28 + (if mv * ma < m * 1000 then 2 ^ 26 else 0) + c * 2 ^ 10 + c
      (pdSend h p (.request rdo)).setPort p { h.port p with await := 6, asked := some (mv, c * 10, rdo) }

/-- The source's PS_RDY completes a sink contract (R447, R102). -/
def sinkContract (h : Hub) (p mv ma rdo : Nat) : Hub :=
  let h := ((h.fset (F.typec_CONTRACT_MV p) mv).fset (F.typec_CONTRACT_MA p) ma).fset (F.typec_RDO_RDO p) rdo
  let h := (h.fset (F.typec_STATUS_CONTRACT p) 2).event (Page.typec p) 3
  settleWeirs (h.setPort p { h.port p with window := false, await := 0, asked := none })

/-! ## Messages from the partner (R442, R444, R456, R458–R461) -/

/-- A VCONN window is open (R459). -/
def vconnWindow (h : Hub) (p : Nat) : Bool := (h.port p).window || h.is (F.typec_CFG_TEST_WINDOW p)

/-- An EPR_Mode Enter (R444); the reasons of a refusal are those of USB PD (log 40). -/
def eprEnter (h : Hub) (p : Nat) : Hub :=
  let epr := (h.fget (F.typec_SRC_CAP_CTL_EPR_COUNT p))
  if 6 ≤ p ∨ !(h.is (F.typec_CFG_EPR_EN p)) then pdSend h p (.eprFailed 5)
  else if h.fget (F.typec_STATUS_CABLE p) ≠ 3 then pdSend h p (.eprFailed 1)
  else if h.fget (F.typec_STATUS_CONTRACT p) ≠ 2 ∨ h.is (F.typec_STATUS_EPR_MODE p) ∨ tcState h p ≠ 6 then pdSend h p (.eprFailed 4)
  else if epr = 0 then pdSend h p (.eprFailed 5)
  else sendCaps ((pdSend h p .eprEntered).flag (F.typec_STATUS_EPR_MODE p) true) p

/-- A structured VDM to a host port (R456, R457). -/
def answerVdm (h : Hub) (p : Nat) (v : Vdm) : Hub :=
  if 4 ≤ p then pdSend h p .notSupported
  else match v with
    | .identity => pdSend h p (.vdmIdentity (h.fget (F.dockfn_IDS_VID p)) (h.fget (F.dockfn_IDS_PID p)) .pdusbHub ⟨true, true, true⟩)
    | .svids => pdSend h p (.vdmSvids [0x3BD2])
    | .modes svid => pdSend h p (if svid = 0x3BD2 then .vdmMode h.variant else .vdmNak)
    | .enter svid =>
      if svid = 0x3BD2 then ((pdSend h p .vdmAck).flag (F.typec_STATUS_FY9_MODE p) true).event (Page.typec p) 5 else pdSend h p .vdmNak
    | .exit svid =>
      if svid = 0x3BD2 ∧ h.is (F.typec_STATUS_FY9_MODE p) then (pdSend h p .vdmAck).flag (F.typec_STATUS_FY9_MODE p) false
      else pdSend h p .vdmNak

/-- The partner's VCONN_Swap is accepted: the hub sources VCONN at once, or stops at the partner's PS_RDY. -/
def vconnAccepted (h : Hub) (p : Nat) : Hub :=
  let h := pdSend h p .accept
  if h.is (F.typec_STATUS_VCONN_ON p) then h.setPort p { h.port p with await := 8 }
  else pdSend (h.flag (F.typec_STATUS_VCONN_ON p) true) p .psRdy

/-- The answer to a partner's message; `crossed`: it crossed an AMS of the hub's own as source (R460). -/
def answerMsg (h : Hub) (p : Nat) (crossed : Bool) (m : PdMsg) : Hub :=
  match m with
  | .getSourceCap => if tcState h p = 6 then sendCaps h p else pdSend h p (.sourceCaps ((sprSet h p).map (clipPdo (fiveAmp h p))))
  | .getSinkCap => pdSend h p (if p < 4 then .sinkCaps [fixedPdo 5000 3000, fixedPdo 20000 (sinkMax h p / 20)] else .notSupported)
  | .prSwap | .drSwap => pdSend h p .reject
  | .vconnSwap => if !(vconnWindow h p) then pdSend h p .reject else if crossed then pdSend h p .wait else vconnAccepted h p
  | .eprEnter => eprEnter h p
  | .eprExit => if h.is (F.typec_STATUS_EPR_MODE p) then sendCaps (h.flag (F.typec_STATUS_EPR_MODE p) false) p else h
  | .eprKeepAlive => pdSend h p .keepAliveAck
  | .enterUsb => pdSend h p (if 4 ≤ p then .notSupported else if h.is (F.link_LINK_CTL_USB4_EN p) then .accept else .reject)
  | .vdm v => answerVdm h p v
  | .request rdo => if tcState h p = 6 then answerRequest h p rdo.toNat else pdSend h p .notSupported
  | .getRevision => pdSend h p (.revision 3 2)
  | .other => pdSend h p .notSupported

/-- What waited for the end of an AMS of the hub's own is answered (R460). -/
def releaseHeld (h : Hub) (p : Nat) : Hub :=
  (h.port p).held.foldl (fun h m => answerMsg h p true m) (h.setPort p { h.port p with held := [] })

/-- The same, once no AMS of the hub's own runs. -/
def heldAnswered (h : Hub) (p : Nat) : Hub := if amsRuns h p || (h.port p).held.isEmpty then h else releaseHeld h p

/-- A partner's message crosses an AMS of the hub's own as source (R460); a Request is the answer to an offer. -/
def crosses (h : Hub) (p : Nat) (m : PdMsg) : Bool :=
  match m with
  | .request _ => ownAms h p || (h.port p).disc != 0
  | _ => amsRuns h p

/-- A message arrives: as source it waits for the end of the hub's AMS (R460); as sink it ends the hub's attempt, which starts
again later (R461). -/
def receiveMsg (h : Hub) (p : Nat) (m : PdMsg) : Hub :=
  if !(attached h p) then h
  else
    let x := h.port p
    if tcState h p = 6 then
      (if crosses h p m then h.setPort p { x with held := x.held ++ [m] } else heldAnswered (answerMsg h p false m) p)
    else if ownAms h p then
      answerMsg (h.setPort p { x with await := 0, cmdWaits := x.cmdWaits || cmdRuns h p, prWaits := x.prWaits || x.await == 5, txOk := false }) p false m
    else answerMsg h p false m

/-- The hub's own AMS has ended: what waited for its end is answered (R460). -/
def endAms (h : Hub) (p : Nat) : Hub := releaseHeld (h.setPort p { h.port p with await := 0 }) p

/-- The end of a command with an AMS of its own. -/
def endCmd (h : Hub) (p r : Nat) : Hub := endAms (if h.is (F.typec_CMD_BUSY p) then cmdDone h p r else h) p

def sinkCapabilities (h : Hub) (p : Nat) (pdos : List Nat) : Hub :=
  if !(attached h p) then h
  else
    let h := (storePartner h p pdos).fset (F.typec_STATUS_PARTNER_FRS p) (pdos.headD 0 / 2 ^ 23 % 4)
    if (h.port p).await = 2 then endCmd h p 1 else h

/-! ## Fast Role Swap (R462, R463) -/

/-- VBUS is at or below vSafe5V, whose upper limit is 5.5 V in USB PD (PRESUMED, log 40). -/
def safeFive (h : Hub) (p : Nat) : Bool := decide (h.fget (F.weir_MEAS_MV p) ≤ 5500)

/-- PS_RDY of the Fast Role Swap: the hub becomes sink. -/
def frsSink (h : Hub) (p : Nat) : Hub :=
    let h := pdSend h p .psRdy
    let h := (setTc h p 3).flag (F.typec_STATUS_POWER_ROLE p) false
    let h := (h.fset (F.typec_STATUS_CONTRACT p) 1).event (Page.typec p) 11
    let h := h.setPort p { h.port p with vbus := false, reserves := false, window := true, frs := 2, frsFails := 0, txOk := false }
    settleLedger (settleWeirs h)

/-- The partner's FR_Swap message after the signal is accepted; PS_RDY follows once VBUS is at or below vSafe5V (R462). -/
def frSwap (h : Hub) (p : Nat) : Hub :=
  if !(attached h p) then h
  else if tcState h p ≠ 6 ∨ (h.port p).frs ≠ 1 then pdSend h p .notSupported
  else
    let h := pdSend (dropContract h p) p .accept
    if safeFive h p then frsSink h p else h.setPort p { h.port p with frs := 4 }

/-- A sample may have brought VBUS of a swapping port down to vSafe5V. -/
def frsSettle (h : Hub) : Hub :=
  (List.range 4).foldl (fun h p => if tcState h p = 6 ∧ (h.port p).frs = 4 ∧ safeFive h p then frsSink h p else h) h

/-- A sample may have brought VBUS of a port that keeps its voltage into range: the hub sends its PS_RDY (R443). -/
def rdySettle (h : Hub) : Hub :=
  (List.range 12).foldl (fun h p =>
    if (h.port p).trans && (h.port p).selfRdy && vbusInRange h p then heldAnswered (sendPsRdy h p) p else h) h

/-- An attempt to swap back has failed. -/
def frsFail (h : Hub) (p : Nat) : Hub :=
  let n := (h.port p).frsFails + 1
  let h := endAms (h.setPort p { h.port p with frsFails := n }) p
  if n = 3 then h.event (Page.typec p) 12 else h

def sendPrSwap (h : Hub) (p : Nat) : Hub := (pdSend h p .prSwap).setPort p { h.port p with await := 5, prWaits := false }

/-- The hub sends PR_Swap, when it sees SinkTxOK (R463, R461). -/
def frsReturn (h : Hub) (p : Nat) : Hub :=
  let x := h.port p
  if tcState h p == 3 && x.frs == 2 && decide (x.frsFails < 3) && h.is (F.typec_CFG_FRS_RETURN p) && inputGood h && !(ownAms h p) then
    (if x.txOk ∧ x.await = 0 then sendPrSwap h p else h.setPort p { x with prWaits := true })
  else h

/-- The PR_Swap completes: the port is source again, and its floor is reserved from now (R463). -/
def swappedBack (h : Hub) (p : Nat) : Hub :=
  let h := endAms h p
  let h := (setTc h p 6).flag (F.typec_STATUS_POWER_ROLE p) true
  let h := ((h.fset (F.typec_STATUS_CONTRACT p) 0).fset (F.typec_CONTRACT_MV p) 0).fset (F.typec_CONTRACT_MA p) 0
  let h := h.setPort p { h.port p with vbus := true, reserves := true, frs := 3, frsFails := 0, asked := none, window := true, prWaits := false }
  let h := { h with input := { h.input with sinks := withBit h.input.sinks p false } }
  settleLedger (settleWeirs (h.fset (F.typec_RDO_RDO p) 0))

/-! ## Answers to the hub's own messages (R442) -/

/-- A Soft_Reset of the hub's has its answer; one that no command asked for ends no command. -/
def softResetEnd (h : Hub) (p r : Nat) : Hub := if cmdRuns h p then endCmd h p r else endAms h p

/-- The answer of a partner to the hub's own message. One that nothing awaits is a protocol error (R442, log 112). -/
def amsAnswer (h : Hub) (p : Nat) (a : AmsAnswer) : Hub :=
  let x := h.port p
  if !(attached h p) then h
  else match x.await, a with
    | 6, .accept => h.setPort p { x with await := 7 }
    | 6, .reject | 6, .wait => h.setPort p { x with await := 0, asked := none }
    | 7, .psRdy => match x.asked with
      | some (mv, ma, rdo) => sinkContract h p mv ma rdo
      | none => h.setPort p { x with await := 0 }
    | 2, .reject | 3, .reject => endCmd h p 2
    | 2, .wait | 3, .wait => endCmd h p 3
    | 4, .reject => softResetEnd h p 2
    | 4, .wait => softResetEnd h p 3
    | 3, .accept =>
      if h.is (F.typec_STATUS_VCONN_ON p) then h
      else endCmd (pdSend (h.flag (F.typec_STATUS_VCONN_ON p) true) p .psRdy) p 1
    | 3, .psRdy => if h.is (F.typec_STATUS_VCONN_ON p) then endCmd (h.flag (F.typec_STATUS_VCONN_ON p) false) p 1 else h
    | 8, .psRdy => (h.flag (F.typec_STATUS_VCONN_ON p) false).setPort p { x with await := 0 }
    | 4, .accept =>
      let h := softResetEnd h p 1
      if tcState h p = 6 then sendCaps h p else h
    | 5, .psRdy => swappedBack h p
    | 5, .reject | 5, .wait => frsFail h p
    | 5, .accept => h
    | _, _ => sendSoftReset h p

/-! ## Discovery and alternate modes (R446, R455, R457) -/

def setDisc (h : Hub) (p d : Nat) (m : PdOut) : Hub := (pdSend h p m).setPort p { h.port p with disc := d, tries := 0 }

/-- Discovery is over. -/
def discEnd (h : Hub) (p : Nat) : Hub :=
  let h := h.setPort p { h.port p with disc := 0, tries := 0 }
  if h.is (F.typec_CMD_BUSY p) && h.fget (F.typec_CMD_OP p) == 7 then cmdDone h p 1 else h

/-- Mode 1 of SVID 0x3BD2 alongside the mode of R455. -/
def discFy9 (h : Hub) (p : Nat) : Hub :=
  if h.is (F.typec_STATUS_PARTNER_FY9 p) && h.is (F.typec_MODE_POLICY_FY9_ENTER p) && !(h.is (F.typec_STATUS_FY9_MODE p)) then
    setDisc h p 9 (.enterMode 0x3BD2)
  else discEnd h p

/-- The first entry of the list of R455 that applies. -/
def discEnter (h : Hub) (p : Nat) : Hub :=
  let h := h.event (Page.typec p) 6
  let x := h.port p
  if h.is (F.typec_MODE_POLICY_USB4 p) && h.is (F.link_LINK_CTL_USB4_EN p) && x.usb4 then setDisc h p 5 .enterUsb
  else if h.is (F.typec_MODE_POLICY_DP p) && x.dpSvid && x.ufpD then setDisc h p 6 (.enterMode 0xFF01)
  else discFy9 h p

/-- The pin assignment: 2 C, 3 D (R455). -/
def dpPin (h : Hub) (p : Nat) : Nat :=
  match h.fget (F.typec_MODE_POLICY_DP_PIN p) with
  | 1 => 2
  | 2 => 3
  | _ => if (h.port p).multi then 3 else 2

/-- STATUS.ALT reports the mode entered. -/
def altEntered (h : Hub) (p alt : Nat) : Hub :=
  let h := (h.fset (F.typec_STATUS_ALT p) alt).event (Page.typec p) 5
  if alt = 1 then trainPort h p
  else settleLinks (altInForce h p (if alt = 2 then 0xC else 0xD))

/-- What follows the answer to a stage of discovery. -/
def discStep (h : Hub) (p : Nat) (a : DiscAnswer) : Hub :=
  match (h.port p).disc, a with
    | 1, .cable code => sendCaps ((h.fset (F.typec_STATUS_CABLE p) (min code 3)).setPort p { h.port p with disc := 0, tries := 0 }) p
    | 1, .nak => sendCaps (h.setPort p { h.port p with disc := 0, tries := 0 }) p
    | 2, .identity vid pid usb4 =>
      let h := (h.fset (F.typec_PARTNER_ID_VID p) vid).fset (F.typec_PARTNER_ID_PID p) pid
      setDisc (h.setPort p { h.port p with usb4 := usb4 }) p 3 .discoverSvids
    | 3, .svids dp fy9 =>
      let h := (h.flag (F.typec_STATUS_PARTNER_FY9 p) fy9).setPort p { h.port p with dpSvid := dp }
      if dp then setDisc h p 4 (.discoverModes 0xFF01) else discEnter h p
    | 4, .modes ufpD multi => discEnter (h.setPort p { h.port p with ufpD := ufpD, multi := multi }) p
    | 2, .nak | 3, .nak | 4, .nak => discEnter h p
    | 5, .ack => discFy9 (altEntered h p 1) p
    | 6, .ack => setDisc h p 7 .dpStatus
    | 7, .ack => setDisc h p 8 (.dpConfigure (dpPin h p))
    | 8, .ack => discFy9 (altEntered h p (dpPin h p)) p
    | 5, .nak | 6, .nak | 7, .nak | 8, .nak => discFy9 h p
    | 9, .ack => discEnd ((h.flag (F.typec_STATUS_FY9_MODE p) true).event (Page.typec p) 5) p
    | 9, .nak => discEnd h p
    | _, _ => h

/-- The partner or the cable answers a stage of discovery; a message that crossed it is answered first (R460). -/
def discAnswer (h : Hub) (p : Nat) (a : DiscAnswer) : Hub :=
  if tcState h p ≠ 6 ∨ (h.port p).disc = 0 then h else discStep (releaseHeld h p) p a

/-- An Attention of a DP Alt Mode partner: its HPD (R75). -/
def attention (h : Hub) (p : Nat) (hpd : Bool) : Hub :=
  if decide (4 ≤ p) && decide (2 ≤ h.fget (F.typec_STATUS_ALT p)) && dpMode (h.fget (F.link_LINK_STATUS_MODE p)) then dpStop h (p - 4) hpd
  else h

/-- The alternate mode is exited on command. -/
def exitModes (h : Hub) (p : Nat) : Hub :=
  let dp := decide (2 ≤ h.fget (F.typec_STATUS_ALT p))
  let h := if dp then pdSend h p (.exitMode 0xFF01) else h
  let h := if h.is (F.typec_STATUS_FY9_MODE p) then pdSend h p (.exitMode 0x3BD2) else h
  let h := (if dp then dropAlt h p else h.flag (F.typec_STATUS_FY9_MODE p) false).event (Page.typec p) 5
  if dp then trainPort h p else h

/-! ## Commands (R445, R450, R451, R458, R470) -/

/-- SEND_SRC_CAP. -/
def commitSet (h : Hub) (p : Nat) : Hub :=
  let n := max 1 (h.fget (F.typec_SRC_CAP_CTL_SPR_COUNT p))
  let m := if 6 ≤ p then 0 else min 6 (h.fget (F.typec_SRC_CAP_CTL_EPR_COUNT p))
  let spr := (List.range n).map fun i => h.fget (F.typec_SRC_PDO_PDO p i)
  let epr := (List.range m).map fun i => h.fget (F.typec_EPR_PDO_PDO p i)
  if !(spr.all (pdoValid p · false) && epr.all (pdoValid p · true)) then cmdDone h p 9
  else
    let x := h.port p
    let top := (spr ++ epr).foldl (fun a w => max a (pdoMw w)) 0
    let contract := if h.fget (F.typec_STATUS_CONTRACT p) = 2 ∧ tcState h p = 6 then
      h.fget (F.typec_CONTRACT_MV p) * h.fget (F.typec_CONTRACT_MA p) / 1000 else 0
    let eff := if x.setMax ≤ top then top else max top contract
    let res := max (floorMw h p) eff
    if h.fget (F.typec_PORT_MAX_MW p) < res ∨ (x.reserves ∧ budget h < ledgerUsed h - reservation h p + res) then
      cmdDone (h.event (Page.typec p) 9) p 5
    else
      let h := h.setPort p { x with spr := some spr, epr := epr, setMax := eff, lower := if eff = top then none else some top, lowerStage := 0 }
      let h := settleLedger h
      cmdDone (if tcState h p = 6 ∧ chState h p = 2 then sendCaps h p else h) p 1

/-- The message of a command with an AMS of its own goes out. -/
def startCmd (h : Hub) (p op : Nat) : Hub :=
  let m : PdOut := if op = 3 then .getSinkCap else if op = 4 then .vconnSwap else .softReset
  (pdSend h p m).setPort p { h.port p with await := op - 1, cmdWaits := false }

/-- As sink an AMS starts only while SinkTxOK is seen (R461). -/
def trySendCmd (h : Hub) (p op : Nat) : Hub :=
  if tcState h p = 3 ∧ !(h.port p).txOk then h.setPort p { h.port p with cmdWaits := true } else startCmd h p op

/-- The command CMD.OP of a port that is not busy. -/
def runCmd (h : Hub) (p op : Nat) : Hub :=
  let h := (h.fset (F.typec_CMD_OP p) op).flag (F.typec_CMD_BUSY p) true
  if (h.port p).unsafeNext then cmdDone (h.setPort p { h.port p with unsafeNext := false }) p 7
  else match op with
    | 1 => commitSet h p
    | 2 =>
      if tcState h p ≠ 6 ∨ !(h.port p).trans then cmdDone h p 7
      else if vbusInRange h p then cmdDone (heldAnswered (sendPsRdy h p) p) p 1
      else cmdDone h p 8
    | 3 => if attached h p && !(ownAms h p) then trySendCmd h p 3 else cmdDone h p 7
    | 4 =>
      if !(attached h p) || ownAms h p then cmdDone h p 7
      else if vconnWindow h p then trySendCmd h p 4 else cmdDone h p 6
    | 5 => if attached h p && (h.port p).await != 4 then startCmd (softReset h p) p 5 else cmdDone h p 7
    | 6 => if attached h p then cmdDone (sendHardReset (h.flag (F.typec_CMD_BUSY p) false) p) p 1 else cmdDone h p 7
    | 7 => if decide (4 ≤ p) && tcState h p == 6 && (h.port p).disc == 0 then startDiscovery h p else cmdDone h p 7
    | 8 =>
      if decide (4 ≤ p) && tcState h p == 6 && (decide (2 ≤ h.fget (F.typec_STATUS_ALT p)) || h.is (F.typec_STATUS_FY9_MODE p)) then
        cmdDone (exitModes h p) p 1
      else cmdDone h p 7
    | 9 =>
      if tcState h p = 0 then cmdDone h p 7
      else
        let h := h.flag (F.typec_CMD_BUSY p) false
        let h := if attached h p then detached (setTc (dropContract h p) p 11) p else setTc h p 11
        cmdDone (settleLedger h) p 1
    | _ => cmdDone h p 7

/-- CMD is written (R441, R467, R470). -/
def cmdWritten (h : Hub) (p op : Nat) : Hub :=
  let h := h.setPort p { h.port p with fwWait := false }
  if h.is (F.typec_CMD_BUSY p) then h.fset (F.typec_CMD_RESULT p) 7
  else if op = 0 then h else runCmd h p op

/-- As sink, the hub sees SinkTxOK: what waited for it starts (R461). A VCONN_Swap whose window has closed is refused (R458). -/
def sinkTxOk (h : Hub) (p : Nat) : Hub :=
  if tcState h p ≠ 3 then h
  else
    let h := h.setPort p { h.port p with txOk := true }
    let x := h.port p
    if x.await ≠ 0 then h
    else if x.prWaits then sendPrSwap h p
    else if x.cmdWaits then
      (if h.fget (F.typec_CMD_OP p) = 4 ∧ !(vconnWindow h p) then cmdDone h p 6 else startCmd h p (h.fget (F.typec_CMD_OP p)))
    else h

/-! ## Timers (R443, R444, R448) -/

def transitionTimeout (h : Hub) (p : Nat) : Hub :=
  if tcState h p = 6 ∧ (h.port p).trans then sendHardReset (h.event (Page.typec p) 13) p else h

def eprSinkTimeout (h : Hub) (p : Nat) : Hub :=
  if tcState h p = 6 ∧ h.is (F.typec_STATUS_EPR_MODE p) then sendHardReset h p else h

/-- Source_Capabilities brought no GoodCRC: repeated, up to 50 times. -/
def capsRepeat (h : Hub) (p : Nat) : Hub :=
  let x := h.port p
  if tcState h p = 6 ∧ x.await = 1 then
    let h := h.bump (F.typec_COUNTS_RETRY_FAIL p) 1
    if x.tries < 50 then
      let h := h.setPort p { h.port p with tries := x.tries + 1 }
      sendCaps h p
    else heldAnswered (h.setPort p { h.port p with await := 0, tries := 0 }) p
  else h

/-- The hub's own wait for an answer expires: Hard Reset where a contract, VCONN or a Soft_Reset is at stake, Soft_Reset else (R442, log
112). -/
def responseTimeout (h : Hub) (p : Nat) : Hub :=
  let x := h.port p
  if !(attached h p) then h
  else match x.await with
    | 1 | 6 | 7 => sendHardReset (h.event (Page.typec p) 15) p
    | 2 | 3 => sendSoftReset (endCmd h p 4) p
    | 4 => sendHardReset ((softResetEnd h p 4).event (Page.typec p) 15) p
    | 5 => frsFail h p
    | 8 => sendHardReset (h.event (Page.typec p) 15) p
    | _ =>
      if x.cmdWaits then cmdDone h p 7
      else match x.disc with
        | 0 => h
        | 1 =>
          if x.tries < 2 then (pdSend h p .discoverCable).setPort p { x with tries := x.tries + 1 } else discAnswer h p .nak
        | _ => discAnswer h p .nak

end Sys2Proof.Machine
end

