-- ==== Sys2Proof/Machine/Weirs.lean ====
section
/-! DEFINITION. The Weirs at work: samples, breaker, power-good, energy, the ends of ramps, the input channel and its
early warnings (R476–R499). -/

namespace Sys2Proof.Machine

/-! ## Samples (R477, R478) -/

/-- MV, MA and MW of a frame's codes; a value that its register cannot hold is free (log 46). -/
def sampleMv (v : Nat) : Nat := v % 2 ^ 12 * 15

def sampleMa (i : Int) (shunt : Nat) : Int :=
  let q := Int.tdiv (i * 24414) shunt
  if shunt = 0 ∨ q < -(2 ^ 15 : Int) ∨ (2 ^ 15 : Int) ≤ q then toInt 16 (Config.freeCurrent i shunt).toNat else q

def sampleMw (mv : Nat) (ma : Int) : Int := Int.tdiv ((mv : Int) * ma) 1000

/-- POWER as its 21 bits hold it. -/
def powerField (mw : Int) : Nat :=
  if mw < -(2 ^ 20 : Int) ∨ (2 ^ 20 : Int) ≤ mw then (Config.freePower mw).toNat else ofInt 21 mw

/-- ENERGY after a sample's power × 16 µs, with the fraction carried (R478). -/
def addEnergy (h : Hub) (c : Nat) (mw : Int) : Hub :=
  let x := h.weir c
  let acc : Int := (x.frac : Int) + mw * 16
  let e : Int := (h.pget (F.weir_ENERGY_LO_MJ c) : Int) + acc / 1000000
  let h := (h.pset (F.weir_ENERGY_LO_MJ c) (ofInt 40 e)).setWeir c { x with frac := (acc % 1000000).toNat }
  if (2 ^ 40 : Int) ≤ e then h.event (Page.weir c) 6 else h

/-- EXTREMES take a sample (R501). -/
def noteExtremes (h : Hub) (c mv : Nat) (ma : Int) : Hub :=
  let h := if toInt 16 (h.fget (F.weir_EXTREMES_PEAK_MA c)) < ma then h.fset (F.weir_EXTREMES_PEAK_MA c) (ofInt 16 ma) else h
  if mv < h.fget (F.weir_EXTREMES_MIN_MV c) then h.fset (F.weir_EXTREMES_MIN_MV c) mv else h

/-- A read of EXTREMES reloads the current sample. -/
def readExtremes (h : Hub) (c : Nat) : Hub :=
  (h.fset (F.weir_EXTREMES_PEAK_MA c) (h.fget (F.weir_MEAS_MA c))).fset (F.weir_EXTREMES_MIN_MV c) (h.fget (F.weir_MEAS_MV c))

/-! ## Trips (R483, R485, R486) -/

/-- A power-good change, with what hangs on W12's (R434, R495). -/
def pgChange (h : Hub) (c : Nat) (b : Bool) : Hub :=
  let h' := setPg h c b
  if c = 12 ∧ h.is (F.weir_STATUS_PG c) != b then settleWeirs (inputChanged h') else h'

/-- A trip (R485), with what it means for the port of a source path (R486). PG of W12 falls too, and its delay starts again
(R491, R493). -/
def chTrip (h : Hub) (c cause step : Nat) : Hub :=
  if chState h c = 3 ∨ !(h.present .weir c) then h
  else
    let source := decide (c < 12) && chClosed h c && h.fget (F.weir_STATUS_PATH c) == 1
    let h := ((h.flag (F.weir_STATUS_LATCHED c) true).fset (F.weir_STATUS_CAUSE c) cause).fset (F.weir_STATUS_STEP c) step
    let h := (h.fset (F.weir_TRIP_SNAP_MV c) (h.fget (F.weir_MEAS_MV c))).fset (F.weir_TRIP_SNAP_MA c) (h.fget (F.weir_MEAS_MA c))
    let h := chOpen ((h.bump (F.weir_COUNTS_TRIPS c) 1).event (Page.weir c) 0) c 3
    let h := if source && tcState h c == 6 then dropContract (convSafe h c) c else h
    let h := if source && decide (4 ≤ c) then overCurrent h (c - 4) else h
    if c = 12 then settleWeirs (pgChange (h.setWeir c { h.weir c with held := none }) c false) else settleWeirs h

/-- The analog comparator (R483). -/
def fastTrip (h : Hub) (c : Nat) : Hub :=
  if chClosed h c && h.fget (F.weir_LIMITS_FAST_MA c) != 0 then chTrip h c 2 0 else h

/-- A ramp has run for RAMP_MAX.MS (R481). -/
def rampTimeout (h : Hub) (c : Nat) : Hub := if chState h c = 1 then chTrip h c 4 0 else h

/-! ## Breaker (R482) -/

/-- The steps from k on: their timers after a sample, and the step that trips. -/
def breakerFrom (h : Hub) (c : Nat) (i : Int) : Nat → List Nat → List Nat × Option Nat
  | _, [] => ([], none)
  | k, t :: ts =>
    let thr := h.fget (F.weir_CURVE_T_MA c k)
    if thr ≠ 0 ∧ (thr : Int) < i ∧ h.fget (F.weir_CURVE_A_US c k) ≤ t then (t :: ts, some k)
    else
      let (rest, trip) := breakerFrom h c i (k + 1) ts
      ((if thr = 0 then 0 else if (thr : Int) < i then t + 16 else t - 16) :: rest, trip)

/-- Breaker, overvoltage and, in a ramp, SOA, in this order (R480, R482, R484, log 47). -/
def protect (h : Hub) (c mv : Nat) (ma : Int) : Hub :=
  if !(chClosed h c) then h
  else
    let (t, step) := breakerFrom h c ma 0 (h.weir c).t
    let isOver := h.fget (F.weir_LIMITS_OV_MV c) != 0 && decide (h.fget (F.weir_LIMITS_OV_MV c) < mv)
    let soa := (h.weir c).soa + (if chState h c = 1 ∧ (h.fget (F.weir_SOA_MA c) : Int) < ma then 16 else 0)
    let us := h.fget (F.weir_SOA_US c)
    let wasOver := (h.weir c).overV
    let h := h.setWeir c { h.weir c with t := t, overV := isOver, soa := if us = 0 then 0 else soa }
    match step with
    | some k => chTrip h c 1 k
    | none =>
      if isOver && wasOver then chTrip h c 5 0
      else if chState h c = 1 ∧ us ≠ 0 ∧ us ≤ soa then chTrip h c 3 0 else h

/-! ## Power-good (R488–R493) -/

/-- The window of a channel; none while the check is suspended, from an Accept to its PS_RDY, sent or received (R492). -/
def pgWindow (h : Hub) (c : Nat) : Option (Nat × Nat) :=
  if c < 12 ∧ ((h.port c).trans ∨ (h.port c).await = 7) then none
  else if c < 12 ∧ h.is (F.weir_CTL_PG_AUTO c) then
    if h.fget (F.typec_STATUS_CONTRACT c) = 2 then
      let mv := h.fget (F.typec_CONTRACT_MV c)
      some (mv - mv / 10, mv + mv / 10)
    else some (4750, 5500)
  else some (h.fget (F.weir_PG_WIN_MIN_MV c), h.fget (F.weir_PG_WIN_MAX_MV c))

def inWindow (h : Hub) (c mv : Nat) : Bool :=
  match pgWindow h c with
  | none => true
  | some (lo, hi) => decide (lo ≤ mv) && decide (mv ≤ hi)

/-- A fault timer of the channel runs. -/
def faultRuns (x : WeirSt) : Bool := x.t.any (· != 0) || x.soa != 0 || x.loss != 0 || x.overV

/-- WARN follows the fault timers (R489). -/
def noteWarn (h : Hub) (c : Nat) : Hub :=
  let f := faultRuns (h.weir c)
  if f && h.is (F.weir_STATUS_PG c) && !(h.is (F.weir_STATUS_WARN c)) then
    ((h.flag (F.weir_STATUS_WARN c) true).event (Page.weir c) 3).bump (F.weir_COUNTS_WARNS c) 1
  else if !f then h.flag (F.weir_STATUS_WARN c) false else h

/-- The window-loss timer and the time for which the conditions of R488 hold, after a sample. -/
def powerGood (h : Hub) (c mv : Nat) : Hub :=
  let on := c == 12 || chState h c == 2
  let inside := inWindow h c mv
  let x := h.weir c
  let h := h.setWeir c { x with loss := if on && !inside then x.loss + 16 else 0 }
  let h := noteWarn h c
  let x := h.weir c
  if on && inside && !(faultRuns x) then
    let held := match x.held with | none => 0 | some n => n + 16
    let h := h.setWeir c { x with held := some held }
    if h.fget (F.weir_PG_TIME_DELAY_US c) ≤ held then pgChange h c true else h
  else
    let h := h.setWeir c { x with held := none }
    if on && !inside && decide (h.fget (F.weir_PG_TIME_LOSS_US c) ≤ x.loss) then pgChange h c false else h

/-! ## A frame of the SAR (R476) -/

def sampleChannel (h : Hub) (c v : Nat) (i : Int) : Hub :=
  if !(h.present .weir c) then h
  else
    let mv := sampleMv v
    let ma := sampleMa i (h.fget (F.weir_SETUP_SHUNT_UOHM c))
    let mw := sampleMw mv ma
    let h := ((h.fset (F.weir_MEAS_MV c) mv).fset (F.weir_MEAS_MA c) (ofInt 16 ma)).fset (F.weir_POWER_MW c) (powerField mw)
    powerGood (protect (addEnergy (noteExtremes h c mv ma) c mw) c mv ma) c mv

def sampleChannels : Nat → List (Nat × Int) → Hub → Hub
  | _, [], h => h
  | c, (v, i) :: t, h => sampleChannels (c + 1) t (sampleChannel h c v i)

/-- A frame delivers its samples: the channels while their domain is in RUN, and the chip's own slots. -/
def sample (h : Hub) (f : SarFrame) : Hub :=
  let h := if h.ready 42 then sampleChannels 0 (f.channels.take 14) h else h
  thermal (monitor (rdySettle (frsSettle h)) f.vin f.vkeep f.vio33 f.temp)

/-! ## The end of a ramp (R479, R480) -/

def rampEnd (h : Hub) (c : Nat) : Hub :=
  if chState h c ≠ 1 then h
  else
    let h := (h.fset (F.weir_STATUS_STATE c) 2).setWeir c { h.weir c with soa := 0 }
    if c < 12 ∧ h.fget (F.weir_STATUS_PATH c) = 1 then portPowered h c else h

/-! ## The input channel (R462, R494–R497) -/

/-- A host port takes part in the Fast Role Swap: the signal is sent, the transition is abandoned, its source path opens and
its sink path waits. -/
def frSignal (h : Hub) (p : Nat) : Hub :=
  if tcState h p == 6 && h.is (F.typec_CFG_FRS_EN p) && h.fget (F.typec_STATUS_PARTNER_FRS p) != 0 then
    let h := (pdSend h p .frSignal).setPort p { h.port p with vbus := false, trans := false, frs := 1 }
    { h with input := { h.input with sinks := withBit h.input.sinks p true } }
  else h

/-- An early-warning condition of W12 (R496). -/
def earlyWarning (h : Hub) (e : EwCause) : Hub :=
  let (en, st) := match e with
    | .uv => (F.weir_EW_CTL_UV_EN 12, F.weir_EW_STAT_UV 12)
    | .slope => (F.weir_EW_CTL_SLOPE_EN 12, F.weir_EW_STAT_SLOPE 12)
    | .rev => (F.weir_EW_CTL_REV_EN 12, F.weir_EW_STAT_REV 12)
  if !(h.is en) then h
  else
    let h := if h.is (F.weir_EW_STAT_PFW 12) then h else (h.flag (F.weir_EW_STAT_PFW 12) true).emit (.pfw true)
    let h := (h.flag st true).event (Page.weir 12) 8
    let h := (List.range 4).foldl frSignal h
    settleWeirs (if e = .rev then { h with input := { h.input with rev := true } } else h)

/-- W12 has been power-good without early warning for HOLD_MS (R497). -/
def pfwRelease (h : Hub) : Hub :=
  if h.is (F.weir_EW_STAT_PFW 12) && inputGood h then
    let h := ((h.flag (F.weir_EW_STAT_PFW 12) false).emit (.pfw false)).event (Page.weir 12) 9
    settleWeirs { h with input := { h.input with rev := false } }
  else h

/-- The dead-battery logic closes the sink path of the lowest host port of those above 4.0 V (R494). -/
def deadBattery (h : Hub) (ports : List Nat) : Hub :=
  if inputGood h || anySinkClosed h then h
  else match (List.range 4).find? (fun p => ports.contains p && h.present .weir p) with
    | none => h
    | some p => settleWeirs { h with input := { h.input with sinks := 2 ^ p, deadBattery := 2 ^ p } }

/-- While W12 is power-good, every sink path opens, and then W12 closes (R495). -/
def switchover (h : Hub) : Hub :=
  if inputGood h && !h.input.rev then settleWeirs { h with input := { h.input with sinks := 0, deadBattery := 0 } } else h

/-- The sink contract has ended while VIN is still taken from the port (R103). -/
def profileReentry (h : Hub) : Hub := if profileWanted h then settleLedger (enterProfile h) else h

end Sys2Proof.Machine
end

