-- ==== Sys2Proof/Machine/ResetBoot.lean ====
section
/-! DEFINITION. Resets of every reach, the watchdog, SHELF, boot and BIST (R526–R531, R643–R666). -/

namespace Sys2Proof.Machine

/-! ## Blocks (R45, R46, R645, R646) -/

/-- Every chain stored in the Hopper, or being written into it, is discarded; its flows go on with empty queues (R646, R206, R695).
What the TX halves hold is read out, and a copy under way ends marked (R139, R556). -/
def hopperLose (h : Hub) : Hub :=
  let ps := (h.chains.map (·.path)).eraseDups
  let emptied (f : Flow) : Flow := if f.queue.isEmpty then f else { f with queue := [], tag := none, sinceTurn := false }
  let h := h.chains.foldl (fun h c => c.copies.foldl (fun h k =>
    if !k.closed && decide (0 < k.sent) then endMarked h c.id c.path k.outlet else h) h) h
  let h := { h with chains := [], leaked := [], marked := [], cellErr := []
                    flows := h.flows.map fun e => (e.1, emptied e.2) }
  let h := ps.foldl (fun h p => endFlows (h.fset (F.path_QUEUE_QUEUED p) 0) p) h
  updateDrained ((List.range 24).foldl capOutlet h)

/-- The link of a port that a reset has taken: its alternate mode again, or a new training (R646). -/
def portRestore (h : Hub) (n : Nat) : Hub :=
  if !(h.present .link n) || !(attached h n) then h
  else if 4 ≤ n ∧ 2 ≤ h.fget (F.typec_STATUS_ALT n) then
    settleLinks (altInForce h n (if h.fget (F.typec_STATUS_ALT n) = 2 then 0xC else 0xD))
  else trainPort h n

/-- Reel memory trains again and serves after a reset of its logic, where its domain runs (R268). -/
def reelRestore (h : Hub) : Hub := if h.present .reel 0 && h.ready 12 then reelReady h else h

/-- The end of a BIST run (R662). -/
def bistRelease (h : Hub) : Hub :=
  match h.boot.bist with
  | none => h
  | some (ds, _) =>
    let h := ds.foldl (fun h d => enforcePolicy (enforceFloor (h.setDom d { h.dom d with resetting := false }) d) d) h
    { reelRestore ((h.flag F.bist_CMD_BUSY false).flag F.bist_CMD_GO false) with boot := { h.boot with bist := none } }

/-- A run that ends early: every selected domain reads ABORTED; the Reel pattern may have overwritten Reel memory (R660, log 106). -/
def bistAbort (h : Hub) : Hub :=
  match h.boot.bist with
  | none => h
  | some (ds, ty) =>
    let r := ds.foldl (fun t d => Tbl.put (fun _ => none) t d (some { passed := false, aborted := true, kind := ty, timeMs := 0, misr := 0 })) h.boot.results
    bistRelease (if ty = 3 then settleGates (contentLost { h with boot := { h.boot with results := r } }) else { h with boot := { h.boot with results := r } })

/-- The watchdog reloads (R648). -/
def wdtTimeout (h : Hub) : Nat := max 1 (h.fget F.chip_WDT_CTL_TIMEOUT_MS)

def wdtReload (h : Hub) : Hub := { h with boot := { h.boot with wdtAt := h.time, wdtMs := wdtTimeout h } }

/-- The virtual times and tags of an outlet's classes return to 0 and its class shapers start anew, and the F_prev of each of its flows counts as stale (R696). -/
def Hub.outletClear (h : Hub) (o : Nat) : Hub :=
  let h := (List.range 8).foldl (fun h c =>
    h.setCls o c { class0 with tag := (h.cls o c).tag.map fun _ => 0, hadToken := (h.cls o c).hadToken }) h
  { h with flows := h.flows.map fun e => if e.1 % 32 = o then (e.1, { e.2 with tag := none, lastSel := 0 }) else e }

/-- The work in hand that the block of a page loses in a reset, and with OFF of its domain. The turns themselves go on (R161): a
computation that the reset interrupts is late (R167). -/
def loseWork (h : Hub) (k : Kind) (i : Nat) : Hub :=
  match k with
  | .mill => hopperLose { h with forebays := [] }
  | .hopper => hopperLose h
  | .sluice => { h with turn := { h.turn with computing := false, computed := false }, pathSt := [], factors := [] }
  | .sluiceOut =>
    (h.setOutlet i { h.outlet i with vInter := 0 }).outletClear i
  | .gate => gateReset ((List.range 4).foldl notePassed h) i
  | .proj => projReset h i
  | .dpo => dpoReset h i
  | .reel => { h with reelBlocks := 0 }
  | .typec =>
    let x := h.port i
    if h.is (F.typec_CMD_BUSY i) then h.setPort i { x with cmdWaits := false, await := if x.await ≤ 4 ∧ 2 ≤ x.await then 0 else x.await } else h
  | .link =>
    let m := h.fget (F.link_LINK_STATUS_MODE i)
    (linkGone (if dpMode m ∧ 4 ≤ i then dpStop h (i - 4) false else h) i).fset (F.link_LINK_STATUS_LSTATE i) 0
  | .usbhub =>
    let z (t : Tbl Nat) : Tbl Nat := Tbl.put (fun _ => 0) t i 0
    { h with usb := { h.usb with suspended := z h.usb.suspended, connChange := z h.usb.connChange, ocChange := z h.usb.ocChange } }
  | .dockfn => dockDefaults (abortControl h i) i
  | .tailrace => { h with net := { h.net with fdb := [], vlans := [], queue := [], arriving := Tbl.keep (· % 32 != 21) h.net.arriving } }
  | .ethmac => ethDown h i
  | .pciedn => pcieDown h i
  | .leat => leatLinkDown h i
  | .fabric =>
    settleFabric { h with fabric :=
      { h.fabric with gotSync := false, missed := 0, cleanTurns := 0, cleanSyncs := 0, step := none, members := none, route := none
                      phase := none, features := none } }
  | .misc => { h with misc := { h.misc with busTx := [], busRx := [], busRun := [], busCmd := [], spiCmd := 0, spiTx := [], spiRx := [], uartTx := [], uartRx := [] } }
  | .tally => { h with tally := ⟨[], []⟩ }
  | .cue0 => { h with cue := { h.cue with active := 0, seen := 0, gone := 0, waiting := [] } }
  | .vault => vaultClearN h
  | .bist => bistAbort h
  | .chip => { h with boot := { h.boot with wdtAt := h.time, wdtMs := 2000 } }
  | .miller => { h with boot := { h.boot with stream := [] } }
  | .clk => { h with clock := { h.clock with meterSrc := 0 } }
  | .pstk => { h with pen := h.pen.map fun e => (e.1, { e.2 with streams := [] }) }
  | .aud => settleAud { h with usb := { h.usb with audOut := [], audIn := [] } } false
  | .pwr | .slice | .weir | .cue1 | .cue2 | .cue3 | .path | .stats | .mcast | .wred | .policer | .tallyTab | .nic | .msix => h

/-- The crossings of a block pass through FLUSH (R556, R646). -/
def flushCrossings (h : Hub) (k : Kind) (i : Nat) : Hub :=
  match k with
  | .mill | .hopper => (List.range 21).foldl coreSideDown h
  | .link => unitSideDown h i
  | .dpo => unitSideDown h (12 + i)
  | .ethmac => unitSideDown h (14 + i)
  | .pciedn => unitSideDown h (16 + i)
  | .leat => unitSideDown h (18 + i)
  | .aud => unitSideDown h 20
  | _ => h

def blockAbandon (h : Hub) (k : Kind) (i : Nat) : Hub := loseWork (flushCrossings h k i) k i

/-- RESET_CTL.BLOCK_RESET: the reset starts, or waits for the domain that it wakes (R41, R646, R663). -/
def blockReset (h : Hub) (page : Nat) : Hub :=
  match pageAt page with
  | none => h
  | some (k, i, base) =>
    let d := k.domain i
    if k.isTable || k.endpoint || (h.dom d).resetting then h
    else
      let h := wake (h.flag (F.hdr_RESET_CTL_BLOCK_RESET base) true) d
      if h.ready d then blockAbandon h k i else h

/-- DUP_ID outlasts every reset in which the straps stay (R617); the links and FEAT_AGREED follow what the reset has left. -/
def fabricBack (before h : Hub) : Hub :=
  settleFabric (if cause before 4 then (h.putBit F.fabric_STATE_CAUSES 4 true).flag F.fabric_STATE_QUARANTINE true else h)

/-- RUN and LOCK of the audio port follow CTL, which a reset leaves (R431). -/
def audioBack (h : Hub) : Hub :=
  (h.flag F.aud_STATUS_RUN (h.is F.aud_CTL_EN)).flag F.aud_STATUS_LOCK (h.is F.aud_CTL_EN && h.is F.aud_CTL_MASTER)

/-- What follows from the fields that a reset has returned to their reset values. -/
def settleReset (h : Hub) : Hub := settleLinks (updateDrained (settleInbox h))

/-- A block reset completes (R46, R646). -/
def blockResetDone (h : Hub) (page : Nat) : Hub :=
  match pageAt page with
  | none => h
  | some (k, i, base) =>
    if !(h.is (F.hdr_RESET_CTL_BLOCK_RESET base)) || !(h.ready (k.domain i)) then h
    else
      let h0 := h
      let h := clearPage (loseWork h k i) base [.n, .d, .l]
      let h := (h.flag (F.hdr_COMMIT_GO base) false).flag (F.hdr_COMMIT_HOLD base) false
      let h := h.flag (F.hdr_RESET_CTL_BLOCK_RESET base) false
      let h := if k = .hopper then { h with lossyFullSeen := false } else h
      settleReset (match k with
        | .link => portRestore h i
        | .reel => reelRestore h
        | .aud => audioBack h
        | .fabric => fabricBack h0 h
        | _ => h)

/-- The pages of a domain with their kinds. -/
def domainKinds (d : Nat) : List (Kind × Nat × Nat) := allPages.filter fun q => q.1.domain q.2.1 == d

/-- A domain reset (R646): every page at once, and every table region of the domain. -/
def domainReset (h : Hub) (d : Nat) : Hub :=
  let h0 := h
  let qs := domainKinds d
  let h := qs.foldl (fun h q => blockAbandon h q.1 q.2.1) h
  let h := if 4 ≤ d ∧ d < 12 then (List.range 21).foldl coreSideDown (hopperLose h) else h
  let h := clearDomain h d [.n, .d, .l]
  let h := (tableRegions.filter fun q => q.1.domain 0 == d).foldl (fun h q => clearRange h q.2.1 q.2.2 [.v, .a, .s, .n, .d, .l]) h
  let h := qs.foldl (fun h q => (h.flag (F.hdr_COMMIT_GO q.2.2) false).flag (F.hdr_COMMIT_HOLD q.2.2) false) h
  let h := if d = 3 then
      (List.range 4).foldl (fun h s => h.fset (F.slice_PATH_QUOTA_USED s) 0) <|
        settleBound { h with pathSt := [], cmPaths := [], auxGate := [], flows := [], credits := [], lossyFullSeen := false }
    else h
  settleReset (if 21 ≤ d ∧ d < 33 then portRestore h (d - 21)
    else if d = 12 then reelRestore h
    else if d = 40 then audioBack h
    else if d = 2 then fabricBack h0 h else h)

/-! ## Miller cores (R647, R653) -/

/-- A requester's snapshot and staging registers are emptied (R688). -/
def emptyPairs (h : Hub) (r : Nat) : Hub :=
  { h with snaps := h.snaps.filter (fun e => e.1 % 16 != r), staging := h.staging.filter (fun e => e.1 % 16 != r) }

/-- The core's accesses that wait in Penstock are discarded. -/
def dropCore (h : Hub) (c : Nat) : Hub :=
  { h with stalled := h.stalled.filter fun a => match a.req with | .miller b => b.val != c | _ => true }

/-- CTL.CORE_RESET. MILLER0 in the ROM restarts the boot at step 4 (R663). -/
def coreReset (h : Hub) (c : Nat) : Hub :=
  if 4 ≤ c then h
  else
    let h := stackReset (dropCore (emptyPairs h (4 + c)) c) c
    let h := h.fset (F.miller_STATUS_STATE c) (if h.is (F.miller_CTL_RUN c) then 1 else 0)
    if c = 0 ∧ 2 ≤ h.boot.phase ∧ h.boot.phase ≤ 5 then { h with boot := { h.boot with phase := 1, stream := [] } } else h

/-- CTL.RUN is written. -/
def coreRun (h : Hub) (c : Nat) (on : Bool) : Hub :=
  let was := h.is (F.miller_CTL_RUN c)
  let h := h.flag (F.miller_CTL_RUN c) on
  if was = on ∧ h.fget (F.miller_STATUS_STATE c) ≠ 0 then h else h.fset (F.miller_STATUS_STATE c) (if on then 1 else 0)

/-! ## Chip resets (R441, R499, R548, R644, R650) -/

/-- A key of a page header's HELD, which reads the state of the pad latches (R525). -/
def isHeld (key : Nat) : Bool := decide (key < 32 * 0xD8000) && key % 32 == 2 && key / 32 % 0x1000 == 0x2C

/-- A field of the block registers of a WEIR page, which a chip reset leaves alone. -/
def isWeirBlock (key : Nat) : Bool :=
  decide (32 * Page.weir 0 ≤ key) && decide (key < 32 * Page.weir 14) && decide (0x40 ≤ key / 32 % 0x1000)

def chipKeeps (key : Nat) : Bool := [Cls.v, .a, .s].contains (clsOf key) || isWeirBlock key || isHeld key

/-- A chip reset: cause bit 2 RESET_N, 3 WDT, 4 SOFT, 6 CTRL rescue. -/
def chipReset (h : Hub) (cause : Nat) : Hub :=
  if h.power.shelf = 2 then h
  else
    let h := (List.range 43).foldl latchPads (bistAbort h)
    let k : Hub :=
      { Hub.reset with
        otp := h.otp
        regs := Tbl.keep chipKeeps h.regs
        active := Tbl.keep chipKeeps h.active
        ownerApplied := h.ownerApplied
        domains := Tbl.keep (· == 42) h.domains
        reelBad := h.reelBad
        ftime := h.ftime, epoch := h.epoch, fresh := h.fresh, out := h.out, nextChain := h.nextChain, headRank := h.headRank
        turn := { h.turn with computing := false, computed := false }
        power := { Hub.reset.power with hotIslands := h.power.hotIslands, critical := h.power.critical }
        clock := { h.clock with muxBusy := 0, shaft := h.fget F.clk_DOMSRC_SHAFT, meterSrc := 0 }
        bindSince := h.bindSince, bindNext := h.bindNext
        units := h.units.map fun e => (e.1, { e.2 with attaching := false })
        vault := { h.vault with slots := [], run := none }
        fabric := { Hub.reset.fabric with hash := h.fabric.hash }
        usb := { Hub.reset.usb with dev2 := h.usb.dev2, oc := h.usb.oc }
        dpPorts := hpdOnly h.dpPorts
        ports := h.ports.map fun e => (e.1, { e.2 with fwWait := true, cmdWaits := false })
        weirs := h.weirs, input := h.input
        misc := { Hub.reset.misc with pins := h.misc.pins, conv := h.misc.conv }
        boot := { Hub.reset.boot with since := h.time, wdtAt := h.time, results := h.boot.results } }
    let k := if (h.dom 12).state = 3 then contentLost k else k
    let k := k.putBit F.chip_RESET_CAUSE_CAUSE cause true
    let k := k.fset F.chip_BOOT_STAT_MODE h.otp.bootMode
    let k := (List.range 12).foldl (fun k n => if n < 4 ∨ 2 ≤ k.fget (F.typec_STATUS_ALT n) then portRestore k n else k) k
    let k := (List.range 4).foldl (fun k s => sliceReset k s 4) k
    settleReset (nextTransfer (noteGpio (fabricBack h (audioBack (if busPowered k then profileHolds k else k)))) 1)

/-- SOFT_RESET.KEY (R649). -/
def softResetKey (h : Hub) (req : Req) (v : Nat) : Hub :=
  let may := match req with
    | .miller _ => true
    | .bmc => (appliedOwner h Page.chip).testBit 5
    | _ => false
  if may && v % 2 ^ 16 == 0x50F7 then chipReset h 4 else h

/-! ## The watchdog (R648) -/

def wdtRuns (h : Hub) : Bool := h.is F.chip_WDT_CTL_EN && h.power.shelf != 2 && h.boot.phase != 2 && h.boot.phase != 3

/-- WDT_LEFT.MS as it reads. -/
def wdtLeft (h : Hub) : Nat :=
  if h.is F.chip_WDT_CTL_EN then h.boot.wdtMs - (h.time - h.boot.wdtAt) / 128000 else h.fget F.chip_WDT_LEFT_MS

/-- The first expiry. -/
def wdtWarn (h : Hub) : Hub :=
  if wdtRuns h && !(h.is F.chip_WDT_LEFT_WARNED) then ((wdtReload h).flag F.chip_WDT_LEFT_WARNED true).event Page.chip 0 else h

/-- The second expiry before a kick. -/
def wdtExpired (h : Hub) : Hub := if wdtRuns h && h.is F.chip_WDT_LEFT_WARNED then chipReset h 3 else h

def wdtKick (h : Hub) (v : Nat) : Hub := if v % 2 ^ 16 = 0x4B1C then (wdtReload h).flag F.chip_WDT_LEFT_WARNED false else h

/-- WDT_CTL is written. -/
def wdtControl (h : Hub) (en : Bool) (ms : Nat) : Hub :=
  let was := h.is F.chip_WDT_CTL_EN
  let left := wdtLeft h
  let h := (h.flag F.chip_WDT_CTL_EN en).fset F.chip_WDT_CTL_TIMEOUT_MS ms
  if en && !was then (wdtReload h).flag F.chip_WDT_LEFT_WARNED false
  else if !en && was then h.fset F.chip_WDT_LEFT_MS left
  else h

/-! ## Power resets (R643, R645, R650) -/

/-- The board's own levels and what the dead-battery logic holds closed stay; everything else of the die is reset, but the Vault's
class V, which VKEEP holds. -/
def powerReset (h : Hub) (cause : Nat) (vkeepLost : Bool) : Hub :=
  let k : Hub :=
    { Hub.reset with
      otp := h.otp
      regs := if vkeepLost then [] else Tbl.keep (fun key => clsOf key == .v) h.regs
      fresh := h.fresh, out := h.out, nextChain := h.nextChain
      vault := if vkeepLost then Hub.reset.vault else { h.vault with slots := [], run := none }
      usb := { Hub.reset.usb with dev2 := h.usb.dev2 }
      dpPorts := hpdOnly h.dpPorts
      input := ⟨h.input.deadBattery, h.input.deadBattery, false, false⟩
      misc := { Hub.reset.misc with pins := h.misc.pins } }
  settleWeirs (noteGpio (fabricBack h (k.fset F.chip_RESET_CAUSE_CAUSE (2 ^ cause))))

/-! ## SHELF (R527–R531) -/

/-- The ports take the terminations of R434 and R529: what is attached is detached. -/
def shelfPorts (h : Hub) : Hub :=
  (List.range 12).foldl (fun h p =>
    if !(h.present .typec p) then h
    else unattach (if attached h p then detached (dropContract h p) p else h) p (if p < 4 then 1 else 0)) h

/-- Entry completes: every domain but ALWAYS and VAULT is OFF; a wake source that has appeared meanwhile wakes at once (R534). -/
def shelfDone (h : Hub) : Hub :=
  if h.power.shelf ≠ 1 then h
  else
    let h := (List.range 43).foldl latchPads (shelfPorts h)
    let h := (List.range 43).foldl (fun h d => if d < 2 then h else h.setDom d ⟨3, false, 0, 0, 0, 0, false⟩) h
    { h.emit .convPulse with power := { h.power with shelf := 2 }, stalled := [] }

def shelfKeeps (key : Nat) : Bool := [Cls.v, .a].contains (clsOf key) || isHeld key

/-- The hub leaves SHELF with cause "shelf wake" and boots (R531). -/
def shelfLeave (h : Hub) (w : WakeSource) : Hub :=
  let h := wakeRecord h w
  let k : Hub :=
    { Hub.reset with
      otp := h.otp
      regs := Tbl.keep shelfKeeps h.regs
      active := Tbl.keep shelfKeeps h.active
      fresh := h.fresh, out := h.out, nextChain := h.nextChain
      vault := { h.vault with slots := [], run := none }
      usb := { Hub.reset.usb with dev2 := h.usb.dev2 }
      dpPorts := hpdOnly h.dpPorts
      ports := h.ports
      misc := { Hub.reset.misc with pins := h.misc.pins } }
  settleWeirs (noteGpio (contentLost (fabricBack h (k.putBit F.chip_RESET_CAUSE_CAUSE 5 true))))

/-- A wake source of R530 appears. Outside SHELF a rise of VBUS on a host port wakes the port's domain (R512). -/
def shelfWake (h : Hub) (w : WakeSource) : Hub :=
  if h.power.shelf = 0 then
    match w with
    | .vbus n => wake h (21 + n)
    | .vin | .pin => h
  else if !(wakeEnabled h w) then h
  else if h.power.shelf = 1 then { h with power := { h.power with shelfWake := some w } }
  else shelfLeave h w

/-- BMC_SHELF.KEY (R527): the write has passed the owner check. -/
def bmcShelf (h : Hub) (v : Nat) : Hub :=
  if v % 2 ^ 16 ≠ 0x5E1F ∨ h.power.shelf ≠ 0 then h
  else
    let h := (List.range 14).foldl (fun h c => h.flag (F.weir_CTL_CH_EN c) false) { h with input := { h.input with sinks := 0, deadBattery := 0 } }
    let h := shelfPorts (settleWeirs h)
    let h := (List.range 4).foldl (fun h s => sliceReset h s 4) h
    { h with power := { h.power with shelf := 1 } }

/-! ## Boot (R652–R658) -/

def leAt (b : Bytes) (off n : Nat) : Nat := ofBytes ((b.drop off).take n)

def alignPage (n : Nat) : Nat := (n + 4095) / 4096 * 4096

/-- The loader and the firmware of an image, whose offsets are relative to its header (R654). -/
def imageLoader (b : Bytes) : Bytes := (b.drop (leAt b 0x10 4)).take (leAt b 0x14 4)

def imageFw (b : Bytes) : Bytes := (b.drop (leAt b 0x18 4)).take (leAt b 0x1C 4)

/-- The first failure of R655, 0 for none; `b` is what lies from the header on, `readOk` whether every read completed. -/
def imageCheck (o : Otp) (b : Bytes) (readOk : Bool) : Nat :=
  let key := leAt b 6 1
  let pub := (b.drop 0x88).take 96
  let digest := hash384 pub
  let loaderLen := leAt b 0x14 4
  let fwLen := leAt b 0x1C 4
  let keyOk := if key = 0 then digest == o.vendorDigest && !o.ownerLock
    else if key = 1 then o.ownerDigest == some digest else false
  if leAt b 0 4 ≠ 0x49395946 ∨ leAt b 4 2 ≠ 1 then 1
  else if !keyOk then 2
  else if !(Config.p384Verify pub (hash384 (b.take 0xE8)) ((b.drop 0xE8).take 96)) then 3
  else if hash384 (imageLoader b) != (b.drop 0x28).take 48 || hash384 (imageFw b) != (b.drop 0x58).take 48 then 4
  else if leAt b 8 4 < o.minSvn then 5
  else if loaderLen = 0 ∨ fwLen = 0 ∨ 4194304 < alignPage loaderLen + fwLen ∨ loaderLen ≤ leAt b 0x20 4
      ∨ b.length < leAt b 0x10 4 + loaderLen ∨ b.length < leAt b 0x18 4 + fwLen then 6
  else if !readOk then 7 else 0

/-- A measurement is extended and locked; a locked one is left as it stands (R593, R663). -/
def measureLocked (h : Hub) (m : Nat) (d : Bytes) : Hub :=
  if h.bit F.vault_MEAS_LOCK_LOCK m then h else lockMeas (extendMeas h m d) (2 ^ m)

/-- Steps 6 to 8 of R653 with an accepted image. -/
def bootImage (h : Hub) (b : Bytes) (copy : Bool) : Hub :=
  let h := measureLocked (measureLocked h 1 ((b.drop 0x28).take 48)) 2 ((b.drop 0x58).take 48)
  let h := ((h.flag F.chip_BOOT_STAT_COPY copy).fset F.chip_BOOT_STAT_KEY (leAt b 6 1)).fset F.chip_FW_VER_VERSION (leAt b 0xC 4)
  let h := (h.fset F.chip_SVN_IMAGE (leAt b 8 4)).fset F.chip_BOOT_TIME_MS (min ((h.time - h.boot.since) / 128000) 0xFFFF)
  { h with boot := { h.boot with
      phase := 6, stream := [], sram := [(0, imageLoader b), (alignPage (leAt b 0x14 4), imageFw b)] } }

/-- The watchdog is stopped by the ROM (R656, R658). -/
def wdtStop (h : Hub) : Hub := wdtControl h false (h.fget F.chip_WDT_CTL_TIMEOUT_MS)

/-- The ROM presents its USB device on H0 (R657). -/
def romDevice (h : Hub) : Hub := h.emit (.romDevice h.otp.dockVid h.otp.dockPid)

/-- The boot sequence up to the start of the loader, or to where the ROM waits or halts; `a` and `b` are the flash copies, each
with whether its reads complete. -/
def boot (h : Hub) (a b : Bytes) (aOk bOk : Bool) : Hub :=
  if 2 ≤ h.boot.phase ∨ h.power.shelf ≠ 0 then h
  else
    let h :=
      if h.boot.phase = 0 then
        let h := (List.range 12).foldl portReady (settleFabric (settleWeirs h))
        let h := h.fset F.clk_DOMSRC_SHAFT 0xFF
        let h := reelRestore (refWritten (pllLock { h with clock := { h.clock with shaft := 0xFF } }))
        measureLocked h 0 (hash384 h.otp.romImage)
      else h
    let h := h.fset (F.miller_STATUS_STATE 0) 1
    let mode := h.otp.bootMode % 4
    let h := h.fset F.chip_BOOT_STAT_MODE mode
    let setPhase (h : Hub) (n : Nat) : Hub := { h with boot := { h.boot with phase := n, stream := [] } }
    match mode with
    | 0 =>
      let fa := imageCheck h.otp a aOk
      if fa = 0 then bootImage (h.fset F.chip_BOOT_STAT_FAIL 0) a false
      else
        let h := h.fset F.chip_BOOT_STAT_FAIL fa
        let fb := imageCheck h.otp b bOk
        if fb = 0 then bootImage h b true
        else
          let h := h.fset F.chip_BOOT_STAT_FAIL fb
          if h.otp.recoveryEn then romDevice (setPhase (h.fset F.chip_BOOT_STAT_MODE 1) 3)
          else setPhase ((wdtStop h).fset (F.miller_STATUS_STATE 0) 3) 4
    | 1 => romDevice (setPhase h 3)
    | 2 => setPhase h 2
    | _ =>
      let ff := List.replicate 48 (0xFF : Byte)
      let h := wdtStop (measureLocked (measureLocked h 1 ff) 2 ff)
      let h := (List.range 14).foldl (fun h c => if c = 12 then h else h.flag (F.weir_CTL_CH_EN c) false) h
      setPhase (settleWeirs h) 5

/-- An image comes over USB in recovery mode (R657). -/
def recoveryImage (h : Hub) (b : Bytes) : Hub :=
  if h.boot.phase ≠ 3 then h
  else
    let h := wdtKick h 0x4B1C
    let f := imageCheck h.otp b true
    let h := h.fset F.chip_BOOT_STAT_FAIL f
    if f = 0 then bootImage h b false else h

/-- LOAD registers act only while the ROM waits in mode 0b10 (R665). -/
def loadWaits (h : Hub) : Bool := h.boot.phase == 2

def setStream (h : Hub) (b : Bytes) : Hub :=
  { h with boot := { h.boot with stream := b } }.fset F.miller_LOAD_COUNT_BYTES b.length

def loadStart (h : Hub) : Hub := if loadWaits h then setStream h [] else h

def loadData (h : Hub) (v : Nat) : Hub := if loadWaits h then setStream h (h.boot.stream ++ leBytes 4 v) else h

/-- LOAD_CTL.DONE: the stream is checked under R655. -/
def loadDone (h : Hub) : Hub :=
  if !(loadWaits h) then h
  else
    let h := wdtKick h 0x4B1C
    let b := h.boot.stream
    let f := imageCheck h.otp b true
    let h := ((h.fset F.miller_LOAD_CTL_RESULT f).event Page.miller 0).fset F.chip_BOOT_STAT_FAIL f
    if f = 0 then bootImage h b false else h

/-- CH_EN of every Weir but W12 is held at 0 in mode 0b11 (R658). -/
def chEnHeld (h : Hub) (c : Nat) : Bool := h.boot.phase == 5 && c != 12

/-! ## BIST (R660–R663) -/

def bistSelected (h : Hub) : List Nat :=
  (List.range 43).filter fun d => if d < 32 then h.bit F.bist_DOMAINS_LO_SEL d else h.bit F.bist_DOMAINS_HI_SEL (d - 32)

/-- The cause for which a domain is refused; 0 none. -/
def bistRefusal (h : Hub) (req : Req) (ty d : Nat) : Nat :=
  let ctrlOk := d == 2 && req == .jtag && ty != 3 && (List.range 4).all fun c => h.fget (F.miller_STATUS_STATE c) == 0
  if d ≤ 2 ∧ !ctrlOk then 1
  else if d = 42 ∧ (List.range 14).any (fun c => h.is (F.weir_CTL_CH_EN c)) then 2
  else if !(domainPresent h.otp.variant d) then 3
  else if ty = 3 ∧ d ≠ 12 then 4 else 0

/-- CMD.GO: the run starts with every selected domain in domain reset, or the whole command is refused. -/
def bistGo (h : Hub) (req : Req) : Hub :=
  let ty := h.fget F.bist_CMD_TYPE
  let ds := bistSelected h
  if h.is F.bist_CMD_BUSY ∨ ty = 0 ∨ ds.isEmpty then h
  else match ds.find? (fun d => bistRefusal h req ty d != 0) with
    | some d => ((h.fset F.bist_REFUSE_DOMAIN d).fset F.bist_REFUSE_CAUSE (bistRefusal h req ty d)).event Page.bist 2
    | none =>
      let h := ds.foldl domainReset h
      let h := ds.foldl (fun h d => h.setDom d { h.dom d with resetting := true, waking := false, entering := 0 }) h
      { (h.flag F.bist_CMD_BUSY true).flag F.bist_CMD_GO true with boot := { h.boot with bist := some (ds, ty) } }

/-- The run completes with a signature for each domain. -/
def bistDone (h : Hub) (ms : Nat) (misrs : List (Nat × Nat)) : Hub :=
  match h.boot.bist with
  | none => h
  | some (ds, ty) =>
    let res (d : Nat) : BistRes :=
      let m := tableAt misrs d % 2 ^ 64
      { passed := m == tableAt h.otp.golden (4 * d + ty), aborted := false, kind := ty, timeMs := min ms 0xFFFF, misr := m }
    let t := ds.foldl (fun t d => Tbl.put (fun _ => none) t d (some (res d))) h.boot.results
    let h := { h with boot := { h.boot with results := t } }.event Page.bist 0
    let h := if ds.any (fun d => !(res d).passed) then h.event Page.bist 1 else h
    bistRelease (if ty = 3 then settleGates (contentLost h) else h)

/-- The fields of 0x054–0x064 for the domain that RES_SEL selects (R666). -/
def bistResult (h : Hub) : Option BistRes := Tbl.get (fun _ => none) h.boot.results (h.fget F.bist_RES_SEL_DOMAIN)

end Sys2Proof.Machine
end

