-- ==== Sys2Proof/Machine/RegRead.lean ====
section
/-! DEFINITION. What a register of the window reads as: the fields that show a quantity of the hub, 40-bit pairs (R58–R62)
and the reads with a side effect (R55–R57, R61). -/

namespace Sys2Proof.Machine

/-! ## Layout -/

/-- A page with the common header (R36, R39). -/
def Kind.hasHeader (k : Kind) : Bool := !k.isTable && !k.endpoint

/-- The offset of the _LO register of a 40-bit pair (R58). -/
def isPairLo (k : Kind) (off : Nat) : Bool :=
  match k with
  | .link => off == 0x50
  | .mill => decide (0x100 ≤ off) && decide (off < 0x1C0) && off % 8 == 0
  | .hopper => off == 0x60
  | .sluice => off == 0x4C
  | .sluiceOut => off == 0x68 || off == 0x100 || off == 0x108 || off == 0x110
  | .stats => decide (off % 64 < 56) && off % 8 == 0
  | .policer => off % 64 == 0x20 || off % 64 == 0x28 || off % 64 == 0x30
  | .wred => off % 256 == 0x40 || off % 256 == 0x48 || off % 256 == 0x50
  | .gate => off == 0x8C
  | .reel => off == 0x50
  | .proj => off == 0x60
  | .ethmac => off == 0x54 || off == 0x5C
  | .pstk => decide (0x200 ≤ off) && decide (off < 0x300) && off % 16 == 8
  | .weir => off == 0xCC
  | .clk => off == 0x64
  | _ => false

/-- The offset of the _HI register of a pair. -/
def isPairHi (k : Kind) (off : Nat) : Bool := decide (4 ≤ off) && isPairLo k (off - 4)

/-- A field that is fixed on this instance: CFG.ROLE of D0–D7 (R433, R469). -/
def fieldFixed (k : Kind) (i off lo : Nat) : Bool := k == .typec && off == 0x40 && lo == 1 && decide (4 ≤ i)

/-- A field that its page does not carry: it reads 0 and ignores writes (R191, R433, R469, R501, R583, R682). -/
def fieldAbsent (h : Hub) (k : Kind) (i off lo : Nat) : Bool :=
  match k with
  | .typec =>
    (decide (0x74 ≤ off) && decide (off < 0x80) && i != 0)
      || (off == 0x40 && ((lo == 6 || lo == 7) && decide (4 ≤ i) || lo == 9 && decide (6 ≤ i)))
      || (decide (6 ≤ i) && (off == 0x50 && lo == 4 || decide (0x120 ≤ off) && decide (off < 0x138)))
  | .weir => (decide (0xE0 ≤ off) && decide (off < 0xF0) && i != 12) || (off == 0x40 && lo == 1 && decide (12 ≤ i))
  | .mill => decide (0x100 ≤ off) && decide (off < 0x1C0) && !(h.outletOk ((off - 0x100) / 8))
  | .sluice =>
    (decide (0x100 ≤ off) && decide (off < 0x160) && !(h.outletOk ((off - 0x100) / 4)))
      || (decide (0x180 ≤ off) && decide (off < 0x1E0) && !(h.outletOk ((off - 0x180) / 4)))
  | .cue0 =>
    (lo == 11 && decide (0x100 ≤ off) && decide (off < 0x180))
      || (decide (0x100 ≤ off) && decide (off < 0x200) && !(targetPresent h ((off - 0x100) / 32)))
      || (decide (0x400 ≤ off) && decide (off < 0x600) && !(targetPresent h ((off - 0x400) / 64)))
      || (decide (0xF00 ≤ off) && !(targetPresent h ((off - 0xF00) / 4)))
  | .cue1 => off == 0x100
  | .misc => off == 0x70 && lo == 1
  | _ => false

/-! ## Fields that show a quantity -/

def boolNat (b : Bool) : Nat := if b then 1 else 0

/-- A bitmap of `n` bits. -/
def bitsOf (n : Nat) (f : Nat → Bool) : Nat := (List.range n).foldl (fun v b => if f b then v + 2 ^ b else v) 0

/-- The header's fields that follow the domain and the events (R39, R43). -/
def viewHeader (h : Hub) (k : Kind) (i base off lo : Nat) : Option Nat :=
  match off, lo with
  | 0x0C, 0 => some (h.dom (k.domain i)).state
  | 0x0C, 2 => some (boolNat (h.dom (k.domain i)).waking)
  | 0x1C, 0 => some (bitsOf 4 (intLine h k i base))
  | _, _ => none

/-- TURN_TICK (R161, R189). -/
def turnTick (h : Hub) : Nat :=
  let t := h.fget F.sluice_TURN_PHASE_TICKS
  if h.time < t then 0 else (h.time - t) % 8000

/-- The virtual time that VT_SEL selects (R225). -/
def virtualTime (h : Hub) (o : Nat) : Nat :=
  let s := h.fget (F.sluiceOut_VT_SEL_SEL o)
  if s < 8 then (h.cls o s).v else if s = 8 then (h.outlet o).vInter else 0

/-- The switch half of the window: MILL, HOPPER, SLUICE, SLUICE_OUT. -/
def viewSwitch (h : Hub) (k : Kind) (i off lo : Nat) : Option Nat :=
  match k with
  | .mill =>
    let f := h.forebay (h.fget F.mill_FOREBAY_SEL_INGRESS)
    if off = 0x4C then some (fbOcc f) else if off = 0x50 then some f.drops else if off = 0xF00 then some f.hwm else none
  | .hopper =>
    if off = 0x40 ∧ lo = 8 then some (bitsOf 8 fun g => h.domOn (4 + g))
    else if off = 0x44 then some (capacity h)
    else if off = 0x48 then some (freeCells h)
    else if off = 0x4C then some (occLossy h)
    else if off = 0x50 then some (occCred h)
    else none
  | .sluice =>
    let x := h.pst (h.fget F.sluice_PATH_SEL_PATH)
    if off = 0x48 then some (turnTick h)
    else if off = 0x4C then some (turnNo h % 2 ^ 32)
    else if off = 0x50 then some (turnNo h / 2 ^ 32)
    else if off = 0x80 then
      (match lo with
       | 0 => some (boolNat x.limited) | 1 => some (boolNat x.backlogged) | 2 => some (boolNat x.suspended)
       | 3 => some (boolNat x.provisional) | _ => some x.stop)
    else if off = 0x84 then some x.raw
    else if off = 0x88 then some x.next
    else none
  | .sluiceOut =>
    if off = 0x60 then some (ofInt 16 (h.cls i (if lo = 0 then 0 else 1)).tokens)
    else if off = 0x68 then some (virtualTime h i % 2 ^ 32)
    else if off = 0x6C then some (virtualTime h i / 2 ^ 32)
    else if 0x70 ≤ off ∧ off < 0x90 then some (queuedAt h i (some ((off - 0x70) / 4)))
    else none
  | _ => none

/-- BIST results of the domain that RES_SEL selects (R666). -/
def viewBist (h : Hub) (off lo : Nat) : Option Nat :=
  let d := h.fget F.bist_RES_SEL_DOMAIN
  let gold (r : BistRes) : Nat := tableAt h.otp.golden (4 * d + r.kind)
  match bistResult h with
  | none =>
    if off = 0x60 then some (tableAt h.otp.golden (4 * d) % 2 ^ 32) else if off = 0x64 then some (tableAt h.otp.golden (4 * d) / 2 ^ 32)
    else if 0x54 ≤ off ∧ off ≤ 0x5C then some 0 else none
  | some r =>
    match off, lo with
    | 0x54, 0 => some 1
    | 0x54, 1 => some (boolNat r.passed)
    | 0x54, 2 => some (boolNat r.aborted)
    | 0x54, 3 => some r.kind
    | 0x54, _ => some r.timeMs
    | 0x58, _ => some (r.misr % 2 ^ 32)
    | 0x5C, _ => some (r.misr / 2 ^ 32)
    | 0x60, _ => some (gold r % 2 ^ 32)
    | 0x64, _ => some (gold r / 2 ^ 32)
    | _, _ => none

/-- The PWR page: CHIP_STATE, DOM_INFO by DOM_SEL, DOM_RUN (R532, R535). -/
def viewPwr (h : Hub) (off lo : Nat) : Option Nat :=
  let d := h.fget F.pwr_DOM_SEL_DOMAIN
  if off = 0x40 then some (boolNat (chipIdle h))
  else if off = 0x58 then
    if 43 ≤ d then some 0
    else match lo with
      | 0 => some (h.dom d).state
      | 2 => some (if d < 2 then 3 else floorOf h d)
      | 4 => some (boolNat ((domainPages d).any fun p => h.is (F.hdr_EDGE_MODE_HELD p)))
      | _ => some (h.dom d).lastWakeUs
  else if off = 0x5C then some (bitsOf 32 fun d => h.domOn d)
  else if off = 0x60 then some (bitsOf 11 fun d => h.domOn (32 + d))
  else none

/-- The CLK page: fabric time, and the crossing that XING_SEL selects (R548, R554). -/
def viewClk (h : Hub) (off lo : Nat) : Option Nat :=
  let x := h.fget F.clk_XING_SEL_XING
  let rx := h.half (2 * x)
  let tx := h.half (2 * x + 1)
  if off = 0x64 then some (h.ftime % 2 ^ 32)
  else if off = 0x68 then some (h.ftime / 2 ^ 32)
  else if off = 0x6C then some h.epoch
  else if off = 0x74 then
    (if !(crossingOk h x) then some 0
     else match lo with
       | 0 => some (boolNat rx.flush)
       | 1 => some (boolNat tx.flush)
       | _ => some (min (rx.resyncs + tx.resyncs) 0xFFFF))
  else if off = 0x78 then some (if crossingOk h x then min (rx.drops + tx.drops) 0xFFFFFFFF else 0)
  else none

/-- The queues of Penstock (R367, R373). -/
def viewPstk (h : Hub) (off lo : Nat) : Option Nat :=
  if 0x68 ≤ off ∧ off < 0x78 then
    let s := (off - 0x68) / 4
    let x := h.penSt s
    match lo with
    | 0 => some (h.stalled.filter fun a => ofHost s a && a.write).length
    | 8 => some (h.stalled.filter fun a => ofHost s a && !a.write).length
    | 16 => some (x.outq.filter (·.posted)).length
    | _ => some (x.outq.filter (·.isRead)).length
  else if 0x78 ≤ off ∧ off < 0x88 then some (reserved (h.penSt ((off - 0x78) / 4)))
  else none

/-- The other fields that show a quantity of the hub. -/
def viewBlock (h : Hub) (k : Kind) (i off lo : Nat) : Option Nat :=
  match k with
  | .mill | .hopper | .sluice | .sluiceOut => viewSwitch h k i off lo
  | .bist => viewBist h off lo
  | .pwr => viewPwr h off lo
  | .clk => viewClk h off lo
  | .pstk => viewPstk h off lo
  | .proj =>
    if off = 0x74 then some (if lo = 0 then headNeed h i else min (headFetch h.aget i) 0xFFFF)
    else if off = 0x78 ∧ lo = 0 then some (headPhase h i).1 else if off = 0x78 ∧ lo = 16 then some (headPhase h i).2 else none
  | .tailrace =>
    if off = 0x74 then some (vlanOf h (h.fget F.tailrace_VLAN_SEL_VID) / 2 ^ lo) else none
  | .tally =>
    if off = 0x80 then some (inbox h (lo / 5)).length
    else if 0x400 ≤ off ∧ off < 0x800 then some (h.fget (F.tallyTab_MAP_VALUE_VALUE ((off - 0x400) / 4)))
    else none
  | .slice => if off = 0x40 ∧ lo = 3 then some (boolNat (busPowered h)) else none
  | .usbhub => if off = 0x50 then some (portInfo h i / 2 ^ lo) else none
  | .typec => if off = 0x44 ∧ lo = 19 then some (boolNat (vconnWindow h i)) else none
  | .cue2 =>
    let w := off % 0x40 / 4
    if 0x100 ≤ off ∧ off < 0x140 then some (bitsOf 32 fun b => cueLevel h (32 * w + b))
    else if 0x140 ≤ off ∧ off < 0x180 then some (bitsOf 32 fun b => cuePending h (32 * w + b))
    else if 0x180 ≤ off ∧ off < 0x1C0 then some (bitsOf 32 fun b => h.cue.active.testBit (32 * w + b))
    else none
  | .cue3 =>
    if 0x100 ≤ off ∧ off < 0x140 then some (bitsOf 32 fun b => rawLine h (288 + 32 * (off % 0x20 / 4) + b)) else none
  | .vault =>
    if off = 0x40 ∧ lo = 0 then some (provState h)
    else if off = 0x58 then some (slotInfo h (h.fget F.vault_SLOT_SEL_SLOT) / 2 ^ lo)
    else none
  | .chip => if off = 0x64 ∧ lo = 0 then some (wdtLeft h) else none
  | .dpo => if off = 0x44 ∧ lo = 0 then some (boolNat (h.dpPort (8 + i)).hpd) else none
  | _ => none

/-- Profile 0 of the policer table and of the WRED table reads 0 at every offset and ignores writes (R223). -/
def profileZero (k : Kind) (off : Nat) : Bool :=
  match k with
  | .wred => decide (off < 256)
  | .policer => decide (off < 64)
  | _ => false

/-- What a field reads as: 0 where its page does not carry it, else the quantity it shows or what it holds. -/
def fieldValue (h : Hub) (k : Kind) (i base a : Nat) (r : Row) : Nat :=
  let off := a - base
  if r.acc == .wo || fieldAbsent h k i off r.lo || profileZero k off then 0
  else
    let v := match (if k.hasHeader && decide (off < 0x40) then viewHeader h k i base off r.lo else viewBlock h k i off r.lo) with
      | some v => v
      | none => Tbl.get (resetOf h.otp) h.regs (32 * a + r.lo)
    v % 2 ^ r.w

/-- The word at an address: reserved fields read 0 (R16). -/
def wordValue (h : Hub) (a : Nat) : Nat :=
  match pageAt a with
  | none => 0
  | some (k, i, base) => (wordRows a).foldl (fun n r => n + fieldValue h k i base a r * 2 ^ r.lo) 0

/-! ## Snapshots (R58–R60, R549) -/

/-- The key of a requester's snapshot or staging register for the pair whose _LO register lies at an address. -/
def pairKey (a : Nat) (req : Req) : Nat := 16 * a + reqCode req

def snapshot (h : Hub) (a : Nat) (req : Req) : Option Nat := Tbl.get (fun _ => none) h.snaps (pairKey a req)

def setSnapshot (h : Hub) (a : Nat) (req : Req) (v : Option Nat) : Hub :=
  { h with snaps := Tbl.put (fun _ => none) h.snaps (pairKey a req) v }

def staged (h : Hub) (a : Nat) (req : Req) : Option Nat := Tbl.get (fun _ => none) h.staging (pairKey a req)

def setStaged (h : Hub) (a : Nat) (req : Req) (v : Option Nat) : Hub :=
  { h with staging := Tbl.put (fun _ => none) h.staging (pairKey a req) v }

/-- A read of a _LO register takes bits [39:32] into the requester's snapshot; FTIME_LO takes EPOCH too (R59, R549). -/
def readPairLo (h : Hub) (req : Req) (a : Nat) : Hub × Nat :=
  let v := wordValue h a
  let h' := setSnapshot h a req (some (wordValue h (a + 4)))
  (if a = A.clk_FTIME_LO then setSnapshot h' A.clk_EPOCH req (some h.epoch) else h', v)

/-! ## Reads with a side effect (R56) -/

/-- A read at 0xF00–0xFFF of a page: what it returns, and what it does. -/
def readSensitive (h : Hub) (req : Req) (k : Kind) (i off a : Nat) : Hub × Nat :=
  let v := wordValue h a
  match k with
  | .mill =>
    let g := h.fget F.mill_FOREBAY_SEL_INGRESS
    let f := h.forebay g
    if off = 0xF00 then (h.setForebay g { f with hwm := fbOcc f }, v) else (h, v)
  | .hopper => if off = 0xF00 then ({ h.fset F.hopper_FREE_LWM_CELLS (freeCells h) with lossyFullSeen := false }, v) else (h, v)
  | .sluice =>
    if off = 0xF00 then (h.fset F.sluice_COMPUTE_MAX_NS (h.fget F.sluice_COMPUTE_TIME_NS), v) else (h, v)
  | .sluiceOut => if off = 0xF00 then (h.fset (F.sluiceOut_DEPTH_HWM_CELLS i) (queuedAt h i none), v) else (h, v)
  | .reel => if off = 0xF00 then (h.fset F.reel_UTIL_HWM_BLOCKS (h.fget F.reel_UTIL_BLOCKS), v) else (h, v)
  | .proj => if off = 0xF00 then sigPop h i else (h, v)
  | .tally => if off < 0xF18 then inboxRead h req ((off - 0xF00) / 4) else (h, v)
  | .weir => if off = 0xF00 then (readExtremes h i, v) else (h, v)
  | .pwr =>
    if off = 0xF00 then
      ((h.fset F.pwr_MON_EXT_VIN_MIN_MV (h.fget F.pwr_MON0_VIN_MV)).fset F.pwr_MON_EXT_TEMP_MAX (h.fget F.pwr_MON1_TEMP), v)
    else (h, v)
  | .cue0 => if off < 0xF20 then claim h ((off - 0xF00) / 4) else (h, v)
  | .misc =>
    if off = 0xF00 ∨ off = 0xF04 then popBusRx h ((off - 0xF00) / 4)
    else if off = 0xF08 then popSpiRx h
    else if off = 0xF0C then popUartRx h
    else (h, v)
  | _ => (h, v)

/-- The Cue target of a requester (R570). -/
def cueTargetOf : Req → Option Nat
  | .miller c => some c.val
  | .slice s => some (4 + s.val)
  | _ => none

/-- A 4-byte read that has passed every check of R53. -/
def readWord (h : Hub) (req : Req) (a : Nat) : Hub × Nat :=
  match pageAt a with
  | none => (h, 0)
  | some (k, i, base) =>
    let off := a - base
    if (k.hasHeader || k == .nic) && (off == 0x10 || off == 0x1C) then
      match cueTargetOf req with
      | some t => (pageSeen h t base, wordValue h a)
      | none => (h, wordValue h a)
    else if k.hasHeader && decide (0xF00 ≤ off) then readSensitive h req k i off a
    else if isPairLo k off then readPairLo h req a
    else if isPairHi k off then (h, (snapshot h (a - 4) req).getD (wordValue h a))
    else if a = A.clk_EPOCH then (h, (snapshot h a req).getD (wordValue h a))
    else (h, wordValue h a)

/-- An 8-byte read in a table region is atomic and uses no snapshot (R62). -/
def readLong (h : Hub) (a : Nat) : Nat := wordValue h a + 2 ^ 32 * wordValue h (a + 4)

end Sys2Proof.Machine
end

