-- ==== Sys2Proof/Machine/RegWrite.lean ====
section
/-! DEFINITION. What a write of a register does once it has passed the checks of R53: the store under R12, and the effect of
each register that has one. -/

namespace Sys2Proof.Machine

/-! ## The store (R12) -/

/-- W1S bits that only latch (R152, R268, R605); every other W1S bit requests an action (R686). -/
def latchBit (k : Kind) (off : Nat) : Bool :=
  match k with
  | .hopper => off == 0x80
  | .reel => off == 0x68
  | .vault => off == 0x60
  | _ => false

/-- Bits that a register ignores and reads as 0 within a field (R16, R39, R310, R343, R535). -/
def storeMask (k : Kind) (off v : Nat) : Nat :=
  match k with
  | .proj => if 0x100 ≤ off ∧ off < 0x200 ∧ off % 64 = 8 then v / 256 * 256 else v
  | .nic => if 0x100 ≤ off ∧ off % 32 = 0 then v / 64 * 64 else v
  | .pwr => if 0x80 ≤ off ∧ off < 0xA0 then v % 8 + v / 2 ^ 8 % 2 ^ 16 * 2 ^ 8 else v
  | _ => v

/-- What a write of a value does to one field. -/
def storeField (h : Hub) (k : Kind) (i base a v : Nat) (r : Row) : Hub :=
  let f : Fld := ⟨a, r.lo, r.w⟩
  let off := a - base
  let x := storeMask k off v / 2 ^ r.lo % 2 ^ r.w
  if fieldAbsent h k i off r.lo || fieldFixed k i off r.lo then h
  else match r.acc with
    | .rw | .rwf => h.fset f x
    | .w1c => h.fset f (h.fget f - (h.fget f &&& x))
    | .w1s => if latchBit k off then h.fset f (h.fget f ||| x) else h
    | .ro | .wo | .rc => h

/-- A write of a word to all its fields. -/
def storeWord (h : Hub) (a v : Nat) : Hub :=
  match pageAt a with
  | none => h
  | some (k, i, base) => (wordRows a).foldl (fun h r => storeField h k i base a v r) h

/-- A field of the word is RWF (R12). -/
def hasRwf (a : Nat) : Bool := (wordRows a).any (·.acc == .rwf)

/-- A requester may write RWF fields: service firmware and JTAG (R12). -/
def mayRwf : Req → Bool
  | .miller _ | .jtag => true
  | .slice _ | .bmc => false

/-- A write that is dropped as an owner fault (R12, R50). -/
def writeFault (h : Hub) (req : Req) (a size : Nat) : Hub := logWrite (ownerFault h) (reqCode req) a size Cause.owner false

/-! ## 40-bit pairs (R60) -/

/-- The pair of a word is writable. -/
def pairWrites (a : Nat) : Bool := (wordRows a).any fun r => r.acc == .rw || r.acc == .rwf

/-- A write of a _HI register goes to the requester's staging register. -/
def writePairHi (h : Hub) (req : Req) (a v : Nat) : Hub := if pairWrites a then setStaged h (a - 4) req (some (v % 256)) else h

/-- A write of a _LO register updates all 40 bits with what is staged. -/
def writePairLo (h : Hub) (req : Req) (a v : Nat) : Hub :=
  if !(pairWrites a) then h
  else
    let h' := match staged h a req with
      | some hi => storeWord h (a + 4) hi
      | none => h
    setStaged (storeWord h' a v) a req none

/-! ## The header (R39–R46, R51, R63–R68) -/

/-- A write of OWNER passes R83 and R84: it may change SLICES of a unit's page only where the unit has no owner or its
applied owner has released it. -/
def ownerWriteOk (h : Hub) (page v : Nat) : Bool :=
  match pageUnit page with
  | none => true
  | some u =>
    let new := v % 16
    let old := appliedOwner h page % 16
    let single := new == 0 || new == 1 || new == 2 || new == 4 || new == 8
    single && (new == old || old == 0 || (List.range 4).any fun s => old.testBit s && h.bit (F.slice_RELEASED_UNITS s) u)

/-- An accepted write of OWNER waits for the next turn boundary with PENDING set (R51). -/
def ownerWritten (h : Hub) (page v : Nat) : Hub :=
  let old := appliedOwner h page
  let h := { h with ownerApplied := Tbl.put (fun _ => none) h.ownerApplied page (some old) }
  (storeWord h (page + 0x28) v).flag (F.hdr_OWNER_PENDING page) true

/-- PWR_POLICY is one register of the domain, seen on each of its pages (R42). -/
def policyWritten (h : Hub) (d v : Nat) : Hub :=
  enforcePolicy ((domainPages d).foldl (fun h p => storeWord h (p + 8) v) h) d

/-- COMMIT on a page with shadow copies; elsewhere it reads 0 (R63–R68, R276). -/
def commitWritten (h : Hub) (k : Kind) (i page v : Nat) : Hub :=
  if !k.shadowed then h
  else
    let h := h.flag (F.hdr_COMMIT_HOLD page) (v.testBit 1)
    if !(v.testBit 0) || h.is (F.hdr_COMMIT_GO page) then h
    else if k = .proj then projGo h i else h.flag (F.hdr_COMMIT_GO page) true

/-- The events of TALLY that follow its inboxes stand again after a write of INT_STAT (R385). -/
def eventsWritten (h : Hub) (k : Kind) : Hub := if k = .tally then settleInbox h else h

/-- A write to a header register. INT_FORCE sets the EVENT bits that the page's chapter assigns (R44); the others are reserved
(R16). -/
def writeHeader (h : Hub) (req : Req) (k : Kind) (i page off v : Nat) : Hub :=
  match off with
  | 0x08 => policyWritten h (k.domain i) v
  | 0x10 => eventsWritten (storeWord h (page + 0x10) v) k
  | 0x14 => storeWord h (page + 0x14) v
  | 0x18 => h.fset (F.hdr_INT_STAT_EVENT page) (h.fget (F.hdr_INT_STAT_EVENT page) ||| (v &&& eventMask k i))
  | 0x20 => commitWritten h k i page v
  | 0x24 => if v.testBit 0 && !(h.is (F.hdr_RESET_CTL_BLOCK_RESET page)) then blockReset h page else h
  | 0x28 => if ownerWriteOk h page v then ownerWritten h page v else writeFault h req (page + 0x28) 4
  | 0x2C =>
    let h := storeWord h (page + 0x2C) v
    if v.testBit 1 then padRelease h page else h
  | _ => h

/-! ## Host slices, links and display -/

def writeSlice (h : Hub) (s off a v : Nat) : Hub :=
  match off with
  | 0x48 => (List.range 16).foldl (fun h u => if v.testBit u then release h s u else h) h
  | 0x50 => (List.range 16).foldl (fun h u => if v.testBit u then attach h s u else h) h
  | 0x58 | 0x5C => settleDisplay (settleBound (storeWord h a v))
  | 0x6C => if v.testBit 0 && !(h.is (F.slice_SLICE_CTL_SLICE_RESET s)) then sliceReset h s 3 else h
  | _ => storeWord h a v

def writeLink (h : Hub) (n off a v : Nat) : Hub :=
  let h := storeWord h a v
  if off = 0x48 ∧ v.testBit 7 ∧ !(h.is (F.link_LINK_CTL_RETRAIN n)) then linkRetrain h n else h

/-- A write of GATE.CTL, MAX_SIZE or TAKE_BASE. While EN = 1 the hub drops what a write would put into FORMAT, TAKES, MAX_SIZE or
TAKE_BASE, and sets CFG_FAULT; the other fields of CTL take their values (R244). A write of CTL that leaves FORMAT and TAKES
as they stand is no fault (DESIGN CHOICE, log 52). -/
def writeGate (h : Hub) (g off a v : Nat) : Hub :=
  let was := h.is (F.gate_CTL_EN g)
  if was && (off == 0x44 || (decide (0x50 ≤ off) && decide (off < 0x60))) then h.event (Page.gate g) 5
  else
    let valid := h.is (F.gate_EDID_CTL_VALID g)
    let fmt := h.fget (F.gate_CTL_FORMAT g)
    let takes := h.fget (F.gate_CTL_TAKES g)
    let h := storeWord h a v
    match off with
    | 0x40 =>
      let moved := h.fget (F.gate_CTL_FORMAT g) != fmt || h.fget (F.gate_CTL_TAKES g) != takes
      let h := if was && moved then ((h.fset (F.gate_CTL_FORMAT g) fmt).fset (F.gate_CTL_TAKES g) takes).event (Page.gate g) 5 else h
      gateEnabled h g was
    | 0x44 => noteTakeSize h g
    | 0x4C => edidValid h g valid
    | _ => h

/-- A slice may not set a plate that shows a Gate of another owner (R288). -/
def plateForeign (h : Hub) (req : Req) (p off v : Nat) : Bool :=
  match req with
  | .slice s =>
    let q := (off - 0x100) / 64
    let foreign (kind : Nat) : Bool := decide (1 ≤ kind) && decide (kind ≤ 4) && !(sliceOwns h (Page.gate (kind - 1)) s.val)
    decide (0x100 ≤ off) && decide (off < 0x200) && (foreign (h.fget (F.proj_PSRC_KIND p q)) || (off % 64 == 0 && foreign (v % 8)))
  | _ => false

def writeProj (h : Hub) (req : Req) (p off a v : Nat) : Hub :=
  let was := h.is (F.proj_CTL_EN p)
  if plateForeign h req p off v then writeFault h req a 4
  else if (off = 0x68 ∨ off = 0x6C) ∧ was then (h.fset (F.proj_FAULT_CODE p) 8).event (Page.proj p) 10
  else
    let h := storeWord h a v
    match off with
    | 0x40 =>
      let h := contWritten h p
      if h.is (F.proj_CTL_EN p) && !was then projEnable h p else if !(h.is (F.proj_CTL_EN p)) && was then projDisable h p else h
    | 0x68 | 0x6C => settleDisplay h
    | 0x70 => contWritten h p
    | 0x9C => if v.testBit 7 && !(h.is (F.proj_LINK_CTL_RETRAIN p)) then projRetrain h p else h
    | _ => h

def writeDpo (h : Hub) (o off a v : Nat) : Hub :=
  let h := storeWord h a v
  if off ≠ 0x40 then h
  else
    let h := dpoWritten h o
    if v.testBit 8 && !(h.is (F.dpo_CTL_RETRAIN o)) then dpoRetrain h o else h

/-! ## Switching -/

def writeHopper (h : Hub) (off a v : Nat) : Hub :=
  match off with
  | 0x40 => setActiveGroups h v
  | 0x58 => updateDrained (storeWord h a v)
  | 0x74 => let h := storeWord h a v; if v.testBit 0 then (startAudit h).flag F.hopper_AUDIT_GO true else h
  | _ => storeWord h a v

/-- TURN_PHASE is the head's to set: a member ignores writes (R625). -/
def writeSluice (h : Hub) (off a v : Nat) : Hub :=
  if off = 0x44 then (if h.fget F.fabric_STATE_ROLE_NOW = 2 then h else setTurnPhase h (v % 2 ^ 13)) else storeWord h a v

/-- A write of the word with VALID, BITMAP, K or COLOUR_AWARE marks its entry (R124, R142, R227). -/
def markPending (h : Hub) (k : Kind) (off : Nat) : Hub :=
  match k with
  | .path => if off % 64 = 0 then h.flag (F.path_CTL_PENDING (off / 64)) true else h
  | .mcast => if off % 16 = 0 then h.flag (F.mcast_HOP_PENDING (off / 16)) true else h
  | .wred => if off % 256 = 0 then h.flag (F.wred_CTL_PENDING (off / 256)) true else h
  | .policer => if off % 64 = 0 then h.flag (F.policer_CTL_PENDING (off / 64)) true else h
  | _ => h

/-- A 4-byte write to a table region. -/
def writeTable (h : Hub) (req : Req) (k : Kind) (off a v : Nat) : Hub :=
  if profileZero k off then h
  else if isPairLo k off then writePairLo h req a v
  else if isPairHi k off then writePairHi h req a v
  else markPending (storeWord h a v) k off

/-- An 8-byte write to a table region writes both words at once and uses no staging register (R62). -/
def writeLong (h : Hub) (a v : Nat) : Hub :=
  match pageAt a with
  | none => h
  | some (k, _, base) =>
    if profileZero k (a - base) then h
    else markPending (storeWord (storeWord h a (v % 2 ^ 32)) (a + 4) (v / 2 ^ 32)) k (a - base)

/-! ## Network, USB, audio -/

def writeTailrace (h : Hub) (off a v : Nat) : Hub :=
  match off with
  | 0x68 => settlePause (settlePause (storeWord h a v) 0) 1
  | 0x74 => setVlan h (h.fget F.tailrace_VLAN_SEL_VID) v
  | 0x78 => fdbCommand (storeWord h a v)
  | _ => storeWord h a v

def writeEthmac (h : Hub) (e off a v : Nat) : Hub :=
  let h := storeWord h a v
  match off with
  | 0x40 => if h.is (F.ethmac_CTL_EN e) then enforceFloor h 35 else ethDown h e
  | 0x4C | 0x50 => settleXoff (settlePause h e) e
  | _ => h

/-- A write in BAR0 of a slice's NIC (R343). -/
def writeNic (h : Hub) (s off a v : Nat) : Hub :=
  let was := h.is (F.nic_NIC_CTL_EN s)
  let h := storeWord h a v
  if off = 0 then (if h.is (F.nic_NIC_CTL_EN s) then enforceFloor h 35 else if was then nicDrop h s else h)
  else if 0x100 ≤ off ∧ off % 32 = 12 then ringWritten h s ((off - 0x100) / 32)
  else h

def writePciedn (h : Hub) (x off a v : Nat) : Hub :=
  let h := storeWord h a v
  match off with
  | 0x40 => if v.testBit 7 && !(h.is (F.pciedn_CTL_RETRAIN x)) then pcieRetrain h x else h
  | 0x48 => settlePerst h x
  | _ => h

def writeDockfn (h : Hub) (s off a v : Nat) : Hub :=
  match off with
  | 0x40 => settleUsb (storeWord h a v)
  | 0x44 | 0x48 => if h.is (F.dockfn_CTL_CONNECT s) then h.event (Page.dockfn s) 8 else storeWord h a v
  | 0x54 =>
    if v.testBit 0 && !(h.is (F.dockfn_WAKE_REQ s)) then signalWake (h.flag (F.dockfn_WAKE_REQ s) true) s else h
  | 0x5C => notify h s v
  | 0x60 =>
    let h := storeWord h a v
    if v.testBit 16 && !(h.is (F.dockfn_HID_SEND s)) then hidSend (h.flag (F.dockfn_HID_SEND s) true) s false else h
  | _ => storeWord h a v

/-- AUD.CTL keeps MASTER, FORMAT and RATE while a slice streams (R419). A new rate takes every clock source's rate with it, and a slave measures
anew (DEDUCED from R418 and R424, log 104). -/
def writeAud (h : Hub) (off a v : Nat) : Hub :=
  let same (f : Fld) : Bool := v / 2 ^ f.lo % 2 ^ f.w == h.fget f
  if off ≠ 0x40 then storeWord h a v
  else if anyStreaming h && !(same F.aud_CTL_MASTER && same F.aud_CTL_FORMAT && same F.aud_CTL_RATE) then h.event Page.aud 2
  else
    let h' := storeWord h a v
    let h' := if same F.aud_CTL_RATE then h' else (List.range 4).foldl (fun h s => h.fset (F.dockfn_STATUS_RATE s) 0) h'
    settleUsb (settleAud h' (h.is F.aud_STATUS_LOCK && same F.aud_CTL_MASTER && same F.aud_CTL_RATE))

/-! ## Penstock and Tally -/

def writePstk (h : Hub) (off a v : Nat) : Hub :=
  if off = 0x48 then (if v.testBit 8 then logClear h else h)
  else
    let h := storeWord h a v
    if off = 0x64 then settleSys h
    else if 0x100 ≤ off ∧ off < 0x200 then calmWritten h ((off - 0x100) / 16)
    else h

/-- The source kind of an event (R383). -/
def eventKind : Req → Nat
  | .miller _ | .jtag => 1
  | .slice _ => 2
  | .bmc => 3

/-- A requester is among WRITERS of a map entry that is on (R379, R396); JTAG writes as service firmware does (DEDUCED, log 50). -/
def wordWriter (h : Hub) (req : Req) (w : Nat) : Bool :=
  let bit := match req with
    | .slice s => s.val
    | .miller _ | .jtag => 4
    | .bmc => 5
  wordOn h w && h.fget (F.tallyTab_MAP_CTL_KIND w) == 2 && (h.fget (F.tallyTab_MAP_RATE_WRITERS w)).testBit bit

def writeTally (h : Hub) (req : Req) (off a v : Nat) : Hub :=
  if off = 0x6C then
    routeEvent h { id := v % 2 ^ 12, arg := v / 2 ^ 16, hub := hubNumber h, kind := eventKind req }
  else if 0x400 ≤ off ∧ off < 0x800 then
    let w := (off - 0x400) / 4
    if wordWriter h req w then wordUpdate h w v else writeFault h req a 4
  else storeWord h a v

/-! ## Ports and rails -/

def writeTypec (h : Hub) (p off a v : Nat) : Hub :=
  match off with
  | 0x40 => cfgWritten (storeWord h a v) p
  | 0x44 => settleLedger (settleWeirs (storeWord h a v))
  | 0x54 | 0x74 | 0x78 => settleLedger (storeWord h a v)
  | 0x64 => if h.is (F.typec_CMD_BUSY p) then cmdWritten h p (v % 16) else cmdWritten (storeWord h a v) p (v % 16)
  | _ => storeWord h a v

/-- What a write of a Weir channel's CTL does with CH_EN and FORCE_TRIP (R472, R485, R489). -/
def weirSwitch (h : Hub) (c v : Nat) : Hub :=
  let on := v.testBit 0
  let h := if chEnHeld h c then h else if on = h.is (F.weir_CTL_CH_EN c) ∧ !on then h else chEnable h c on
  let h := settleWeirs h
  if v.testBit 3 then chTrip h c 6 0 else h

/-- CTL of a Weir channel: PG_AUTO, ENERGY_CLR, then CH_EN and FORCE_TRIP. -/
def weirControl (h : Hub) (c v : Nat) : Hub :=
  let h := if fieldAbsent h .weir c 0x40 1 then h else h.flag (F.weir_CTL_PG_AUTO c) (v.testBit 1)
  weirSwitch (if v.testBit 2 then energyClear h c else h) c v

def writeWeir (h : Hub) (c off a v : Nat) : Hub :=
  if off = 0x40 then weirControl h c v
  else if off = 0x44 ∧ setupRefused h c then h.event (Page.weir c) 5
  else
    let h' := storeWord h a v
    if 0x80 ≤ off ∧ off < 0xC0 ∧ wordValue h' a ≠ wordValue h a then curveChanged h' c ((off - 0x80) / 8) else h'

def writePwr (h : Hub) (req : Req) (off a v : Nat) : Hub :=
  match off with
  | 0x44 => if v.testBit 0 && mayRwf req then shelfEnter h else h
  | 0x48 => if req = .bmc then bmcShelf h v else h
  | 0x68 => dvfsTargetWritten (storeWord h a v)
  | 0x70 => thermal (storeWord h a v)
  | _ =>
    let h := storeWord h a v
    if 0x80 ≤ off ∧ off < 0xA0 then enforcePolicy h (4 + (off - 0x80) / 4) else h

def writeClk (h : Hub) (off a v : Nat) : Hub :=
  match off with
  | 0x40 => refWritten (storeWord h a v)
  | 0x50 => let old := h.fget F.clk_DOMSRC_SHAFT; domsrcWritten (storeWord h a v) old
  | 0x58 => settleClkout (storeWord h a v)
  | 0x5C =>
    let h := storeWord h a v
    if v.testBit 5 then meterGo h else h
  | _ => storeWord h a v

/-! ## Cue, Vault, Leat and fabric -/

def writeCue0 (h : Hub) (off a v : Nat) : Hub :=
  if 0x100 ≤ off ∧ off < 0x200 then
    let t := (off - 0x100) / 32
    if off % 32 = 0 then
      let h := storeWord h a v
      if v.testBit 16 then stackReset h t else h
    else if off % 32 = 12 then complete h t (v % 512)
    else storeWord h a v
  else storeWord h a v

def writeCue3 (h : Hub) (off a v : Nat) : Hub :=
  if 0x100 ≤ off ∧ off < 0x11C then doorbells h ((off - 0x100) / 4) v true
  else if 0x120 ≤ off ∧ off < 0x13C then doorbells h ((off - 0x120) / 4) v false
  else storeWord h a v

def writeVault (h : Hub) (req : Req) (off a v : Nat) : Hub :=
  match off with
  | 0x44 => vaultCommand h req v
  | 0x50 => lockMeas h v
  | 0x60 => if h.is F.vault_TAMPER_CTL_LOCK then h else storeWord h a v
  | 0x68 => let h := storeWord h a v; if v.testBit 8 then tlogClear h else h
  | _ => storeWord h a v

def writeLeat (h : Hub) (req : Req) (l off a v : Nat) : Hub :=
  match off with
  | 0x40 =>
    let h := settleFabric (storeWord h a v)
    let h := if h.is (F.leat_CTL_EN l) then h else leatLinkDown h l
    if v.testBit 1 && !(h.is (F.leat_CTL_RETRAIN l)) then leatRetrain h l else h
  | 0x48 =>
    let old := h.fget (F.leat_SEC_KEY_SLOT l)
    let h := (storeWord h a v).fset (F.leat_SEC_KEY_SLOT l) old
    let h := if mayRwf req then keySlot h l (v % 32) else h
    if v.testBit 10 && !(h.is (F.leat_SEC_ROLL l)) then rollKey h l else h
  | 0x58 =>
    let h := storeWord h a v
    if v.testBit 10 && !(h.is (F.leat_MSG_CTL_TX_GO l)) then sendMessage (h.flag (F.leat_MSG_CTL_TX_GO l) true) l else h
  | _ => storeWord h a v

def writeFabric (h : Hub) (off a v : Nat) : Hub :=
  match off with
  | 0x44 | 0x5C => settleFabric (storeWord h a v)
  | 0x50 => cfgHashWritten (storeWord h a v)
  | _ => storeWord h a v

/-! ## Chip, Millers, BIST, MISC -/

def writeChip (h : Hub) (req : Req) (off a v : Nat) : Hub :=
  match off with
  | 0x58 => softResetKey h req v
  | 0x5C => wdtControl h (v.testBit 0) (v / 2 ^ 16 % 2 ^ 16)
  | 0x60 => wdtKick h v
  | _ => storeWord h a v

def writeMiller (h : Hub) (off a v : Nat) : Hub :=
  match off with
  | 0x100 =>
    let h := if v.testBit 0 then loadStart h else h
    if v.testBit 1 then loadDone h else h
  | 0x104 => loadData h v
  | _ =>
    if 0x40 ≤ off ∧ off < 0x80 ∧ off % 16 = 0 then
      let c := (off - 0x40) / 16
      let h := coreRun h c (v.testBit 0)
      if v.testBit 1 then coreReset h c else h
    else storeWord h a v

def writeBist (h : Hub) (req : Req) (off a v : Nat) : Hub :=
  if off ≠ 0x40 then storeWord h a v
  else
    let h := storeWord h a v
    let h := if v.testBit 4 then bistAbort h else h
    if v.testBit 2 then bistGo h req else h

def writeMisc (h : Hub) (off a v : Nat) : Hub :=
  if off < 0x58 ∧ off ≠ 0x54 then
    -- A change of GPIO_OUT, GPIO_OE or GPIO_POL may move the level that GPIO_EDGE watches (R682).
    let en := storeWord h a v
    if off = 0x50 then en else gpioEdges h fun h => noteGpio (storeWord h a v)
  else if off = 0x64 ∨ off = 0x74 then
    let n := (off - 0x64) / 16
    let h := storeWord h a v
    if v.testBit 13 then busGo h n else h
  else if off = 0x6C ∨ off = 0x7C then pushBusTx h ((off - 0x6C) / 16) (BitVec.ofNat 8 v)
  else if off = 0x84 then
    let h := storeWord h a v
    if v.testBit 19 then spiGo h else h
  else if off = 0x8C then pushSpiTx h v
  else if off = 0xA8 then uartTx h (BitVec.ofNat 8 v)
  else storeWord h a v

/-- CRED_DEFAULT is the window of every path that has none of its own (R133): one that it lowers may be reached at once (R170). -/
def writeMill (h : Hub) (off a v : Nat) : Hub :=
  let h := storeWord h a v
  if off = 0x44 then (validPaths h).foldl noteWindow h else h

/-! ## Every write -/

/-- A write to a block register. -/
def writeBlock (h : Hub) (req : Req) (k : Kind) (i off a v : Nat) : Hub :=
  match k with
  | .slice => writeSlice h i off a v
  | .link => writeLink h i off a v
  | .gate => writeGate h i off a v
  | .proj => writeProj h req i off a v
  | .dpo => writeDpo h i off a v
  | .hopper => writeHopper h off a v
  | .sluice => writeSluice h off a v
  | .path | .stats | .mcast | .wred | .policer | .tallyTab => writeTable h req k off a v
  | .tailrace => writeTailrace h off a v
  | .ethmac => writeEthmac h i off a v
  | .nic => writeNic h i off a v
  | .msix => msixUnmasked (storeWord h a v) i
  | .pciedn => writePciedn h i off a v
  | .usbhub => settleUsb (storeWord h a v)
  | .dockfn => writeDockfn h i off a v
  | .aud => writeAud h off a v
  | .pstk => writePstk h off a v
  | .tally => writeTally h req off a v
  | .typec => writeTypec h i off a v
  | .weir => writeWeir h i off a v
  | .pwr => writePwr h req off a v
  | .clk => writeClk h off a v
  | .cue0 => writeCue0 h off a v
  | .cue3 => writeCue3 h off a v
  | .vault => writeVault h req off a v
  | .leat => writeLeat h req i off a v
  | .fabric => writeFabric h off a v
  | .chip => writeChip h req off a v
  | .miller => writeMiller h off a v
  | .bist => writeBist h req off a v
  | .misc => writeMisc h off a v
  | .mill => writeMill h off a v
  | .sluiceOut | .reel | .cue1 | .cue2 => storeWord h a v

/-- A word has a writable field that is not RWF. -/
def hasOther (a : Nat) : Bool := (wordRows a).any fun r => r.acc == .rw || r.acc == .w1c || r.acc == .w1s || r.acc == .wo

/-- A written word with every RWF field as it stands. -/
def rwfKept (h : Hub) (a v : Nat) : Nat :=
  (wordRows a).foldl (fun v r =>
    if r.acc == .rwf then v - v / 2 ^ r.lo % 2 ^ r.w * 2 ^ r.lo + h.fget ⟨a, r.lo, r.w⟩ * 2 ^ r.lo else v) v

/-- A 4-byte write as its requester may make it. -/
def writeAllowed (h : Hub) (req : Req) (a v : Nat) : Hub :=
  match pageAt a with
  | none => h
  | some (k, i, base) =>
    let off := a - base
    if k.hasHeader && decide (off < 0x40) then writeHeader h req k i base off v
    else if !k.isTable && isPairLo k off then writePairLo h req a v
    else if !k.isTable && isPairHi k off then writePairHi h req a v
    else writeBlock h req k i off a v

/-- A 4-byte write that has passed every check of R53. RWF fields take effect only from service firmware and JTAG: from a slice
or the BMC what is written to them is dropped and logged as an owner fault, and the other fields of the word act by their own
types (R12). -/
def writeWord (h : Hub) (req : Req) (a v : Nat) : Hub :=
  if hasRwf a && !(mayRwf req) then
    let h := writeFault h req a 4
    if hasOther a then writeAllowed h req a (rwfKept h a v) else h
  else writeAllowed h req a v

end Sys2Proof.Machine
end

