-- ==== Sys2Proof/Machine/Bus.lean ====
section
/-! DEFINITION. Accesses through Penstock: the checks of R53, stalls and their ends (R513, R691), the order of a requester's
accesses (R370), the Reel window (R350–R354) and prefetch (R359–R363). -/

namespace Sys2Proof.Machine

/-- A 4-byte or 8-byte access to the register window, as it arrives. -/
def windowAccess (req : Req) (addr size : Nat) (write : Bool) (value : BitVec 64) : Access :=
  { req := req, reel := false, dock := false, addr := addr, size := size, write := write, value := value, bytes := [], await := .queued }

/-! ## The checks of R53 -/

/-- 4 bytes, or 8 bytes in a table region, naturally aligned (R348). -/
def sizeOk (addr size : Nat) : Bool :=
  (size == 4 && addr % 4 == 0)
    || (size == 8 && addr % 8 == 0 && match pageAt addr with | some (k, _, _) => k.isTable | none => false)

/-- A requester is in the applied OWNER of a page (R47, R51). -/
def ownerPasses (h : Hub) (req : Req) (page : Nat) : Bool :=
  match req with
  | .jtag => true
  | .slice s => sliceOwns h page s.val
  | .miller _ => (appliedOwner h page).testBit 4
  | .bmc => (appliedOwner h page).testBit 5

/-- The header's registers that a slice or the BMC reaches under the owner check (R47, R48). -/
def headerChecked (off : Nat) : Bool := (decide (0x08 ≤ off) && decide (off < 0x28)) || (decide (0x2C ≤ off) && decide (off < 0x30))

/-- The rights to a header (R47, R48, R506). What a slice or the BMC writes to PAGE_ID, PAGE_CAP or a reserved word is
ignored and no fault (DEDUCED, log 53). -/
def headerOk (h : Hub) (req : Req) (page off : Nat) (write : Bool) : Bool :=
  match req with
  | .miller _ | .jtag => true
  | .slice _ | .bmc =>
    if write && (off / 4 == 0x28 / 4 || off / 4 == 2) then false
    else if headerChecked off then ownerPasses h req page else true

/-- The registers of CUE0 that a slice may reach: those of its own target (R582). -/
def cueOk (req : Req) (k : Kind) (off : Nat) : Bool :=
  match k, req with
  | .cue0, .slice s =>
    let t := 4 + s.val
    (decide (0x100 + 32 * t ≤ off) && decide (off < 0x120 + 32 * t)) || (decide (0x400 + 64 * t ≤ off) && decide (off < 0x440 + 64 * t))
      || off / 4 == (0xF00 + 4 * t) / 4
  | _, _ => true

/-- LINK_CTL of a host port is written by service firmware and the slice's own host alone (R108); JTAG passes every check (R47). -/
def hostLinkOk (req : Req) (page off : Nat) : Bool :=
  match (List.range 4).find? (fun n => Page.link n == page) with
  | none => true
  | some n => off / 4 != 0x48 / 4 || (match req with | .slice s => s.val == n | .bmc => false | .miller _ | .jtag => true)

/-- Who may read and write a table (R123, R142, R154, R227, R381, R396, R687). -/
def tableOk (req : Req) (k : Kind) (off : Nat) (write : Bool) : Bool :=
  let slot := k == .tallyTab && decide (0x1400 ≤ off) && decide (off < 0x1C00)
  if slot then !write
  else match req with
    | .miller _ | .jtag => true
    | .bmc => !write
    | .slice _ => !write && k != .tallyTab

/-- The owner check of R53. -/
def ownerOk (h : Hub) (req : Req) (k : Kind) (page off : Nat) (write : Bool) : Bool :=
  if k.isTable then tableOk req k off write
  else if k.endpoint then true
  else if off < 0x40 then headerOk h req page off write
  else ownerPasses h req page && cueOk req k off && (!write || hostLinkOk req page off)

/-- Rights that depend on an entry's content, judged after the wake (R123, R154, R381, R687). -/
def entryOk (h : Hub) (req : Req) (k : Kind) (off : Nat) : Bool :=
  match k, req with
  | .path, .slice s | .stats, .slice s =>
    let p := off / 64
    h.fget (F.path_CTL_OWNER p) == s.val && h.fget (F.path_CTL_HUB p) == hubNumber h
  | .tallyTab, .slice _ | .tallyTab, .bmc =>
    if 0x1400 ≤ off then h.fget (F.tallyTab_SLOT_INFO_READER ((off - 0x1400) / 8)) == readerOf req else true
  | _, _ => true

/-- A reset of the slice holds an access to its pages (R691). -/
def sliceHeld (h : Hub) (k : Kind) (i : Nat) : Bool :=
  match k with
  | .slice | .usbhub | .dockfn | .nic | .msix => h.fget (F.slice_STATUS_ROUTER i) == 6
  | _ => false

/-- What the checks of R53 come to. -/
inductive Verdict where
  | size | unassigned | absent | owner
  /-- The bus-powered profile holds the block: the result of a wake timeout at once (R101, R352). -/
  | held
  | waits (w : Await)
  | go
  deriving DecidableEq, Repr

/-- A NIC's BAR0 and the BAR4 of function 0 are their own slice's alone. -/
def nicForeign (req : Req) (k : Kind) (i : Nat) : Bool :=
  k.endpoint && match req with | .slice s => s.val != i | _ => true

/-- The wait of an access to a domain, or that there is none. -/
def awaitDomain (h : Hub) (d : Nat) (ok : Verdict) : Verdict :=
  if h.ready d then ok else if profileHeld h d then .held else .waits (.ready d)

/-- The checks of an access that has reached its page (R52, R53): it has passed the owner check, and waits for what it needs. -/
def judgeReached (h : Hub) (req : Req) (k : Kind) (i off : Nat) : Verdict :=
  if k.hasHeader && decide (off < 0x40) then .go
  else if sliceHeld h k i then .waits (.slice i)
  else awaitDomain h (k.domain i) (if entryOk h req k off then .go else .owner)

/-- The checks of R53 for the register window, in their order. -/
def judgeWindow (h : Hub) (req : Req) (addr size : Nat) (write : Bool) : Verdict :=
  if !(sizeOk addr size) then .size
  else match pageAt addr with
    | none => .unassigned
    | some (k, i, page) =>
      let off := addr - page
      if nicForeign req k i then .unassigned
      else if !(h.present k i) then .absent
      else if !(ownerOk h req k page off write) then .owner
      else judgeReached h req k i off

/-- The checks for the Reel window (R263, R352). -/
def judgeReel (h : Hub) : Verdict := if !(h.present .reel 0) then .absent else awaitDomain h 12 .go

/-- An access that waits for its block has reached its page, and completes under the owner of that moment (R52). -/
def judgeAccess (h : Hub) (a : Access) : Verdict :=
  if a.reel then judgeReel h
  else if a.await == .queued then judgeWindow h a.req a.addr a.size a.write
  else match pageAt a.addr with
    | none => .unassigned
    | some (k, i, page) => judgeReached h a.req k i (a.addr - page)

/-! ## Answers -/

/-- The 64-byte parts of a run of the Reel window (R350): address and length. -/
def partsOf (a : Nat) : Nat → Nat → List (Nat × Nat)
  | 0, _ => []
  | _, 0 => []
  | fuel + 1, n => let k := min n (64 - a % 64); (a, k) :: partsOf (a + k) fuel (n - k)

def reelParts (a n : Nat) : List (Nat × Nat) := partsOf a n n

/-- The answer to a read of the Reel window, part by part. -/
def reelAnswer (h : Hub) (a : Access) (parts : List (Bytes × Bool)) : Hub :=
  (queueCompletion h a (((reelParts a.addr a.size).zip parts).map fun q => (q.1.1, q.2))).emit (.reelData a.req a.addr parts)

/-- The answer to a read, with the same word in all of it (R53, R54). -/
def answerWord (h : Hub) (a : Access) (v : Nat) : Hub :=
  if a.reel then reelAnswer h a ((reelParts a.addr a.size).map fun p => (List.replicate p.2 (BitVec.ofNat 8 v), false))
  else if a.dock then (match a.req with | .slice s => h.emit (.usbReply s.val (leBytes a.size v)) | _ => h)
  else (queueCompletion h a [(a.addr, leBytes a.size v, false)]).emit (.readDone a.req a.addr (BitVec.ofNat 64 v))

def allOnes (a : Access) : Nat := if a.size = 8 then 2 ^ 64 - 1 else 2 ^ 32 - 1

/-- An access ends without being performed: 0xFFFF_FFFF, or an entry in the log (R53, R355). -/
def endAccess (h : Hub) (a : Access) (cause : Nat) : Hub :=
  if a.write then logWrite h (reqCode a.req) a.addr a.size cause a.reel
  else answerWord (npError h (reqCode a.req) a.addr cause a.reel) a (allOnes a)

/-- A size fault (R349, R357). -/
def sizeFault (h : Hub) (a : Access) : Hub :=
  let np := (npError h (reqCode a.req) a.addr Cause.size false).emit (.sizeFault a.req a.addr)
  match a.req with
  | .miller _ => np
  | _ => if a.write then logWrite h (reqCode a.req) a.addr a.size Cause.size false else queueCompletion np a [(a.addr, [], false)]

/-- What becomes of an access that fails a check of R53. -/
def refuse (h : Hub) (a : Access) (v : Verdict) : Hub :=
  match v with
  | .size => sizeFault h a
  | .unassigned =>
    let h := absentAccess h
    if a.write then logWrite h (reqCode a.req) a.addr a.size Cause.absent a.reel else answerWord h a 0
  | .absent => let h := absentAccess h; if a.write then h else answerWord h a 0
  | .owner =>
    let h := ownerFault h
    if a.write then logWrite h (reqCode a.req) a.addr a.size Cause.owner a.reel else answerWord h a 0
  | .held => endAccess h a Cause.wake
  | .waits _ | .go => h

/-! ## Prefetch (R359–R363) -/

/-- The byte that a stream holds of an address, if it is no older than PF_LIFE (R362). -/
def streamByte (h : Hub) (reel : Bool) (a : Nat) (st : Stream) : Option Byte :=
  if st.reel == reel && h.fget F.pstk_CTL_PF_LIFE != 0 && decide (h.time - st.at_ ≤ 128 * h.fget F.pstk_CTL_PF_LIFE) then
    (Tbl.get (fun _ => []) st.blocks (a / 64)).getD (a % 64) none
  else none

/-- A byte that the slice's buffer holds (R362); of two copies, the one used last (log 59). -/
def heldByte (h : Hub) (s : Nat) (reel : Bool) (a : Nat) : Option Byte := (h.penSt s).streams.reverse.findSome? (streamByte h reel a)

/-- The streams that hold a byte of an answer are the ones used most recently (R359). -/
def touchStreams (h : Hub) (s : Nat) (reel : Bool) (a n : Nat) : Hub :=
  let used (st : Stream) : Bool := (List.range n).any fun j => (streamByte h reel (a + j) st).isSome
  let x := h.penSt s
  h.setPen s { x with streams := x.streams.filter (fun st => !(used st)) ++ x.streams.filter used }

/-- The read must go to its page: a _LO register, or a _HI register of which the slice holds a snapshot (R59, R363). -/
def pairRead (h : Hub) (a : Access) : Bool :=
  !a.reel && (match pageAt a.addr with
    | some (k, _, page) =>
      a.size == 4 && (isPairLo k (a.addr - page) || (isPairHi k (a.addr - page) && (snapshot h (a.addr - 4) a.req).isSome)
        || (a.addr == A.clk_EPOCH && (snapshot h a.addr a.req).isSome))
    | none => false)

/-- What the buffer answers to a slice's read, if it holds every byte of it. -/
def bufferHit (h : Hub) (a : Access) : Option Bytes :=
  match a.req with
  | .slice s =>
    if a.write || (h.penSt s.val).streams.isEmpty || pairRead h a then none
    else (List.range a.size).mapM fun j => heldByte h s.val a.reel (a.addr + j)
  | _ => none

/-- A word of the register window that a prefetch for a slice may read (R360). -/
def prefetchOk (h : Hub) (s : Fin 4) (a : Nat) : Bool :=
  match pageAt a with
  | none => false
  | some (k, i, page) =>
    let off := a - page
    h.present k i && !k.endpoint && ownerOk h (.slice s) k page off false && (k.isTable || decide (off < 0xF00))
      && ((k.hasHeader && decide (off < 0x40))
        || (h.domOn (k.domain i) && !(h.dom (k.domain i)).resetting && !(sliceHeld h k i) && entryOk h (.slice s) k off))

/-- A prefetched block of the register window. -/
def windowBlock (h : Hub) (s : Fin 4) (b : Nat) : List (Option Byte) :=
  (List.range 16).flatMap fun w =>
    let a := 64 * b + 4 * w
    if prefetchOk h s a then (leBytes 4 (wordValue h a)).map some else List.replicate 4 none

/-- Blocks fetched ahead, into a stream that takes the place of the least recently used one. -/
def addStream (h : Hub) (s : Nat) (reel : Bool) (blocks : List (Nat × List (Option Byte))) : Hub :=
  let x := h.penSt s
  let keep := x.streams.drop (x.streams.length - 3)
  h.setPen s { x with streams := keep ++ [⟨reel, h.time, blocks⟩] }

/-- The blocks to fetch after a read that ends at `e` (R359). -/
def aheadBlocks (reel : Bool) (e calm : Nat) : List Nat :=
  let page := if reel then 0x10000 else 0x1000
  let stop := min (e + 2048) (min calm ((e + page - 1) / page * page))
  ((List.range 32).map (e / 64 + ·)).filter fun b => decide (64 * b < stop)

/-- A fetch of Reel blocks; one with an uncorrectable word is not kept (R360). -/
def fetchReel (h : Hub) (m : Memory) : List Nat → Hub × List (Nat × List (Option Byte))
  | [] => (h, [])
  | b :: bs =>
    let bad := (badOf h b).testBit 1
    let (h, d) := reelRead h m Client.penstock (64 * b) 64
    let (h, l) := fetchReel h m bs
    (h, if bad then l else (b, d.map some) :: l)

/-- The read ahead of a slice's read in an enabled calm range (R359). -/
def readAhead (h : Hub) (m : Memory) (a : Access) : Hub :=
  match a.req with
  | .slice s =>
    if !(h.is F.pstk_CTL_PF_EN) || a.size == 0 then h
    else match calmEnd h a.reel a.addr (a.addr + a.size) with
      | none => h
      | some e =>
        let bs := aheadBlocks a.reel (a.addr + a.size) e
        if bs.isEmpty then h
        else if a.reel then
          if h.domOn 12 then let (h, l) := fetchReel h m bs; addStream h s.val true l else h
        else addStream h s.val false (bs.map fun b => (b, windowBlock h s b))
  | _ => h

/-- A write through Penstock invalidates the bytes it holds for every slice (R362). -/
def invalidate (h : Hub) (reel : Bool) (a n : Nat) : Hub :=
  (List.range 4).foldl (fun h s =>
    let x := h.penSt s
    if x.streams.isEmpty then h
    else h.setPen s { x with streams := x.streams.map fun st =>
      if st.reel == reel then
        { st with blocks := st.blocks.map fun (b, l) => (b, l.mapIdx fun j c => if a ≤ 64 * b + j ∧ 64 * b + j < a + n then none else c) }
      else st }) h

/-! ## Performing -/

/-- The read of a Reel part meets the uncorrectable word of its block (R353). -/
def partPoisoned (h : Hub) (p : Nat × Nat) : Bool :=
  (badOf h (p.1 / 64)).testBit 1 && decide (p.1 % 64 < 16) && decide (8 < p.1 % 64 + p.2)

/-- A read of the Reel window, part by part. -/
def readReel (h : Hub) (m : Memory) (a : Access) : Hub :=
  let ps := reelParts a.addr a.size
  let slice := match a.req with | .slice _ => true | _ => false
  let r := ps.foldl (fun (x : Hub × List (Bytes × Bool)) p =>
    let bad := partPoisoned x.1 p
    let y := reelRead x.1 m Client.penstock p.1 p.2
    (y.1, x.2 ++ [(y.2, bad && slice)])) (h, [])
  let h' := if ps.any (partPoisoned h) then npError r.1 (reqCode a.req) a.addr Cause.reel true else r.1
  reelAnswer h' a r.2

/-- The bytes that a write enables in a part, with their addresses. -/
def partCells (a : Access) (p : Nat × Nat) : List (Nat × Byte) :=
  (List.range p.2).filterMap fun j => ((a.bytes.getD (p.1 - a.addr + j) none).map fun b => (p.1 + j, b))

/-- A write of one part of the Reel window. -/
def writePart (a : Access) (x : Hub × Memory) (p : Nat × Nat) : Hub × Memory :=
  let cells := partCells a p
  if cells.isEmpty then x else reelWrite (invalidate x.1 true p.1 p.2) x.2 cells

/-- A write to the Reel window; one that leaves an uncorrectable word unchanged is logged once, whatever its parts (R354, R364). -/
def writeReel (h : Hub) (m : Memory) (a : Access) : Hub × Memory :=
  let ps := reelParts a.addr a.size
  let bad := ps.any fun p => partBad h ((partCells a p).map (·.1)) (p.1 / 64)
  ps.foldl (writePart a) (if bad then logWrite h (reqCode a.req) a.addr a.size Cause.reel true else h, m)

/-- A read of the register window. -/
def readWindow (h : Hub) (a : Access) : Hub :=
  if a.size = 8 then answerWord h a (readLong h a.addr)
  else let r := readWord h a.req a.addr; answerWord r.1 a r.2

/-- A write of the register window. -/
def writeWindow (h : Hub) (a : Access) : Hub :=
  let h := invalidate h false a.addr a.size
  if a.size = 8 then writeLong h a.addr a.value.toNat else writeWord h a.req a.addr (a.value.toNat % 2 ^ 32)

/-- An access that has passed every check. -/
def performAccess (h : Hub) (m : Memory) (a : Access) : Hub × Memory :=
  if a.write then (if a.reel then writeReel h m a else (writeWindow h a, m))
  else ((readAhead (if a.reel then readReel h m a else readWindow h a) m a), m)

/-! ## Stalls and order -/

/-- A wait wakes its domain (R53, R512). -/
def wakeFor (h : Hub) (w : Await) : Hub :=
  match w with
  | .ready d => wake h d
  | .queued | .slice _ => h

/-- An earlier access keeps a later one of the same requester back; a slice's posted write passes its blocked reads (R370), but
those of the same block (R389). -/
def keepsBack (e a : Access) : Bool :=
  let slice := match a.req with | .slice _ => true | _ => false
  let same := e.reel == a.reel && (a.reel || e.addr / 0x1000 == a.addr / 0x1000)
  e.req == a.req && !(slice && a.write && !e.write && !same)

/-- The answer from a slice's prefetch buffer. -/
def answerHeld (h : Hub) (a : Access) (bs : Bytes) : Hub :=
  let h := match a.req with | .slice s => touchStreams h s.val a.reel a.addr a.size | _ => h
  if a.reel then reelAnswer h a ((reelParts a.addr a.size).map fun p => ((bs.drop (p.1 - a.addr)).take p.2, false))
  else answerWord h a (ofBytes bs)

/-- An access whose turn has come ends, with its verdict. -/
def conclude (h : Hub) (m : Memory) (a : Access) (v : Verdict) : Hub × Memory :=
  match v with
  | .go | .waits _ => performAccess h m a
  | _ => (refuse h a v, m)

/-- An access that no earlier one keeps back: it ends now, or waits. -/
def startAccess (h : Hub) (m : Memory) (a : Access) : Hub × Memory :=
  match judgeAccess h a with
  | .go => match bufferHit h a with
    | some bs => (readAhead (answerHeld h a bs) m a, m)
    | none => performAccess h m a
  | .waits w => match bufferHit h a with
    | some bs => (answerHeld h a bs, m)
    | none => ({ wakeFor h w with stalled := h.stalled ++ [{ a with await := w }] }, m)
  | v => (refuse h a v, m)

/-- The completions that a read's answer makes (R367). -/
def answerTlps (h : Hub) (a : Access) : Nat :=
  if a.reel then (completionsOf ((reelParts a.addr a.size).map fun p => (p.1, List.replicate p.2 0, partPoisoned h p))).length else 1

/-- A host's read waits in its queue while the completion buffer has no room for its answer (R367). -/
def mayAnswer (h : Hub) (a : Access) : Bool := completionRoom h a (answerTlps h a)

/-- An access arrives at Penstock. In SHELF nothing answers it (DESIGN CHOICE, log 54). One for which its endpoint has advertised no credit
(R368) is not sent, and does not arrive. -/
def arrive (h : Hub) (m : Memory) (a : Access) : Hub × Memory :=
  if h.power.shelf = 2 then (h, m)
  else if (h.stalled.any fun e => keepsBack e a) || !(mayAnswer h a) then
    (if noInbound h a then h else { h with stalled := h.stalled ++ [{ a with await := .queued }] }, m)
  else startAccess h m a

/-- A stalled access may go on. -/
def awaitOver (h : Hub) (a : Access) : Bool :=
  match a.await with
  | .queued => true
  | .ready d => h.ready d || profileHeld h d
  | .slice s => h.fget (F.slice_STATUS_ROUTER s) != 6

/-- The first stalled access that may go on, with those before and after it. -/
def nextAccess (h : Hub) (pre : List Access) : List Access → Option (List Access × Access × List Access)
  | [] => none
  | a :: t => if awaitOver h a && mayAnswer h a && !(pre.any fun e => keepsBack e a) then some (pre, a, t) else nextAccess h (pre ++ [a]) t

/-- Stalled accesses that may go on are performed in their order of arrival (R697); the first argument bounds their number. -/
def pumpFor : Nat → Hub → Memory → Hub × Memory
  | 0, h, m => (h, m)
  | n + 1, h, m =>
    match nextAccess h [] h.stalled with
    | none => (h, m)
    | some (pre, a, post) =>
      match judgeAccess h a with
      | .waits w => pumpFor n { wakeFor h w with stalled := pre ++ { a with await := w } :: post } m
      | v => let r := conclude { h with stalled := pre ++ post } m a v; pumpFor n r.1 r.2

def pump (h : Hub) (m : Memory) : Hub × Memory := pumpFor (2 * h.stalled.length + 1) h m

/-! ## Ends of stalls -/

/-- The k-th stalled access ends with a cause, and those it kept back go on. -/
def endStalled (h : Hub) (m : Memory) (k cause : Nat) : Hub × Memory :=
  match h.stalled[k]? with
  | none => (h, m)
  | some a => let r := endAccess { h with stalled := h.stalled.eraseIdx k } a cause; pump r m

/-- R53: the domain was not ready within 1 ms. -/
def wakeTimeout (h : Hub) (m : Memory) (k : Nat) : Hub × Memory :=
  match h.stalled[k]? with
  | some a => (match a.await with
    | .ready _ => endStalled h m k Cause.wake
    | _ => (h, m))
  | none => (h, m)

/-- R355: the block is in RUN or DOZE and has not answered. -/
def internalTimeout (h : Hub) (m : Memory) (k : Nat) : Hub × Memory :=
  match h.stalled[k]? with
  | some a => (match a.await with
    | .ready d => if h.domOn d then endStalled h m k Cause.internal else (h, m)
    | _ => (h, m))
  | none => (h, m)

/-- R559: the gate of a domain is forced, and every access in progress there ends. -/
def forcedGate (h : Hub) (m : Memory) (d : Nat) : Hub × Memory :=
  let mine (a : Access) : Bool := a.await == .ready d
  let h' := (h.stalled.filter mine).foldl (fun h a => endAccess h a Cause.internal) { h with stalled := h.stalled.filter fun a => !(mine a) }
  pump ((h'.bump F.clk_GATING_FORCED_GATES 1).event Page.clk 6) m

/-! ## Tally samples (R377, R378) -/

/-- A KIND 1 entry takes a sample of its register with the rights of service firmware; CTL.EN stops what Tally sends and routes, not what it
samples (R393). -/
def wordSample (h : Hub) (w : Nat) : Hub :=
  if !(wordOn h w) || h.fget (F.tallyTab_MAP_CTL_KIND w) != 1 then h
  else match sampleOk h w with
    | none => (h.fset F.tally_MAP_FAULT_WORD w).event Page.tally 18
    | some (k, i, a) =>
      if !(h.present k i) then wordUpdate (absentAccess h) w 0
      else if !(ownerPasses h (.miller 0) (a / 0x1000 * 0x1000)) then wordUpdate (ownerFault h) w 0
      else if !(h.domOn (k.domain i)) || (h.dom (k.domain i)).resetting then h
      else wordUpdate h w (wordValue h a)

end Sys2Proof.Machine
end

