-- ==== Sys2Proof/Machine/Control.lean ====
section
/-! DEFINITION. What the commands are made of beside single blocks: accesses as they come from a requester, and the operations
that touch the Reel memory or several blocks at once. -/

namespace Sys2Proof.Machine

abbrev Result := Host.Outcome State Fault Refusal

/-- A command that touches the hub alone. -/
def onHub (s : State) (f : Hub → Hub) : Result := .next { s with hub := f s.hub }

/-- A command that may touch Reel memory. -/
def onBoth (s : State) (f : Hub → Memory → Hub × Memory) : Result :=
  let r := f s.hub s.reel
  .next { s with hub := r.1, reel := r.2 }

/-! ## Accesses -/

/-- Stalled accesses go on, and what waited for a host's read enters its outbound queue (R372), the NICs' reads too. -/
def goOn (h : Hub) (m : Memory) : Hub × Memory :=
  let r := pump h m
  ((List.range 4).foldl (fun h s => flushMsix (fetchAll (admitOut h s) s) s) r.1, r.2)

/-- A command that ends accesses: what they kept back goes on. -/
def ended (s : State) (f : Hub → Memory → Hub × Memory) : Result :=
  onBoth s fun h m => let r := f h m; goOn r.1 r.2

/-- The BMC's target and JTAG issue only 4-byte accesses of the register window (R349, R685). -/
def narrow (req : Req) : Bool :=
  match req with
  | .bmc | .jtag => true
  | .slice _ | .miller _ => false

/-- A write that may end a self-test, for whose domain accesses wait: BIST.CMD, or RESET_CTL of the BIST page (R646, R662). -/
def endsBist (a : Access) : Bool :=
  a.write && !a.reel && [0x24, 0x40].any fun r => decide (a.addr ≤ Page.bist + r ∧ Page.bist + r < a.addr + a.size)

/-- An access as it comes from its requester. One with no byte enable set performs nothing (R351). -/
def busAccess (h : Hub) (m : Memory) (a : Access) : Hub × Memory :=
  if a.size = 0 then (if a.write then h else answerWord h { a with size := 4 } 0, m)
  else if narrow a.req && (a.reel || a.size != 4) then (h, m)
  else
    let r := arrive h m a
    if endsBist a then goOn r.1 r.2 else r

def access (s : State) (a : Access) : Result := onBoth s fun h m => busAccess h m a

/-- A 4-byte write of a register. -/
def busWrite (s : State) (req : Req) (addr v : Nat) : Result := access s (windowAccess req addr 4 true (BitVec.ofNat 64 v))

/-- A 4-byte read of a register. -/
def busRead (s : State) (req : Req) (addr : Nat) : Result := access s (windowAccess req addr 4 false 0)

/-- A write to a table region, of 4 bytes or, atomically, of 8 (R62). -/
def tableWrite (s : State) (req : Req) (addr : Nat) (long : Bool) (v : BitVec 64) : Result :=
  access s (windowAccess req addr (if long then 8 else 4) true v)

/-- The length of a write to the Reel window; none of its bytes enabled counts as no bytes (R351). -/
def enabledLength (bs : List (Option Byte)) : Nat := if bs.any (·.isSome) then bs.length else 0

/-- An access to the Reel window; no byte lies above 4 GiB. -/
def reelAccess (s : State) (a : Access) : Result := if 2 ^ 32 < a.addr + a.size then .fault .outsideReel else access s a

/-- REG_READ (R408). -/
def dockRead (h : Hub) (m : Memory) (s : Fin 4) (offset len : Nat) : Hub × Memory :=
  if !(dockAnswers h s) then (h, m)
  else if len ≠ 4 ∨ offset % 4 ≠ 0 then (usbStall h s, m)
  else busAccess h m { windowAccess (.slice s) offset 4 false 0 with dock := true }

/-- REG_WRITE, performed when its status stage completes (R408, R409). -/
def dockWrite (h : Hub) (m : Memory) (s : Fin 4) (offset len v : Nat) (complete : Bool) : Hub × Memory :=
  if !(dockAnswers h s) then (h, m)
  else if len ≠ 4 ∨ offset % 4 ≠ 0 then (usbStall h s, m)
  else if !complete then (transferAborted (ep0Out h s 4) s, m)
  else
    let r := busAccess h m { windowAccess (.slice s) offset 4 true (BitVec.ofNat 64 v) with dock := true }
    (ep0Out r.1 s 4, r.2)

/-- A transfer at the BMC target: four offset bytes and four data bytes to write, or four offset bytes and four bytes to read;
any other byte count is ignored (R685). -/
def bmcTarget (s : State) (bs : Bytes) (readBytes : Nat) : Result :=
  let a := ofBytes (bs.take 4)
  if bs.length = 8 ∧ readBytes = 0 then busWrite s .bmc a (ofBytes (bs.drop 4))
  else if bs.length = 4 ∧ readBytes = 4 then busRead s .bmc a
  else .next s

/-- The word of VAULT.CMD (R598). -/
def vaultWord (op slot tslot msel : Nat) (ecdsa : Bool) : Nat :=
  op + 2 ^ 4 * slot + 2 ^ 9 * tslot + 2 ^ 14 * msel + (if ecdsa then 2 ^ 18 else 0)

/-! ## The switch -/

/-- A chain, or more of one, reaches an ingress point. At ingress 20 it is the next of the stream of the head that is its hop number,
whose packets of active lines the hub itself fills (R296, R301); a chain that begins at ingress 22 is Penstock's next outbound TLP
(R367). -/
def chainArrives (h : Hub) (m : Memory) (i hop : Nat) (packets : List Bytes) (closed bad : Bool) (colour : Nat) (credit : Option Nat) : Hub :=
  if i = 20 then
    if headSends h hop then
      let r := headPackets h m hop packets
      chainArrival r.1 i hop r.2 closed bad colour credit 8
    else h
  else
    let begins : Bool := match (h.forebay i).chains.getLast? with | none => true | some c => c.closed
    let h := chainArrival h i (if i < 12 ∧ usb3Link h i then 0 else hop) packets closed bad colour credit 8
    if i == 22 && begins then popOutbound h hop else h

/-- An outlet selects; toward a TX half in FLUSH, LOSSY copies are discarded (R556). -/
def selects (h : Hub) (o : Nat) : Hub :=
  if o < 20 ∧ (h.half (2 * o + 1)).flush then flushSelect h o else outletSelect h o

/-- The unit that a departed packet reaches: a MAC, a PCIe port with a non-posted request, the Gates, the Tailrace switch, a USB 3.2 hub. -/
def reaches (h : Hub) (m : Memory) (o : Nat) (e : XEntry) (c : Option Chain) (tag : Option Nat) (data : GateData) : Hub × Memory :=
  if o = 14 ∨ o = 15 then (if e.last then h.pbump (F.ethmac_TX_FRAMES_LO_COUNT (o - 14)) 1 else h, m)
  else if o = 16 ∨ o = 17 then
    (match tag with
      | some t => if e.last && !e.marked then pcieRequest h (o - 16) t else h
      | none => h, m)
  else if o = 20 then gateDeliver h m e.path e.marked data
  else if o = 21 then
    (match c with
      | some c => switchDeliver h e c.ingress c.colour
      | none => h, m)
  else if o = 23 then
    (usbDeliver h e, m)
  else (h, m)

/-- A packet leaves at an outlet (R555). -/
def departs (h : Hub) (m : Memory) (o : Nat) (tag : Option Nat) (data : GateData) : Hub × Memory :=
  match h.txEntries o with
  | [] => (h, m)
  | e :: _ =>
    let bytes := if o = 14 ∨ o = 15 then ethWire h (o - 14) e else e.bytes
    let h' := departure h o bytes
    let h' := if o = 18 ∨ o = 19 then sendFrame h' (o - 18) e.bytes else h'
    let r := reaches h' m o e (h.chain e.chain) tag data
    (settleXoffs r.1, r.2)

/-- The turn boundary of fabric time (R161): pending owners apply (R51), the Sluice freezes demand, the fabric takes its step, and
entries of the path table that are missing are written again (R333, R369, R402). -/
def turnBoundary (h : Hub) (m : Memory) : Hub × Memory :=
  if h.power.shelf = 2 then (h, m)
  else
    let h := applyOwners (advanceTo h (boundaryTime h))
    goOn (settleSys (settleXoffs (fabricBoundary (reelBoundary (sluiceBoundary h))))) m

/-! ## Power, clocks, resets -/

/-- A slice reset completes, and what waited for it is performed (R691). While the chip's reset goes on in a halted ROM, the
slices stay in reset (DEDUCED, log 55). -/
def sliceResetEnds (h : Hub) (m : Memory) (s : Nat) : Hub × Memory :=
  if h.boot.phase = 4 then (h, m) else goOn (sliceResetDone h s) m

/-- Entry to NAP or OFF completes (R508, R514), and a wake that came meanwhile begins (R516). A block that goes OFF keeps no work; Reel memory in OFF keeps no content
(R259; log 5). -/
def entryComplete (h : Hub) (m : Memory) (d : Nat) : Hub × Memory :=
  let x := h.dom d
  if x.entering = 0 then (h, m)
  else
    let off := x.entering = 3
    let h := enterState h d x.entering
    let h := if off then (domainKinds d).foldl (fun h q => loseWork h q.1 q.2.1) h else h
    let h := if off ∧ d = 3 then settleBound { h with pathSt := [], auxGate := [], flows := [], credits := [] } else h
    let h := if off ∧ d = 12 then { h with reelBad := [] } else h
    (h.setDom d { h.dom d with state := x.entering, entering := 0, wakeAt := h.time }, if off ∧ d = 12 then [] else m)

/-- A waking domain is ready; block resets that waited for it begin, and its stalled accesses are performed (R513, R646). -/
def domainReady (h : Hub) (m : Memory) (d : Nat) : Hub × Memory :=
  let x := h.dom d
  if !x.waking || x.entering != 0 || x.resetting then (h, m)
  else if profileHeld h d then (if d = 12 ∧ x.state = 3 then settleGates (reelToNap h) else h, m)
  else
    let (h, m) := landAll (if d = 12 then settleGates (becomeReady h d) else becomeReady h d) m
    let h := (domainKinds d).foldl (fun h q => if h.is (F.hdr_RESET_CTL_BLOCK_RESET q.2.2) && h.ready d then blockAbandon h q.1 q.2.1 else h) h
    goOn h m

/-- A rescued mux; one of a core clock resets the domains it feeds, and CTRL among them resets the chip (R544, R650). -/
def muxRescue (h : Hub) (m : Nat) : Hub :=
  if !(h.clock.muxBusy.testBit m) then h
  else
    let h := muxRescued h m
    if m = 0 ∨ 8 < m then h
    else
      let ds := clockFeeds (m - 1)
      if ds.contains 2 then chipReset h 6 else ds.foldl domainReset h

/-- The entry to SHELF completes; a wake source that has appeared meanwhile wakes the hub at once (R528, R534). -/
def shelfEntered (s : State) : Result :=
  if s.hub.power.shelf ≠ 1 then .next s
  else
    let h := shelfDone s.hub
    .next { s with hub := (match s.hub.power.shelfWake with | some w => shelfLeave h w | none => h), reel := [] }

/-- A wake source of R530 appears; the wake out of SHELF finds Reel memory without content. -/
def shelfWoken (s : State) (w : WakeSource) : Result :=
  .next { s with hub := shelfWake s.hub w, reel := if s.hub.power.shelf = 2 ∧ wakeEnabled s.hub w then [] else s.reel }

/-- POR and BOR (R643). -/
def powerResets (s : State) (cause : Nat) (vkeepLost : Bool) : Result :=
  .next { s with hub := powerReset s.hub cause vkeepLost, reel := [] }

/-- A BIST run completes; the Reel pattern test leaves no content (R660, log 5). -/
def bistEnds (s : State) (ms : Nat) (signatures : List (Nat × Nat)) : Result :=
  let r := goOn (bistDone s.hub ms signatures) (match s.hub.boot.bist with | some (_, 3) => [] | _ => s.reel)
  .next { s with hub := r.1, reel := r.2 }

/-- A Soft_Reset from the partner (R442). -/
def softResetReceived (h : Hub) (p : Nat) : Hub :=
  if !(attached h p) then h
  else
    let h := pdSend (softReset h p) p .accept
    if tcState h p = 6 then sendCaps h p else h

/-- One tick of TIME, on an empty queue: fabric time advances while TIME runs from the Shaft, outside SHELF (R548; DESIGN CHOICE,
log 1). -/
def tick (s : State) : Result :=
  if timeRuns s.hub && s.hub.power.shelf != 2 then .next { s with hub := advance s.hub 1 } else .next s

/-- A start that waited for its island goes on (R519). -/
def heldGoes (h : Hub) (x : HeldStart) : Hub :=
  match x with
  | .link n mode ms => linkTrained h n mode ms
  | .pcie port gen width ms => pcieTrained h port gen width ms
  | .eth mac phy => ethUp h mac phy
  | .leat l peer status => leatLinkUp h l peer status
  | .gate g => settleGate h g
  | .head p => headStart h p

/-- A change of an island completes (R518), and what waited for it goes on. -/
def islandDone (h : Hub) (i : Nat) : Hub :=
  let h := dvfsDone h i
  if lowNow h i then h
  else
    let xs := h.power.heldStarts.filter fun x => heldDisplay x == (i == 2)
    if i = 2 ∨ i = 3 then xs.foldl heldGoes (dropHeld h fun x => heldDisplay x == (i == 2)) else h

end Sys2Proof.Machine
end

