-- ==== Sys2Proof/Machine/Board.lean ====
section
/-! DEFINITION. The meanings of the commands of: GPIO, buses, flash, UART and the BMC target (R682–R685). -/

namespace Sys2Proof.Machine

/-- GPIO_EDGE (R683). A rising edge of a GPIO's level sets GPIO_EDGE when EDGE_EN is 1. -/
def execGpioEdge (gpio : Fin 32) (high : Bool) (s : State) : Result := onHub s fun h => gpioPin h gpio high

/-- BUS_GO (R682). A write of 1 to BUS_CMD.GO starts an I2C, I3C or PWR-bus transfer. -/
def execBusGo (req : Req) (bus : Fin 2) (cmd : Word) (s : State) : Result :=
  busWrite s req (A.misc_BUS_CMD bus) (cmd.toNat ||| 0x2000)

/-- BUS_DONE (R682). A bus transfer ends, setting DONE or NACK. -/
def execBusDone (bus : Fin 2) (nack : Bool) (data : Bytes) (s : State) : Result :=
  onHub s fun h => busDone h bus nack data

/-- SPI_GO (R682). A write of 1 to SPI_CMD.GO starts a flash command. -/
def execSpiGo (req : Req) (cmd : Word) (s : State) : Result := busWrite s req A.misc_SPI_CMD (cmd.toNat ||| 0x80000)

/-- SPI_DONE (R682). A flash command ends, and GO reads 0. -/
def execSpiDone (data : Bytes) (s : State) : Result := onHub s fun h => spiDone h data

/-- UART_TX (R682). A write to UART_TX queues a byte, dropped while TX_FULL. `sent` bytes of the FIFO have gone out since
the last command. -/
def execUartTx (req : Req) (byte : Byte) (sent : Nat) (s : State) : Result :=
  busWrite { s with hub := uartSent s.hub sent } req A.misc_UART_TX byte.toNat

/-- UART_RECEIVE (R682). The UART receives a byte into its FIFO, or sets OVERRUN. -/
def execUartReceive (byte : Byte) (s : State) : Result := onHub s fun h => uartReceive h byte

/-- BUS_RX (R682). A read of BUS_RX pops a received byte. -/
def execBusRx (req : Req) (bus : Fin 2) (s : State) : Result := busRead s req (A.misc_BUS_RX bus)

/-- SPI_RX (R682). A read of SPI_RX pops four received bytes. -/
def execSpiRx (req : Req) (s : State) : Result := busRead s req A.misc_SPI_RX

/-- UART_RX (R682). A read of UART_RX pops a received byte. -/
def execUartRx (req : Req) (s : State) : Result := busRead s req A.misc_UART_RX

/-- BMC_ACCESS (R685). An I2C transfer to the BMC target performs one 4-byte register access, or is ignored. -/
def execBmcAccess (bytes : Bytes) (readBytes : Nat) (s : State) : Result := bmcTarget s bytes readBytes

end Sys2Proof.Machine
end

