-- ==== Sys2Proof/Machine/Bridge.lean ====
section
/-! DEFINITION. The meanings of the commands of: Penstock and Tally (R345–R396). -/

namespace Sys2Proof.Machine

/-- REEL_WINDOW_READ (R350). A read of the Reel window is split at 64-byte boundaries and performed. -/
def execReelWindowRead (req : Req) (addr : Nat) (len : Nat) (s : State) : Result :=
  reelAccess s { windowAccess req addr len false 0 with reel := true }

/-- REEL_WINDOW_WRITE (R350). A write to the Reel window is performed in parts. -/
def execReelWindowWrite (req : Req) (addr : Nat) (data : List (Option Byte)) (s : State) : Result :=
  reelAccess s { windowAccess req addr (enabledLength data) true 0 with reel := true, bytes := data }

/-- ATOMICOP (R346). An AtomicOp request to function 0 completes with status UR. -/
def execAtomicop (slice : Fin 4) (s : State) : Result :=
  onHub s fun h => (queueCompletion h { windowAccess (.slice slice) 0 4 false 0 with reel := true } [(0, [], false)]).emit (.atomicUr slice)

/-- FLR_FUNCTION_0 (R347). An FLR of function 0 discards the slice's pending requests and empties its prefetch buffer. -/
def execFlrFunction0 (slice : Fin 4) (s : State) : Result :=
  onBoth s fun h m => goOn (emptyPairs (stackReset (flr0 h slice) (4 + slice)) slice) m

/-- FLR_FUNCTION_1 (R343). An FLR of function 1 clears every NIC register of the slice. -/
def execFlrFunction1 (slice : Fin 4) (s : State) : Result := onHub s fun h => flr1 h slice

/-- INTERNAL_TIMEOUT (R355). An access not completed 64 µs after dispatch is ended with 0xFFFF_FFFF, or logged. -/
def execInternalTimeout (k : Nat) (s : State) : Result := ended s fun h m => internalTimeout h m k

/-- OUTBOUND_COMPLETION (R373). A completion of an outbound read arrives into its reserved space, and the space returns. -/
def execOutboundCompletion (slice : Fin 4) (k : Nat) (data : Bytes) (s : State) : Result :=
  onHub s fun h => outboundCompletion h slice k data

/-- OUTBOUND_READ_TIMEOUT (R374). An outbound read unanswered for 50 ms is ended and reported to its master. -/
def execOutboundReadTimeout (slice : Fin 4) (k : Nat) (s : State) : Result :=
  onHub s fun h => outboundTimeout h slice k

/-- LOG_CLEAR (R364). A write of 1 to LOG_CTL.CLEAR empties the posted-write error log. -/
def execLogClear (req : Req) (s : State) : Result := busWrite s req A.pstk_LOG_CTL 0x100

/-- WORD_SAMPLE (R377). Every PERIOD µs, Tally samples the source register of a KIND 1 entry. -/
def execWordSample (w : Fin 256) (s : State) : Result := onHub s fun h => wordSample h w

/-- WORD_WRITE (R379). A write to TALLY.WORD sets VALUE of a KIND 2 entry, or is dropped as an owner fault. -/
def execWordWrite (req : Req) (w : Fin 256) (value : Word) (s : State) : Result :=
  busWrite s req (A.tally_WORD w) value.toNat

/-- WORD_SEND (R380). Tally sends a changed word value to its slot once the send interval has passed. -/
def execWordSend (w : Fin 256) (s : State) : Result := onHub s fun h => wordSend h w

/-- SLOT_RECEIVE (R381). A slot takes a received word value with its source and sequence count. -/
def execSlotReceive (slot : Fin 256) (value : Word) (word : Fin 256) (hub : Fin 4) (reader : Nat) (s : State) : Result :=
  onHub s fun h => slotReceive h slot value.toNat word hub reader

/-- EVENT_RAISE (R383). A write to EVENT_RAISE, or a hardware event, raises an event that Tally routes. `by_` is none for
an event of the hardware. -/
def execEventRaise (by_ : Option Req) (id : BitVec 12) (arg : BitVec 16) (s : State) : Result :=
  match by_ with
    | some req => busWrite s req A.tally_EVENT_RAISE (id.toNat + 2 ^ 16 * arg.toNat)
    | none => onHub s fun h => routeEvent h { id := id.toNat, arg := arg.toNat, hub := hubNumber h, kind := 0 }

/-- EVENT_ARRIVAL (R385). An event arriving from another hub enters its inbox, or is dropped when the inbox is full. -/
def execEventArrival (target : Fin 6) (id : BitVec 12) (arg : BitVec 16) (hub : Fin 4) (kind : Fin 4) (s : State) : Result :=
  onHub s fun h => inboxPush h target { id := id.toNat, arg := arg.toNat, hub := hub, kind := kind }

/-- INBOX_READ (R386). A read of TALLY.INBOX by its reader pops the oldest event. -/
def execInboxRead (req : Req) (target : Fin 6) (s : State) : Result := busRead s req (A.tally_INBOX target)

end Sys2Proof.Machine
end

