-- ==== Sys2Proof/Machine/Clock.lean ====
section
/-! DEFINITION. The meanings of the commands of: Clocks and crossings (R537–R563). -/

namespace Sys2Proof.Machine

/-- REF_SELECT (R539). A write of REF_CTL.SEL switches the Shaft reference, deferring the distiller until DIST_LOCK. -/
def execRefSelect (req : Req) (ctl : Word) (s : State) : Result := busWrite s req A.clk_REF_CTL ctl.toNat

/-- DIST_LOCK (R538). The distiller output has stayed within ±200 ppm for 10 ms, and DIST_LOCK sets. -/
def execDistLock (s : State) : Result := onHub s distLock

/-- DIST_HOLD (R540). The distiller input stops or leaves the window, and the distiller holds its frequency. -/
def execDistHold (s : State) : Result := onHub s distHold

/-- HOLDOVER_EXPIRY (R540). HOLDOVER_MS passes without the input returning, and the reference falls back to the crystal. -/
def execHoldoverExpiry (s : State) : Result := onHub s holdoverExpiry

/-- REF_FALLBACK (R541). The Leat receiver loses lock, and a switch to the crystal is requested within 1 µs. -/
def execRefFallback (leat : Fin 2) (s : State) : Result := onHub s fun h => leatRefLost h leat

/-- PLL_LOCK (R542). The Shaft PLL locks and sets LOCK. -/
def execPllLock (s : State) : Result := onHub s pllLock

/-- LOCK_LOSS (R542). The PLL loses lock; LOCK clears and LOCK_LOSSES increments. -/
def execLockLoss (s : State) : Result := onHub s lockLoss

/-- MUX_SWITCH_COMPLETE (R543). A glitch-free mux passes the new clock. -/
def execMuxSwitchComplete (mux : Fin 10) (s : State) : Result := onHub s fun h => muxComplete h mux

/-- MUX_RESCUE (R544). A mux not switched after 2,048 cycles is forced, and a core clock's domains are reset. -/
def execMuxRescue (mux : Fin 10) (s : State) : Result := onHub s fun h => muxRescue h mux

/-- DOMSRC_WRITE (R546). A write of DOMSRC.SHAFT switches core clocks to Shaft division, ignored while LOCK = 0. -/
def execDomsrcWrite (req : Req) (shaft : Byte) (s : State) : Result := busWrite s req A.clk_DOMSRC shaft.toNat

/-- METER_GO (R553). A write of 1 to METER_CTL.GO opens a 1 ms gate. -/
def execMeterGo (req : Req) (src : Fin 32) (s : State) : Result := busWrite s req A.clk_METER_CTL (src + 32)

/-- METER_DONE (R553). The meter gate closes, the count is written and METER_DONE is raised. -/
def execMeterDone (edges : Nat) (s : State) : Result := onHub s fun h => meterDone h edges

/-- XING_RESYNC (R557). Eight cycles after the reset side leaves reset, the half leaves FLUSH. -/
def execXingResync (xing : Fin 21) (tx : Bool) (s : State) : Result := onHub s fun h => xingResync h xing tx

/-- FORCED_GATE (R559). Bus-quiet has not come within QUIET_LIMIT, so the gate is forced and accesses are ended. -/
def execForcedGate (domain : Fin 43) (s : State) : Result := ended s fun h m => forcedGate h m domain

/-- FTIME_WRAP (R548). Fabric time wraps, and EPOCH increments. -/
def execFtimeWrap (s : State) : Result := onHub s fun h => advance h (2 ^ 40 - h.ftime)

/-- DIST_RESUME (R540). The distiller's input returns within the ±200 ppm window before HOLDOVER_MS expires, and the
distiller leaves DIST_HOLD and tracks again. -/
def execDistResume (s : State) : Result := onHub s distResume

end Sys2Proof.Machine
end

