-- ==== Sys2Proof/Machine/Display.lean ====
section
/-! DEFINITION. The meanings of the commands of: Projectors and display outputs (R270–R314). -/

namespace Sys2Proof.Machine

/-- VBLANK (R274). At the start of vertical blank a head applies its shadow set, latches takes and raises VBLANK. -/
def execVblank (head : Fin 4) (s : State) : Result := onHub s fun h => vblank h head

/-- PROJ_ENABLE (R277). A write of PROJ.CTL.EN = 1 checks the active copy and starts the head at line V_ACTIVE. -/
def execProjEnable (req : Req) (head : Fin 4) (ctl : Word) (s : State) : Result :=
  busWrite s req (A.proj_CTL head) (ctl.toNat ||| 1)

/-- PROJ_DISABLE (R279). Clearing PROJ.CTL.EN stops the head after the line in progress and releases its latched takes. -/
def execProjDisable (req : Req) (head : Fin 4) (ctl : Word) (s : State) : Result :=
  busWrite s req (A.proj_CTL head) (ctl.toNat &&& 0xFFFFFFFE)

/-- V_TOTAL_MAX_REACHED (R280). An extended frame reaches V_TOTAL_MAX lines and continues without latching again. -/
def execVTotalMaxReached (head : Fin 4) (s : State) : Result := onHub s fun h => vTotalMax h head

/-- UNDERRUN (R289). A pixel slot arrives before its fetch has returned; the head sends BG_COLOR for the rest of the line. -/
def execUnderrun (head : Fin 4) (line : Nat) (pixel : Nat) (s : State) : Result :=
  onHub s fun h => underrun h head line pixel 0

/-- OUTPUT_STALL (R290). The head's output buffer is full for want of credit, and the line is treated as an underrun. -/
def execOutputStall (head : Fin 4) (line : Nat) (pixel : Nat) (s : State) : Result :=
  onHub s fun h => underrun h head line pixel 1

/-- FRAME_END (R294). At the end of a frame the head computes OUT_SIG and applies the continuity check. -/
def execFrameEnd (head : Fin 4) (s : State) : Result := onHub s fun h => frameEnd h s.reel head

/-- DP_TRAINING_COMPLETE (R304). A DP transmitter toward a monitor finishes training or fails, and the port is UP or
SHORT. -/
def execDpTrainingComplete (port : Fin 10) (ok : Bool) (rate : Nat) (lanes : Nat) (caps : SinkCaps) (ms : Nat) (s : State) : Result :=
  onHub s fun h => dpTrained h port ok rate lanes caps ms

/-- HPD_IRQ (R304). An HPD IRQ reporting loss of lock starts a retraining of the port. -/
def execHpdIrq (port : Fin 10) (lost : Bool) (s : State) : Result := onHub s fun h => hpdIrq h port lost

/-- PROJ_RETRAIN (R304). A write of 1 to PROJ.LINK_CTL.RETRAIN retrains the device ports the head masters. -/
def execProjRetrain (req : Req) (head : Fin 4) (ctl : Word) (s : State) : Result :=
  busWrite s req (A.proj_LINK_CTL head) (ctl.toNat ||| 0x80)

/-- DPO_RETRAIN (R304). A write of 1 to DPO.CTL.RETRAIN retrains the DPO in retained use. -/
def execDpoRetrain (req : Req) (dpo : Fin 2) (ctl : Word) (s : State) : Result :=
  busWrite s req (A.dpo_CTL dpo) (ctl.toNat ||| 0x100)

/-- DPO_HPD_CHANGE (R312). The HPD ball of a DPO changes level. -/
def execDpoHpdChange (dpo : Fin 2) (high : Bool) (s : State) : Result := onHub s fun h => dpoHpd h dpo high

/-- SIG_POP (R292). A read of PROJ.SIG_POP pops the oldest queued signature. -/
def execSigPop (req : Req) (head : Fin 4) (s : State) : Result := busRead s req (A.proj_SIG_POP head)

end Sys2Proof.Machine
end

