-- ==== Sys2Proof/Machine/Domains.lean ====
section
/-! DEFINITION. The meanings of the commands of: Power domains and SHELF (R504–R536). -/

namespace Sys2Proof.Machine

/-- DOZE_ENTRY (R508). A domain idle for 32 cycles of its slowest clock enters DOZE. -/
def execDozeEntry (domain : Fin 43) (s : State) : Result := onHub s fun h => dozeEntry h domain

/-- IDLE_TIMEOUT (R508). A domain idle for PWR_POLICY.IDLE µs starts entering its deepest permitted state. -/
def execIdleTimeout (domain : Fin 43) (s : State) : Result := onHub s fun h => idleTimeout h domain

/-- LOW_POWER_ENTRY_COMPLETE (R514). Entry to NAP or OFF completes, with pads held or floated. -/
def execLowPowerEntryComplete (domain : Fin 43) (s : State) : Result := onBoth s fun h m => entryComplete h m domain

/-- DOMAIN_READY (R513). A waking domain becomes ready, and its stalled accesses are performed. -/
def execDomainReady (domain : Fin 43) (s : State) : Result := onBoth s fun h m => domainReady h m domain

/-- WAKE_FAIL (R515). A domain not ready 1 ms after a wake cause is recorded, and WAKE_FAIL is raised. -/
def execWakeFail (domain : Fin 43) (s : State) : Result := onHub s fun h => wakeFail h domain

/-- PWR_POLICY_WRITE (R506). A write of PWR_POLICY or GROUP_POLICY by firmware changes the states a domain may enter.
`group` names a GROUP_POLICY; none: PWR_POLICY of the page. -/
def execPwrPolicyWrite (req : Req) (group : Option (Fin 8)) (page : Fin 216) (value : Word) (s : State) : Result :=
  match group with
    | some g => busWrite s req (A.pwr_GROUP_POLICY g) value.toNat
    | none => busWrite s req (4096 * page + 8) value.toNat

/-- DVFS_TARGET_WRITE (R518). A write of DVFS_TARGET starts a change of each island toward its target where R519 allows. -/
def execDvfsTargetWrite (req : Req) (targets : Word) (s : State) : Result :=
  busWrite s req A.pwr_DVFS_TARGET targets.toNat

/-- DVFS_DONE (R518). An island's DVFS change completes, DVFS_STATE updates and DVFS_DONE is raised. -/
def execDvfsDone (island : Fin 4) (s : State) : Result := onHub s fun h => islandDone h island

/-- SHELF_ENTER (R526). A write of 1 to PWR.SHELF.ENTER is checked and starts the entry to SHELF, or is refused. `sources`
are the wake sources that are asserted. -/
def execShelfEnter (req : Req) (sources : List WakeSource) (s : State) : Result :=
  busWrite { s with hub := { s.hub with power := { s.hub.power with sources := sources } } } req A.pwr_SHELF 1

/-- BMC_SHELF (R527). The BMC's key write opens the Weirs, resets the slices and enters SHELF without checks. -/
def execBmcShelf (req : Req) (key : BitVec 16) (s : State) : Result := busWrite s req A.pwr_BMC_SHELF key.toNat

/-- SHELF_ENTRY_COMPLETE (R528). Every domain but ALWAYS and VAULT is OFF, and the conversion stage is in pulse mode. -/
def execShelfEntryComplete (s : State) : Result := shelfEntered s

/-- SHELF_WAKE (R530). A wake source wakes the hub from SHELF and runs the boot sequence. -/
def execShelfWake (source : WakeSource) (s : State) : Result := shelfWoken s source

/-- MON_EXT (R535). A read of PWR.MON_EXT returns the lowest VIN and highest temperature and reloads them. -/
def execMonExt (req : Req) (s : State) : Result := busRead s req A.pwr_MON_EXT

end Sys2Proof.Machine
end

