-- ==== Sys2Proof/Machine/Gate.lean ====
section
/-! DEFINITION. The meanings of the commands of: Gates and Reel memory (R229–R269). -/

namespace Sys2Proof.Machine

/-- GATE_ENABLE (R245). A write of GATE.CTL.EN checks the takes and enables or disables the Gate. -/
def execGateEnable (req : Req) (gate : Fin 4) (ctl : Word) (s : State) : Result :=
  busWrite s req (A.gate_CTL gate) ctl.toNat

/-- EDID_VALID (R238). A change of EDID_CTL.VALID from 0 to 1 while HPD is high starts an HPD low pulse of 100 ms. -/
def execEdidValid (req : Req) (gate : Fin 4) (ctl : Word) (s : State) : Result :=
  busWrite s req (A.gate_EDID_CTL gate) ctl.toNat

/-- HPD_PULSE_END (R238). The 100 ms HPD low pulse ends, and HPD rises again. -/
def execHpdPulseEnd (gate : Fin 4) (s : State) : Result := onHub s fun h => hpdPulseEnd h gate

/-- AUX_REQUEST (R236). A Gate answers a DP AUX request from its DPCD or EDID. -/
def execAuxRequest (gate : Fin 4) (q : AuxReq) (s : State) : Result := onHub s fun h => auxRequest h gate q

/-- LINK_TRAINING (R235). The host trains the Gate's emulated DP link, which is accepted at the first attempt. -/
def execLinkTraining (gate : Fin 4) (rate : Nat) (lanes : Nat) (s : State) : Result :=
  onHub s fun h => linkTraining h gate rate lanes

/-- STREAM_UP (R239). The first valid MSA starts a stream, or refuses it, and requests bandwidth when BW_AUTO = 1. -/
def execStreamUp (gate : Fin 4) (msa : Msa) (s : State) : Result := onHub s fun h => streamUp h gate msa

/-- STREAM_DOWN (R239). The stream ends, its MSA changes or the link is lost, and any frame being written is abandoned. -/
def execStreamDown (gate : Fin 4) (why : StreamEnd) (s : State) : Result := onHub s fun h => streamDown h gate why

/-- FRAME_START (R246). At the start of a frame, the Gate chooses the take it will write. -/
def execFrameStart (gate : Fin 4) (su : Bool) (regions : List Region) (s : State) : Result :=
  onHub s fun h => frameStart h gate su regions

/-- CLAPPER (R247). A frame completes in its take; the take becomes newest, bands are marked dirty and the signature is
reported. -/
def execClapper (gate : Fin 4) (s : State) : Result := onHub s fun h => clapperSeen h gate

/-- PR_ENTER (R239). The host enters Panel Replay, and the Gate goes to STATIC and starts catch-up. -/
def execPrEnter (gate : Fin 4) (s : State) : Result := onHub s fun h => prEnter h gate

/-- PR_EXIT (R239). The host leaves Panel Replay, and the Gate returns to STREAMING. -/
def execPrExit (gate : Fin 4) (s : State) : Result := onHub s fun h => prExit h gate

/-- CATCH_UP_BAND (R250). The catch-up engine completes the copy of one dirty band from the newest take and marks it
clean. -/
def execCatchUpBand (gate : Fin 4) (s : State) : Result := onBoth s fun h m => catchUp h m gate

/-- BW_IDLE_DECREASE (R253). After BW.IDLE_MS in STATIC, the Gate requests a decrease to BW.FLOOR. -/
def execBwIdleDecrease (gate : Fin 4) (s : State) : Result := onHub s fun h => bwIdleDecrease h gate

/-- BW_GRANT (R254). The host grants bandwidth, and the hub sets the path's RESERVED_RATE. -/
def execBwGrant (gate : Fin 4) (mbps : Nat) (s : State) : Result := onHub s fun h => bwGrant h gate mbps

/-- REEL_PATROL (R268). The Reel patrol scrub reads and corrects a block of Reel memory. -/
def execReelPatrol (block : Nat) (s : State) : Result := onHub s fun h => reelPatrol h block

/-- REEL_INJECT_SINGLE (R268). REEL.INJECT.SINGLE arms a single-bit corruption of the next 64-byte block written. -/
def execReelInjectSingle (req : Req) (s : State) : Result := busWrite s req A.reel_INJECT 1

/-- REEL_INJECT_DOUBLE (R268). REEL.INJECT.DOUBLE arms a double-bit corruption of the next 64-byte block written. -/
def execReelInjectDouble (req : Req) (s : State) : Result := busWrite s req A.reel_INJECT 2

/-- UTIL_HWM (R268). A read of REEL.UTIL_HWM returns the mark and restarts it from the present UTIL. -/
def execUtilHwm (req : Req) (s : State) : Result := busRead s req A.reel_UTIL_HWM

end Sys2Proof.Machine
end

