-- ==== Sys2Proof/Machine/Interrupt.lean ====
section
/-! DEFINITION. The meanings of the commands of: Cue (R564–R587). -/

namespace Sys2Proof.Machine

/-- FILTER (R565). A source's filtered level takes a new value after FILTER_N stable SLOW cycles. -/
def execFilter (id : Fin 512) (s : State) : Result := onHub s fun h => filterSource h id

/-- ARBITRATE (R568). Every 4 REG cycles Cue selects BEST for each target and sets LINE. -/
def execArbitrate (s : State) : Result := onHub s arbitrate

/-- CLAIM (R570). A read of CLAIM returns BEST, pushes it on the stack and marks it active. -/
def execClaim (req : Req) (target : Fin 8) (s : State) : Result := busRead s req (A.cue0_CLAIM target)

/-- COMPLETE (R573). A write of COMPLETE pops a matching top entry, or freezes the target. -/
def execComplete (req : Req) (target : Fin 8) (id : Fin 512) (s : State) : Result :=
  busWrite s req (A.cue0_COMPLETE target) id

/-- STACK_RESET (R574). A write of 1 to TCTL.STACK_RESET empties the stack and clears FROZEN. -/
def execStackReset (req : Req) (target : Fin 8) (ctl : Word) (s : State) : Result :=
  busWrite s req (A.cue0_TCTL target) (ctl.toNat ||| 0x10000)

/-- DB_SET (R581). A write of 1 to DB_SET rings a software doorbell. -/
def execDbSet (req : Req) (w : Fin 7) (bells : Word) (s : State) : Result :=
  busWrite s req (A.cue3_DB_SET w) bells.toNat

/-- DB_CLR (R581). A write of 1 to DB_CLR clears a doorbell latch. -/
def execDbClr (req : Req) (w : Fin 7) (bells : Word) (s : State) : Result :=
  busWrite s req (A.cue3_DB_CLR w) bells.toNat

end Sys2Proof.Machine
end

