-- ==== Sys2Proof/Machine/Leat.lean ====
section
/-! DEFINITION. The meanings of the commands of: Leat links and the fabric (R610–R642). -/

namespace Sys2Proof.Machine

/-- SYNC_WORD (R621). A member receives a sync word, forwards it, compares time and configuration, and steps or
quarantines. -/
def execSyncWord (leat : Fin 2) (dt : Nat) (w : SyncWord) (s : State) : Result := onHub s fun h => syncWord h leat dt w

/-- ROUND_TRIP (R620). A Leat link measures its round trip and reports DELAY. -/
def execRoundTrip (leat : Fin 2) (sixteenths : Nat) (status : LeatStatus) (s : State) : Result :=
  onHub s fun h => roundTrip h leat sixteenths status

/-- LEAT_LINK_UP (R629). A Leat link trains and learns its peer. -/
def execLeatLinkUp (leat : Fin 2) (peer : LeatPeer) (status : LeatStatus) (s : State) : Result :=
  onHub s fun h => leatLinkUp h leat peer status

/-- LEAT_LINK_DOWN (R629). A Leat link is lost. -/
def execLeatLinkDown (leat : Fin 2) (s : State) : Result := onHub s fun h => leatLinkDown h leat

/-- CFG_HASH_WRITE (R623). A write of CFG_HASH_LO sets the hash compared with the head's. -/
def execCfgHashWrite (req : Req) (lo : Word) (s : State) : Result := busWrite s req A.fabric_CFG_HASH_LO lo.toNat

/-- HASH_GRACE_EXPIRY (R623). CFG_HASH has differed for HASH_GRACE.MS, and the member enters Quarantine with cause CONFIG. -/
def execHashGraceExpiry (s : State) : Result := onHub s graceExpiry

/-- KEY_SLOT_WRITE (R631). A write of SEC.KEY_SLOT loads the link key, or sets SEC_FAULT. -/
def execKeySlotWrite (req : Req) (leat : Fin 2) (slot : Fin 32) (next_ : Fin 32) (s : State) : Result :=
  busWrite s req (A.leat_SEC leat) (slot + 32 * next_)

/-- ROLL (R632). A write of 1 to SEC.ROLL arms NEXT_SLOT. -/
def execRoll (req : Req) (leat : Fin 2) (slot : Fin 32) (next_ : Fin 32) (s : State) : Result :=
  busWrite s req (A.leat_SEC leat) (slot + 32 * next_ + 1024)

/-- FRAME_COUNTER_LIMIT (R632). The frame counter reaches 2^40, and SECURE clears. -/
def execFrameCounterLimit (leat : Fin 2) (s : State) : Result := onHub s fun h => counterLimit h leat

/-- LEAT_FRAME_RECEIVE (R633). A Leat frame is received; a failed tag discards it, and 16 failures in a turn retrain the
link. `tagOk` is the tag that the frame carries, none in clear; `pieces` is its clear content. -/
def execLeatFrameReceive (leat : Fin 2) (tagOk : Option Bytes) (pieces : List LeatPiece) (s : State) : Result :=
  onHub s fun h => leatFrame h leat tagOk pieces

/-- TX_GO (R634). A write of 1 to MSG_CTL.TX_GO sends a message to the peer, waiting while its RX_FULL is 1. -/
def execTxGo (req : Req) (leat : Fin 2) (len : Nat) (s : State) : Result :=
  busWrite s req (A.leat_MSG_CTL leat) (len % 1024 + 1024)

/-- MSG_RX (R634). A message arrives in RX_MSG, and RX_FULL sets. -/
def execMsgRx (leat : Fin 2) (message : Bytes) (s : State) : Result := onHub s fun h => receiveMessage h leat message

end Sys2Proof.Machine
end

