-- ==== Sys2Proof/Machine/Net.lean ====
section
/-! DEFINITION. The meanings of the commands of: Ethernet, NICs and PCIe storage (R315–R344). -/

namespace Sys2Proof.Machine

/-- ETH_FRAME_RECEIVE (R315). A MAC receives a frame and discards it for length or FCS, or delivers it as a chain. -/
def execEthFrameReceive (mac : Fin 2) (frame : Bytes) (late : Bool) (s : State) : Result :=
  onHub s fun h => ethReceive h mac frame late

/-- ETH_LINK_UP (R342). A MAC link comes up. -/
def execEthLinkUp (mac : Fin 2) (speed : Nat) (s : State) : Result := onHub s fun h => ethUp h mac speed

/-- ETH_LINK_DOWN (R342). A MAC link goes down. -/
def execEthLinkDown (mac : Fin 2) (s : State) : Result := onHub s fun h => ethDown h mac

/-- SWITCH_FORWARD (R318). The Tailrace switch tags, filters, learns and forwards a frame to NICs and wire ports. -/
def execSwitchForward (s : State) : Result := onHub s fun h => settleXoffs (switchForward h)

/-- AGE_OUT (R319). A dynamic FDB entry unseen for AGE seconds is removed. -/
def execAgeOut (index : Fin 4096) (s : State) : Result := onHub s fun h => ageOut h index

/-- FDB_READ (R341). FDB_CMD.OP = 1 reads an FDB entry. -/
def execFdbRead (req : Req) (index : Fin 4096) (s : State) : Result :=
  busWrite s req A.tailrace_FDB_CMD (1 + 2 ^ 16 * index)

/-- FDB_WRITE (R338). FDB_CMD.OP = 2 writes an FDB entry, or is dropped when it names an absent port. -/
def execFdbWrite (req : Req) (index : Fin 4096) (fixed : Bool) (s : State) : Result :=
  busWrite s req A.tailrace_FDB_CMD (2 + (if fixed then 16 else 0) + 2 ^ 16 * index)

/-- FDB_DELETE (R341). FDB_CMD.OP = 3 deletes an FDB entry. -/
def execFdbDelete (req : Req) (index : Fin 4096) (s : State) : Result :=
  busWrite s req A.tailrace_FDB_CMD (3 + 2 ^ 16 * index)

/-- FDB_FLUSH_DYNAMIC (R341). FDB_CMD.OP = 4 removes every dynamic FDB entry. -/
def execFdbFlushDynamic (req : Req) (s : State) : Result := busWrite s req A.tailrace_FDB_CMD 4

/-- NIC_TRANSMIT (R323). A NIC handles a transmit descriptor, fetches the frame and sends it to the switch. -/
def execNicTransmit (slice : Fin 4) (ring : Fin 4) (addr : Nat) (len : Nat) (s : State) : Result :=
  onHub s fun h => nicTransmit h slice ring addr len

/-- NIC_RECEIVE (R325). A NIC writes a received frame to its ring buffers and writes back the descriptors, or drops it for
want of a buffer. -/
def execNicReceive (slice : Fin 4) (buffers : List Nat) (s : State) : Result :=
  onHub s fun h => nicReceive h slice buffers

/-- ITR_EXPIRY (R325). The ITR interval ends, and a ring's deferred interrupt bit is raised. -/
def execItrExpiry (slice : Fin 4) (ring : Fin 8) (s : State) : Result := onHub s fun h => itrExpiry h slice ring

/-- XOFF_REPEAT (R327). Half of the sent quanta elapses while the condition holds, and the MAC repeats the XOFF. -/
def execXoffRepeat (mac : Fin 2) (s : State) : Result := onHub s fun h => xoffRepeat h mac

/-- PCIE_TLP_RECEIVE (R332). A TLP from the endpoint enters ingress 16 + x with its hop number. -/
def execPcieTlpReceive (port : Fin 2) (kind : Fin 3) (tag : Nat) (packets : List Bytes) (credit : Option Nat) (s : State) : Result :=
  onHub s fun h => tlpReceive h port kind tag packets credit

/-- PCIE_PRESENCE_CHANGE (R331). PRSNT_N changes level, and surprise hot-plug is reported. -/
def execPciePresenceChange (port : Fin 2) (present : Bool) (s : State) : Result :=
  onHub s fun h => pciePresence h port present

/-- PCIE_LINK_UP (R331). A PCIe downstream link trains. -/
def execPcieLinkUp (port : Fin 2) (gen : Nat) (width : Nat) (ms : Nat) (s : State) : Result :=
  onHub s fun h => pcieTrained h port gen width ms

/-- PCIE_LINK_DOWN (R336). A PCIe downstream link is lost, and outstanding requests complete with UR. -/
def execPcieLinkDown (port : Fin 2) (s : State) : Result := onHub s fun h => pcieDown h port

/-- PERST_RELEASE (R335). PERST# is released once none of its causes holds, at least 100 µs after REFCLK is stable. -/
def execPerstRelease (port : Fin 2) (s : State) : Result := onHub s fun h => perstRelease h port

end Sys2Proof.Machine
end

