-- ==== Sys2Proof/Machine/Port.lean ====
section
/-! DEFINITION. The meanings of the commands of: Type-C ports and Power Delivery (R433–R471). -/

namespace Sys2Proof.Machine

/-- CC_ATTACH_SEEN (R438). A port sees Rp or Rd and enters an AttachWait state. -/
def execCcAttachSeen (port : Fin 12) (seen : CcSeen) (pin2 : Bool) (ra : Bool) (s : State) : Result :=
  onHub s fun h => ccSeen h port seen pin2 ra

/-- TERMINATION_LOST (R438). Rp or Rd is lost during AttachWait or BUDGET_WAIT, and the port returns to unattached. -/
def execTerminationLost (port : Fin 12) (s : State) : Result := onHub s fun h => termLost h port

/-- CC_DEBOUNCE (R438). The CC debounce completes, and the port attaches, tries source or enters BUDGET_WAIT. -/
def execCcDebounce (port : Fin 12) (vbus : Bool) (s : State) : Result := onHub s fun h => ccDebounce h port vbus

/-- DRP_TOGGLE (R448). A DRP port toggles to the other unattached role. -/
def execDrpToggle (port : Fin 12) (s : State) : Result := onHub s fun h => drpToggle h port

/-- TRY_DEBOUNCE (R448). Rd held for the Try debounce in TRY_SRC attaches the port as source. -/
def execTryDebounce (port : Fin 12) (s : State) : Result := onHub s fun h => tryDebounce h port

/-- TRY_PERIOD_END (R448). The Try period ends, moving to TRYWAIT_SNK or UNATTACHED_SNK. -/
def execTryPeriodEnd (port : Fin 12) (s : State) : Result := onHub s fun h => tryPeriodEnd h port

/-- CC_OPEN (R464). CC open for 1 ms on a source port enters DISCHARGE and takes the detach actions. -/
def execCcOpen (port : Fin 12) (s : State) : Result := onHub s fun h => ccOpen h port

/-- VBUS_DISCHARGED (R464). VBUS falls below 0.8 V, the port becomes unattached and its reservation is released. -/
def execVbusDischarged (port : Fin 12) (s : State) : Result := onHub s fun h => vbusDischarged h port

/-- DISCHARGE_SLOW (R464). VBUS is still at or above 0.8 V after 650 ms; DISCHARGE_SLOW is raised. -/
def execDischargeSlow (port : Fin 12) (s : State) : Result := onHub s fun h => dischargeSlow h port

/-- ERROR_RECOVERY_END (R438). After 25 ms in ERROR_RECOVERY the port enters its unattached state. -/
def execErrorRecoveryEnd (port : Fin 12) (s : State) : Result := onHub s fun h => recoveryEnd h port

/-- VBUS_LOST (R438). VBUS falls below vSinkDisconnect on a sink port, and the port becomes unattached. -/
def execVbusLost (port : Fin 12) (s : State) : Result := onHub s fun h => vbusLost h port

/-- SOURCE_CAPABILITIES (R447). As sink, the hub receives Source_Capabilities and requests a PDO. -/
def execSourceCapabilities (port : Fin 12) (pdos : List Word) (s : State) : Result :=
  onHub s fun h => sourceCaps h port (pdos.map (·.toNat))

/-- REQUEST (R443). As source, the hub answers a Request or EPR_Request in hardware with Accept or Reject. -/
def execRequest (port : Fin 12) (rdo : Word) (s : State) : Result := onHub s fun h => receiveMsg h port (.request rdo)

/-- AMS_ANSWER (R442). An Accept, Reject, Wait or PS_RDY from the partner completes the hub's own AMS. -/
def execAmsAnswer (port : Fin 12) (answer : AmsAnswer) (s : State) : Result := onHub s fun h => amsAnswer h port answer

/-- GET_SOURCE_CAP (R442). A received Get_Source_Cap is answered with the committed source set. -/
def execGetSourceCap (port : Fin 12) (s : State) : Result := onHub s fun h => receiveMsg h port .getSourceCap

/-- GET_SINK_CAP_MESSAGE (R442). A received Get_Sink_Cap is answered with Sink_Capabilities or Not_Supported. -/
def execGetSinkCapMessage (port : Fin 12) (s : State) : Result := onHub s fun h => receiveMsg h port .getSinkCap

/-- SINK_CAPABILITIES (R442). Received Sink_Capabilities are stored in PARTNER_PDO and set PARTNER_FRS. -/
def execSinkCapabilities (port : Fin 12) (pdos : List Word) (s : State) : Result :=
  onHub s fun h => sinkCapabilities h port (pdos.map (·.toNat))

/-- PR_SWAP (R458). A partner's PR_Swap is rejected. -/
def execPrSwap (port : Fin 12) (s : State) : Result := onHub s fun h => receiveMsg h port .prSwap

/-- DR_SWAP (R458). A partner's DR_Swap is rejected. -/
def execDrSwap (port : Fin 12) (s : State) : Result := onHub s fun h => receiveMsg h port .drSwap

/-- VCONN_SWAP_MESSAGE (R458). A partner's VCONN_Swap is accepted inside a VCONN window and rejected outside one. -/
def execVconnSwapMessage (port : Fin 12) (s : State) : Result := onHub s fun h => receiveMsg h port .vconnSwap

/-- FR_SWAP (R462). The partner's FR_Swap message is accepted, and the port becomes sink. -/
def execFrSwap (port : Fin 12) (s : State) : Result := onHub s fun h => frSwap h port

/-- SOFT_RESET_MESSAGE (R442). A received Soft_Reset is handled as PD prescribes and opens a VCONN window. -/
def execSoftResetMessage (port : Fin 12) (s : State) : Result := onHub s fun h => softResetReceived h port

/-- HARD_RESET_RECEIVED (R467). A received Hard Reset abandons any transition, sends CONV_SAFE and restores vSafe5V. -/
def execHardResetReceived (port : Fin 12) (s : State) : Result :=
  onHub s fun h => if attached h port then hardReset h port else h

/-- EPR_MODE (R444). An EPR_Mode Enter is accepted or answered Enter Failed. -/
def execEprMode (port : Fin 12) (enter : Bool) (s : State) : Result :=
  onHub s fun h => receiveMsg h port (if enter then .eprEnter else .eprExit)

/-- EPR_KEEPALIVE (R442). An EPR_KeepAlive is answered with EPR_KeepAlive_Ack. -/
def execEprKeepalive (port : Fin 12) (s : State) : Result := onHub s fun h => receiveMsg h port .eprKeepAlive

/-- ENTER_USB (R442). An Enter_USB on a host port is accepted or rejected by LINK_CTL.USB4_EN. -/
def execEnterUsb (port : Fin 12) (s : State) : Result := onHub s fun h => receiveMsg h port .enterUsb

/-- STRUCTURED_VDM (R456). A structured VDM received on a host port is answered as a UFP PDUSB Hub. -/
def execStructuredVdm (port : Fin 12) (v : Vdm) (s : State) : Result := onHub s fun h => receiveMsg h port (.vdm v)

/-- GET_REVISION (R442). A Get_Revision is answered with Revision 3.2. -/
def execGetRevision (port : Fin 12) (s : State) : Result := onHub s fun h => receiveMsg h port .getRevision

/-- NOT_SUPPORTED (R442). Any other PD message is answered with Not_Supported. -/
def execNotSupported (port : Fin 12) (s : State) : Result := onHub s fun h => receiveMsg h port .other

/-- SEND_SRC_CAP (R450). CMD.OP = 1 checks the set against the ledger and port limits, commits it and sends
Source_Capabilities. -/
def execSendSrcCap (req : Req) (port : Fin 12) (s : State) : Result := busWrite s req (A.typec_CMD port) 1

/-- PS_RDY (R443). CMD.OP = 2 sends PS_RDY when the Weir measures VBUS within ±5 %, else refuses it. -/
def execPsRdy (req : Req) (port : Fin 12) (s : State) : Result := busWrite s req (A.typec_CMD port) 2

/-- GET_SINK_CAP (R470). CMD.OP = 3 sends Get_Sink_Cap to the partner. -/
def execGetSinkCap (req : Req) (port : Fin 12) (s : State) : Result := busWrite s req (A.typec_CMD port) 3

/-- VCONN_SWAP (R458). CMD.OP = 4 starts a VCONN swap inside a window, else is refused. -/
def execVconnSwap (req : Req) (port : Fin 12) (s : State) : Result := busWrite s req (A.typec_CMD port) 4

/-- SOFT_RESET (R470). CMD.OP = 5 sends Soft_Reset. -/
def execSoftReset (req : Req) (port : Fin 12) (s : State) : Result := busWrite s req (A.typec_CMD port) 5

/-- HARD_RESET (R465). CMD.OP = 6 sends Hard Reset, with the CONV_SAFE write as source. -/
def execHardReset (req : Req) (port : Fin 12) (s : State) : Result := busWrite s req (A.typec_CMD port) 6

/-- DISCOVER (R455). CMD.OP = 7 repeats discovery and mode entry on a device port. -/
def execDiscover (req : Req) (port : Fin 12) (s : State) : Result := busWrite s req (A.typec_CMD port) 7

/-- EXIT_MODE (R470). CMD.OP = 8 exits the alternate mode. -/
def execExitMode (req : Req) (port : Fin 12) (s : State) : Result := busWrite s req (A.typec_CMD port) 8

/-- ERROR_RECOVERY (R470). CMD.OP = 9 enters ERROR_RECOVERY. -/
def execErrorRecovery (req : Req) (port : Fin 12) (s : State) : Result := busWrite s req (A.typec_CMD port) 9

/-- TRANSITION_TIMEOUT (R443). No PS_RDY 440 ms, or 820 ms in EPR, after an Accept; the hub sends Hard Reset. -/
def execTransitionTimeout (port : Fin 12) (s : State) : Result := onHub s fun h => transitionTimeout h port

/-- EPR_SINK_TIMEOUT (R444). No message from the sink for 900 ms in EPR mode; the hub sends Hard Reset. -/
def execEprSinkTimeout (port : Fin 12) (s : State) : Result := onHub s fun h => eprSinkTimeout h port

/-- SOURCE_CAPABILITIES_REPEAT (R448). Source_Capabilities without GoodCRC are repeated after about 150 ms. -/
def execSourceCapabilitiesRepeat (port : Fin 12) (s : State) : Result := onHub s fun h => capsRepeat h port

/-- RESPONSE_TIMEOUT (R448). The hub's wait for an answer to its own message expires. -/
def execResponseTimeout (port : Fin 12) (s : State) : Result := onHub s fun h => responseTimeout h port

/-- EARLY_WARNING (R496). A W12 early-warning condition drives PFW_N low, sends the FR_Swap signal and may open W12. -/
def execEarlyWarning (cause : EwCause) (s : State) : Result := onHub s fun h => earlyWarning h cause

/-- FRS_RETURN (R463). A port that became sink by Fast Role Swap sends PR_Swap to return to source, and retries. -/
def execFrsReturn (port : Fin 12) (s : State) : Result := onHub s fun h => frsReturn h port

/-- ATTENTION (R75). A DP Alt Mode partner on a device port sends an Attention or DP Status that reports a change of its
HPD state, and the port's DP lanes start or stop. -/
def execAttention (port : Fin 12) (hpd : Bool) (s : State) : Result := onHub s fun h => attention h port hpd

/-- DISCOVERY_RESPONSE (R455). A device-port partner or cable answers the hub's Discover Identity, SVIDs, Modes or Enter
Mode, and the hub records it and proceeds to the next stage of mode entry. -/
def execDiscoveryResponse (port : Fin 12) (answer : DiscAnswer) (s : State) : Result :=
  onHub s fun h => discAnswer h port answer

/-- SINK_TX_OK (R461). As sink, the hub sees the source change Rp to SinkTxOK, and a command waiting for it starts its own
AMS. -/
def execSinkTxOk (port : Fin 12) (s : State) : Result := onHub s fun h => sinkTxOk h port

end Sys2Proof.Machine
end

