-- ==== Sys2Proof/Machine/Reset.lean ====
section
/-! DEFINITION. The meanings of the commands of: Resets, boot and BIST (R643–R681). -/

namespace Sys2Proof.Machine

/-- POR (R643). VIN rises through 4.4 V; the whole die except VAULT resets and boots. -/
def execPor (vkeepLost : Bool) (s : State) : Result := powerResets s 0 vkeepLost

/-- BOR (R643). VIN below 4.2 V for 2 µs resets the die as POR does. -/
def execBor (vkeepLost : Bool) (s : State) : Result := powerResets s 1 vkeepLost

/-- RESET_N (R644). RESET_N held low for at least 1 µs performs a chip reset. -/
def execResetN (s : State) : Result := onHub s fun h => chipReset h 2

/-- WDT_WARN (R648). The first watchdog expiry reloads it, sets WARNED and raises WDT_WARN. -/
def execWdtWarn (s : State) : Result := onHub s wdtWarn

/-- WDT (R648). A second watchdog expiry before a kick performs a WDT chip reset. -/
def execWdt (s : State) : Result := onHub s wdtExpired

/-- WDT_KICK (R648). A key write to WDT_KICK reloads the watchdog and clears WARNED. -/
def execWdtKick (req : Req) (key : BitVec 16) (s : State) : Result := busWrite s req A.chip_WDT_KICK key.toNat

/-- WDT_CTL_WRITE (R648). A write of WDT_CTL stops or restarts the count, or sets the next timeout. -/
def execWdtCtlWrite (req : Req) (en : Bool) (ms : BitVec 16) (s : State) : Result :=
  busWrite s req A.chip_WDT_CTL ((if en then 1 else 0) + 2 ^ 16 * ms.toNat)

/-- SOFT (R649). A key write of 0x50F7 to CHIP.SOFT_RESET performs a SOFT chip reset. -/
def execSoft (req : Req) (key : BitVec 16) (s : State) : Result := busWrite s req A.chip_SOFT_RESET key.toNat

/-- CORE_RESET (R647). A write of 1 to MILLER.CTL.CORE_RESET restarts one core and discards its pending accesses. -/
def execCoreReset (req : Req) (core : Fin 4) (run : Bool) (s : State) : Result :=
  busWrite s req (A.miller_CTL core) (2 + (if run then 1 else 0))

/-- RUN (R653). A write of MILLER.CTL.RUN releases a core from reset. -/
def execRun (req : Req) (core : Fin 4) (run : Bool) (s : State) : Result :=
  busWrite s req (A.miller_CTL core) (if run then 1 else 0)

/-- BOOT (R653). The boot sequence measures and checks an image and starts the loader. -/
def execBoot (imageA : Bytes) (imageB : Bytes) (readA : Bool) (readB : Bool) (s : State) : Result :=
  onHub s fun h => boot h imageA imageB readA readB

/-- LOAD_START (R665). A write of 1 to LOAD_CTL.START empties the load buffer. -/
def execLoadStart (req : Req) (s : State) : Result := busWrite s req A.miller_LOAD_CTL 1

/-- LOAD_DATA (R665). A write to LOAD_DATA appends four bytes to the streamed image. -/
def execLoadData (req : Req) (value : Word) (s : State) : Result := busWrite s req A.miller_LOAD_DATA value.toNat

/-- LOAD_DONE (R657). A write of 1 to LOAD_CTL.DONE checks the streamed image under R655. -/
def execLoadDone (req : Req) (s : State) : Result := busWrite s req A.miller_LOAD_CTL 2

/-- RECOVERY_IMAGE (R657). The ROM receives an image over the H0 USB 2.0 bulk endpoint in recovery mode. -/
def execRecoveryImage (image : Bytes) (s : State) : Result := onHub s fun h => recoveryImage h image

/-- BIST_GO (R660). A write of 1 to BIST.CMD.GO runs the selected tests, or refuses the whole command. -/
def execBistGo (req : Req) (kind : Fin 4) (s : State) : Result := busWrite s req A.bist_CMD (kind + 4)

/-- ABORT (R662). A write of 1 to BIST.CMD.ABORT ends the run and releases the domains. -/
def execAbort (req : Req) (kind : Fin 4) (s : State) : Result := busWrite s req A.bist_CMD (kind + 16)

/-- BIST_DONE (R662). A BIST run completes; results are recorded and DONE or FAIL are raised. -/
def execBistDone (ms : Nat) (signatures : List (Nat × Nat)) (s : State) : Result := bistEnds s ms signatures

end Sys2Proof.Machine
end

