-- ==== Sys2Proof/Machine/Secure.lean ====
section
/-! DEFINITION. The meanings of the commands of: The Vault (R588–R609). -/

namespace Sys2Proof.Machine

/-- EXTEND (R592). Vault command EXTEND hashes a digest into a measurement register. -/
def execExtend (req : Req) (m : Fin 4) (s : State) : Result := busWrite s req A.vault_CMD (1 + 16 * m)

/-- DERIVE (R595). Vault command DERIVE derives a key into a slot from the root and measurements. -/
def execDerive (req : Req) (slot : Fin 32) (msel : Fin 16) (ecdsa : Bool) (s : State) : Result :=
  busWrite s req A.vault_CMD (vaultWord 2 slot 0 msel ecdsa)

/-- GENERATE (R598). Vault command GENERATE creates a key in a slot from the DRBG. -/
def execGenerate (req : Req) (slot : Fin 32) (ecdsa : Bool) (s : State) : Result :=
  busWrite s req A.vault_CMD (vaultWord 3 slot 0 0 ecdsa)

/-- GCM_ENC (R598). Vault command GCM_ENC encrypts IN with a slot's AES key. -/
def execGcmEnc (req : Req) (slot : Fin 32) (s : State) : Result :=
  busWrite s req A.vault_CMD (vaultWord 4 slot 0 0 false)

/-- GCM_DEC (R598). Vault command GCM_DEC decrypts and authenticates IN. -/
def execGcmDec (req : Req) (slot : Fin 32) (s : State) : Result :=
  busWrite s req A.vault_CMD (vaultWord 5 slot 0 0 false)

/-- SIGN (R598). Vault command SIGN signs a digest with an ECDSA slot other than slot 0. -/
def execSign (req : Req) (slot : Fin 32) (s : State) : Result :=
  busWrite s req A.vault_CMD (vaultWord 6 slot 0 0 false)

/-- QUOTE (R600). Vault command QUOTE builds and signs a quote with slot 1. -/
def execQuote (req : Req) (slot : Fin 32) (s : State) : Result :=
  busWrite s req A.vault_CMD (vaultWord 7 slot 0 0 false)

/-- PUBKEY (R598). Vault command PUBKEY returns a slot's public key. -/
def execPubkey (req : Req) (slot : Fin 32) (s : State) : Result :=
  busWrite s req A.vault_CMD (vaultWord 8 slot 0 0 false)

/-- ECDH (R598). Vault command ECDH derives an AES key into TSLOT from a peer point. -/
def execEcdh (req : Req) (slot : Fin 32) (tslot : Fin 32) (s : State) : Result :=
  busWrite s req A.vault_CMD (vaultWord 9 slot tslot 0 false)

/-- RANDOM (R598). Vault command RANDOM returns bytes from the DRBG. -/
def execRandom (req : Req) (s : State) : Result := busWrite s req A.vault_CMD (10)

/-- CLEAR (R598). Vault command CLEAR empties a slot. -/
def execClear (req : Req) (slot : Fin 32) (s : State) : Result :=
  busWrite s req A.vault_CMD (vaultWord 11 slot 0 0 false)

/-- PROVISION (R591). Vault command PROVISION creates the root, derives slot 0, signs the identity key and burns the
enrolment key. -/
def execProvision (req : Req) (s : State) : Result := busWrite s req A.vault_CMD (12)

/-- ENDORSE (R598). Vault command ENDORSE signs the alias key and measurements with slot 0. -/
def execEndorse (req : Req) (s : State) : Result := busWrite s req A.vault_CMD (13)

/-- CMD_DONE (R597). A Vault command ends, setting RESULT and OUT_LEN, clearing BUSY and raising CMD_DONE. -/
def execCmdDone (s : State) : Result := onHub s fun h => keysGone (vaultDone h (hubNumber h))

/-- MEAS_LOCK (R593). A write setting a MEAS_LOCK bit locks a measurement; lock bit 2 derives the alias key. -/
def execMeasLock (req : Req) (bits : Fin 16) (s : State) : Result := busWrite s req A.vault_MEAS_LOCK bits

/-- MASK_REWRITE (R589). Every 1 ms the Vault rewrites the masked root with a new mask. -/
def execMaskRewrite (s : State) : Result := onHub s maskRewrite

/-- TAMPER (R603). A tamper sensor trips; the Vault zeroises, ends any command and writes a record. -/
def execTamper (sources : BitVec 6) (s : State) : Result := onHub s fun h => keysGone (tamper h sources.toNat)

/-- ENTROPY_FAIL (R601). A health test fails; ENTROPY_OK clears and HEALTH_FAILS increments. -/
def execEntropyFail (s : State) : Result := onHub s entropyFail

/-- RESEED (R601). The DRBG reseeds after 65,536 requests, or after one second. -/
def execReseed (s : State) : Result := onHub s reseed

/-- TAMPER_LOCK (R605). A write of 1 to TAMPER_CTL.LOCK freezes the tamper modes. -/
def execTamperLock (req : Req) (modes : Fin 16) (s : State) : Result := busWrite s req A.vault_TAMPER_CTL (modes + 16)

/-- TLOG_CLEAR (R604). A write of 1 to TLOG_CTL.CLEAR empties the tamper records. -/
def execTlogClear (req : Req) (s : State) : Result := busWrite s req A.vault_TLOG_CTL 0x100

/-- ENTROPY_RECOVERY (R601). The entropy source passes its health tests again, and ENTROPY_OK sets. -/
def execEntropyRecovery (s : State) : Result := onHub s entropyBack

end Sys2Proof.Machine
end

