-- ==== Sys2Proof/Machine/Slice.lean ====
section
/-! DEFINITION. The meanings of the commands of: Host slices, links and handovers (R69–R110). -/

namespace Sys2Proof.Machine

/-- PATH_SET_VALID (R79). A connection manager sets a path valid at an adapter, and the hub stages a path table entry with
the defaults. -/
def execPathSetValid (q : PathReq) (s : State) : Result := onHub s fun h => pathSetValid h q

/-- WEIGHT_CHANGE (R80). A connection manager changes a path's USB4 Weight, and the hub rewrites WEIGHT for the next
refill point. -/
def execWeightChange (slice : Fin 4) (ingress : Nat) (hop : Nat) (weight : Nat) (s : State) : Result :=
  onHub s fun h => weightChange h slice ingress hop weight

/-- ASYMMETRIC_TRANSITION_REQUEST (R77). A connection manager's request for an asymmetric link is accepted or refused
under LINK_CTL. -/
def execAsymmetricTransitionRequest (n : Fin 12) (tx3 : Bool) (s : State) : Result :=
  onHub s fun h => asymmetric h n tx3

/-- RETRAIN (R78). A write of 1 to LINK_CTL.RETRAIN starts a training of a Type-C link at once, and traffic on the link
stops. `by_` is none where the link itself starts the training. -/
def execRetrain (by_ : Option Req) (n : Fin 12) (ctl : Word) (s : State) : Result :=
  match by_ with
    | some req => busWrite s req (A.link_LINK_CTL n) (ctl.toNat ||| 0x80)
    | none => onHub s fun h => linkRetrain h n

/-- LINK_UP (R109). A Type-C link completes training, and its MODE and CAP are updated for the Sluice. `mode` is what the
link reports: the mode it has trained in, or what else its logic tells the hub (log 100). -/
def execLinkUp (n : Fin 12) (mode : LinkReport) (ms : Nat) (s : State) : Result :=
  onHub s fun h => linkReport h n mode ms

/-- LINK_DOWN (R97). A Type-C link is lost; a lost host link resets its slice. -/
def execLinkDown (n : Fin 12) (s : State) : Result := onHub s fun h => linkLost h n

/-- RELEASE (R88). A write of 1 to SLICE.RELEASE signals an unplug of the unit to its slice and starts its disconnect
hold. -/
def execRelease (req : Req) (slice : Fin 4) (units : BitVec 16) (s : State) : Result :=
  busWrite s req (A.slice_RELEASE slice) units.toNat

/-- RELEASE_DONE (R89). Once the unit's paths are discarded and their VALID cleared, RELEASED is set and RELEASE_DONE is
raised. -/
def execReleaseDone (slice : Fin 4) (u : Fin 16) (s : State) : Result := onHub s fun h => releaseDone h slice u

/-- ATTACH (R91). A write of 1 to SLICE.ATTACH starts the attach of a unit to the new owner once PENDING has cleared. -/
def execAttach (req : Req) (slice : Fin 4) (units : BitVec 16) (s : State) : Result :=
  busWrite s req (A.slice_ATTACH slice) units.toNat

/-- DISC_HOLD_END (R93). The disconnect hold of a released unit expires, and a pending attach starts training the unit's
link. -/
def execDiscHoldEnd (u : Fin 16) (s : State) : Result := onHub s fun h => holdEnd h u

/-- ATTACH_TIMEOUT (R95). A link that does not train within its limit ends the attach, and the unit is reported as not
connected. -/
def execAttachTimeout (u : Fin 16) (s : State) : Result := onHub s fun h => attachTimeout h u

/-- DP_OUT_BIND (R690). A write of a DP OUT adapter binding is evaluated under R86 and R690 and may present or withdraw a
sink. -/
def execDpOutBind (req : Req) (slice : Fin 4) (value : Word) (s : State) : Result :=
  busWrite s req (A.slice_DP_OUT_BIND slice) value.toNat

/-- DP_IN_SRC (R87). A write of a DP IN adapter source selects a Projector stream, or sets FAULT. -/
def execDpInSrc (req : Req) (slice : Fin 4) (value : Word) (s : State) : Result :=
  busWrite s req (A.slice_DP_IN_SRC slice) value.toNat

/-- ROUTER_RESET (R97). A connection manager's router reset request resets its slice. -/
def execRouterReset (slice : Fin 4) (s : State) : Result := onHub s fun h => sliceReset h slice 2

/-- SLICE_RESET (R98). A write of 1 to SLICE_CTL.SLICE_RESET resets the slice with the effects of R98. -/
def execSliceReset (req : Req) (slice : Fin 4) (s : State) : Result := busWrite s req (A.slice_SLICE_CTL slice) 1

/-- SLICE_RESET_COMPLETE (R691). A slice reset completes, and stalled accesses to the slice's pages are performed. -/
def execSliceResetComplete (slice : Fin 4) (s : State) : Result := onBoth s fun h m => sliceResetEnds h m slice

/-- PROFILE_REENTRY (R103). Within 1 ms of the end of the sink contract, the hub re-enters the profile and retrains links
above its limits. -/
def execProfileReentry (s : State) : Result := onBoth s fun h m => goOn (profileReentry h) m

/-- PATH_SET_INVALID (R81). A connection manager clears a path's Valid bit at an adapter of its slice, and the hub removes
the entry and decreases PATH_QUOTA.USED. -/
def execPathSetInvalid (slice : Fin 4) (ingress : Nat) (hop : Nat) (s : State) : Result :=
  onHub s fun h => pathSetInvalid h slice ingress hop

/-- ENUMERATED (R105). A host's connection manager completes its enumeration of the slice's router, STATUS.ROUTER moves
from 2 to 3 and ENUMERATED is raised. -/
def execEnumerated (slice : Fin 4) (s : State) : Result := onHub s fun h => enumerated h slice

end Sys2Proof.Machine
end

