-- ==== Sys2Proof/Machine/Switch.lean ====
section
/-! DEFINITION. The meanings of the commands of: Millrace, queue service and turns (R111–R228). -/

namespace Sys2Proof.Machine

/-- CHAIN_ARRIVAL (R116). A chain arrives at a Forebay and is accepted if there is room; a LOSSY chain without room is
discarded. -/
def execChainArrival (ingress : Fin 24) (hop : Nat) (packets : List Bytes) (closed : Bool) (bad : Bool) (colour : Nat) (credit : Option Nat) (s : State) : Result :=
  onBoth s fun h m =>
    let h := chainArrives h m ingress hop packets closed bad colour credit
    if ingress.val = 22 then goOn h m else (h, m)

/-- ADMIT (R118). The chain at a Forebay head is looked up, policed, judged by WRED and either stored and enqueued or
discarded. -/
def execAdmit (ingress : Fin 24) (s : State) : Result := onHub s fun h => settleXoffs (admitFrom h ingress)

/-- CREDIT_GRANT (R131). The hub grants a credit on a CREDITED path by reserving one free cell, within the path's window. -/
def execCreditGrant (path : Fin 1024) (s : State) : Result := onHub s fun h => grantCredit h path

/-- OUTLET_SELECT (R196). An outlet that can start a packet or chain selects the next flow by strict priority and WFQ and
reads its cell. -/
def execOutletSelect (outlet : Fin 24) (s : State) : Result := onHub s fun h => settleXoffs (selects h outlet)

/-- DEPARTURE (R555). The unit side reads a copy from the TX half of its crossing, and the copy counts as departed. -/
def execDeparture (outlet : Fin 24) (tag : Option Nat) (data : GateData) (s : State) : Result :=
  onBoth s fun h m => departs h m outlet tag data

/-- CUT_THROUGH_TIMEOUT (R140). An ETH egress that has waited 2 µs for the next cell ends the frame with its FCS inverted. -/
def execCutThroughTimeout (outlet : Fin 24) (s : State) : Result := onHub s fun h => settleXoffs (cutTimeout h outlet)

/-- PATROL_SCRUB (R148). The patrol scrub reads a Hopper row and writes it back when it corrected a bit. -/
def execPatrolScrub (cell : Nat) (row : Nat) (s : State) : Result := onHub s fun h => patrolScrub h cell row

/-- AUDIT_GO (R151). A write of 1 to AUDIT.GO starts an audit of the Hopper cells. -/
def execAuditGo (req : Req) (auto : Bool) (s : State) : Result := busWrite s req A.hopper_AUDIT (if auto then 3 else 1)

/-- AUDIT_DONE (R151). An audit returns unreachable cells to FREE, counts them and raises AUDIT_DONE. -/
def execAuditDone (s : State) : Result := onHub s auditDone

/-- INJECT_SINGLE (R152). HOPPER.INJECT.SINGLE arms a single-bit corruption of the next cell written. -/
def execInjectSingle (req : Req) (s : State) : Result := busWrite s req A.hopper_INJECT 1

/-- INJECT_DOUBLE (R152). HOPPER.INJECT.DOUBLE arms a double-bit corruption of the next cell written. -/
def execInjectDouble (req : Req) (s : State) : Result := busWrite s req A.hopper_INJECT 2

/-- INJECT_LINK (R152). HOPPER.INJECT.LINK arms a corruption of the next cell's link word. -/
def execInjectLink (req : Req) (s : State) : Result := busWrite s req A.hopper_INJECT 4

/-- PATH_ENTRY_WRITE (R124). A write to a path table entry lands in its staged copy; a write to CTL sets PENDING. -/
def execPathEntryWrite (req : Req) (path : Fin 1024) (word : Fin 16) (long : Bool) (value : BitVec 64) (s : State) : Result :=
  tableWrite s req (Page.path + 64 * path + 4 * word) long value

/-- MCAST_WRITE (R142). A write to an MCAST entry is staged; a write to BITMAP sets PENDING. -/
def execMcastWrite (req : Req) (group : Fin 256) (word : Fin 4) (long : Bool) (value : BitVec 64) (s : State) : Result :=
  tableWrite s req (Page.mcast + 16 * group + 4 * word) long value

/-- PROFILE_WRITE (R228). A write to a policer or WRED profile is staged; a write to CTL sets PENDING. -/
def execProfileWrite (req : Req) (addr : Word) (long : Bool) (value : BitVec 64) (s : State) : Result :=
  tableWrite s req addr.toNat long value

/-- COUNTER_WRITE (R154). A write to a PATH_STATS or profile counter sets the live counter at once. -/
def execCounterWrite (req : Req) (addr : Word) (long : Bool) (value : BitVec 64) (s : State) : Result :=
  tableWrite s req addr.toNat long value

/-- GROUPS_ACTIVE_WRITE (R132). A write of HOPPER.GROUPS.ACTIVE changes the groups in which cells are allocated, and
CAPACITY. -/
def execGroupsActiveWrite (req : Req) (groups : Byte) (s : State) : Result :=
  busWrite s req A.hopper_GROUPS groups.toNat

/-- FOREBAY_HWM (R155). A read of MILL.FOREBAY_HWM returns the mark and restarts it from the present occupancy. -/
def execForebayHwm (req : Req) (s : State) : Result := busRead s req A.mill_FOREBAY_HWM

/-- FREE_LWM (R157). A read of HOPPER.FREE_LWM returns the low-water mark and reloads the current FREE. -/
def execFreeLwm (req : Req) (s : State) : Result := busRead s req A.hopper_FREE_LWM

/-- TURN_BOUNDARY (R161). At a turn boundary of fabric time, demand is frozen, the turn number advances and the
computation starts. -/
def execTurnBoundary (s : State) : Result := onBoth s turnBoundary

/-- ALLOTMENT_COMPUTED (R180). The computation of the next rates completes, and DEMAND and PATH_NEXT become visible. -/
def execAllotmentComputed (ns : Nat) (s : State) : Result := onHub s fun h => allotmentComputed h ns

/-- REFILL_POINT (R162). At the refill point the shapers take the new rates, ALLOT updates, and staged entries and shadows
apply. -/
def execRefillPoint (s : State) : Result := onHub s fun h => settleXoffs (settleBound (refillPoint h))

/-- TURN_PHASE_WRITE (R694). A write of TURN_PHASE on a head or standalone hub moves the turn boundaries from the next
tick. -/
def execTurnPhaseWrite (req : Req) (ticks : Word) (s : State) : Result :=
  busWrite s req A.sluice_TURN_PHASE ticks.toNat

/-- COMPUTE_MAX (R189). A read of SLUICE.COMPUTE_MAX returns the longest computation and restarts the mark. -/
def execComputeMax (req : Req) (s : State) : Result := busRead s req A.sluice_COMPUTE_MAX

/-- TOKEN_EARNED (R204). A shaper's accumulator reaches 2,048,000 and converts it into one token, capped under R206. -/
def execTokenEarned (shaper : Shaper) (s : State) : Result :=
  match shaper with
    | .flow p o => onHub s fun h => flowToken h p o
    | .cls o c => onHub s fun h => classToken h o c

/-- DEPTH_HWM (R225). A read of SLUICE_OUT.DEPTH_HWM returns the mark and restarts it from the present depth. -/
def execDepthHwm (req : Req) (outlet : Fin 24) (s : State) : Result := busRead s req (A.sluiceOut_DEPTH_HWM outlet)

/-- PAUSE_RECEIVED (R328). A received PFC or 802.3x pause frame pauses classes at the MAC's outlet. -/
def execPauseReceived (mac : Fin 2) (pfc : Bool) (xoff : Byte) (xon : Byte) (s : State) : Result :=
  onHub s fun h => pauseReceived h mac pfc xoff.toNat xon.toNat

/-- PAUSE_EXPIRY (R328). The pause time of a paused class ends, and the class is eligible again. -/
def execPauseExpiry (mac : Fin 2) (prio : Option (Fin 8)) (s : State) : Result :=
  onHub s fun h => pauseExpiry h mac (prio.map (·.val))

end Sys2Proof.Machine
end

