-- ==== Sys2Proof/Machine/UsbDock.lean ====
section
/-! DEFINITION. The meanings of the commands of: USB hubs, dock function and audio (R397–R432). -/

namespace Sys2Proof.Machine

/-- CONNECT (R404). Setting DOCKFN.CTL.CONNECT connects the dock function on port 8. -/
def execConnect (req : Req) (slice : Fin 4) (ctl : Word) (s : State) : Result :=
  busWrite s req (A.dockfn_CTL slice) (ctl.toNat ||| 1)

/-- DISCONNECT (R405). Clearing CONNECT disconnects the dock function within 1 ms. -/
def execDisconnect (req : Req) (slice : Fin 4) (ctl : Word) (s : State) : Result :=
  busWrite s req (A.dockfn_CTL slice) (ctl.toNat &&& 0xFFFFFFFE)

/-- STANDARD_REQUEST (R407). The hub answers a standard USB request to the dock function itself. -/
def execStandardRequest (slice : Fin 4) (q : StdReq) (s : State) : Result := onHub s fun h => standardRequest h slice q

/-- GET_INFO (R407). Vendor request GET_INFO returns variant, slice, hub number and firmware version. -/
def execGetInfo (slice : Fin 4) (len : Nat) (s : State) : Result := onHub s fun h => getInfo h slice len

/-- REG_READ (R408). Vendor request REG_READ performs a 4-byte register read through Penstock. -/
def execRegRead (slice : Fin 4) (offset : BitVec 25) (len : Nat) (s : State) : Result :=
  onBoth s fun h m => dockRead h m slice offset.toNat len

/-- REG_WRITE (R409). Vendor request REG_WRITE performs a 4-byte register write when its status stage completes. -/
def execRegWrite (slice : Fin 4) (offset : BitVec 25) (len : Nat) (value : Word) (complete : Bool) (s : State) : Result :=
  onBoth s fun h m => dockWrite h m slice offset.toNat len value.toNat complete

/-- MAILBOX_OUT (R409). Vendor request MAILBOX_OUT delivers data to MBOX_OUT and sets OUT_FULL at its status stage. -/
def execMailboxOut (slice : Fin 4) (data : Bytes) (complete : Bool) (s : State) : Result :=
  onHub s fun h => mailboxOut h slice data complete

/-- MAILBOX_IN (R411). Vendor request MAILBOX_IN returns MBOX_IN data and clears IN_READY at its status stage. -/
def execMailboxIn (slice : Fin 4) (len : Nat) (complete : Bool) (s : State) : Result :=
  onHub s fun h => mailboxIn h slice len complete

/-- VREQ_TIMEOUT (R410). A mailbox request without progress for VREQ_TIMEOUT.MS is STALLed and counted. -/
def execVreqTimeout (slice : Fin 4) (s : State) : Result := onHub s fun h => vreqTimeout h slice

/-- SUSPEND (R413). A hub or dock function whose upstream has been idle for 3 ms enters suspend. -/
def execSuspend (slice : Fin 4) (unit : UsbUnit) (s : State) : Result := onHub s fun h => usbSuspend h slice unit

/-- REMOTE_WAKE (R414). A write of 1 to DOCKFN.WAKE.REQ, or a pending HID report, signals resume upstream. -/
def execRemoteWake (req : Req) (slice : Fin 4) (s : State) : Result := busWrite s req (A.dockfn_WAKE slice) 1

/-- RESUME_K_END (R414). The hub's resume K ends after 10 ms. -/
def execResumeKEnd (slice : Fin 4) (s : State) : Result := onHub s fun h => resumeKEnd h slice

/-- HOST_RESUME (R415). The host begins resume signalling; the hub stops its own K, and the wake is absorbed. -/
def execHostResume (slice : Fin 4) (unit : UsbUnit) (s : State) : Result := onHub s fun h => hostResume h slice unit

/-- BUS_RESET (R416). A USB bus reset or hot or warm reset returns the dock function's USB state to defaults. -/
def execBusReset (slice : Fin 4) (s : State) : Result := onBoth s fun h m => goOn (busReset h slice) m

/-- HID_SEND (R429). A write of 1 to DOCKFN.HID.SEND offers the report to the host. `by_` is none where the host polls
EP4. -/
def execHidSend (by_ : Option Req) (slice : Fin 4) (report : BitVec 16) (s : State) : Result :=
  match by_ with
    | some req => busWrite s req (A.dockfn_HID slice) (report.toNat + 2 ^ 16)
    | none => onHub s fun h => hidSend h slice true

/-- NOTIFY (R429). A write to DOCKFN.NOTIFY queues a notification for EP1, or is counted as lost. `by_` is none where the
host polls EP1. -/
def execNotify (by_ : Option Req) (slice : Fin 4) (value : Word) (s : State) : Result :=
  match by_ with
    | some req => busWrite s req (A.dockfn_NOTIFY slice) value.toNat
    | none => onHub s fun h => notifyPoll h slice

/-- FEEDBACK (R420). The feedback endpoint sends the measured samples per microframe; `clocks` is the measurement. -/
def execFeedback (slice : Fin 4) (clocks : Word) (s : State) : Result := onHub s fun h => feedback h slice clocks.toNat

/-- AUDIO_BLOCK (R423). The AUD port takes its next block, or sends zeros when the mixer is late. -/
def execAudioBlock (delivered : Nat) (input : List (List Nat)) (s : State) : Result :=
  onHub s fun h => audioBlock h delivered input

/-- AUD_LOCK (R424). In slave mode, after 10 ms within 500 ppm, the AUD port reports LOCK. -/
def execAudLock (s : State) : Result := onHub s fun h => settleUsb (settleAud h true)

/-- CONNECT_CHANGE (R399). A USB 2.0 device connects to or disconnects from a device port's D+/D- pair, and the owning
slice's USB 2.0 hub port reports the change. -/
def execConnectChange (port : Fin 8) (speed : Nat) (s : State) : Result := onHub s fun h => connectChange h port speed

/-- CLASS_REQUEST (R398). A host sends a USB hub class request to a slice's hub, or a UAC 2.0 class request to the dock
function's clock source, and the hub answers it. -/
def execClassRequest (slice : Fin 4) (q : ClassReq) (s : State) : Result := onHub s fun h => classRequest h slice q

/-- ISOCHRONOUS_PACKET (R423). An isochronous audio packet arrives from the host on EP2 OUT, or is due on EP3 IN, and its
samples pass to or from the Foley mixer buffers. -/
def execIsochronousPacket (slice : Fin 4) (p : IsoPacket) (s : State) : Result :=
  match p with
    | .play frames => onHub s fun h => isoOut h slice frames
    | .capture n => onHub s fun h => isoIn h slice n

/-- AUD_LOCK_LOSS (R424). In slave mode the measured rate of the board's BCLK or frame clock leaves the 500 ppm window or
stops, LOCK clears and the port sends zeros. -/
def execAudLockLoss (s : State) : Result := onHub s fun h => settleUsb (settleAud h false)

end Sys2Proof.Machine
end

