-- ==== Sys2Proof/Machine/Weir.lean ====
section
/-! DEFINITION. The meanings of the commands of: Power path (R472–R503). -/

namespace Sys2Proof.Machine

/-- SAMPLE (R476). A Weir SAR frame delivers V and I samples, updating measurements, energy and the breaker timers. -/
def execSample (frame : SarFrame) (s : State) : Result := onHub s fun h => sample h frame

/-- FAST_TRIP (R483). The analog comparator sees current above FAST_MA and trips the channel. -/
def execFastTrip (ch : Fin 14) (s : State) : Result := onHub s fun h => fastTrip h ch

/-- FORCE_TRIP (R485). A write of 1 to CTL.FORCE_TRIP trips the channel with cause FORCED. -/
def execForceTrip (req : Req) (ch : Fin 14) (ctl : Word) (s : State) : Result :=
  busWrite s req (A.weir_CTL ch) (ctl.toNat ||| 8)

/-- CH_EN (R487). A write of CH_EN permits closing or re-arms a tripped channel, or is ignored as too early. -/
def execChEn (req : Req) (ch : Fin 14) (ctl : Word) (s : State) : Result := busWrite s req (A.weir_CTL ch) ctl.toNat

/-- OFF_MET (R487). 10 ms after a write of CH_EN = 0, OFF_MET reads 1. -/
def execOffMet (ch : Fin 14) (s : State) : Result := onHub s fun h => offMet h ch

/-- RAMP_END (R480). The gate reaches WnSRC + 9 V, and the channel enters ON. -/
def execRampEnd (ch : Fin 14) (s : State) : Result := onHub s fun h => rampEnd h ch

/-- RAMP_TIMEOUT (R481). A ramp still running after RAMP_MAX.MS trips the channel. -/
def execRampTimeout (ch : Fin 14) (s : State) : Result := onHub s fun h => rampTimeout h ch

/-- ENERGY_CLR (R478). A write of 1 to CTL.ENERGY_CLR sets ENERGY and its fraction to 0. -/
def execEnergyClr (req : Req) (ch : Fin 14) (ctl : Word) (s : State) : Result :=
  busWrite s req (A.weir_CTL ch) (ctl.toNat ||| 4)

/-- DEAD_BATTERY_SINK_CLOSE (R494). With VIN absent and a host VBUS above 4.0 V for 10 ms, the hub closes that port's sink
path. -/
def execDeadBatterySinkClose (ports : List Nat) (s : State) : Result := onHub s fun h => deadBattery h ports

/-- INPUT_SWITCHOVER (R495). While W12 is power-good, sink paths open and W12 closes 10 µs later. -/
def execInputSwitchover (s : State) : Result := onHub s switchover

/-- PFW_RELEASE (R497). After HOLD_MS of power-good without early warning, PFW_N is released. -/
def execPfwRelease (s : State) : Result := onHub s pfwRelease

/-- EXTREMES (R501). A read of WEIR.EXTREMES returns the peak current and lowest voltage and reloads them. -/
def execExtremes (req : Req) (ch : Fin 14) (s : State) : Result := busRead s req (A.weir_EXTREMES ch)

end Sys2Proof.Machine
end

