-- ==== Sys2Proof/Machine/Window.lean ====
section
/-! DEFINITION. The meanings of the commands of: Accesses to the register window (R35–R68). -/

namespace Sys2Proof.Machine

/-- REGISTER_WRITE (R53). A write to a register that has no row of its own passes the checks of R53 and stores the value
under its access type. -/
def execRegisterWrite (req : Req) (addr : Word) (size : Nat) (value : BitVec 64) (s : State) : Result :=
  access s (windowAccess req addr.toNat size true value)

/-- WAKE_TIMEOUT (R53). An access whose block is not ready within 1 ms completes with 0xFFFF_FFFF, or is logged as a wake
timeout. -/
def execWakeTimeout (k : Nat) (s : State) : Result := ended s fun h m => wakeTimeout h m k

/-- INT_FORCE (R44). A write of 1 to an INT_FORCE bit sets the matching EVENT bit whatever INT_EN holds. -/
def execIntForce (req : Req) (page : Fin 216) (bits : Word) (s : State) : Result :=
  busWrite s req (4096 * page + 0x18) bits.toNat

/-- COMMIT_GO (R64). A write of 1 to COMMIT.GO arms the page's shadow set; on PROJ pages the set is first checked under
R276. -/
def execCommitGo (req : Req) (page : Fin 216) (hold : Bool) (s : State) : Result :=
  busWrite s req (4096 * page + 0x20) (if hold then 3 else 1)

/-- BLOCK_RESET (R646). A write of 1 to RESET_CTL.BLOCK_RESET starts a reset of the page, waking its domain first if
needed. -/
def execBlockReset (req : Req) (page : Fin 216) (s : State) : Result := busWrite s req (4096 * page + 0x24) 1

/-- BLOCK_RESET_COMPLETE (R46). A block reset ends with the page's class N, D and L fields at reset; COMMIT returns to 0
and BLOCK_RESET reads 0. -/
def execBlockResetComplete (page : Fin 216) (s : State) : Result := onHub s fun h => blockResetDone h (4096 * page)

/-- OWNER_WRITE (R51). A write to OWNER is checked under R83 and R84, stored as pending and sets PENDING. -/
def execOwnerWrite (req : Req) (page : Fin 216) (value : Word) (s : State) : Result :=
  busWrite s req (4096 * page + 0x28) value.toNat

/-- PAD_RELEASE (R524). A write of 1 to EDGE_MODE.PAD_RELEASE hands held pads back to the block's drive and clears HELD. -/
def execPadRelease (req : Req) (page : Fin 216) (hold : Bool) (s : State) : Result :=
  busWrite s req (4096 * page + 0x2C) (if hold then 3 else 2)

/-- PAIR_LO_READ (R59). A read of the _LO register of a 40-bit pair returns bits [31:0] and snapshots bits [39:32] for the
requester. It is the read of any register without a row of its own, with the size that the requester gives it (R348, R351). -/
def execPairLoRead (req : Req) (span : Span) (s : State) : Result :=
  access s (windowAccess req span.addr.toNat span.size false 0)

/-- PAIR_HI_WRITE (R60). A write to the _HI register of a 40-bit pair stores bits [7:0] in the requester's staging
register. -/
def execPairHiWrite (req : Req) (addr : Word) (value : Word) (s : State) : Result :=
  busWrite s req addr.toNat value.toNat

/-- PAIR_LO_WRITE (R60). A write to the _LO register of a 40-bit pair updates all 40 bits together with the staged bits
and empties the staging register. -/
def execPairLoWrite (req : Req) (addr : Word) (value : Word) (s : State) : Result :=
  busWrite s req addr.toNat value.toNat

end Sys2Proof.Machine
end

