-- ==== Sys2Proof/Machine/Dispatch.lean ====
section
/-! DEFINITION. The effect of each command: one arm for each constructor, each a direct call of its meaning. -/

namespace Sys2Proof.Machine

def exec (i : Instr) (s : State) : Host.Outcome State Fault Refusal :=
  match i with
  | .registerWrite req addr size value => Sys2Proof.Machine.execRegisterWrite req addr size value s
  | .wakeTimeout k => Sys2Proof.Machine.execWakeTimeout k s
  | .intForce req page bits => Sys2Proof.Machine.execIntForce req page bits s
  | .commitGo req page hold => Sys2Proof.Machine.execCommitGo req page hold s
  | .blockReset req page => Sys2Proof.Machine.execBlockReset req page s
  | .blockResetComplete page => Sys2Proof.Machine.execBlockResetComplete page s
  | .ownerWrite req page value => Sys2Proof.Machine.execOwnerWrite req page value s
  | .padRelease req page hold => Sys2Proof.Machine.execPadRelease req page hold s
  | .pairLoRead req span => Sys2Proof.Machine.execPairLoRead req span s
  | .pairHiWrite req addr value => Sys2Proof.Machine.execPairHiWrite req addr value s
  | .pairLoWrite req addr value => Sys2Proof.Machine.execPairLoWrite req addr value s
  | .pathSetValid q => Sys2Proof.Machine.execPathSetValid q s
  | .weightChange slice ingress hop weight => Sys2Proof.Machine.execWeightChange slice ingress hop weight s
  | .asymmetricTransitionRequest n tx3 => Sys2Proof.Machine.execAsymmetricTransitionRequest n tx3 s
  | .retrain by_ n ctl => Sys2Proof.Machine.execRetrain by_ n ctl s
  | .linkUp n mode ms => Sys2Proof.Machine.execLinkUp n mode ms s
  | .linkDown n => Sys2Proof.Machine.execLinkDown n s
  | .release req slice units => Sys2Proof.Machine.execRelease req slice units s
  | .releaseDone slice u => Sys2Proof.Machine.execReleaseDone slice u s
  | .attach req slice units => Sys2Proof.Machine.execAttach req slice units s
  | .discHoldEnd u => Sys2Proof.Machine.execDiscHoldEnd u s
  | .attachTimeout u => Sys2Proof.Machine.execAttachTimeout u s
  | .dpOutBind req slice value => Sys2Proof.Machine.execDpOutBind req slice value s
  | .dpInSrc req slice value => Sys2Proof.Machine.execDpInSrc req slice value s
  | .routerReset slice => Sys2Proof.Machine.execRouterReset slice s
  | .sliceReset req slice => Sys2Proof.Machine.execSliceReset req slice s
  | .sliceResetComplete slice => Sys2Proof.Machine.execSliceResetComplete slice s
  | .profileReentry => Sys2Proof.Machine.execProfileReentry s
  | .chainArrival ingress hop packets closed bad colour credit => Sys2Proof.Machine.execChainArrival ingress hop packets closed bad colour credit s
  | .admitIngress ingress => Sys2Proof.Machine.execAdmit ingress s
  | .creditGrant path => Sys2Proof.Machine.execCreditGrant path s
  | .outletSelect outlet => Sys2Proof.Machine.execOutletSelect outlet s
  | .departure outlet tag data => Sys2Proof.Machine.execDeparture outlet tag data s
  | .cutThroughTimeout outlet => Sys2Proof.Machine.execCutThroughTimeout outlet s
  | .patrolScrub cell row => Sys2Proof.Machine.execPatrolScrub cell row s
  | .auditGo req auto => Sys2Proof.Machine.execAuditGo req auto s
  | .auditDone => Sys2Proof.Machine.execAuditDone s
  | .injectSingle req => Sys2Proof.Machine.execInjectSingle req s
  | .injectDouble req => Sys2Proof.Machine.execInjectDouble req s
  | .injectLink req => Sys2Proof.Machine.execInjectLink req s
  | .pathEntryWrite req path word long value => Sys2Proof.Machine.execPathEntryWrite req path word long value s
  | .mcastWrite req group word long value => Sys2Proof.Machine.execMcastWrite req group word long value s
  | .profileWrite req addr long value => Sys2Proof.Machine.execProfileWrite req addr long value s
  | .counterWrite req addr long value => Sys2Proof.Machine.execCounterWrite req addr long value s
  | .groupsActiveWrite req groups => Sys2Proof.Machine.execGroupsActiveWrite req groups s
  | .forebayHwm req => Sys2Proof.Machine.execForebayHwm req s
  | .freeLwm req => Sys2Proof.Machine.execFreeLwm req s
  | .turnBoundary => Sys2Proof.Machine.execTurnBoundary s
  | .allotmentComputed ns => Sys2Proof.Machine.execAllotmentComputed ns s
  | .refillPoint => Sys2Proof.Machine.execRefillPoint s
  | .turnPhaseWrite req ticks => Sys2Proof.Machine.execTurnPhaseWrite req ticks s
  | .computeMax req => Sys2Proof.Machine.execComputeMax req s
  | .tokenEarned shaper => Sys2Proof.Machine.execTokenEarned shaper s
  | .depthHwm req outlet => Sys2Proof.Machine.execDepthHwm req outlet s
  | .pauseReceived mac pfc xoff xon => Sys2Proof.Machine.execPauseReceived mac pfc xoff xon s
  | .pauseExpiry mac prio => Sys2Proof.Machine.execPauseExpiry mac prio s
  | .gateEnable req gate ctl => Sys2Proof.Machine.execGateEnable req gate ctl s
  | .edidValid req gate ctl => Sys2Proof.Machine.execEdidValid req gate ctl s
  | .hpdPulseEnd gate => Sys2Proof.Machine.execHpdPulseEnd gate s
  | .auxRequest gate q => Sys2Proof.Machine.execAuxRequest gate q s
  | .linkTraining gate rate lanes => Sys2Proof.Machine.execLinkTraining gate rate lanes s
  | .streamUp gate msa => Sys2Proof.Machine.execStreamUp gate msa s
  | .streamDown gate why => Sys2Proof.Machine.execStreamDown gate why s
  | .frameStart gate su regions => Sys2Proof.Machine.execFrameStart gate su regions s
  | .clapper gate => Sys2Proof.Machine.execClapper gate s
  | .prEnter gate => Sys2Proof.Machine.execPrEnter gate s
  | .prExit gate => Sys2Proof.Machine.execPrExit gate s
  | .catchUpBand gate => Sys2Proof.Machine.execCatchUpBand gate s
  | .bwIdleDecrease gate => Sys2Proof.Machine.execBwIdleDecrease gate s
  | .bwGrant gate mbps => Sys2Proof.Machine.execBwGrant gate mbps s
  | .reelPatrol block => Sys2Proof.Machine.execReelPatrol block s
  | .reelInjectSingle req => Sys2Proof.Machine.execReelInjectSingle req s
  | .reelInjectDouble req => Sys2Proof.Machine.execReelInjectDouble req s
  | .utilHwm req => Sys2Proof.Machine.execUtilHwm req s
  | .vblank head => Sys2Proof.Machine.execVblank head s
  | .projEnable req head ctl => Sys2Proof.Machine.execProjEnable req head ctl s
  | .projDisable req head ctl => Sys2Proof.Machine.execProjDisable req head ctl s
  | .vTotalMaxReached head => Sys2Proof.Machine.execVTotalMaxReached head s
  | .underrun head line pixel => Sys2Proof.Machine.execUnderrun head line pixel s
  | .outputStall head line pixel => Sys2Proof.Machine.execOutputStall head line pixel s
  | .frameEnd head => Sys2Proof.Machine.execFrameEnd head s
  | .dpTrainingComplete port ok rate lanes caps ms => Sys2Proof.Machine.execDpTrainingComplete port ok rate lanes caps ms s
  | .hpdIrq port lost => Sys2Proof.Machine.execHpdIrq port lost s
  | .projRetrain req head ctl => Sys2Proof.Machine.execProjRetrain req head ctl s
  | .dpoRetrain req dpo ctl => Sys2Proof.Machine.execDpoRetrain req dpo ctl s
  | .dpoHpdChange dpo high => Sys2Proof.Machine.execDpoHpdChange dpo high s
  | .sigPop req head => Sys2Proof.Machine.execSigPop req head s
  | .ethFrameReceive mac frame late => Sys2Proof.Machine.execEthFrameReceive mac frame late s
  | .ethLinkUp mac speed => Sys2Proof.Machine.execEthLinkUp mac speed s
  | .ethLinkDown mac => Sys2Proof.Machine.execEthLinkDown mac s
  | .switchForward => Sys2Proof.Machine.execSwitchForward s
  | .ageOut index => Sys2Proof.Machine.execAgeOut index s
  | .fdbRead req index => Sys2Proof.Machine.execFdbRead req index s
  | .fdbWrite req index fixed => Sys2Proof.Machine.execFdbWrite req index fixed s
  | .fdbDelete req index => Sys2Proof.Machine.execFdbDelete req index s
  | .fdbFlushDynamic req => Sys2Proof.Machine.execFdbFlushDynamic req s
  | .nicTransmit slice ring addr len => Sys2Proof.Machine.execNicTransmit slice ring addr len s
  | .nicReceive slice buffers => Sys2Proof.Machine.execNicReceive slice buffers s
  | .itrExpiry slice ring => Sys2Proof.Machine.execItrExpiry slice ring s
  | .xoffRepeat mac => Sys2Proof.Machine.execXoffRepeat mac s
  | .pcieTlpReceive port kind tag packets credit => Sys2Proof.Machine.execPcieTlpReceive port kind tag packets credit s
  | .pciePresenceChange port present => Sys2Proof.Machine.execPciePresenceChange port present s
  | .pcieLinkUp port gen width ms => Sys2Proof.Machine.execPcieLinkUp port gen width ms s
  | .pcieLinkDown port => Sys2Proof.Machine.execPcieLinkDown port s
  | .perstRelease port => Sys2Proof.Machine.execPerstRelease port s
  | .reelWindowRead req addr len => Sys2Proof.Machine.execReelWindowRead req addr len s
  | .reelWindowWrite req addr data => Sys2Proof.Machine.execReelWindowWrite req addr data s
  | .atomicop slice => Sys2Proof.Machine.execAtomicop slice s
  | .flrFunction0 slice => Sys2Proof.Machine.execFlrFunction0 slice s
  | .flrFunction1 slice => Sys2Proof.Machine.execFlrFunction1 slice s
  | .internalTimeout k => Sys2Proof.Machine.execInternalTimeout k s
  | .outboundCompletion slice k data => Sys2Proof.Machine.execOutboundCompletion slice k data s
  | .outboundReadTimeout slice k => Sys2Proof.Machine.execOutboundReadTimeout slice k s
  | .logClear req => Sys2Proof.Machine.execLogClear req s
  | .wordSample w => Sys2Proof.Machine.execWordSample w s
  | .wordWrite req w value => Sys2Proof.Machine.execWordWrite req w value s
  | .wordSend w => Sys2Proof.Machine.execWordSend w s
  | .slotReceive slot value word hub reader => Sys2Proof.Machine.execSlotReceive slot value word hub reader s
  | .eventRaise by_ id arg => Sys2Proof.Machine.execEventRaise by_ id arg s
  | .eventArrival target id arg hub kind => Sys2Proof.Machine.execEventArrival target id arg hub kind s
  | .inboxRead req target => Sys2Proof.Machine.execInboxRead req target s
  | .connect req slice ctl => Sys2Proof.Machine.execConnect req slice ctl s
  | .disconnect req slice ctl => Sys2Proof.Machine.execDisconnect req slice ctl s
  | .standardRequest slice q => Sys2Proof.Machine.execStandardRequest slice q s
  | .getInfo slice len => Sys2Proof.Machine.execGetInfo slice len s
  | .regRead slice offset len => Sys2Proof.Machine.execRegRead slice offset len s
  | .regWrite slice offset len value complete => Sys2Proof.Machine.execRegWrite slice offset len value complete s
  | .mailboxOut slice data complete => Sys2Proof.Machine.execMailboxOut slice data complete s
  | .mailboxIn slice len complete => Sys2Proof.Machine.execMailboxIn slice len complete s
  | .vreqTimeout slice => Sys2Proof.Machine.execVreqTimeout slice s
  | .suspend slice unit => Sys2Proof.Machine.execSuspend slice unit s
  | .remoteWake req slice => Sys2Proof.Machine.execRemoteWake req slice s
  | .resumeKEnd slice => Sys2Proof.Machine.execResumeKEnd slice s
  | .hostResume slice unit => Sys2Proof.Machine.execHostResume slice unit s
  | .busReset slice => Sys2Proof.Machine.execBusReset slice s
  | .hidSend by_ slice report => Sys2Proof.Machine.execHidSend by_ slice report s
  | .notify by_ slice value => Sys2Proof.Machine.execNotify by_ slice value s
  | .feedback slice clocks => Sys2Proof.Machine.execFeedback slice clocks s
  | .audioBlock delivered input => Sys2Proof.Machine.execAudioBlock delivered input s
  | .audLock => Sys2Proof.Machine.execAudLock s
  | .ccAttachSeen port seen pin2 ra => Sys2Proof.Machine.execCcAttachSeen port seen pin2 ra s
  | .terminationLost port => Sys2Proof.Machine.execTerminationLost port s
  | .ccDebounce port vbus => Sys2Proof.Machine.execCcDebounce port vbus s
  | .drpToggle port => Sys2Proof.Machine.execDrpToggle port s
  | .tryDebounce port => Sys2Proof.Machine.execTryDebounce port s
  | .tryPeriodEnd port => Sys2Proof.Machine.execTryPeriodEnd port s
  | .ccOpen port => Sys2Proof.Machine.execCcOpen port s
  | .vbusDischarged port => Sys2Proof.Machine.execVbusDischarged port s
  | .dischargeSlow port => Sys2Proof.Machine.execDischargeSlow port s
  | .errorRecoveryEnd port => Sys2Proof.Machine.execErrorRecoveryEnd port s
  | .vbusLost port => Sys2Proof.Machine.execVbusLost port s
  | .sourceCapabilities port pdos => Sys2Proof.Machine.execSourceCapabilities port pdos s
  | .request port rdo => Sys2Proof.Machine.execRequest port rdo s
  | .amsAnswer port answer => Sys2Proof.Machine.execAmsAnswer port answer s
  | .getSourceCap port => Sys2Proof.Machine.execGetSourceCap port s
  | .getSinkCapMessage port => Sys2Proof.Machine.execGetSinkCapMessage port s
  | .sinkCapabilities port pdos => Sys2Proof.Machine.execSinkCapabilities port pdos s
  | .prSwap port => Sys2Proof.Machine.execPrSwap port s
  | .drSwap port => Sys2Proof.Machine.execDrSwap port s
  | .vconnSwapMessage port => Sys2Proof.Machine.execVconnSwapMessage port s
  | .frSwap port => Sys2Proof.Machine.execFrSwap port s
  | .softResetMessage port => Sys2Proof.Machine.execSoftResetMessage port s
  | .hardResetReceived port => Sys2Proof.Machine.execHardResetReceived port s
  | .eprMode port enter => Sys2Proof.Machine.execEprMode port enter s
  | .eprKeepalive port => Sys2Proof.Machine.execEprKeepalive port s
  | .enterUsb port => Sys2Proof.Machine.execEnterUsb port s
  | .structuredVdm port v => Sys2Proof.Machine.execStructuredVdm port v s
  | .getRevision port => Sys2Proof.Machine.execGetRevision port s
  | .notSupported port => Sys2Proof.Machine.execNotSupported port s
  | .sendSrcCap req port => Sys2Proof.Machine.execSendSrcCap req port s
  | .psRdy req port => Sys2Proof.Machine.execPsRdy req port s
  | .getSinkCap req port => Sys2Proof.Machine.execGetSinkCap req port s
  | .vconnSwap req port => Sys2Proof.Machine.execVconnSwap req port s
  | .softReset req port => Sys2Proof.Machine.execSoftReset req port s
  | .hardReset req port => Sys2Proof.Machine.execHardReset req port s
  | .discover req port => Sys2Proof.Machine.execDiscover req port s
  | .exitMode req port => Sys2Proof.Machine.execExitMode req port s
  | .errorRecovery req port => Sys2Proof.Machine.execErrorRecovery req port s
  | .transitionTimeout port => Sys2Proof.Machine.execTransitionTimeout port s
  | .eprSinkTimeout port => Sys2Proof.Machine.execEprSinkTimeout port s
  | .sourceCapabilitiesRepeat port => Sys2Proof.Machine.execSourceCapabilitiesRepeat port s
  | .responseTimeout port => Sys2Proof.Machine.execResponseTimeout port s
  | .earlyWarning cause => Sys2Proof.Machine.execEarlyWarning cause s
  | .frsReturn port => Sys2Proof.Machine.execFrsReturn port s
  | .sample frame => Sys2Proof.Machine.execSample frame s
  | .fastTrip ch => Sys2Proof.Machine.execFastTrip ch s
  | .forceTrip req ch ctl => Sys2Proof.Machine.execForceTrip req ch ctl s
  | .chEn req ch ctl => Sys2Proof.Machine.execChEn req ch ctl s
  | .offMet ch => Sys2Proof.Machine.execOffMet ch s
  | .rampEnd ch => Sys2Proof.Machine.execRampEnd ch s
  | .rampTimeout ch => Sys2Proof.Machine.execRampTimeout ch s
  | .energyClr req ch ctl => Sys2Proof.Machine.execEnergyClr req ch ctl s
  | .deadBatterySinkClose ports => Sys2Proof.Machine.execDeadBatterySinkClose ports s
  | .inputSwitchover => Sys2Proof.Machine.execInputSwitchover s
  | .pfwRelease => Sys2Proof.Machine.execPfwRelease s
  | .extremes req ch => Sys2Proof.Machine.execExtremes req ch s
  | .dozeEntry domain => Sys2Proof.Machine.execDozeEntry domain s
  | .idleTimeout domain => Sys2Proof.Machine.execIdleTimeout domain s
  | .lowPowerEntryComplete domain => Sys2Proof.Machine.execLowPowerEntryComplete domain s
  | .domainReady domain => Sys2Proof.Machine.execDomainReady domain s
  | .wakeFail domain => Sys2Proof.Machine.execWakeFail domain s
  | .pwrPolicyWrite req group page value => Sys2Proof.Machine.execPwrPolicyWrite req group page value s
  | .dvfsTargetWrite req targets => Sys2Proof.Machine.execDvfsTargetWrite req targets s
  | .dvfsDone island => Sys2Proof.Machine.execDvfsDone island s
  | .shelfEnter req sources => Sys2Proof.Machine.execShelfEnter req sources s
  | .bmcShelf req key => Sys2Proof.Machine.execBmcShelf req key s
  | .shelfEntryComplete => Sys2Proof.Machine.execShelfEntryComplete s
  | .shelfWake source => Sys2Proof.Machine.execShelfWake source s
  | .monExt req => Sys2Proof.Machine.execMonExt req s
  | .refSelect req ctl => Sys2Proof.Machine.execRefSelect req ctl s
  | .distLock => Sys2Proof.Machine.execDistLock s
  | .distHold => Sys2Proof.Machine.execDistHold s
  | .holdoverExpiry => Sys2Proof.Machine.execHoldoverExpiry s
  | .refFallback leat => Sys2Proof.Machine.execRefFallback leat s
  | .pllLock => Sys2Proof.Machine.execPllLock s
  | .lockLoss => Sys2Proof.Machine.execLockLoss s
  | .muxSwitchComplete mux => Sys2Proof.Machine.execMuxSwitchComplete mux s
  | .muxRescue mux => Sys2Proof.Machine.execMuxRescue mux s
  | .domsrcWrite req shaft => Sys2Proof.Machine.execDomsrcWrite req shaft s
  | .meterGo req src => Sys2Proof.Machine.execMeterGo req src s
  | .meterDone edges => Sys2Proof.Machine.execMeterDone edges s
  | .xingResync xing tx => Sys2Proof.Machine.execXingResync xing tx s
  | .forcedGate domain => Sys2Proof.Machine.execForcedGate domain s
  | .ftimeWrap => Sys2Proof.Machine.execFtimeWrap s
  | .filter id => Sys2Proof.Machine.execFilter id s
  | .arbitrate => Sys2Proof.Machine.execArbitrate s
  | .claim req target => Sys2Proof.Machine.execClaim req target s
  | .complete req target id => Sys2Proof.Machine.execComplete req target id s
  | .stackReset req target ctl => Sys2Proof.Machine.execStackReset req target ctl s
  | .dbSet req w bells => Sys2Proof.Machine.execDbSet req w bells s
  | .dbClr req w bells => Sys2Proof.Machine.execDbClr req w bells s
  | .extend req m => Sys2Proof.Machine.execExtend req m s
  | .derive req slot msel ecdsa => Sys2Proof.Machine.execDerive req slot msel ecdsa s
  | .generate req slot ecdsa => Sys2Proof.Machine.execGenerate req slot ecdsa s
  | .gcmEnc req slot => Sys2Proof.Machine.execGcmEnc req slot s
  | .gcmDec req slot => Sys2Proof.Machine.execGcmDec req slot s
  | .sign req slot => Sys2Proof.Machine.execSign req slot s
  | .quote req slot => Sys2Proof.Machine.execQuote req slot s
  | .pubkey req slot => Sys2Proof.Machine.execPubkey req slot s
  | .ecdh req slot tslot => Sys2Proof.Machine.execEcdh req slot tslot s
  | .random req => Sys2Proof.Machine.execRandom req s
  | .clear req slot => Sys2Proof.Machine.execClear req slot s
  | .provision req => Sys2Proof.Machine.execProvision req s
  | .endorse req => Sys2Proof.Machine.execEndorse req s
  | .cmdDone => Sys2Proof.Machine.execCmdDone s
  | .measLock req bits => Sys2Proof.Machine.execMeasLock req bits s
  | .maskRewrite => Sys2Proof.Machine.execMaskRewrite s
  | .tamper sources => Sys2Proof.Machine.execTamper sources s
  | .entropyFail => Sys2Proof.Machine.execEntropyFail s
  | .reseed => Sys2Proof.Machine.execReseed s
  | .tamperLock req modes => Sys2Proof.Machine.execTamperLock req modes s
  | .tlogClear req => Sys2Proof.Machine.execTlogClear req s
  | .syncWord leat dt w => Sys2Proof.Machine.execSyncWord leat dt w s
  | .roundTrip leat sixteenths status => Sys2Proof.Machine.execRoundTrip leat sixteenths status s
  | .leatLinkUp leat peer status => Sys2Proof.Machine.execLeatLinkUp leat peer status s
  | .leatLinkDown leat => Sys2Proof.Machine.execLeatLinkDown leat s
  | .cfgHashWrite req lo => Sys2Proof.Machine.execCfgHashWrite req lo s
  | .hashGraceExpiry => Sys2Proof.Machine.execHashGraceExpiry s
  | .keySlotWrite req leat slot next_ => Sys2Proof.Machine.execKeySlotWrite req leat slot next_ s
  | .roll req leat slot next_ => Sys2Proof.Machine.execRoll req leat slot next_ s
  | .frameCounterLimit leat => Sys2Proof.Machine.execFrameCounterLimit leat s
  | .leatFrameReceive leat tagOk pieces => Sys2Proof.Machine.execLeatFrameReceive leat tagOk pieces s
  | .txGo req leat len => Sys2Proof.Machine.execTxGo req leat len s
  | .msgRx leat message => Sys2Proof.Machine.execMsgRx leat message s
  | .por vkeepLost => Sys2Proof.Machine.execPor vkeepLost s
  | .bor vkeepLost => Sys2Proof.Machine.execBor vkeepLost s
  | .resetN => Sys2Proof.Machine.execResetN s
  | .wdtWarn => Sys2Proof.Machine.execWdtWarn s
  | .wdt => Sys2Proof.Machine.execWdt s
  | .wdtKick req key => Sys2Proof.Machine.execWdtKick req key s
  | .wdtCtlWrite req en ms => Sys2Proof.Machine.execWdtCtlWrite req en ms s
  | .soft req key => Sys2Proof.Machine.execSoft req key s
  | .coreReset req core run => Sys2Proof.Machine.execCoreReset req core run s
  | .run req core run => Sys2Proof.Machine.execRun req core run s
  | .boot imageA imageB readA readB => Sys2Proof.Machine.execBoot imageA imageB readA readB s
  | .loadStart req => Sys2Proof.Machine.execLoadStart req s
  | .loadData req value => Sys2Proof.Machine.execLoadData req value s
  | .loadDone req => Sys2Proof.Machine.execLoadDone req s
  | .recoveryImage image => Sys2Proof.Machine.execRecoveryImage image s
  | .bistGo req kind => Sys2Proof.Machine.execBistGo req kind s
  | .abort req kind => Sys2Proof.Machine.execAbort req kind s
  | .bistDone ms signatures => Sys2Proof.Machine.execBistDone ms signatures s
  | .gpioEdge gpio high => Sys2Proof.Machine.execGpioEdge gpio high s
  | .busGo req bus cmd => Sys2Proof.Machine.execBusGo req bus cmd s
  | .busDone bus nack data => Sys2Proof.Machine.execBusDone bus nack data s
  | .spiGo req cmd => Sys2Proof.Machine.execSpiGo req cmd s
  | .spiDone data => Sys2Proof.Machine.execSpiDone data s
  | .uartTx req byte sent => Sys2Proof.Machine.execUartTx req byte sent s
  | .uartReceive byte => Sys2Proof.Machine.execUartReceive byte s
  | .busRx req bus => Sys2Proof.Machine.execBusRx req bus s
  | .spiRx req => Sys2Proof.Machine.execSpiRx req s
  | .uartRx req => Sys2Proof.Machine.execUartRx req s
  | .bmcAccess bytes readBytes => Sys2Proof.Machine.execBmcAccess bytes readBytes s
  | .attention port hpd => Sys2Proof.Machine.execAttention port hpd s
  | .discoveryResponse port answer => Sys2Proof.Machine.execDiscoveryResponse port answer s
  | .connectChange port speed => Sys2Proof.Machine.execConnectChange port speed s
  | .classRequest slice q => Sys2Proof.Machine.execClassRequest slice q s
  | .isochronousPacket slice p => Sys2Proof.Machine.execIsochronousPacket slice p s
  | .audLockLoss => Sys2Proof.Machine.execAudLockLoss s
  | .entropyRecovery => Sys2Proof.Machine.execEntropyRecovery s
  | .distResume => Sys2Proof.Machine.execDistResume s
  | .pathSetInvalid slice ingress hop => Sys2Proof.Machine.execPathSetInvalid slice ingress hop s
  | .enumerated slice => Sys2Proof.Machine.execEnumerated slice s
  | .sinkTxOk port => Sys2Proof.Machine.execSinkTxOk port s

end Sys2Proof.Machine
end

