-- ==== Sys2Proof/Machine/Step.lean ====
section
/-! DEFINITION. A step of the machine: the command at the front of the queue, or a tick of TIME where none waits. -/

namespace Sys2Proof.Machine

/-- The command at the front takes effect, with the rest of the queue left waiting; on an empty queue time goes on by a tick
(DESIGN CHOICE, log 1). -/
def step (s : State) : Host.Outcome State Fault Refusal :=
  match s.pending with
  | [] => tick s
  | c :: rest => exec c { s with pending := rest }

/-- The state with the command that a word spells put at the front of its queue. -/
def State.withFetchWord (s : State) (nbits w : Nat) : State :=
  match Sys2Proof.decodeTableWord nbits w with
  | none => s
  | some c => { s with pending := c :: s.pending }

end Sys2Proof.Machine
end

