-- ==== Sys2Proof/Safety.lean ====
section
/-! DEFINITION. The terms in which claims speak of a run: when an access of the register window is performed at once, when a
command completes, and what a run keeps. -/

namespace Sys2Proof.Machine

/-- An access of 4 bytes passes the checks of R53 and nothing holds it back: the hub is not in SHELF, no access is stalled, and
the page's domain is ready. -/
def Passes (s : State) (req : Req) (a : Nat) (write : Bool) : Prop :=
  s.hub.power.shelf ≠ 2 ∧ s.hub.stalled = [] ∧ judgeWindow s.hub req a 4 write = .go

/-- A write of a word is performed at once: it passes, and a word with an RWF field is written by service firmware or JTAG
(R12). -/
def Writes (s : State) (req : Req) (a : Nat) : Prop :=
  Passes s req a true ∧ (hasRwf a = true → mayRwf req = true)

/-- A read of a word is performed at once: it passes, the completion buffer has room for its answer (R367), and it is not answered from
a prefetch buffer (R359). -/
def Reads (s : State) (req : Req) (a : Nat) : Prop :=
  Passes s req a false ∧ completionRoom s.hub (windowAccess req a 4 false 0) 1 = true ∧ ∀ k : Fin 4, req = .slice k → (s.hub.penSt k.val).streams = []

/-- A command completes: it answers a next state, of which something holds. -/
def Completes (c : Instr) (s : State) (holds : State → Prop) : Prop := ∃ t, exec c s = .next t ∧ holds t

/-- An 8-byte write of a table entry is performed at once (R62). -/
def WritesLong (s : State) (req : Req) (a : Nat) : Prop :=
  narrow req = false ∧ s.hub.power.shelf ≠ 2 ∧ s.hub.stalled = [] ∧ judgeWindow s.hub req a 8 true = .go

/-- A command is a read of a word: it answers the requester with the word's value as it stood, changes no Reel byte, and of
its next state something holds. -/
def Answers (c : Instr) (s : State) (req : Req) (a : Nat) (holds : State → Prop) : Prop :=
  Completes c s fun t =>
    t.hub.out = s.hub.out ++ [.readDone req a (BitVec.ofNat 64 (wordValue s.hub a))] ∧ t.reel = s.reel ∧ holds t

/-- Every field of a word that a write may set has taken its bits of a value (R12). -/
def Takes (h : Hub) (a v : Nat) : Prop :=
  ∀ r ∈ wordRows a, r.acc = .rw ∨ r.acc = .rwf → h.fget ⟨a, r.lo, r.w⟩ = v / 2 ^ r.lo % 2 ^ r.w

/-- Every field of the register window outside the word at an address reads as before. -/
def OthersKept (a : Nat) (h h' : Hub) : Prop := ∀ g : Fld, g.key / 32 ≠ a → h'.fget g = h.fget g

/-- Every field of the register window outside the words at some addresses reads as before. -/
def KeptBut (l : List Nat) (h h' : Hub) : Prop := ∀ g : Fld, g.key / 32 ∉ l → h'.fget g = h.fget g

/-- A field reads a value, cut to the field's width. -/
def Hub.Has (h : Hub) (f : Fld) (v : Nat) : Prop := h.fget f = v % 2 ^ f.w

/-- An event counter has counted one more, and sticks at its highest value (R12). -/
def Counted (h h' : Hub) (f : Fld) : Prop := h'.fget f = min (h.fget f + 1) (2 ^ f.w - 1)

/-- A Type-C port attaches in a power role (R433, R436, R438): its lanes and its STATUS are those of the role and the plug, the attach is
raised, and its link and the Weirs follow, which a source cannot take out of a profile. -/
def Attaches (h h' : Hub) (p : Nat) (source : Bool) : Prop := ∃ w : Hub,
  tcState w p = (if source then 6 else 3) ∧ w.is (F.typec_STATUS_POWER_ROLE p) = source ∧
  w.is (F.typec_STATUS_DATA_ROLE p) = decide (4 ≤ p) ∧ w.is (F.typec_STATUS_ORIENT p) = (h.port p).pin2 ∧
  w.is (F.typec_STATUS_VCONN_ON p) = (source && (h.port p).ra) ∧ w.fget (F.typec_STATUS_CONTRACT p) = (if source then 0 else 1) ∧
  (w.port p).vbus = source ∧ (w.port p).reserves = source ∧ (w.port p).window = true ∧
  w.bit (F.hdr_INT_STAT_EVENT (Page.typec p)) 0 = true ∧ w.out = h.out ++ [.laneRoute p (h.port p).pin2] ∧
  h' = if source then settleChannels (trainPort w p) else settleWeirs (trainPort w p)

/-- A Type-C port leaves for a state without a partner, and its reservation ends (R438, R454). -/
def Unattaches (h h' : Hub) (p st : Nat) : Prop := ∃ w : Hub,
  tcState w p = st ∧ w.is (F.typec_STATUS_POWER_ROLE p) = false ∧ w.is (F.typec_STATUS_VCONN_ON p) = false ∧
  (w.port p).seen = 0 ∧ (w.port p).vbus = false ∧ (w.port p).reserves = false ∧ w.input.sinks.testBit p = false ∧
  KeptBut [A.typec_STATUS p] h w ∧ w.out = h.out ∧
  h' = settleLedger (settleWeirs w)

/-- A command of a Type-C port ends with a result (R470). -/
def EndsCmd (h h' : Hub) (p r : Nat) : Prop :=
  h'.fget (F.typec_CMD_OP p) = 0 ∧ h'.is (F.typec_CMD_BUSY p) = false ∧ h'.Has (F.typec_CMD_RESULT p) r ∧
  h'.bit (F.hdr_INT_STAT_EVENT (Page.typec p)) 4 = true ∧ KeptBut [A.typec_CMD p, Page.typec p + 0x10] h h' ∧ h'.out = h.out

/-- A Weir channel trips (R485) and opens; its source port drops the contract after the CONV_SAFE write and reports the
over-current (R400, R486); W12 loses its power-good (R491, R493). -/
def Trips (h h' : Hub) (c cause : Nat) : Prop := ∃ w u : Hub,
  w.is (F.weir_STATUS_LATCHED c) = true ∧ w.Has (F.weir_STATUS_CAUSE c) cause ∧ chState w c = 3 ∧ w.fget (F.weir_STATUS_PATH c) = 0 ∧
  w.Has (F.weir_TRIP_SNAP_MV c) (h.fget (F.weir_MEAS_MV c)) ∧ w.Has (F.weir_TRIP_SNAP_MA c) (h.fget (F.weir_MEAS_MA c)) ∧
  Counted h w (F.weir_COUNTS_TRIPS c) ∧ w.bit (F.hdr_INT_STAT_EVENT (Page.weir c)) 0 = true ∧
  KeptBut [A.weir_STATUS c, A.weir_TRIP_SNAP c, A.weir_COUNTS c, Page.weir c + 0x10] h w ∧ w.out = h.out ∧
  u = (if decide (c < 12) && chClosed h c && h.fget (F.weir_STATUS_PATH c) == 1 && tcState h c == 6
    then dropContract (convSafe w c) c else w) ∧
  h' = settleWeirs (if c = 12 then pgChange u c false
    else if decide (c < 12) && chClosed h c && h.fget (F.weir_STATUS_PATH c) == 1 && decide (4 ≤ c) then overCurrent u (c - 4) else u)

/-- A channel has taken a sample (R477, R478, R501): its voltage, current and power, its energy with the fraction carried, and its
extremes. -/
def Measures (h m : Hub) (c mv : Nat) (ma : Int) : Prop :=
  m.Has (F.weir_MEAS_MV c) mv ∧ m.Has (F.weir_MEAS_MA c) (ofInt 16 ma) ∧ m.Has (F.weir_POWER_MW c) (powerField (sampleMw mv ma)) ∧
  m.Has (F.weir_EXTREMES_MIN_MV c) (min (h.fget (F.weir_EXTREMES_MIN_MV c)) mv) ∧
  m.Has (F.weir_EXTREMES_PEAK_MA c) (if toInt 16 (h.fget (F.weir_EXTREMES_PEAK_MA c)) < ma then ofInt 16 ma
    else h.fget (F.weir_EXTREMES_PEAK_MA c)) ∧
  m.pget (F.weir_ENERGY_LO_MJ c) =
    ofInt 40 ((h.pget (F.weir_ENERGY_LO_MJ c) : Int) + (((h.weir c).frac : Int) + sampleMw mv ma * 16) / 1000000) ∧
  ((m.weir c).frac : Int) = (((h.weir c).frac : Int) + sampleMw mv ma * 16) % 1000000 ∧
  ((2 ^ 40 : Int) ≤ (h.pget (F.weir_ENERGY_LO_MJ c) : Int) + (((h.weir c).frac : Int) + sampleMw mv ma * 16) / 1000000 →
    m.bit (F.hdr_INT_STAT_EVENT (Page.weir c)) 6 = true) ∧
  KeptBut [A.weir_MEAS c, A.weir_POWER c, A.weir_ENERGY_LO c, A.weir_ENERGY_HI c, A.weir_EXTREMES c, Page.weir c + 0x10] h m ∧
  m.out = h.out

/-- A command resets a slice (R97, R98, R691): the cause and SLICE_RESET are raised, the router holds in reset, its tunnels end, the
class L fields of its page return to reset, and the slice's units follow. -/
def ResetsSlice (c : Instr) (s : State) (slice cause : Nat) : Prop :=
  Completes c s fun t => ∃ h' w : Hub,
    h'.bit (F.slice_RESET_CAUSE_CAUSE slice) cause = true ∧ h'.bit (F.hdr_INT_STAT_EVENT (Page.slice slice)) 3 = true ∧
    w.fget (F.slice_STATUS_ROUTER slice) = 6 ∧ w.is (F.slice_SLICE_CTL_SLICE_RESET slice) = true ∧
    tunnel w (2 * slice) = none ∧ tunnel w (2 * slice + 1) = none ∧
    (∀ g : Fld, Page.slice slice + 0x40 ≤ g.key / 32 → g.key / 32 < Page.slice slice + 0x1000 → clsOf g.key = .l →
      g.key ≠ (F.slice_STATUS_ROUTER slice).key → g.key ≠ (F.slice_SLICE_CTL_SLICE_RESET slice).key → w.fget g = resetOf w.otp g.key) ∧
    t.hub = sliceSides h' w slice

/-- A line of a head fails (R302): counted once for the line, raised once in a frame, and the first one recorded with its cause. -/
def LineFails (c : Instr) (s : State) (p line pixel cause : Nat) : Prop :=
  Completes c s fun t => Counted s.hub t.hub (F.proj_UNDERRUNS_COUNT p) ∧
    (t.hub.head p).under = (s.hub.head p).under ++ [(line, pixel)] ∧
    ((s.hub.head p).under = [] → t.hub.bit (F.hdr_INT_STAT_EVENT (Page.proj p)) 8 = true) ∧
    (s.hub.is (F.proj_UNDER_FIRST_VALID p) = false → t.hub.Has (F.proj_UNDER_FIRST_LINE p) line ∧
      t.hub.Has (F.proj_UNDER_FIRST_CAUSE p) cause ∧ t.hub.is (F.proj_UNDER_FIRST_VALID p) = true) ∧
    (s.hub.is (F.proj_UNDER_FIRST_VALID p) = true → t.hub.fget (F.proj_UNDER_FIRST_LINE p) = s.hub.fget (F.proj_UNDER_FIRST_LINE p))

/-- A port that has debounced Rd attaches as source where the ledger has room for its floor, and otherwise waits in BUDGET_WAIT
(R434, R448, R452). -/
def SourceStarts (c : Instr) (s : State) (p : Nat) : Prop :=
  (floorFits s.hub p = true → s.hub.is (F.typec_STATUS_CONV_UNSAFE p) = false → Completes c s fun t => Attaches s.hub t.hub p true) ∧
  (floorFits s.hub p = false ∨ s.hub.is (F.typec_STATUS_CONV_UNSAFE p) = true → Completes c s fun t => ∃ w : Hub,
    tcState w p = 9 ∧ (w.port p).reserves = true ∧ w.bit (F.hdr_INT_STAT_EVENT (Page.typec p)) 10 = true ∧
    KeptBut [A.typec_STATUS p, Page.typec p + 0x10] s.hub w ∧ t.hub = noteLedger w)

/-- A port answers a message of its partner with one of its own, and no register changes. -/
def Says (c : Instr) (s : State) (p : Nat) (m : PdOut) : Prop :=
  Completes c s fun t => t.hub.out = s.hub.out ++ [.pd p m] ∧ t.hub.regs = s.hub.regs ∧ t.reel = s.reel

/-- A command of the Vault's CMD starts with the values that the registers then hold, or is dropped while one runs (R597). -/
def VaultStarts (s : State) (req : Req) (c : Instr) (w : Nat) : Prop :=
  (s.hub.is F.vault_STATUS_BUSY = true → Completes c s fun t => t.hub.is F.vault_STATUS_DROPPED = true ∧
    t.hub.vault = s.hub.vault ∧ OthersKept A.vault_STATUS s.hub t.hub) ∧
  (s.hub.is F.vault_STATUS_BUSY = false → Completes c s fun t => t.hub.is F.vault_STATUS_BUSY = true ∧
    t.hub.fget F.vault_CMD_OP = w % 16 ∧ t.hub.vault.run = some
      { op := w % 16, slot := w / 2 ^ 4 % 2 ^ 5, tslot := w / 2 ^ 9 % 2 ^ 5, msel := w / 2 ^ 14 % 2 ^ 4, ecdsa := w / 2 ^ 18 % 2 != 0
        input := if s.hub.fget F.vault_LEN_IN_LEN ≤ 1024 then (wordBytes s.hub F.vault_IN_BYTES 256).take (s.hub.fget F.vault_LEN_IN_LEN)
          else List.replicate (s.hub.fget F.vault_LEN_IN_LEN) 0
        aad := s.hub.fget F.vault_LEN_AAD_LEN, user := userBit req, useNext := s.hub.fget F.vault_USE_NEXT_USE
        locked := (s.hub.fget F.vault_MEAS_LOCK_LOCK).testBit (w / 2 ^ 4 % 2 ^ 5 % 4) } ∧
    KeptBut [A.vault_CMD, A.vault_STATUS] s.hub t.hub)

/-- A Vault command ends with a result and a length of output (R597), and Leat links whose key is gone follow (R631); of the
hub before that, something holds. -/
def VaultEnds (h h' : Hub) (result len : Nat) (holds : Hub → Prop) : Prop := ∃ w : Hub,
  w.fget F.vault_CMD_RESULT = result ∧ w.fget F.vault_CMD_OP = 0 ∧ w.is F.vault_STATUS_BUSY = false ∧ w.vault.run = none ∧
  w.Has F.vault_OUT_LEN_BYTES len ∧ w.bit (F.hdr_INT_STAT_EVENT Page.vault) 0 = true ∧ w.out = h.out ∧ holds w ∧ h' = keysGone w

/-- A power reset with its cause (R643, R645): but for the Vault's class V, which a lost VKEEP empties too, every field returns to reset. -/
def PowerResets (c : Instr) (s : State) (source : Nat) (lost : Bool) : Prop :=
  Completes c s fun t => t.reel = [] ∧ ∃ k : Hub, k.fget F.chip_RESET_CAUSE_CAUSE = 2 ^ source ∧ k.ftime = 0 ∧ k.stalled = [] ∧
    k.chains = [] ∧ k.otp = s.hub.otp ∧
    (lost = false → k.vault = { s.hub.vault with slots := [], run := none }) ∧ (lost = true → k.vault.masked = none) ∧
    (∀ f : Fld, f.key ≠ F.chip_RESET_CAUSE_CAUSE.key →
      k.fget f = if lost = false ∧ clsOf f.key = .v then s.hub.fget f else resetOf s.hub.otp f.key) ∧
    t.hub = settleWeirs (noteGpio (fabricBack s.hub k))

/-- A chip reset with its cause (R643, R644): the state before the Reel, the links, the slices and the buses follow holds what the reset keeps,
and nothing else. -/
def ChipResets (h h' : Hub) (source : Nat) : Prop := ∃ k u w : Hub,
  k.vault = { h.vault with slots := [], run := none } ∧ k.ftime = h.ftime ∧ k.epoch = h.epoch ∧ k.weirs = h.weirs ∧
  k.stalled = [] ∧ k.snaps = [] ∧ k.staging = [] ∧ k.chains = [] ∧ k.boot.phase = 0 ∧
  (h.boot.bist = none → k.domains = Tbl.keep (· == 42) h.domains) ∧
  (h.boot.bist = none → ∀ f : Fld, isHeld f.key = false → k.fget f = if chipKeeps f.key then h.fget f else resetOf h.otp f.key) ∧
  (h.boot.bist = none →
    u = ((if (h.dom 12).state = 3 then contentLost k else k).putBit F.chip_RESET_CAUSE_CAUSE source true).fset F.chip_BOOT_STAT_MODE
      h.otp.bootMode) ∧
  u.bit F.chip_RESET_CAUSE_CAUSE source = true ∧ u.Has F.chip_BOOT_STAT_MODE h.otp.bootMode ∧
  w = (List.range 4).foldl (fun k s => sliceReset k s 4) ((List.range 12).foldl
    (fun k n => if n < 4 ∨ 2 ≤ k.fget (F.typec_STATUS_ALT n) then portRestore k n else k) u) ∧
  h' = settleReset (nextTransfer (noteGpio (fabricBack h (audioBack (if busPowered w then profileHolds w else w)))) 1)

/-- The ROM accepts an image and starts its loader (R653): measured, locked, recorded and placed in SRAM. -/
def Boots (h h' : Hub) (image : Bytes) (copy : Bool) : Prop :=
  h'.boot.phase = 6 ∧ h'.boot.sram = [(0, imageLoader image), (alignPage (leAt image 0x14 4), imageFw image)] ∧
  h'.is F.chip_BOOT_STAT_COPY = copy ∧ h'.Has F.chip_BOOT_STAT_KEY (leAt image 6 1) ∧ h'.Has F.chip_FW_VER_VERSION (leAt image 0xC 4) ∧
  h'.Has F.chip_SVN_IMAGE (leAt image 8 4) ∧ h'.bit F.vault_MEAS_LOCK_LOCK 1 = true ∧ h'.bit F.vault_MEAS_LOCK_LOCK 2 = true ∧
  (h.bit F.vault_MEAS_LOCK_LOCK 1 = false → measOf h' 1 = hash384 (measOf h 1 ++ (image.drop 0x28).take 48)) ∧
  (h.bit F.vault_MEAS_LOCK_LOCK 2 = false → measOf h' 2 = hash384 (measOf h 2 ++ (image.drop 0x58).take 48))

/-- What a safe run keeps: Reel memory in its canonical form. -/
def Inv (s : State) : Prop := Memory.wf s.reel = true

end Sys2Proof.Machine
end

