-- ==== Sys2Proof/Certificates/Slice0/Obligations.lean ====
section
/-! DEFINITION. The statements for the provers. Each says what commands, a step or the machine does, with the rules of the specification it
formalises. A command's own effect is what its next state holds; where other rules act on what the command wrote (the settling of links, floors,
islands), the statement names the operation that does so and says what it was given. -/

open Sys2Proof Sys2Proof.Machine

/-- The block has no program counter: a step takes the command at the front of the queue and runs it with the queue's rest. -/
def Obligations.StepRunsFront : Prop :=
  ∀ (c : Instr) (rest : List Instr) (s : State), s.pending = c :: rest → step s = exec c { s with pending := rest }

/-- With nothing waiting, one tick of TIME passes while TIME runs from the Shaft and the hub is not in SHELF, and nothing else
happens (R548; the model's choice, log 1). -/
def Obligations.IdleTicks : Prop :=
  ∀ s : State, s.pending = [] →
    (timeRuns s.hub = true → s.hub.power.shelf ≠ 2 → ∃ t, step s = .next t ∧ t.hub.time % 2 ^ 40 = (s.hub.time + 1) % 2 ^ 40 ∧
      t.hub.regs = s.hub.regs ∧ t.reel = s.reel ∧ t.pending = []) ∧
    (timeRuns s.hub = false ∨ s.hub.power.shelf = 2 → step s = .next s)

/-- Reel memory is in its canonical form after reset. -/
def Obligations.ResetInv : Prop := Inv State.reset

/-- Whatever command is at the front, a step keeps Reel memory in its canonical form: addresses strictly rising and within the
4 GiB of R257, no byte listed that reads the same unlisted. -/
def Obligations.StepKeepsInv : Prop := ∀ s t : State, Inv s → step s = .next t → Inv t

/-- Every command answers a next state, but an access of the Reel window that reaches beyond 4 GiB, which faults (R345); none
is refused. -/
def Obligations.OnlyReelWindowFaults : Prop :=
  ∀ (c : Instr) (s : State),
    (∃ t, exec c s = .next t) ∨
    (exec c s = .fault .outsideReel ∧
      ((∃ req addr len, c = .reelWindowRead req addr len ∧ 2 ^ 32 < addr + len) ∨
       (∃ req addr data, c = .reelWindowWrite req addr data ∧ 2 ^ 32 < addr + enabledLength data)))

/-- No command takes, adds or reorders waiting commands. While no access is stalled, only the commands that store in the Reel or lose its
content change any of its bytes: a power reset, the end of a BIST run, a departure into a Gate, a domain's entry into OFF, SHELF, a write of the
Reel window, a catch-up band and a domain that is ready again, which lands what waited for the Reel (R53, R257–R303, R345). -/
def Obligations.CommandsKeepQueueAndReel : Prop :=
  ∀ (c : Instr) (s t : State), exec c s = .next t → t.pending = s.pending ∧
    (s.hub.stalled = [] → (∀ lost, c ≠ .por lost ∧ c ≠ .bor lost) → (∀ ms misrs, c ≠ .bistDone ms misrs) →
      (∀ outlet tag data, c ≠ .departure outlet tag data) → (∀ d, c ≠ .lowPowerEntryComplete d) → c ≠ .shelfEntryComplete →
      (∀ w, c ≠ .shelfWake w) → (∀ req addr data, c ≠ .reelWindowWrite req addr data) → (∀ gate, c ≠ .catchUpBand gate) →
      (∀ d, c ≠ .domainReady d) → t.reel = s.reel)

/-! ## Accesses and headers (R12, R43–R68) -/

/-- A write of INT_EN of a page stores the word, and every other field of the window reads as before (R12, R43). REGISTER_WRITE
carries every write that has no row of its own. -/
def Obligations.RegisterWriteStores : Prop :=
  ∀ (s : State) (req : Req) (page : Fin 216) (v : Word) (k : Kind) (i : Nat),
    pageAt (4096 * page.val + 0x14) = some (k, i, 4096 * page.val) → k.hasHeader = true → Writes s req (4096 * page.val + 0x14) →
    Completes (.registerWrite req (BitVec.ofNat 32 (4096 * page.val + 0x14)) 4 (v.setWidth 64)) s fun t =>
      t.hub.fget (F.hdr_INT_EN_EN (4096 * page.val)) = v.toNat ∧ OthersKept (4096 * page.val + 0x14) s.hub t.hub ∧ t.reel = s.reel

/-- A write of 1 to an INT_FORCE bit sets the matching EVENT bit of the page, whatever INT_EN holds; a reserved EVENT bit stays 0, no
EVENT bit is cleared, and nothing else changes (R16, R44). -/
def Obligations.IntForceSetsEvents : Prop :=
  ∀ (s : State) (req : Req) (page : Fin 216) (bits : Word) (k : Kind) (i : Nat),
    pageAt (4096 * page.val + 0x18) = some (k, i, 4096 * page.val) → k.hasHeader = true → Writes s req (4096 * page.val + 0x18) →
    Completes (.intForce req page bits) s fun t =>
      (∀ b, b < 32 → t.hub.bit (F.hdr_INT_STAT_EVENT (4096 * page.val)) b =
        (s.hub.bit (F.hdr_INT_STAT_EVENT (4096 * page.val)) b || (bits.getLsbD b && (eventMask k i).testBit b))) ∧
      OthersKept (4096 * page.val + 0x10) s.hub t.hub ∧ t.reel = s.reel

/-- COMMIT.GO arms a Sluice page and HOLD takes the value written; a page without shadow registers keeps every field; on a PROJ
page that is not armed the set is judged, and an armed page only takes HOLD (R64, R276). -/
def Obligations.CommitGoArms : Prop :=
  ∀ (s : State) (req : Req) (page : Fin 216) (hold : Bool) (k : Kind) (i : Nat),
    pageAt (4096 * page.val + 0x20) = some (k, i, 4096 * page.val) → k.hasHeader = true → Writes s req (4096 * page.val + 0x20) →
    (k.shadowed = true → k ≠ .proj ∨ s.hub.is (F.hdr_COMMIT_GO (4096 * page.val)) = true →
      Completes (.commitGo req page hold) s fun t =>
        t.hub.is (F.hdr_COMMIT_GO (4096 * page.val)) = true ∧ t.hub.is (F.hdr_COMMIT_HOLD (4096 * page.val)) = hold ∧
        OthersKept (4096 * page.val + 0x20) s.hub t.hub) ∧
    (k.shadowed = false → Completes (.commitGo req page hold) s fun t => ∀ g, t.hub.fget g = s.hub.fget g) ∧
    (k = .proj → s.hub.is (F.hdr_COMMIT_GO (4096 * page.val)) = false → Completes (.commitGo req page hold) s fun t =>
      ∃ h', h'.is (F.hdr_COMMIT_HOLD (4096 * page.val)) = hold ∧ OthersKept (4096 * page.val + 0x20) s.hub h' ∧ t.hub = projGo h' i)

/-- OWNER takes a value that R83 and R84 allow, with PENDING set, while the owner that is applied stays the old one until the
turn boundary; another value is an owner fault (R51). -/
def Obligations.OwnerWritePends : Prop :=
  ∀ (s : State) (req : Req) (page : Fin 216) (v : Word) (k : Kind) (i : Nat),
    pageAt (4096 * page.val + 0x28) = some (k, i, 4096 * page.val) → k.hasHeader = true → Writes s req (4096 * page.val + 0x28) →
    (ownerWriteOk s.hub (4096 * page.val) v.toNat = true → Completes (.ownerWrite req page v) s fun t =>
      t.hub.fget (F.hdr_OWNER_SLICES (4096 * page.val)) = v.toNat % 16 ∧ t.hub.is (F.hdr_OWNER_FW (4096 * page.val)) = v.getLsbD 4 ∧
      t.hub.is (F.hdr_OWNER_BMC (4096 * page.val)) = v.getLsbD 5 ∧ t.hub.is (F.hdr_OWNER_PENDING (4096 * page.val)) = true ∧
      appliedOwner t.hub (4096 * page.val) = appliedOwner s.hub (4096 * page.val) ∧
      OthersKept (4096 * page.val + 0x28) s.hub t.hub) ∧
    (ownerWriteOk s.hub (4096 * page.val) v.toNat = false → Completes (.ownerWrite req page v) s fun t =>
      t.hub.fget F.pstk_OWNER_FAULT_COUNT = min (s.hub.fget F.pstk_OWNER_FAULT_COUNT + 1) (2 ^ 32 - 1) ∧
      t.hub.bit (F.hdr_INT_STAT_EVENT Page.pstk) 0 = true ∧
      ∀ g : Fld, g.key / 32 = 4096 * page.val + 0x28 → t.hub.fget g = s.hub.fget g)

/-- BLOCK_RESET reads 1 from the write on, and the domain is woken; a ready block abandons its work at once (R646).
When a block reset completes, BLOCK_RESET and COMMIT read 0 and the page's fields of classes N, D and L stand at their reset
values; a port restores its mode, the Reel reads its clock back, an audio port that is on runs again, a fabric mismatch stays, and the
mailboxes, the drained groups and the links settle (R46, R132, R646). EDGE_MODE.PAD_RELEASE hands held pads back in a domain
that stands in RUN or DOZE (R524). -/
def Obligations.BlockResets : Prop :=
  (∀ (s : State) (req : Req) (page : Fin 216) (k : Kind) (i : Nat),
      pageAt (4096 * page.val + 0x24) = some (k, i, 4096 * page.val) → k.hasHeader = true → Writes s req (4096 * page.val + 0x24) →
      s.hub.is (F.hdr_RESET_CTL_BLOCK_RESET (4096 * page.val)) = false → (s.hub.dom (k.domain i)).resetting = false →
      Completes (.blockReset req page) s fun t => ∃ h' w : Hub,
        h'.is (F.hdr_RESET_CTL_BLOCK_RESET (4096 * page.val)) = true ∧ OthersKept (4096 * page.val + 0x24) s.hub h' ∧
        w = wake h' (k.domain i) ∧
        (if k = .bist then (t.hub, t.reel) = goOn (if w.ready (k.domain i) then blockAbandon w k i else w) s.reel
         else t.hub = (if w.ready (k.domain i) then blockAbandon w k i else w) ∧ t.reel = s.reel)) ∧
  (∀ (s : State) (req : Req) (page : Fin 216) (k : Kind) (i : Nat), pageAt (4096 * page.val) = some (k, i, 4096 * page.val) →
      (s.hub.is (F.hdr_RESET_CTL_BLOCK_RESET (4096 * page.val)) = true → s.hub.ready (k.domain i) = true →
        Completes (.blockResetComplete page) s fun t => ∃ h' : Hub,
          h'.is (F.hdr_RESET_CTL_BLOCK_RESET (4096 * page.val)) = false ∧ h'.is (F.hdr_COMMIT_GO (4096 * page.val)) = false ∧
          h'.is (F.hdr_COMMIT_HOLD (4096 * page.val)) = false ∧
          (∀ g : Fld, 4096 * page.val + 0x40 ≤ g.key / 32 → g.key / 32 < 4096 * page.val + 0x1000 →
            clsOf g.key = .n ∨ clsOf g.key = .d ∨ clsOf g.key = .l → h'.fget g = resetOf h'.otp g.key) ∧
          t.reel = s.reel ∧ t.hub = settleReset (if k = .link then portRestore h' i else if k = .reel then reelRestore h'
            else if k = .aud then audioBack h' else if k = .fabric then fabricBack s.hub h' else h')) ∧
      (∀ hold : Bool, k.hasHeader = true → Writes s req (4096 * page.val + 0x2C) →
        (s.hub.dom (k.domain i)).state ≤ 1 → (s.hub.dom (k.domain i)).entering = 0 →
        Completes (.padRelease req page hold) s fun t =>
          t.hub.is (F.hdr_EDGE_MODE_HELD (4096 * page.val)) = false ∧ t.hub.is (F.hdr_EDGE_MODE_HOLD (4096 * page.val)) = hold ∧
          OthersKept (4096 * page.val + 0x2C) s.hub t.hub ∧ t.reel = s.reel))

/-- 40-bit pairs (R59, R60). A read of a _LO register answers bits [31:0] and keeps bits [39:32] for this requester alone; a read of the
_HI register answers what was kept for this requester, or the live bits where nothing is kept. A write of the _HI register of a path counter
changes no field: it stages bits [7:0] for this requester; the write of the _LO register then gives the counter all 40 bits, bits [39:32]
staying where nothing is staged, and empties the staging register. -/
def Obligations.PairsAreWhole : Prop :=
  (∀ (s : State) (req : Req) (addr : Word) (k : Kind) (i base : Nat), pageAt addr.toNat = some (k, i, base) → Reads s req addr.toNat →
    (isPairLo k (addr.toNat - base) = true → Completes (.pairLoRead req ⟨addr, 4⟩) s fun t =>
      t.hub.out = s.hub.out ++ [.readDone req addr.toNat (BitVec.ofNat 64 (wordValue s.hub addr.toNat))] ∧
      snapshot t.hub addr.toNat req = some (wordValue s.hub (addr.toNat + 4)) ∧
      (∀ r, r ≠ req → ∀ a, snapshot t.hub a r = snapshot s.hub a r) ∧ ∀ g, t.hub.fget g = s.hub.fget g) ∧
    (isPairHi k (addr.toNat - base) = true → Completes (.pairLoRead req ⟨addr, 4⟩) s fun t =>
      t.hub.out = s.hub.out ++ [.readDone req addr.toNat (BitVec.ofNat 64
        (match snapshot s.hub (addr.toNat - 4) req with | some n => n | none => wordValue s.hub addr.toNat))] ∧
      t.hub.snaps = s.hub.snaps ∧ ∀ g, t.hub.fget g = s.hub.fget g)) ∧
  (∀ (s : State) (req : Req) (p : Fin 1024) (n : Fin 7) (v : Word), Writes s req (Page.stats + 64 * p.val + 8 * n.val + 4) →
    Completes (.pairHiWrite req (BitVec.ofNat 32 (Page.stats + 64 * p.val + 8 * n.val + 4)) v) s fun t =>
      staged t.hub (Page.stats + 64 * p.val + 8 * n.val) req = some (v.toNat % 256) ∧ ∀ g, t.hub.fget g = s.hub.fget g) ∧
  (∀ (s : State) (req : Req) (p : Fin 1024) (n : Fin 7) (v : Word) (hi : Nat),
    staged s.hub (Page.stats + 64 * p.val + 8 * n.val) req = some hi ∧ hi < 256 ∨
      staged s.hub (Page.stats + 64 * p.val + 8 * n.val) req = none ∧ hi = s.hub.fget ⟨Page.stats + 64 * p.val + 8 * n.val + 4, 0, 8⟩ →
    Writes s req (Page.stats + 64 * p.val + 8 * n.val) →
    Completes (.pairLoWrite req (BitVec.ofNat 32 (Page.stats + 64 * p.val + 8 * n.val)) v) s fun t =>
      t.hub.pget ⟨Page.stats + 64 * p.val + 8 * n.val, 0, 32⟩ = 2 ^ 32 * hi + v.toNat ∧
      staged t.hub (Page.stats + 64 * p.val + 8 * n.val) req = none ∧
      ∀ g : Fld, g.key / 32 ≠ Page.stats + 64 * p.val + 8 * n.val → g.key / 32 ≠ Page.stats + 64 * p.val + 8 * n.val + 4 →
        t.hub.fget g = s.hub.fget g)

/-- An access whose domain was not ready within 1 ms ends, and does not reach the block (R53). A read answers 0xFFFF_FFFF in all of its bytes,
on the bus, part by part of the Reel window, or over USB, and NP_ERR and NP_LAST take it with NP_FAIL (R355); a write is logged with its
address, size, requester and time, or lost where the log is full (R364). No field of another page changes; then what waited behind goes
on. A stalled access that waits for something else stays. -/
def Obligations.WakeTimeoutEnds : Prop :=
  ∀ (s : State) (k : Nat) (a : Access), s.hub.stalled[k]? = some a →
    ((∀ d, a.await ≠ .ready d) → Completes (.wakeTimeout k) s fun t => (t.hub, t.reel) = goOn s.hub s.reel) ∧
    (∀ d, a.await = .ready d → Completes (.wakeTimeout k) s fun t => ∃ e : Hub,
      e = { s.hub with regs := e.regs, out := e.out, pen := e.pen, stalled := s.hub.stalled.eraseIdx k } ∧
      (∀ g : Fld, g.key / 32 < Page.pstk ∨ Page.pstk + 0x1000 ≤ g.key / 32 → e.fget g = s.hub.fget g) ∧
      (a.write = false →
        (a.reel = false → a.dock = false →
          e.out = s.hub.out ++ [.readDone a.req a.addr (if a.size = 8 then 0xFFFFFFFFFFFFFFFF else 0xFFFFFFFF)]) ∧
        (a.reel = true →
          e.out = s.hub.out ++ [.reelData a.req a.addr ((reelParts a.addr a.size).map fun p => (List.replicate p.2 0xFF, false))]) ∧
        (∀ sl, a.reel = false → a.dock = true → a.req = .slice sl → a.size = 4 →
          e.out = s.hub.out ++ [.usbReply sl.val [0xFF, 0xFF, 0xFF, 0xFF]]) ∧
        Counted s.hub e F.pstk_NP_ERR_COUNT ∧ e.Has F.pstk_NP_LAST_ADDR_ADDR a.addr ∧ e.fget F.pstk_NP_LAST_CAUSE = Cause.wake ∧
        e.is F.pstk_NP_LAST_WINDOW = a.reel ∧ e.Has F.pstk_NP_LAST_REQ (reqCode a.req) ∧
        e.bit (F.hdr_INT_STAT_EVENT Page.pstk) 9 = true) ∧
      (a.write = true → e.out = s.hub.out ∧ e.pen = s.hub.pen ∧ e.bit (F.hdr_INT_STAT_EVENT Page.pstk) 0 = true ∧
        (∀ n, s.hub.fget F.pstk_LOG_CTL_COUNT = n → n < 16 →
          e.fget F.pstk_LOG_CTL_COUNT = n + 1 ∧ e.Has (F.pstk_LOG_ADDR_ADDR n) a.addr ∧ e.fget (F.pstk_LOG_INFO_CAUSE n) = Cause.wake ∧
          e.is (F.pstk_LOG_INFO_WINDOW n) = a.reel ∧ e.Has (F.pstk_LOG_INFO_REQ n) (reqCode a.req) ∧ e.Has (F.pstk_LOG_INFO_SIZE n) a.size ∧
          e.Has (F.pstk_LOG_TIME_LO_TICKS n) (s.hub.ftime % 2 ^ 32) ∧ e.Has (F.pstk_LOG_TIME_HI_TICKS n) (s.hub.ftime / 2 ^ 32)) ∧
        (16 ≤ s.hub.fget F.pstk_LOG_CTL_COUNT → e.is F.pstk_STAT_LOG_OVERFLOW = true ∧ Counted s.hub e F.pstk_LOG_LOST_COUNT)) ∧
      (t.hub, t.reel) = goOn (pump e s.reel).1 (pump e s.reel).2)

/-! ## Host slices, links and handovers (R69–R110) -/

/-- A path that a connection manager sets valid is refused, counted and reported while the slice's quota is full or no entry is
free; else a free entry is staged with the slice as its owner, the defaults of R79 and the scaled weight, for the next refill
point (R79–R81).
WEIGHT becomes min(4,095, max(1, w × SCALE)), a SCALE of 0 acting as 1, and the entry pends; a path set invalid loses VALID
and gives its share of the quota back; a tunnel of the PCIe or USB3 adapter of a host takes or loses its connection, and a PCIe tunnel a
new weight (R79, R80). -/
def Obligations.PathChanges : Prop :=
  (∀ (s : State) (q : PathReq), tunnelKey q = none → s.hub.present .slice q.slice.val = true →
      pointOfSlice s.hub q.slice.val q.ingress = true → pointOfSlice s.hub q.slice.val q.outlet = true →
      ((q.kind = .dpOut ∨ q.kind = .dpAux) → q.outlet = 20 → (boundGate s.hub q.slice.val q.adapter).isSome = true) →
      (quotaFull s.hub q.slice.val = true ∨ freeEntry s.hub = none → Completes (.pathSetValid q) s fun t =>
        Counted s.hub t.hub (F.slice_PATHS_REFUSED_COUNT q.slice.val) ∧
        t.hub.bit (F.hdr_INT_STAT_EVENT (Page.slice q.slice.val)) 5 = true ∧ t.hub.cmPaths = s.hub.cmPaths) ∧
      (∀ p, quotaFull s.hub q.slice.val = false → freeEntry s.hub = some p → Completes (.pathSetValid q) s fun t =>
        t.hub.is (F.path_CTL_VALID p) = true ∧ t.hub.is (F.path_CTL_PENDING p) = true ∧
        t.hub.fget (F.path_CTL_OWNER p) = q.slice.val ∧ t.hub.Has (F.path_CTL_IN_OUTLET p) q.ingress ∧
        t.hub.Has (F.path_CTL_IN_HOP p) q.hop ∧ t.hub.Has (F.path_ROUTE_OUT_OUTLET p) q.outlet ∧
        t.hub.Has (F.path_ROUTE_OUT_HOP p) q.outHop ∧
        t.hub.fget (F.path_SHAPE_WEIGHT p) = scaledWeight s.hub q.slice.val q.weight ∧
        (q.kind = .pcie → t.hub.fget (F.path_CTL_CLASS p) = 2 ∧ t.hub.is (F.path_CTL_MODE p) = true) ∧
        (q.kind = .usb3 → t.hub.fget (F.path_CTL_CLASS p) = 4 ∧ t.hub.is (F.path_CTL_MODE p) = true) ∧
        (q.kind = .transit → q.hop = 0 → t.hub.fget (F.path_CTL_CLASS p) = 0 ∧ t.hub.is (F.path_CTL_CUT p) = true) ∧
        t.hub.Has (F.slice_PATH_QUOTA_USED q.slice.val) (s.hub.fget (F.slice_PATH_QUOTA_USED q.slice.val) + 1) ∧
        cmPath t.hub p = some { slice := q.slice.val, kind := q.kind, adapter := q.adapter, byCm := true } ∧
        t.hub.ais (F.path_CTL_VALID p) = s.hub.ais (F.path_CTL_VALID p))) ∧
  (∀ (s : State) (slice : Fin 4) (ingress hop : Nat) (p : Nat) (c : CmPath),
      ((∀ k, (ingress = 22 ∧ k = 2 * slice.val) ∨ (ingress = 23 ∧ k = 2 * slice.val + 1) → (tunnel s.hub k).map (·.1) ≠ some hop) →
        cmPathAt s.hub ingress hop = some p → cmPath s.hub p = some c → c.byCm = true → c.slice = slice.val →
        (∀ w, Completes (.weightChange slice ingress hop w) s fun t =>
          t.hub.fget (F.path_SHAPE_WEIGHT p) =
            min 4095 (max 1 (w * max 1 (s.hub.fget (F.slice_WEIGHT_SCALE_SCALE slice.val)))) ∧
          t.hub.is (F.path_CTL_PENDING p) = true ∧ KeptBut [A.path_SHAPE p, A.path_CTL p] s.hub t.hub) ∧
        Completes (.pathSetInvalid slice ingress hop) s fun t =>
          t.hub.is (F.path_CTL_VALID p) = false ∧ t.hub.is (F.path_CTL_PENDING p) = true ∧ cmPath t.hub p = none ∧
          t.hub.Has (F.slice_PATH_QUOTA_USED slice.val) (s.hub.fget (F.slice_PATH_QUOTA_USED slice.val) - 1) ∧
          KeptBut [A.path_CTL p, A.slice_PATH_QUOTA slice.val] s.hub t.hub) ∧
      (∀ (q : PathReq) (k : Nat), tunnelKey q = some k → s.hub.present .slice q.slice.val = true →
        Completes (.pathSetValid q) s fun t => ∃ h', tunnel h' k = some (q.hop, q.outHop, q.weight) ∧
          (∀ j, j ≠ k → tunnel h' j = tunnel s.hub j) ∧ h'.regs = s.hub.regs ∧ t.hub = settleUsb h') ∧
      (∀ k, (ingress = 22 ∧ k = 2 * slice.val) ∨ (ingress = 23 ∧ k = 2 * slice.val + 1) → (tunnel s.hub k).map (·.1) = some hop →
        Completes (.pathSetInvalid slice ingress hop) s fun t => ∃ h', tunnel h' k = none ∧
          (∀ j, j ≠ k → tunnel h' j = tunnel s.hub j) ∧ h'.regs = s.hub.regs ∧ t.hub = settleUsb h') ∧
      ∀ outHop w0 w, tunnel s.hub (2 * slice.val) = some (hop, outHop, w0) →
        Completes (.weightChange slice 22 hop w) s fun t => ∃ h', tunnel h' (2 * slice.val) = some (hop, outHop, w) ∧
          (∀ j, j ≠ 2 * slice.val → tunnel h' j = tunnel s.hub j) ∧ h'.regs = s.hub.regs ∧ t.hub = settleSys h')

/-- A request for an asymmetric link is accepted only while ALLOW_ASYM = 1 and MAX_GEN permits Gen 4; every other one is refused
and the link stays as it is (R77). The bus-powered profile refuses it too (R100). An accepted one completes: MODE names the transmitting
side of three lanes and the capacities follow (R72, R108); MODE_CHANGE aside, an operating point that is wanted now is set or begun
(R515), and nothing else changes. -/
def Obligations.AsymmetricOnlyWhenAllowed : Prop :=
  ∀ (s : State) (n : Fin 12) (tx3 : Bool),
    (s.hub.is (F.link_LINK_CTL_ALLOW_ASYM n.val) = false ∨ s.hub.fget (F.link_LINK_CTL_MAX_GEN n.val) < 2 →
      exec (.asymmetricTransitionRequest n tx3) s = .next s) ∧
    (s.hub.is (F.link_LINK_CTL_ALLOW_ASYM n.val) = true → 2 ≤ s.hub.fget (F.link_LINK_CTL_MAX_GEN n.val) →
      busPowered s.hub = false → s.hub.present .link n.val = true → linkUp s.hub n.val = true →
      1 ≤ s.hub.fget (F.link_LINK_STATUS_MODE n.val) → s.hub.fget (F.link_LINK_STATUS_MODE n.val) ≤ 3 →
      ∃ t, exec (.asymmetricTransitionRequest n tx3) s = .next t ∧
        t.hub.fget (F.link_LINK_STATUS_MODE n.val) = (if tx3 then 2 else 3) ∧
        t.hub.fget (F.link_CAP_CAP_TX n.val) = (if tx3 then 3600 else 1200) ∧
        t.hub.fget (F.link_CAP_CAP_RX n.val) = (if tx3 then 1200 else 3600) ∧
        KeptBut [A.link_LINK_STATUS n.val, A.link_CAP n.val, Page.link n.val + 0x10, A.pwr_DVFS_STATE, Page.pwr + 0x10] s.hub t.hub ∧
        t.reel = s.reel)

/-- A training stops the traffic of its link: LSTATE reads training and MODE 0xE until it ends, a link that was up counts a
retrain, and RETRAIN reads 1; then floors, points and what hangs on the link settle. Firmware starts one by LINK_CTL, the link by itself
(R78, R109).
A completed training: MODE is the mode trained within LINK_CTL and the profile, LSTATE reads up, TRAIN_TIME the time taken,
RETRAIN 0, and LINK_UP is set; then floors, links and a waiting attach settle (R74, R95, R109); toward a sleeping domain it only wakes
(R512, R523). A link that is up in a USB4 mode moves
between CL0 and the low-power states that its training allowed, counts its errors, and one whose partner is a host router goes down
(R72, R73, R108; what the LINK_UP row reports of a link is log 100). A link that is lost reads MODE 0 and sets
LINK_DOWN; a lost USB4 host link resets its slice (R97). -/
def Obligations.LinkStates : Prop :=
  (∀ (s : State) (n : Fin 12) (ctl : Word), s.hub.present .link n.val = true →
      s.hub.fget (F.link_LINK_STATUS_LSTATE n.val) ≠ 6 → dpMode (s.hub.fget (F.link_LINK_STATUS_MODE n.val)) = false →
      (∀ by_ : Option Req, (∀ req, by_ = some req → Writes s req (A.link_LINK_CTL n.val)) →
        s.hub.is (F.link_LINK_CTL_RETRAIN n.val) = false →
        Completes (.retrain by_ n ctl) s fun t => t.reel = s.reel ∧ ∃ h',
          h'.fget (F.link_LINK_STATUS_LSTATE n.val) = 1 ∧ h'.fget (F.link_LINK_STATUS_MODE n.val) = 0xE ∧
          h'.is (F.link_LINK_CTL_RETRAIN n.val) = true ∧ h'.fget (F.link_CAP_CAP_TX n.val) = 0 ∧ h'.fget (F.link_CAP_CAP_RX n.val) = 0 ∧
          (linkUp s.hub n.val = true → Counted s.hub h' (F.link_ERR_RETRAINS n.val) ∧
            h'.bit (F.hdr_INT_STAT_EVENT (Page.link n.val)) 3 = true) ∧
          (by_ = none → KeptBut [A.link_LINK_STATUS n.val, A.link_CAP n.val, A.link_ERR n.val, A.link_LINK_CTL n.val,
            Page.link n.val + 0x10, A.slice_STATUS n.val] s.hub h') ∧ t.hub = settleLinks h')) ∧
  (∀ (s : State) (n : Fin 12), s.hub.present .link n.val = true →
      (∀ mode ms, 1 ≤ mode → mode ≤ 0xB → dpMode (s.hub.fget (F.link_LINK_STATUS_MODE n.val)) = false →
        (4 ≤ n.val → unitParked s.hub (n.val - 4) = false ∧ lstate s.hub n.val ≠ 6 ∧ (s.hub.unitSt (n.val - 4)).hold = false) →
        (s.hub.listens (21 + n.val) = false → Completes (.linkUp n (.trained mode) ms) s fun t => ∃ h', h'.regs = s.hub.regs ∧
          h'.domains = s.hub.domains ∧ t.hub = wake h' (21 + n.val)) ∧
        (s.hub.listens (21 + n.val) = true →
          ([1, 2, 3, 4, 5, 8].contains (clampMode s.hub n.val mode) = true → lowNow s.hub 3 = false) →
        Completes (.linkUp n (.trained mode) ms) s fun t => ∃ h',
          h'.fget (F.link_LINK_STATUS_MODE n.val) = clampMode s.hub n.val mode ∧ h'.fget (F.link_LINK_STATUS_LSTATE n.val) = 2 ∧
          h'.fget (F.link_CAP_CAP_TX n.val) = (modeCap (clampMode s.hub n.val mode)).1 ∧
          h'.fget (F.link_TRAIN_TIME_MS n.val) = min ms 0xFFFF ∧ h'.is (F.link_LINK_CTL_RETRAIN n.val) = false ∧
          h'.bit (F.hdr_INT_STAT_EVENT (Page.link n.val)) 0 = true ∧
          (n.val < 4 → h'.fget (F.slice_STATUS_ROUTER n.val) = routerOf s.hub n.val (clampMode s.hub n.val mode) % 8) ∧
          t.hub = if 4 ≤ n.val then attachTrained (settleLinks (wake (enforceFloor h' 3) (21 + n.val))) (n.val - 4)
            else settleLinks (wake (enforceFloor h' 3) (21 + n.val)))) ∧
      (∀ cl ms, cl ≤ 3 → linkUp s.hub n.val = true → usb4Mode (s.hub.fget (F.link_LINK_STATUS_MODE n.val)) = true →
        (cl = 0 ∨ (Tbl.get (fun _ => 0) s.hub.linkAllow n.val).testBit (cl - 1) = true) →
        Completes (.linkUp n (.idle cl) ms) s fun t =>
          t.hub.fget (F.link_LINK_STATUS_LSTATE n.val) = 2 + cl ∧ KeptBut [A.link_LINK_STATUS n.val] s.hub t.hub ∧ t.reel = s.reel) ∧
      (∀ corrected uncorrectable ms, linkUp s.hub n.val = true → 0 < uncorrectable →
        Completes (.linkUp n (.errors corrected uncorrectable) ms) s fun t =>
          t.hub.fget (F.link_ERR_UNCORR n.val) =
            min (s.hub.fget (F.link_ERR_UNCORR n.val) + uncorrectable) (2 ^ (F.link_ERR_UNCORR n.val).w - 1) ∧
          t.hub.bit (F.hdr_INT_STAT_EVENT (Page.link n.val)) 5 = true) ∧
      (∀ ms, 4 ≤ n.val → dpMode (s.hub.fget (F.link_LINK_STATUS_MODE n.val)) = false →
        Completes (.linkUp n .hostRouter ms) s fun t => t.hub = settleLinks (linkGone s.hub n.val)) ∧
      (lstate s.hub n.val ≠ 0 → lstate s.hub n.val ≠ 6 →
        dpMode (s.hub.fget (F.link_LINK_STATUS_MODE n.val)) = false →
        Completes (.linkDown n) s fun t => ∃ h',
          h'.fget (F.link_LINK_STATUS_MODE n.val) = 0 ∧ h'.is (F.link_LINK_CTL_RETRAIN n.val) = false ∧
          h'.fget (F.link_LINK_STATUS_LSTATE n.val) = (if 4 ≤ n.val && (unitOwner s.hub (n.val - 4)).isNone then 6 else 0) ∧
          h'.bit (F.hdr_INT_STAT_EVENT (Page.link n.val)) 1 = true ∧
          (4 ≤ n.val → t.hub = settleLinks (endUnfinished h' n.val)) ∧
          (n.val < 4 → usb4Mode (s.hub.fget (F.link_LINK_STATUS_MODE n.val)) = true →
            t.hub = sliceReset (settleLinks (endUnfinished h' n.val)) n.val 1)))

/-- RELEASE of a present unit that the slice owns marks it, ends its attach, starts the disconnect hold of a port or drive and
discards its paths; any other sets HANDOVER_FAULT alone (R88–R90, R104). A write acts on its units from the lowest bit up. When the discards
are done RELEASED is set, RELEASE_DONE is raised and EMU reads 2 (R89).
ATTACH marks a present unit and waits for PENDING; then a unit that the slice does not own sets HANDOVER_FAULT, one in its
disconnect hold waits for it, and any other trains its link (R91–R94). The hold's end goes on with a waiting attach or
training. A link that does not train within its limit is down when the attach ends, so its device is reported as not connected (R95). -/
def Obligations.UnitsReleaseAndAttach : Prop :=
  (∀ (s : State) (req : Req) (slice : Fin 4),
      (Writes s req (A.slice_RELEASE slice.val) → ∀ units : BitVec 16, Completes (.release req slice units) s fun t => ∃ h', h'.regs = s.hub.regs ∧
        t.hub = (List.range 16).foldl (fun h u => if units.getLsbD u then release h slice.val u else h) h') ∧
      (Writes s req (A.slice_RELEASE slice.val) → ∀ u : Fin 16,
        (unitPresent s.hub u.val = false ∨ unitOwned s.hub u.val slice.val = false →
          Completes (.release req slice (BitVec.ofNat 16 (2 ^ u.val))) s fun t =>
            t.hub.bit (F.hdr_INT_STAT_EVENT (Page.slice slice.val)) 4 = true ∧
            OthersKept (Page.slice slice.val + 0x10) s.hub t.hub) ∧
        (unitPresent s.hub u.val = true → unitOwned s.hub u.val slice.val = true →
          s.hub.bit (F.slice_RELEASE_UNITS slice.val) u.val = false → s.hub.bit (F.slice_RELEASED_UNITS slice.val) u.val = false →
          Completes (.release req slice (BitVec.ofNat 16 (2 ^ u.val))) s fun t => ∃ h',
            h'.bit (F.slice_RELEASE_UNITS slice.val) u.val = true ∧ h'.bit (F.slice_ATTACH_UNITS slice.val) u.val = false ∧
            h'.unitSt u.val = { hold := decide (u.val < 10), train := false, relAt := s.hub.time, attaching := false } ∧
            t.hub = settleLinks (unplug ((unitPaths h' u.val slice.val).foldl discardPath h') slice.val u.val))) ∧
      (∀ u : Fin 16, s.hub.bit (F.slice_RELEASE_UNITS slice.val) u.val = true →
        Completes (.releaseDone slice u) s fun t => ∃ h',
          h'.bit (F.slice_RELEASE_UNITS slice.val) u.val = false ∧ h'.bit (F.slice_RELEASED_UNITS slice.val) u.val = true ∧
          h'.bit (F.hdr_INT_STAT_EVENT (Page.slice slice.val)) 1 = true ∧
          (u.val < 8 → h'.fget (F.link_LINK_STATUS_EMU (4 + u.val)) = 2) ∧ t.hub = settleLinks h')) ∧
  (∀ (s : State) (req : Req) (slice : Fin 4) (u : Fin 16),
      (Writes s req (A.slice_ATTACH slice.val) →
        (∀ units : BitVec 16, Completes (.attach req slice units) s fun t => ∃ h', h'.regs = s.hub.regs ∧
          t.hub = (List.range 16).foldl (fun h u => if units.getLsbD u then attach h slice.val u else h) h') ∧
        (unitPresent s.hub u.val = false → Completes (.attach req slice (BitVec.ofNat 16 (2 ^ u.val))) s fun t =>
          t.hub.bit (F.hdr_INT_STAT_EVENT (Page.slice slice.val)) 4 = true ∧
          OthersKept (Page.slice slice.val + 0x10) s.hub t.hub) ∧
        (unitPresent s.hub u.val = true → Completes (.attach req slice (BitVec.ofNat 16 (2 ^ u.val))) s fun t => ∃ h',
          h'.bit (F.slice_ATTACH_UNITS slice.val) u.val = true ∧ OthersKept (A.slice_ATTACH slice.val) s.hub h' ∧
          (s.hub.is (F.hdr_OWNER_PENDING (unitPage u.val)) = true → t.hub = h') ∧
          (s.hub.is (F.hdr_OWNER_PENDING (unitPage u.val)) = false → unitOwned s.hub u.val slice.val = false →
            t.hub.bit (F.slice_ATTACH_UNITS slice.val) u.val = false ∧
            t.hub.bit (F.hdr_INT_STAT_EVENT (Page.slice slice.val)) 4 = true) ∧
          (s.hub.is (F.hdr_OWNER_PENDING (unitPage u.val)) = false → unitOwned s.hub u.val slice.val = true →
            t.hub = if (s.hub.unitSt u.val).hold then h' else attachTrain h' slice.val u.val))) ∧
      ((s.hub.unitSt u.val).hold = true → Completes (.discHoldEnd u) s fun t => ∃ h' w : Hub,
        (h'.unitSt u.val).hold = false ∧ h'.regs = s.hub.regs ∧
        w = (if 8 ≤ u.val ∧ u.val < 10 then settlePerst h' (u.val - 8) else h') ∧
        (unitOwner w u.val = none → t.hub = w) ∧
        (∀ o, unitOwner w u.val = some o →
          (w.bit (F.slice_ATTACH_UNITS o) u.val = true → w.is (F.hdr_OWNER_PENDING (unitPage u.val)) = false →
            t.hub = attachTrain w o u.val) ∧
          (w.bit (F.slice_ATTACH_UNITS o) u.val = false →
            t.hub = if (s.hub.unitSt u.val).train && decide (u.val < 8) && !(unitReleased w u.val) then startTraining w (4 + u.val)
              else w))) ∧
      (∀ o, unitOwner s.hub u.val = some o → (s.hub.unitSt u.val).attaching = true →
        Completes (.attachTimeout u) s fun t => ∃ h',
          h'.bit (F.slice_ATTACH_UNITS o) u.val = false ∧ h'.bit (F.hdr_INT_STAT_EVENT (Page.slice o)) 2 = true ∧
          (h'.unitSt u.val).attaching = false ∧
          (u.val < 8 → h'.fget (F.link_LINK_STATUS_EMU (4 + u.val)) = 0 ∧
            h'.bit (F.hdr_INT_STAT_EVENT (Page.link (4 + u.val))) 4 = true) ∧ t.hub = settleLinks h'))

/-- A slice reset records its cause and SLICE_RESET, reads ROUTER 6, drops the tunnels and returns the slice page's class L
fields to reset; then the slice's units follow (R97, R98). The host asks for one, firmware writes SLICE_CTL. At its end ROUTER
follows the host link (R691). -/
def Obligations.SliceResets : Prop :=
  ∀ (s : State) (slice : Fin 4), s.hub.present .slice slice.val = true →
    ResetsSlice (.routerReset slice) s slice.val 2 ∧
    (∀ req, s.hub.is (F.slice_SLICE_CTL_SLICE_RESET slice.val) = false → Writes s req (A.slice_SLICE_CTL slice.val) →
      ResetsSlice (.sliceReset req slice) s slice.val 3) ∧
    (s.hub.fget (F.slice_STATUS_ROUTER slice.val) = 6 → s.hub.boot.phase ≠ 4 →
      Completes (.sliceResetComplete slice) s fun t => ∃ h' : Hub,
        h'.is (F.slice_SLICE_CTL_SLICE_RESET slice.val) = false ∧
        (usb4Mode (s.hub.fget (F.link_LINK_STATUS_MODE slice.val)) = true → h'.fget (F.slice_STATUS_ROUTER slice.val) = 2) ∧
        (usb3Mode (s.hub.fget (F.link_LINK_STATUS_MODE slice.val)) = true → h'.fget (F.slice_STATUS_ROUTER slice.val) = 4) ∧
        (s.hub.fget (F.link_LINK_STATUS_MODE slice.val) = 0 → h'.fget (F.slice_STATUS_ROUTER slice.val) = 0) ∧
        (t.hub, t.reel) = goOn (settleLinks h') s.reel)

/-- The writes of DP_OUT_BIND and DP_IN_SRC store each adapter's choice, and the display units settle (R82, R86). A connection
manager that has enumerated the router moves ROUTER from 2 to 3 and raises ENUMERATED (R105). The bus-powered profile marks
every slice and raises PROFILE_CHANGE before its holds apply (R99, R100, R103). -/
def Obligations.BindingsRouterAndProfile : Prop :=
  ∀ (s : State) (req : Req) (slice : Fin 4) (v : Word),
    (Writes s req (A.slice_DP_OUT_BIND slice.val) → Completes (.dpOutBind req slice v) s fun t => ∃ h',
      (∀ n : Fin 4, h'.fget (F.slice_DP_OUT_BIND_TARGET slice.val n.val) = v.toNat / 2 ^ (8 * n.val) % 32) ∧
      OthersKept (A.slice_DP_OUT_BIND slice.val) s.hub h' ∧ t.hub = settleDisplay (settleBound h')) ∧
    (Writes s req (A.slice_DP_IN_SRC slice.val) → Completes (.dpInSrc req slice v) s fun t => ∃ h',
      (∀ n : Fin 2, h'.fget (F.slice_DP_IN_SRC_SRC slice.val n.val) = v.toNat / 2 ^ (4 * n.val) % 8) ∧
      OthersKept (A.slice_DP_IN_SRC slice.val) s.hub h' ∧ t.hub = settleDisplay (settleBound h')) ∧
    (s.hub.fget (F.slice_STATUS_ROUTER slice.val) = 2 → Completes (.enumerated slice) s fun t =>
      t.hub.fget (F.slice_STATUS_ROUTER slice.val) = 3 ∧ t.hub.bit (F.hdr_INT_STAT_EVENT (Page.slice slice.val)) 0 = true ∧
      KeptBut [A.slice_STATUS slice.val, Page.slice slice.val + 0x10] s.hub t.hub) ∧
    (s.hub.fget (F.slice_STATUS_ROUTER slice.val) ≠ 2 → exec (.enumerated slice) s = .next s) ∧
    (profileWanted s.hub = true → busPowered s.hub = false → Completes .profileReentry s fun t => ∃ h' : Hub,
      busPowered h' = true ∧ (∀ a : Fin 4, s.hub.present .slice a.val = true →
        wordValue h' (A.slice_STATUS a.val) / 8 % 2 = 1 ∧ h'.bit (F.hdr_INT_STAT_EVENT (Page.slice a.val)) 7 = true) ∧
      (t.hub, t.reel) = goOn (settleLedger (profileHolds h')) s.reel)

/-! ## Millrace, queue service and turns (R111–R228) -/

/-- A chain that arrives at an ingress point waits at its Forebay, coloured as R210 says, with hop number 0 from a USB 3.2 link; later packets
join the chain that is still open; one that finds no room or comes bad is not stored, and a drop is counted (R111, R115–R117, R139, R210).
A chain that begins at ingress 22 is Penstock's next outbound TLP (R367), and what waited behind it goes on (R372).
At ingress 20 a head that is on, not DARK and awake sends packets of its own lines and blanks; another one sends nothing (R296, R301). -/
def Obligations.ChainArrivals : Prop :=
  ∀ (s : State) (i : Fin 24) (hop : Nat) (packets : List Bytes) (closed : Bool) (colour : Nat) (credit : Option Nat) (w : Hub) (hp : Nat),
    w = wakeIngress s.hub i.val → hp = (if i.val < 12 ∧ usb3Link s.hub i.val then 0 else hop) →
    ingressOk s.hub i.val = true → packets ≠ [] →
    (i.val ≠ 20 → packets.length ≤ 36 → (∀ c, (w.forebay i.val).chains.getLast? = some c → c.closed = true) →
      ((credit.filter fun p => decide (packets.length ≤ w.credOn p i.val)) = none → fbRoom w i.val = true) →
      (decide (i.val < 20) && (w.half (2 * i.val)).flush && keyLossy w i.val hp) = false →
      Completes (.chainArrival i hop packets closed false colour credit) s fun t => ∃ h',
        (h'.forebay i.val).chains = (w.forebay i.val).chains ++
          [{ hop := hp, packets := packets, closed := closed, bad := false, colour := preColour i.val colour 8 (packets.getD 0 [])
             credit := credit.filter fun p => decide (packets.length ≤ w.credOn p i.val)
             entryPort := 8, taken := 0, fate := .waiting }] ∧ h'.regs = w.regs ∧
        (t.hub, t.reel) = if i.val = 22 then goOn (popOutbound (wake h' 3) hop) s.reel else (wake h' 3, s.reel)) ∧
    (i.val ≠ 20 → ∀ c, (w.forebay i.val).chains.getLast? = some c → c.closed = false → c.fate ≠ .refused →
      c.taken + (c.packets.length + packets.length) ≤ 36 →
      Completes (.chainArrival i hop packets closed false colour credit) s fun t => ∃ h',
        (h'.forebay i.val).chains = (w.forebay i.val).chains.dropLast ++ [{ c with packets := c.packets ++ packets, closed := closed }] ∧
        h'.regs = w.regs ∧ (t.hub, t.reel) = if i.val = 22 then goOn h' s.reel else (h', s.reel)) ∧
    (i.val ≠ 20 → packets.length ≤ 36 → (∀ c, (w.forebay i.val).chains.getLast? = some c → c.closed = true) →
      (w.half (2 * i.val)).flush = false → fbRoom w i.val = false →
      Completes (.chainArrival i hop packets closed false colour none) s fun t => ∃ h',
        (closed = true → (h'.forebay i.val).chains = (w.forebay i.val).chains) ∧
        (closed = false → ∃ c, (h'.forebay i.val).chains = (w.forebay i.val).chains ++ [c] ∧ c.packets = [] ∧ c.fate = .refused) ∧
        (h'.forebay i.val).drops = min ((w.forebay i.val).drops + 1) (2 ^ 32 - 1) ∧
        h'.bit (F.hdr_INT_STAT_EVENT Page.mill) 5 = true ∧
        (t.hub, t.reel) = if i.val = 22 then goOn (popOutbound h' hop) s.reel else (h', s.reel)) ∧
    (i.val ≠ 20 → packets.length ≤ 36 → (∀ c, (w.forebay i.val).chains.getLast? = some c → c.closed = true) →
      Completes (.chainArrival i hop packets true true colour none) s fun t => ∃ h',
        h'.forebays = w.forebays ∧ h'.regs = w.regs ∧
        (t.hub, t.reel) = if i.val = 22 then goOn (popOutbound h' hop) s.reel else (h', s.reel)) ∧
    (i.val = 20 → ∀ bad, (headSends s.hub hop = false → exec (.chainArrival i hop packets closed bad colour credit) s = .next s) ∧
      (headSends s.hub hop = true → Completes (.chainArrival i hop packets closed bad colour credit) s fun t =>
        t.hub = chainArrival (headPackets s.hub s.reel hop packets).1 20 hop (headPackets s.hub s.reel hop packets).2 closed bad colour credit 8))

/-- The chain at a Forebay head: with no entry for its key it is dropped, counted in MISS_COUNT and noted in MISS_LAST; one of a
CREDITED path under its own credit and with no policer, for whose packet a group has a cell, is stored on every target, and a running release of its path then discards it (R89,
R118, R131). A credit takes one cell on a path within its window while no Gate of it withholds credit and its egress has capacity; with no
cell free CREDIT_WAIT is raised (R117, R133, R135, R234). -/
def Obligations.AdmissionAndCredits : Prop :=
  ∀ (s : State) (i : Fin 24) (x : FbChain) (rest : List FbChain),
    ((s.hub.forebay i.val).chains = x :: rest → x.fate = .waiting → x.packets ≠ [] → s.hub.ready 3 = true →
      s.hub.chain s.hub.nextChain = none →
      (lookup s.hub i.val x.hop = none → Completes (.admitIngress i) s fun t => ∃ h' : Hub,
        Counted s.hub h' F.mill_MISS_COUNT_COUNT ∧ h'.Has F.mill_MISS_LAST_OUTLET i.val ∧ h'.Has F.mill_MISS_LAST_HOP x.hop ∧
        h'.bit (F.hdr_INT_STAT_EVENT Page.mill) 0 = true ∧ h'.chains = s.hub.chains ∧
        t.hub = settleXoffs (settleHead (returnCredit h' i.val x.hop x.credit x.packets.length) i.val
          (.dropped { discard0 with path := none }) [])) ∧
      (∀ p, lookup s.hub i.val x.hop = some p → pathTargets s.hub p x.entryPort ≠ [] →
        runLossy s.hub p = false → x.credit = some p → (allocCell s.hub).isSome = true → s.hub.aget (F.path_ROUTE_POLICE_PROFILE p) = 0 →
        Completes (.admitIngress i) s fun t => ∃ w : Hub,
          w = settleHead (storeChain s.hub p i.val x false x.colour 0 0 (pathTargets s.hub p x.entryPort) []).1 i.val
            (.storing s.hub.nextChain) (storeChain s.hub p i.val x false x.colour 0 0 (pathTargets s.hub p x.entryPort) []).2 ∧
          t.hub = settleXoffs (match w.chain s.hub.nextChain with
            | some c => if releasingPath w c.path then discardPath w c.path else w
            | none => w))) ∧
    (∀ p : Fin 1024, s.hub.ais (F.path_CTL_VALID p.val) = true → runLossy s.hub p.val = false → gateWithholds s.hub p.val = false →
      creditWithheld s.hub p.val = false →
      s.hub.fget (F.path_QUEUE_QUEUED p.val) + s.hub.fget (F.path_CREDIT_CRED_OUT p.val) < credWindow s.hub p.val →
      fbOcc (s.hub.forebay (s.hub.aget (F.path_CTL_IN_OUTLET p.val))) + 9216 +
        256 * (creditsOn s.hub (s.hub.aget (F.path_CTL_IN_OUTLET p.val)) + 1) ≤ 65536 →
      (s.hub.half (2 * s.hub.aget (F.path_CTL_IN_OUTLET p.val))).flush = false →
      (freeCells s.hub ≠ 0 → Completes (.creditGrant p) s fun t =>
        t.hub.credOn p.val (s.hub.aget (F.path_CTL_IN_OUTLET p.val)) = s.hub.credOn p.val (s.hub.aget (F.path_CTL_IN_OUTLET p.val)) + 1 ∧
        t.hub.Has (F.path_CREDIT_CRED_OUT p.val) (creditsOf t.hub (· / 32 == p.val)) ∧
        t.hub.out = s.hub.out ++ [.creditGrant (s.hub.aget (F.path_CTL_IN_OUTLET p.val)) p.val] ∧
        KeptBut [A.path_CREDIT p.val, A.hopper_FREE_LWM] s.hub t.hub) ∧
      (freeCells s.hub = 0 → Completes (.creditGrant p) s fun t =>
        t.hub.bit (F.hdr_INT_STAT_EVENT Page.hopper) 5 = true ∧ t.hub.out = s.hub.out ∧
        OthersKept (Page.hopper + 0x10) s.hub t.hub)) ∧
    (∀ p : Fin 1024, gateWithholds s.hub p.val = true ∨ s.hub.ais (F.path_CTL_VALID p.val) = false →
      exec (.creditGrant p) s = .next s)

/-- An outlet that selects a flow reads the next cell of the chain at the head of its queue toward the unit, which is one cell
read; a unit's domain that sleeps is woken first (R195–R200, R512). -/
def Obligations.OutletSelectReadsCell : Prop :=
  ∀ (s : State) (o : Fin 24) (w : Hub) (p id : Nat) (q : List Nat) (c : Chain) (k : Copy) (cell : HCell),
    w = (refreshOutlet s.hub o.val).setOutlet o.val { (refreshOutlet s.hub o.val).outlet o.val with dead := false } →
    (o.val < 20 → (s.hub.half (2 * o.val + 1)).flush = false ∧ ((refreshOutlet s.hub o.val).half (2 * o.val + 1)).flush = false) →
    (refreshOutlet s.hub o.val).outletOk o.val = true → (unitCap (refreshOutlet s.hub o.val) o.val).1 ≠ 0 →
    (w.outlet o.val).busy = none → select w o.val = some p → (w.flow p o.val).queue = id :: q →
    (copyAsleep w p o.val = true → Completes (.outletSelect o) s fun t => t.hub = settleXoffs (wakeCopy w p o.val)) ∧
    (copyAsleep w p o.val = false → w.chain id = some c → c.copies.find? (fun k => k.outlet == o.val && !k.closed) = some k →
      c.cells[k.sent]? = some cell → linkFails (storedLink w c k.sent cell) = false →
      Completes (.outletSelect o) s fun t => ∃ (h' : Hub) (e : XEntry),
        h'.txEntries o.val = w.txEntries o.val ++ [e] ∧ e.path = p ∧ e.chain = id ∧ e.bytes = cell.bytes ∧ e.hop = k.hop ∧
        e.lossy = c.lossy ∧ e.ingress = c.ingress ∧ h'.cellsRead = w.cellsRead + 1 ∧ t.hub = settleXoffs h' ∧ t.reel = s.reel)

/-- A departure takes the oldest copy from the TX half: PKT_OUT and SENT count it, and it is sent on unless a SHORT port discards it,
counted in PORT_DISCARDS, or its port stands down; a marked chain is counted and raised; while the chain is not whole, its copy counts one
more departed (R138, R145, R154, R225, R300, R555). No other field of the window changes by that; what the unit then does with it follows. An
ETH egress whose next cell does not come cuts its frame, and counts it marked; one that has a cell goes on, and a PCIe egress waits
(R140). -/
def Obligations.DeparturesAndCuts : Prop :=
  ∀ (s : State) (o : Fin 24),
    (∀ e rest tag data, s.hub.txEntries o.val = e :: rest → e.path < 1024 → (∀ c, s.hub.chain e.chain = some c → c.path = e.path) →
      Completes (.departure o tag data) s fun t => ∃ h' w : Hub,
      h'.txEntries o.val = rest ∧
      h'.pget (F.stats_PKT_OUT_COUNT_LO e.path) = (s.hub.pget (F.stats_PKT_OUT_COUNT_LO e.path) + 1) % 2 ^ 40 ∧
      h'.pget (F.sluiceOut_SENT_LO_COUNT o.val) = (s.hub.pget (F.sluiceOut_SENT_LO_COUNT o.val) + 1) % 2 ^ 40 ∧
      (e.marked = true → h'.bit (F.hdr_INT_STAT_EVENT Page.mill) 4 = true ∧
        h'.pget (F.mill_TAILMARKED_LO_COUNT o.val) = (s.hub.pget (F.mill_TAILMARKED_LO_COUNT o.val) + 1) % 2 ^ 40 ∧
        h'.pget (F.stats_TAILMARKED_COUNT_LO e.path) = (s.hub.pget (F.stats_TAILMARKED_COUNT_LO e.path) + 1) % 2 ^ 40) ∧
      (e.marked = false → KeptBut [A.stats_PKT_OUT e.path, A.stats_PKT_OUT_HI e.path, A.sluiceOut_SENT_LO o.val, A.sluiceOut_SENT_HI o.val,
        A.proj_PORT_DISCARDS e.inHop, A.path_QUEUE e.path, A.hopper_GROUPS, Page.hopper + 0x10] s.hub h') ∧
      (shortPort s.hub e o.val = none → portSilent s.hub e o.val = false → h'.out = s.hub.out ++ [.packet o.val e.path e.hop
        (if o.val = 14 ∨ o.val = 15 then ethWire s.hub (o.val - 14) e else e.bytes) e.last e.marked]) ∧
      ((shortPort s.hub e o.val).isSome = true ∨ portSilent s.hub e o.val = true → h'.out = s.hub.out) ∧
      (∀ p, shortPort s.hub e o.val = some p → Counted s.hub h' (F.proj_PORT_DISCARDS_COUNT p)) ∧
      (∀ c, s.hub.chain e.chain = some c → c.complete = false → h'.chain e.chain = some { c with copies := c.copies.map fun k =>
        if k.outlet == o.val then { k with departed := k.departed + 1, done := k.done || (k.closed && k.departed + 1 == k.sent) } else k }) ∧
      w = (if o.val = 18 ∨ o.val = 19 then sendFrame h' (o.val - 18) e.bytes else h') ∧
      (t.hub, t.reel) = (settleXoffs (reaches w s.reel o.val e (s.hub.chain e.chain) tag data).1,
        (reaches w s.reel o.val e (s.hub.chain e.chain) tag data).2)) ∧
    (∀ id c k, (s.hub.outlet o.val).busy = some id → s.hub.chain id = some c → o.val = 14 ∨ o.val = 15 →
      c.copies.find? (fun k => k.outlet == o.val && !k.closed) = some k → c.path < 1024 →
      (k.sent < c.cells.length → Completes (.cutThroughTimeout o) s fun t => t.hub = settleXoffs s.hub ∧ t.reel = s.reel) ∧
      (c.cells.length ≤ k.sent → Completes (.cutThroughTimeout o) s fun t => t.reel = s.reel ∧ ∃ h' : Hub,
        h'.out = s.hub.out ++ [.frameCut o.val] ∧ h'.bit (F.hdr_INT_STAT_EVENT Page.mill) 4 = true ∧ h'.chains = s.hub.chains ∧
        h'.pget (F.mill_TAILMARKED_LO_COUNT o.val) = (s.hub.pget (F.mill_TAILMARKED_LO_COUNT o.val) + 1) % 2 ^ 40 ∧
        h'.pget (F.stats_TAILMARKED_COUNT_LO c.path) = (s.hub.pget (F.stats_TAILMARKED_COUNT_LO c.path) + 1) % 2 ^ 40 ∧
        KeptBut [A.mill_TAILMARKED_LO o.val, A.mill_TAILMARKED_HI o.val, A.stats_TAILMARKED c.path, A.stats_TAILMARKED_HI c.path,
          Page.mill + 0x10] s.hub h' ∧
        t.hub = settleXoffs (refreshOutlet (closeCopy (chargeChain h' o.val c.path k.sent) c.id o.val false) o.val))) ∧
    (o.val ≠ 14 → o.val ≠ 15 → Completes (.cutThroughTimeout o) s fun t => t.hub = settleXoffs s.hub ∧ t.reel = s.reel)

/-- Patrol scrub of the active groups corrects a single-bit error and reports a double-bit one (R148); an audit runs from GO to its end, when the cells that
it found unreachable return (R151); INJECT arms its corruption (R152); ACTIVE changes CAPACITY, and an inactive group that
holds no cell is drained (R132). -/
def Obligations.HopperUpkeep : Prop :=
  ∀ (s : State) (req : Req),
    (∀ cell c k, s.hub.fget F.hopper_SCRUB_PERIOD_MS ≠ 0 → (activeGroups s.hub).testBit (cell / 12288) = true →
      s.hub.chains.find? (fun c => c.cells.any (·.num == cell)) = some c → c.cells.find? (·.num == cell) = some k →
      Completes (.patrolScrub cell 0) s fun t =>
        (k.single = true → t.hub.bit (F.hdr_INT_STAT_EVENT Page.hopper) 0 = true) ∧
        (k.single = true → k.double = false → t.hub.chains = s.hub.chains.map fun x =>
          if x.id == c.id then { c with cells := c.cells.map fun x => if x.num == cell then { x with single := false } else x } else x) ∧
        (k.double = true → t.hub.bit (F.hdr_INT_STAT_EVENT Page.hopper) 1 = true ∧ Counted s.hub t.hub F.hopper_ECC_UNCORR_COUNT) ∧
        (k.single = false → k.double = false → t = s)) ∧
    (∀ cell, s.hub.fget F.hopper_SCRUB_PERIOD_MS = 0 ∨ (activeGroups s.hub).testBit (cell / 12288) = false →
      exec (.patrolScrub cell 0) s = .next s) ∧
    (∀ auto : Bool, Writes s req A.hopper_AUDIT → Completes (.auditGo req auto) s fun t =>
      t.hub.is F.hopper_AUDIT_GO = true ∧ t.hub.is F.hopper_AUDIT_BUSY = true ∧ t.hub.is F.hopper_AUDIT_AUTO = auto ∧
      t.hub.marked = (if s.hub.is F.hopper_AUDIT_BUSY then s.hub.marked else s.hub.leaked) ∧
      OthersKept A.hopper_AUDIT s.hub t.hub) ∧
    (s.hub.is F.hopper_AUDIT_BUSY = true → Completes .auditDone s fun t =>
      t.hub.is F.hopper_AUDIT_BUSY = false ∧ t.hub.is F.hopper_AUDIT_GO = false ∧
      t.hub.Has F.hopper_AUDIT_RECLAIMED_CELLS s.hub.marked.length ∧ t.hub.bit (F.hdr_INT_STAT_EVENT Page.hopper) 3 = true ∧
      t.hub.leaked = s.hub.leaked.filter (fun x => !s.hub.marked.contains x)) ∧
    (Writes s req A.hopper_INJECT →
      (Completes (.injectSingle req) s fun t => t.hub.is F.hopper_INJECT_SINGLE = true ∧
        t.hub.Has F.hopper_INJECT_DOUBLE (s.hub.fget F.hopper_INJECT_DOUBLE) ∧
        t.hub.Has F.hopper_INJECT_LINK (s.hub.fget F.hopper_INJECT_LINK) ∧ OthersKept A.hopper_INJECT s.hub t.hub) ∧
      (Completes (.injectDouble req) s fun t => t.hub.is F.hopper_INJECT_DOUBLE = true ∧
        t.hub.Has F.hopper_INJECT_SINGLE (s.hub.fget F.hopper_INJECT_SINGLE) ∧
        t.hub.Has F.hopper_INJECT_LINK (s.hub.fget F.hopper_INJECT_LINK) ∧ OthersKept A.hopper_INJECT s.hub t.hub) ∧
      (Completes (.injectLink req) s fun t => t.hub.is F.hopper_INJECT_LINK = true ∧
        t.hub.Has F.hopper_INJECT_SINGLE (s.hub.fget F.hopper_INJECT_SINGLE) ∧
        t.hub.Has F.hopper_INJECT_DOUBLE (s.hub.fget F.hopper_INJECT_DOUBLE) ∧ OthersKept A.hopper_INJECT s.hub t.hub)) ∧
    (∀ groups : Byte, Writes s req A.hopper_GROUPS → Completes (.groupsActiveWrite req groups) s fun t =>
      t.hub.fget F.hopper_GROUPS_ACTIVE = (if groups.toNat = 0 then 1 else groups.toNat) ∧
      t.hub.Has F.hopper_CAPACITY_CELLS (12288 * ((List.range 8).filter (if groups.toNat = 0 then 1 else groups.toNat).testBit).length) ∧
      (∀ g, g < 8 → t.hub.bit F.hopper_GROUPS_DRAINED g =
        (!((if groups.toNat = 0 then 1 else groups.toNat).testBit g) && groupHeld s.hub g == 0)))

/-- A write of a table entry lands in its staged copy and leaves the active one; a write of CTL, of BITMAP on MCAST, sets PENDING
(R124, R142, R228); the counters of PATH_STATS are live and take 40 bits at once from an 8-byte write (R62, R154); the profiles 0
ignore writes (R223).
A read of a high-water or low-water mark answers with it and restarts it from the present value of what it tracks (R12):
FOREBAY_HWM, FREE_LWM, COMPUTE_MAX and DEPTH_HWM. -/
def Obligations.TableWritesAndMarks : Prop :=
  (∀ (s : State) (req : Req) (v : BitVec 64),
      (∀ (p : Fin 1024) (w : Fin 16), Writes s req (Page.path + 64 * p.val + 4 * w.val) →
        Completes (.pathEntryWrite req p w false v) s fun t =>
          Takes t.hub (Page.path + 64 * p.val + 4 * w.val) (v.toNat % 2 ^ 32) ∧
          OthersKept (Page.path + 64 * p.val + 4 * w.val) s.hub t.hub ∧ t.hub.active = s.hub.active ∧
          (w.val = 0 → t.hub.is (F.path_CTL_PENDING p.val) = true)) ∧
      (∀ (g : Fin 256) (w : Fin 4), Writes s req (Page.mcast + 16 * g.val + 4 * w.val) →
        Completes (.mcastWrite req g w false v) s fun t =>
          Takes t.hub (Page.mcast + 16 * g.val + 4 * w.val) (v.toNat % 2 ^ 32) ∧ t.hub.active = s.hub.active ∧
          KeptBut [Page.mcast + 16 * g.val + 4 * w.val, A.mcast_HOP g.val] s.hub t.hub ∧
          (w.val = 0 → t.hub.is (F.mcast_HOP_PENDING g.val) = true)) ∧
      (∀ (w : Fin 16), Writes s req (Page.wred + 256 * w.val) →
        Completes (.profileWrite req (BitVec.ofNat 32 (Page.wred + 256 * w.val)) false v) s fun t =>
          t.hub.active = s.hub.active ∧ OthersKept (Page.wred + 256 * w.val) s.hub t.hub ∧
          (w.val = 0 → ∀ g, t.hub.fget g = s.hub.fget g) ∧
          (w.val ≠ 0 → Takes t.hub (Page.wred + 256 * w.val) (v.toNat % 2 ^ 32) ∧ t.hub.is (F.wred_CTL_PENDING w.val) = true)) ∧
      (∀ (w : Fin 64), Writes s req (Page.policer + 64 * w.val) →
        Completes (.profileWrite req (BitVec.ofNat 32 (Page.policer + 64 * w.val)) false v) s fun t =>
          t.hub.active = s.hub.active ∧ OthersKept (Page.policer + 64 * w.val) s.hub t.hub ∧
          (w.val = 0 → ∀ g, t.hub.fget g = s.hub.fget g) ∧
          (w.val ≠ 0 → Takes t.hub (Page.policer + 64 * w.val) (v.toNat % 2 ^ 32) ∧ t.hub.is (F.policer_CTL_PENDING w.val) = true)) ∧
      (∀ (p : Fin 1024) (n : Fin 7), WritesLong s req (Page.stats + 64 * p.val + 8 * n.val) →
        Completes (.counterWrite req (BitVec.ofNat 32 (Page.stats + 64 * p.val + 8 * n.val)) true v) s fun t =>
          t.hub.pget ⟨Page.stats + 64 * p.val + 8 * n.val, 0, 32⟩ = v.toNat % 2 ^ 40 ∧
          KeptBut [Page.stats + 64 * p.val + 8 * n.val, Page.stats + 64 * p.val + 8 * n.val + 4] s.hub t.hub)) ∧
  (∀ (s : State) (req : Req),
      (Reads s req A.mill_FOREBAY_HWM → Answers (.forebayHwm req) s req A.mill_FOREBAY_HWM fun t =>
        (t.hub.forebay (s.hub.fget F.mill_FOREBAY_SEL_INGRESS)).hwm = fbOcc (s.hub.forebay (s.hub.fget F.mill_FOREBAY_SEL_INGRESS)) ∧
        ∀ g, t.hub.fget g = s.hub.fget g) ∧
      (Reads s req A.hopper_FREE_LWM → Answers (.freeLwm req) s req A.hopper_FREE_LWM fun t =>
        t.hub.Has F.hopper_FREE_LWM_CELLS (freeCells s.hub) ∧ OthersKept A.hopper_FREE_LWM s.hub t.hub) ∧
      (Reads s req A.sluice_COMPUTE_MAX → Answers (.computeMax req) s req A.sluice_COMPUTE_MAX fun t =>
        t.hub.Has F.sluice_COMPUTE_MAX_NS (s.hub.fget F.sluice_COMPUTE_TIME_NS) ∧ OthersKept A.sluice_COMPUTE_MAX s.hub t.hub) ∧
      (∀ o : Fin 24, Reads s req (A.sluiceOut_DEPTH_HWM o.val) → Answers (.depthHwm req o) s req (A.sluiceOut_DEPTH_HWM o.val) fun t =>
        t.hub.Has (F.sluiceOut_DEPTH_HWM_CELLS o.val) (queuedAt s.hub o.val none) ∧
        OthersKept (A.sluiceOut_DEPTH_HWM o.val) s.hub t.hub))

/-- A turn boundary applies pending owners and opens a new turn: TURN is raised, a refill point is due 640 ticks later, and a computation
begins while RUN = 1; a Sluice in NAP or OFF misses the boundary (R51, R161, R164, R166, R190); the hub's own
entries that are missing are tried again (R333, R369, R402). A completed computation reports its time and the highest so far (R181). At the refill
point the rates computed apply, or the computation is late (R162, R167, R182); then staged entries and shadows apply. -/
def Obligations.TurnsGoOn : Prop :=
  ∀ s : State,
    (s.hub.power.shelf ≠ 2 → Completes .turnBoundary s fun t => ∃ w h' : Hub,
      w = applyOwners (advanceTo s.hub (boundaryTime s.hub)) ∧ h'.bit (F.hdr_INT_STAT_EVENT Page.sluice) 4 = true ∧ h'.turn.refillPending = true ∧ h'.turn.computed = false ∧
      h'.turn.lastBoundary = some w.time ∧ h'.turn.refillAt = w.time + 640 ∧
      (2 ≤ (w.dom 3).state → h'.turn.missed = true ∧ h'.turn.computing = false ∧
        KeptBut [Page.sluice + 0x10, A.mill_UTIL_WR, A.mill_UTIL_RD] w h') ∧
      ((w.dom 3).state ≤ 1 → h'.turn.missed = false ∧ h'.turn.computing = w.is F.sluice_CTL_RUN) ∧
      (t.hub, t.reel) = goOn (settleSys (settleXoffs (fabricBoundary (reelBoundary h')))) s.reel) ∧
    (∀ ns, s.hub.turn.computing = true → s.hub.turn.computed = false → s.hub.is F.sluice_CTL_RUN = true →
      Completes (.allotmentComputed ns) s fun t =>
      t.hub.turn.computed = true ∧ t.hub.Has F.sluice_COMPUTE_TIME_NS ns ∧
      t.hub.Has F.sluice_COMPUTE_MAX_NS (max (s.hub.fget F.sluice_COMPUTE_MAX_NS) ns)) ∧
    (s.hub.turn.refillPending = true → (s.hub.dom 3).state ≤ 1 →
      Completes .refillPoint s fun t => ∃ h' : Hub,
        h'.turn.refillPending = false ∧ h'.ftime = (s.hub.ftime + (s.hub.turn.refillAt - s.hub.time)) % 2 ^ 40 ∧ 
        t.hub = settleXoffs (settleBound (refillApplies h')) ∧
        (s.hub.is F.sluice_CTL_RUN = true → s.hub.turn.began = true → s.hub.turn.computed = false →
          Counted s.hub h' F.sluice_LATE_COUNT_COUNT ∧ h'.is F.sluice_STAT_LATE_LAST = true ∧
          h'.bit (F.hdr_INT_STAT_EVENT Page.sluice) 1 = true) ∧
        (s.hub.is F.sluice_CTL_RUN = true → s.hub.turn.began = true → s.hub.turn.computed = true →
          h'.is F.sluice_STAT_LATE_LAST = false ∧
          ∀ p ∈ validPaths s.hub, h'.Has (F.path_ALLOT_ALLOT p) (s.hub.pst p).next) ∧
        (s.hub.is F.sluice_CTL_RUN = false ∨ s.hub.turn.began = false → ∀ g, h'.fget g = s.hub.fget g))

/-- TURN_PHASE takes a value below 8,000 on a hub that is not a child; a child's follows its head (R189, R694). A shaper that has accumulated a token
earns it, up to its cap (R204, R206). A PAUSE or PFC frame is counted; while the hub honours it RX_PAUSED follows, and expiry
ends the pause (R324, R325). -/
def Obligations.PhaseTokensAndPauses : Prop :=
  ∀ (s : State),
    (∀ (req : Req) (ticks : Word), Writes s req A.sluice_TURN_PHASE → Completes (.turnPhaseWrite req ticks) s fun t =>
      (s.hub.fget F.fabric_STATE_ROLE_NOW ≠ 2 → ticks.toNat % 8192 < 8000 →
        t.hub.fget F.sluice_TURN_PHASE_TICKS = ticks.toNat % 8192 ∧ t.hub.turn.lastBoundary = some s.hub.time) ∧
      (s.hub.fget F.fabric_STATE_ROLE_NOW = 2 ∨ 8000 ≤ ticks.toNat % 8192 → ∀ g, t.hub.fget g = s.hub.fget g) ∧
      OthersKept A.sluice_TURN_PHASE s.hub t.hub) ∧
    (∀ (p : Fin 1024) (o : Fin 24), (s.hub.flow p.val o.val).live = true → 2048000 ≤ (s.hub.flow p.val o.val).acc →
      Completes (.tokenEarned (.flow p o)) s fun t => ∃ h' : Hub,
        (h'.flow p.val o.val).tokens = min ((s.hub.flow p.val o.val).tokens + 1) (flowCap s.hub p.val o.val) ∧
        (h'.flow p.val o.val).acc = (s.hub.flow p.val o.val).acc - 2048000 ∧ h'.regs = s.hub.regs ∧ t.hub = refreshOutlet h' o.val) ∧
    (∀ (o : Fin 24) (c : Fin 2), 2048000 ≤ (s.hub.cls o.val c.val).acc → Completes (.tokenEarned (.cls o c)) s fun t => ∃ h' : Hub,
      (h'.cls o.val c.val).tokens = min ((s.hub.cls o.val c.val).tokens + 1) (classCap s.hub o.val c.val) ∧
      (h'.cls o.val c.val).acc = (s.hub.cls o.val c.val).acc - 2048000 ∧ h'.regs = s.hub.regs ∧ t.hub = refreshOutlet h' o.val) ∧
    (∀ (mac : Fin 2) (xoff xon : Byte),
      (s.hub.is (F.ethmac_PFC_CTL_HONOUR mac.val) = false → ∀ pfc, Completes (.pauseReceived mac pfc xoff xon) s fun t =>
        Counted s.hub t.hub (F.ethmac_PAUSE_CNT_RX mac.val) ∧ t.hub.bit (F.hdr_INT_STAT_EVENT (Page.ethmac mac.val)) 3 = true ∧
        KeptBut [A.ethmac_PAUSE_CNT mac.val, Page.ethmac mac.val + 0x10] s.hub t.hub) ∧
      (s.hub.is (F.ethmac_PFC_CTL_HONOUR mac.val) = true → Completes (.pauseReceived mac false xoff xon) s fun t => ∃ h' : Hub,
        Counted s.hub h' (F.ethmac_PAUSE_CNT_RX mac.val) ∧
        h'.fget (F.ethmac_STATUS_RX_PAUSED mac.val) = (if xoff = 0 then 0 else 0xFF) ∧
        h'.net.pauseAll.testBit mac.val = (xoff != 0) ∧ t.hub = settlePause h' mac.val) ∧
      (s.hub.is (F.ethmac_PFC_CTL_HONOUR mac.val) = true → Completes (.pauseReceived mac true xoff xon) s fun t => ∃ h' : Hub,
        Counted s.hub h' (F.ethmac_PAUSE_CNT_RX mac.val) ∧
        (∀ p, p < 8 → h'.bit (F.ethmac_STATUS_RX_PAUSED mac.val) p =
          ((s.hub.bit (F.ethmac_STATUS_RX_PAUSED mac.val) p || xoff.getLsbD p) && !(xon.getLsbD p))) ∧
        h'.net.pauseAll = s.hub.net.pauseAll ∧ t.hub = settlePause h' mac.val) ∧
      (s.hub.net.pauseAll.testBit mac.val = true → Completes (.pauseExpiry mac none) s fun t => ∃ h' : Hub,
        h'.fget (F.ethmac_STATUS_RX_PAUSED mac.val) = 0 ∧ h'.net.pauseAll.testBit mac.val = false ∧
        t.hub = settlePause h' mac.val) ∧
      (∀ prio : Fin 8, s.hub.net.pauseAll.testBit mac.val = false → Completes (.pauseExpiry mac (some prio)) s fun t => ∃ h' : Hub,
        h'.bit (F.ethmac_STATUS_RX_PAUSED mac.val) prio.val = false ∧ t.hub = settlePause h' mac.val))

/-! ## Gates and Reel memory (R229–R269) -/

/-- A write of GATE.CTL that enables a Gate whose takes do not fit leaves EN at 0 with CFG_FAULT (R245); any other takes its values, FORMAT
and TAKES of an enabled Gate excepted, whose change is a CFG_FAULT (R244), and the Gate settles, with the credit that it withholds (R34). EDID_CTL.VALID that rises while HPD is
high starts the low pulse and ends the link; after the pulse HPD rises again (R238). -/
def Obligations.GateEnableAndHpd : Prop :=
  ∀ (s : State) (req : Req) (g : Fin 4) (ctl : Word),
    (Writes s req (A.gate_CTL g.val) →
      (s.hub.is (F.gate_CTL_EN g.val) = false → Completes (.gateEnable req g ctl) s fun t => ∃ h' : Hub,
        Takes h' (A.gate_CTL g.val) ctl.toNat ∧ OthersKept (A.gate_CTL g.val) s.hub h' ∧
        (h'.is (F.gate_CTL_EN g.val) = true → takesOk h' g.val = false →
          t.hub.is (F.gate_CTL_EN g.val) = false ∧ t.hub.bit (F.hdr_INT_STAT_EVENT (Page.gate g.val)) 5 = true ∧
          KeptBut [A.gate_CTL g.val, A.gate_PITCH g.val, A.gate_TAKE_SIZE g.val, Page.gate g.val + 0x10] s.hub t.hub) ∧
        (h'.is (F.gate_CTL_EN g.val) = false ∨ takesOk h' g.val = true → ∃ w : Hub,
          w.is (F.gate_CTL_EN g.val) = h'.is (F.gate_CTL_EN g.val) ∧
          (h'.is (F.gate_CTL_EN g.val) = true → w.is (F.gate_STATUS_NEWEST_VALID g.val) = false) ∧
          w.Has (F.gate_TAKE_SIZE_PAGES g.val) (takePages h' g.val) ∧
          t.hub = dvfsSettle (settleHeld (settleGate (enforceFloor (enforceFloor w (13 + g.val)) 12) g.val) g.val))) ∧
      (s.hub.is (F.gate_CTL_EN g.val) = true → Completes (.gateEnable req g ctl) s fun t => ∃ w : Hub,
        w.is (F.gate_CTL_EN g.val) = ctl.getLsbD 0 ∧ w.is (F.gate_CTL_BW_AUTO g.val) = ctl.getLsbD 9 ∧
        w.Has (F.gate_CTL_FORMAT g.val) (s.hub.fget (F.gate_CTL_FORMAT g.val)) ∧
        w.Has (F.gate_CTL_TAKES g.val) (s.hub.fget (F.gate_CTL_TAKES g.val)) ∧
        (ctl.toNat / 2 % 4 ≠ s.hub.fget (F.gate_CTL_FORMAT g.val) ∨ ctl.toNat / 8 % 8 ≠ s.hub.fget (F.gate_CTL_TAKES g.val) →
          w.bit (F.hdr_INT_STAT_EVENT (Page.gate g.val)) 5 = true) ∧
        t.hub = dvfsSettle (settleHeld (settleGate (enforceFloor (enforceFloor w (13 + g.val)) 12) g.val) g.val))) ∧
    (Writes s req (A.gate_EDID_CTL g.val) → Completes (.edidValid req g ctl) s fun t => ∃ h' : Hub,
      Takes h' (A.gate_EDID_CTL g.val) ctl.toNat ∧ OthersKept (A.gate_EDID_CTL g.val) s.hub h' ∧
      (s.hub.is (F.gate_EDID_CTL_VALID g.val) = false → ctl.getLsbD 3 = true → (s.hub.gateSt g.val).hpd = true → ∃ w : Hub,
        (w.gateSt g.val).pulse = true ∧ (w.gateSt g.val).hpd = false ∧ w.out = s.hub.out ++ [.gateHpd g.val false] ∧
        w.regs = h'.regs ∧ t.hub = gateLinkLost w g.val) ∧
      (s.hub.is (F.gate_EDID_CTL_VALID g.val) = true ∨ ctl.getLsbD 3 = false ∨ (s.hub.gateSt g.val).hpd = false →
        t.hub = settleGate h' g.val)) ∧
    ((s.hub.gateSt g.val).pulse = true → Completes (.hpdPulseEnd g) s fun t => ∃ h' : Hub,
      (h'.gateSt g.val).pulse = false ∧ h'.regs = s.hub.regs ∧ t.hub = settleGate h' g.val)

/-- While a Gate is not DISABLED an AUX read of its EDID answers those bytes, a read of its DPCD as many bytes as asked for, 0 at every
address without a field, a write an acknowledgement (R236, R237). A training within what the Gate advertises succeeds at once and leads to LINKED (R235). -/
def Obligations.GateAuxAndTraining : Prop :=
  ∀ (s : State) (g : Fin 4), gateState s.hub g.val ≠ 0 →
    (∀ off len, Completes (.auxRequest g (.edidRead off len)) s fun t =>
      t.hub.out = s.hub.out ++ [.auxReply g.val (((edidBytes s.hub g.val).drop off).take len)] ∧ t.hub.regs = s.hub.regs) ∧
    (∀ addr len, Completes (.auxRequest g (.dpcdRead addr len)) s fun t =>
      t.hub.out = s.hub.out ++ [.auxReply g.val ((List.range len).map fun k => dpcdByte s.hub g.val (addr + k))] ∧
      (∀ k, Config.dpcdField (addr + k) = 0 → dpcdByte s.hub g.val (addr + k) = 0) ∧ t.hub.regs = s.hub.regs) ∧
    (∀ addr bs, Completes (.auxRequest g (.dpcdWrite addr bs)) s fun t =>
      t.hub.out = s.hub.out ++ [.auxReply g.val []] ∧ t.hub.regs = s.hub.regs) ∧
    (∀ rate lanes, gateState s.hub g.val ≤ 2 → (s.hub.gateSt g.val).hpd = true → rate ≤ gateMaxRate s.hub g.val →
      lanes ≤ lanesOf (s.hub.fget (F.gate_DP_CAP_LANES g.val)) → lanes = 1 ∨ lanes = 2 ∨ lanes = 4 →
      Completes (.linkTraining g rate lanes) s fun t =>
        t.hub.fget (F.gate_STATUS_STATE g.val) = 2 ∧ (t.hub.gateSt g.val).rate = rate ∧ (t.hub.gateSt g.val).lanes = lanes ∧
        t.hub.is (F.gate_STATUS_CREDIT_HELD g.val) = heldNow t.hub g.val ∧
        KeptBut [A.gate_STATUS g.val, Page.gate g.val + 0x10] s.hub t.hub)

/-- The first valid MSA of a LINKED Gate starts a stream that fits, with its size reported and its bandwidth requested under BW_AUTO, or is refused
and counted (R239, R253); a stream that ends or changes returns the Gate to LINKED and abandons its frame, a lost link to state 1 (R239, R248). Panel
Replay leads to STATIC and back (R239); after IDLE_MS there the request falls to FLOOR (R253). A grant sets RESERVED_RATE of the bound
path, staged with CTL last (R254). -/
def Obligations.GateStreams : Prop :=
  ∀ (s : State) (g : Fin 4),
    (∀ m, gateState s.hub g.val = 2 →
      (streamFits s.hub g.val m = true → Completes (.streamUp g m) s fun t =>
        t.hub.fget (F.gate_STATUS_STATE g.val) = 3 ∧ t.hub.Has (F.gate_FRAME_SIZE_H g.val) m.h ∧
        t.hub.Has (F.gate_FRAME_SIZE_V g.val) m.v ∧ (t.hub.gateSt g.val).msa = some m ∧
        t.hub.bit (F.hdr_INT_STAT_EVENT (Page.gate g.val)) 1 = true ∧
        (s.hub.is (F.gate_CTL_BW_AUTO g.val) = true →
          t.hub.Has (F.gate_BW_REQ_MBPS g.val) m.mbps ∧ t.hub.out = s.hub.out ++ [.bwRequest g.val (m.mbps % 2 ^ 17)]) ∧
        (s.hub.is (F.gate_CTL_BW_AUTO g.val) = false → t.hub.out = s.hub.out)) ∧
      (streamFits s.hub g.val m = false → Completes (.streamUp g m) s fun t =>
        t.hub.fget (F.gate_STATUS_STATE g.val) = 5 ∧ Counted s.hub t.hub (F.gate_ABANDONED_REFUSED g.val) ∧
        t.hub.bit (F.hdr_INT_STAT_EVENT (Page.gate g.val)) 4 = true ∧ t.hub.out = s.hub.out)) ∧
    (∀ why, why ≠ .linkLost → 3 ≤ gateState s.hub g.val → Completes (.streamDown g why) s fun t =>
      t.hub.fget (F.gate_STATUS_STATE g.val) = 2 ∧ (t.hub.gateSt g.val).msa = none ∧ (t.hub.gateSt g.val).frame = none ∧
      t.hub.is (F.gate_STATUS_CREDIT_HELD g.val) = heldNow t.hub g.val ∧ t.hub.bit (F.hdr_INT_STAT_EVENT (Page.gate g.val)) 2 = true) ∧
    (2 ≤ gateState s.hub g.val → Completes (.streamDown g .linkLost) s fun t =>
      t.hub.fget (F.gate_STATUS_STATE g.val) = 1 ∧ (t.hub.gateSt g.val).msa = none ∧ (t.hub.gateSt g.val).rate = 0 ∧
      (t.hub.gateSt g.val).lanes = 0 ∧ (t.hub.gateSt g.val).frame = none) ∧
    (gateState s.hub g.val = 3 → s.hub.is (F.gate_CTL_PR_CAP g.val) = true → Completes (.prEnter g) s fun t =>
      t.hub.fget (F.gate_STATUS_STATE g.val) = 4 ∧ t.hub.bit (F.hdr_INT_STAT_EVENT (Page.gate g.val)) 6 = true ∧
      KeptBut [A.gate_STATUS g.val, Page.gate g.val + 0x10] s.hub t.hub) ∧
    (gateState s.hub g.val = 4 → Completes (.prExit g) s fun t =>
      t.hub.fget (F.gate_STATUS_STATE g.val) = 3 ∧ t.hub.bit (F.hdr_INT_STAT_EVENT (Page.gate g.val)) 7 = true ∧
      (∀ m, (s.hub.gateSt g.val).msa = some m → s.hub.is (F.gate_CTL_BW_AUTO g.val) = true →
        t.hub.Has (F.gate_BW_REQ_MBPS g.val) m.mbps ∧ t.hub.out = s.hub.out ++ [.bwRequest g.val (m.mbps % 2 ^ 17)])) ∧
    (gateState s.hub g.val = 4 → s.hub.fget (F.gate_BW_IDLE_MS g.val) ≠ 0 → s.hub.is (F.gate_CTL_BW_AUTO g.val) = true →
      Completes (.bwIdleDecrease g) s fun t =>
        t.hub.Has (F.gate_BW_REQ_MBPS g.val) (s.hub.fget (F.gate_BW_FLOOR g.val)) ∧
        t.hub.out = s.hub.out ++ [.bwRequest g.val (s.hub.fget (F.gate_BW_FLOOR g.val) % 2 ^ 17)] ∧
        OthersKept (A.gate_BW_REQ g.val) s.hub t.hub) ∧
    (∀ mbps, Completes (.bwGrant g mbps) s fun t =>
      t.hub.Has (F.gate_BW_GRANT_MBPS g.val) mbps ∧
      (s.hub.fget (F.gate_BW_GRANT_MBPS g.val) ≠ mbps % 2 ^ 17 → t.hub.bit (F.hdr_INT_STAT_EVENT (Page.gate g.val)) 8 = true) ∧
      (s.hub.is (F.gate_BIND_BOUND g.val) = true →
        t.hub.Has (F.path_RSV_RESERVED_RATE (s.hub.fget (F.gate_BIND_PATH g.val)))
          (min (256 * grantPackets (mbps % 2 ^ 17)) (2 ^ 24 - 1)) ∧
        t.hub.is (F.path_CTL_PENDING (s.hub.fget (F.gate_BIND_PATH g.val))) = true) ∧
      (s.hub.is (F.gate_BIND_BOUND g.val) = false → KeptBut [A.gate_BW_GRANT g.val, Page.gate g.val + 0x10] s.hub t.hub))

/-- A full frame opens while the stream is on and a selective-update frame while STATIC with SU_CAP = 1, in a take that is neither latched nor
newest, with the fewest dirty bands, or ingest credit is withheld until there is one (R33, R34, R239, R246). At the clapper the take becomes newest, the other takes' bands of the frame are dirty and the signature is reported (R247,
R249, R255). The catch-up engine copies the band that stalled pixels wait for, which then land, else in STATIC the lowest dirty band, and marks
it clean (R250, R251). -/
def Obligations.FramesAndTakes : Prop :=
  ∀ (s : State) (g : Fin 4),
    (∀ su regions, frameFits s.hub g.val su = true → (s.hub.gateSt g.val).frame = none → (s.hub.gateSt g.val).stalled = [] →
      (∀ k, chooseTake s.hub g.val (allowedTakes s.hub g.val) = some k → Completes (.frameStart g su regions) s fun t =>
        t.hub.Has (F.gate_STATUS_WRITING g.val) k ∧ t.hub.is (F.gate_STATUS_WRITE_ACTIVE g.val) = true ∧
        t.hub.is (F.gate_STATUS_CREDIT_HELD g.val) = false ∧
        (t.hub.gateSt g.val).frame = some { su := su, crc := crcStart, coded := []
                                            bands := if su then regions.foldl (fun n r => n ||| regionBands r) 0 else allBands s.hub g.val } ∧
        takeLatched s.hub g.val k = false ∧
        (s.hub.is (F.gate_STATUS_NEWEST_VALID g.val) = true → s.hub.fget (F.gate_STATUS_NEWEST g.val) ≠ k) ∧
        OthersKept (A.gate_STATUS g.val) s.hub t.hub) ∧
      (allowedTakes s.hub g.val = [] → Completes (.frameStart g su regions) s fun t =>
        t.hub.is (F.gate_STATUS_CREDIT_HELD g.val) = true ∧ (t.hub.gateSt g.val).frame = none ∧
        (s.hub.is (F.gate_STATUS_CREDIT_HELD g.val) = false → t.hub.bit (F.hdr_INT_STAT_EVENT (Page.gate g.val)) 9 = true))) ∧
    (∀ f, (s.hub.gateSt g.val).frame = some f → (s.hub.gateSt g.val).stalled = [] →
      (f.su && dirtyOf (s.hub.gateSt g.val) (s.hub.fget (F.gate_STATUS_WRITING g.val)) != 0) = false →
      Completes (.clapper g) s fun t =>
        t.hub.Has (F.gate_STATUS_NEWEST g.val) (s.hub.fget (F.gate_STATUS_WRITING g.val)) ∧
        t.hub.is (F.gate_STATUS_NEWEST_VALID g.val) = true ∧ t.hub.is (F.gate_STATUS_WRITE_ACTIVE g.val) = false ∧
        (t.hub.gateSt g.val).frame = none ∧
        (t.hub.gateSt g.val).dirty = (List.range 4).map (fun k => if k == s.hub.fget (F.gate_STATUS_WRITING g.val) || takeCount s.hub g.val ≤ k then 0
          else dirtyOf (s.hub.gateSt g.val) k ||| f.bands) ∧
        t.hub.Has (F.gate_CLAP_COUNT_COUNT g.val) (s.hub.fget (F.gate_CLAP_COUNT_COUNT g.val) + 1) ∧
        t.hub.fget (F.gate_ING_SIG_CRC g.val) = (~~~ f.crc).toNat ∧ t.hub.is (F.gate_SIG_INFO_FULL g.val) = !f.su ∧
        t.hub.bit (F.hdr_INT_STAT_EVENT (Page.gate g.val)) 0 = true ∧ t.reel = s.reel) ∧
    (∀ b l, s.hub.is (F.gate_STATUS_NEWEST_VALID g.val) = true → s.hub.domOn 12 = true →
      bandsDue s.hub g.val (s.hub.gateSt g.val).stalled = b :: l →
      Completes (.catchUpBand g) s fun t => ∃ r, r = copyBand s.hub s.reel g.val (s.hub.fget (F.gate_STATUS_WRITING g.val)) b ∧
        (t.hub, t.reel) = landStalled r.1 r.2 g.val) ∧
    (∀ k b, gateState s.hub g.val = 4 → s.hub.is (F.gate_STATUS_NEWEST_VALID g.val) = true → s.hub.domOn 12 = true →
      bandsDue s.hub g.val (s.hub.gateSt g.val).stalled = [] → chooseTake s.hub g.val (catchUpTakes s.hub g.val) = some k →
      firstDirty (dirtyOf (s.hub.gateSt g.val) k) = some b →
      Completes (.catchUpBand g) s fun t => ∃ h' : Hub, h'.gates = s.hub.gates ∧ (t.hub, t.reel) = copyBand h' s.reel g.val k b ∧
        (t.hub.gateSt g.val).dirty =
          (s.hub.gateSt g.val).dirty.set k (withBit (dirtyOf (s.hub.gateSt g.val) k) b false))

/-- The patrol scrub of a block mends its single-bit error and notes what it read (R268); REEL.INJECT arms a corruption of the next block
written; UTIL_HWM restarts from UTIL when it is read (R12, R268). -/
def Obligations.ReelUpkeep : Prop :=
  ∀ (s : State) (req : Req),
    (∀ b, s.hub.fget F.reel_SCRUB_PERIOD_S ≠ 0 → b < 2 ^ 26 → Completes (.reelPatrol b) s fun t =>
      badOf t.hub b = badOf s.hub b - badOf s.hub b % 2 ∧ t.reel = s.reel ∧
      t.hub.regs = (noteRead Client.scrub s.hub b).regs) ∧
    (Writes s req A.reel_INJECT →
      (Completes (.reelInjectSingle req) s fun t => t.hub.is F.reel_INJECT_SINGLE = true ∧
        t.hub.Has F.reel_INJECT_DOUBLE (s.hub.fget F.reel_INJECT_DOUBLE) ∧ OthersKept A.reel_INJECT s.hub t.hub ∧ t.reel = s.reel) ∧
      (Completes (.reelInjectDouble req) s fun t => t.hub.is F.reel_INJECT_DOUBLE = true ∧
        t.hub.Has F.reel_INJECT_SINGLE (s.hub.fget F.reel_INJECT_SINGLE) ∧ OthersKept A.reel_INJECT s.hub t.hub ∧ t.reel = s.reel)) ∧
    (Reads s req A.reel_UTIL_HWM → Answers (.utilHwm req) s req A.reel_UTIL_HWM fun t =>
      t.hub.Has F.reel_UTIL_HWM_BLOCKS (s.hub.fget F.reel_UTIL_BLOCKS) ∧ OthersKept A.reel_UTIL_HWM s.hub t.hub)

/-! ## Penstock and Tally (R344–R396) -/

/-- An access of the register window that fails a check of R53 ends there: an unassigned address and an absent page count in
ABSENT_ACCESS, an owner fault in OWNER_FAULT; a read answers 0, a dropped write is logged (R49, R50, R53, R364), and nothing outside
Penstock's page changes. -/
def Obligations.ChecksEndAccesses : Prop :=
  ∀ (s : State) (req : Req) (addr : Word), s.hub.power.shelf ≠ 2 → s.hub.stalled = [] → addr.toNat % 4 = 0 →
    (∀ (v : BitVec 64) (f : Fld),
      (pageAt addr.toNat = none ∧ f = F.pstk_ABSENT_ACCESS_COUNT) ∨
      (∃ k i page, pageAt addr.toNat = some (k, i, page) ∧ nicForeign req k i = false ∧ s.hub.present k i = true ∧
        ownerOk s.hub req k page (addr.toNat - page) true = false ∧ f = F.pstk_OWNER_FAULT_COUNT) →
      endsBist (windowAccess req addr.toNat 4 true 0) = false →
      Completes (.registerWrite req addr 4 v) s fun t =>
        Counted s.hub t.hub f ∧ t.hub.bit (F.hdr_INT_STAT_EVENT Page.pstk) 0 = true ∧ t.reel = s.reel ∧ t.hub.out = s.hub.out ∧
        ∀ g : Fld, ¬(Page.pstk ≤ g.key / 32 ∧ g.key / 32 < Page.pstk + 0x1000) → t.hub.fget g = s.hub.fget g) ∧
    (∀ (v : BitVec 64) k i page, pageAt addr.toNat = some (k, i, page) → nicForeign req k i = false → s.hub.present k i = false →
      endsBist (windowAccess req addr.toNat 4 true 0) = false → Completes (.registerWrite req addr 4 v) s fun t =>
        Counted s.hub t.hub F.pstk_ABSENT_ACCESS_COUNT ∧ OthersKept A.pstk_ABSENT_ACCESS s.hub t.hub ∧ t.reel = s.reel) ∧
    (∀ f : Fld,
      (pageAt addr.toNat = none ∧ f = F.pstk_ABSENT_ACCESS_COUNT) ∨
      (∃ k i page, pageAt addr.toNat = some (k, i, page) ∧ nicForeign req k i = false ∧
        ((s.hub.present k i = false ∧ f = F.pstk_ABSENT_ACCESS_COUNT) ∨
         (s.hub.present k i = true ∧ ownerOk s.hub req k page (addr.toNat - page) false = false ∧ f = F.pstk_OWNER_FAULT_COUNT))) →
      completionRoom s.hub (windowAccess req addr.toNat 4 false 0) 1 = true → Completes (.pairLoRead req ⟨addr, 4⟩) s fun t =>
        Counted s.hub t.hub f ∧ t.hub.out = s.hub.out ++ [.readDone req addr.toNat 0] ∧ OthersKept f.addr s.hub t.hub ∧
        t.reel = s.reel)

/-- A slice or a Miller that reads the Reel window has the bytes that stand there, part by part, where no word is bad; a write
stores each enabled byte and no other, while the completion buffer has room for the answer (R367) and unless a double-bit error is armed (R350, R351); beyond 4 GiB there is no Reel (R345). -/
def Obligations.ReelWindowMovesBytes : Prop :=
  ∀ (s : State) (req : Req) (addr : Nat), narrow req = false → s.hub.power.shelf ≠ 2 → s.hub.stalled = [] →
    s.hub.present .reel 0 = true → s.hub.ready 12 = true → s.hub.reelBad = [] →
    (∀ len, 0 < len → addr + len ≤ 2 ^ 32 → (∀ k : Fin 4, req = .slice k → (s.hub.penSt k.val).streams = []) →
      mayAnswer s.hub { windowAccess req addr len false 0 with reel := true } = true →
      Completes (.reelWindowRead req addr len) s fun t => t.reel = s.reel ∧
        t.hub.out = s.hub.out ++
          [.reelData req addr ((reelParts addr len).map fun p => (Memory.bytes s.reel p.1 p.2, false))] ∧
        ∀ g, t.hub.fget g = s.hub.fget g) ∧
    (∀ data : List (Option Byte), addr + data.length ≤ 2 ^ 32 → s.hub.is F.reel_INJECT_DOUBLE = false →
      Completes (.reelWindowWrite req addr data) s fun t => t.hub.out = s.hub.out ∧
        ∀ b, Memory.read t.reel b = if addr ≤ b then (data.getD (b - addr) none).getD (Memory.read s.reel b)
          else Memory.read s.reel b) ∧
    (∀ len, 2 ^ 32 < addr + len → exec (.reelWindowRead req addr len) s = .fault .outsideReel)

/-- An AtomicOp to function 0 completes with UR (R346). An FLR of function 0 discards the slice's waiting accesses, its outbound
TLPs and its prefetched bytes, resets its interrupt stack and empties its pairs (R347, R577), and its MSI-X vectors are masked again
(R579; log 97); an FLR of function 1 clears the NIC's registers and its outbound TLPs (R343, R376). An access that a
block in RUN or DOZE does not answer ends with cause internal (R355). LOG_CTL.CLEAR empties the log (R364). -/
def Obligations.FunctionResetsAndLog : Prop :=
  ∀ (s : State) (slice : Fin 4),
    (Completes (.atomicop slice) s fun t => t.hub.out = s.hub.out ++ [.atomicUr slice] ∧
      (t.hub.penSt slice.val).outq = (s.hub.penSt slice.val).outq ++ [.completion 0 [] false] ∧ t.hub.regs = s.hub.regs ∧ t.reel = s.reel) ∧
    (Completes (.flrFunction0 slice) s fun t => ∃ h' : Hub,
      (∀ a ∈ h'.stalled, a.req ≠ .slice slice) ∧ (h'.penSt slice.val).streams = [] ∧
      (h'.penSt slice.val).outq = (s.hub.penSt slice.val).outq.filter (·.func != 0) ∧
      (h'.penSt slice.val).blocked = (s.hub.penSt slice.val).blocked.filter (·.1.func != 0) ∧
      (∀ g : Fld, g.key / 32 < Page.msix slice.val ∨ Page.msix slice.val + 0x10000 ≤ g.key / 32 → h'.fget g = s.hub.fget g) ∧
      (∀ v : Fin 32, h'.is (F.msix_VECTOR_CTL_MASK slice.val v.val) = true) ∧ h'.fget (F.msix_PBA_PENDING slice.val) = 0 ∧
      (t.hub, t.reel) = goOn (emptyPairs (stackReset h' (4 + slice.val)) slice.val) s.reel) ∧
    (Completes (.flrFunction1 slice) s fun t => ∃ h' : Hub,
      (∀ g : Fld, Page.nic slice.val ≤ g.key / 32 → g.key / 32 < Page.nic slice.val + 0x1000 → clsOf g.key ≠ .a →
        h'.fget g = resetOf h'.otp g.key) ∧
      (h'.penSt slice.val).outq = (s.hub.penSt slice.val).outq.filter (·.func != 1) ∧ (h'.penSt slice.val).reads = [] ∧
      t.hub = nicDrop h' slice.val) ∧
    (∀ k a d, s.hub.stalled[k]? = some a → a.await = .ready d → s.hub.domOn d = true →
      Completes (.internalTimeout k) s fun t => ∃ e : Hub,
        e.stalled = s.hub.stalled.eraseIdx k ∧ (t.hub, t.reel) = goOn (pump e s.reel).1 (pump e s.reel).2 ∧
        (a.write = false → a.reel = false → a.dock = false → a.size = 4 →
          e.out = s.hub.out ++ [.readDone a.req a.addr 0xFFFFFFFF] ∧ e.fget F.pstk_NP_LAST_CAUSE = Cause.internal) ∧
        (a.write = true → e.bit (F.hdr_INT_STAT_EVENT Page.pstk) 0 = true)) ∧
    (∀ req, Writes s req A.pstk_LOG_CTL → Completes (.logClear req) s fun t =>
      t.hub.fget F.pstk_LOG_CTL_COUNT = 0 ∧ (∀ n : Fin 16, t.hub.fget (F.pstk_LOG_INFO_CAUSE n.val) = 0) ∧
      ∀ g : Fld, ¬(Page.pstk + 0x200 ≤ g.key / 32 ∧ g.key / 32 < Page.pstk + 0x300) → g.key ≠ F.pstk_LOG_CTL_COUNT.key →
        t.hub.fget g = s.hub.fget g)

/-- A completion of an outbound read that has left fills its space; the last one ends the read, its space returns, and a frame that is
whole goes on and is written back, while the rest of one that is not whole is asked for, with a yield counted where a host's read waits
(R323, R371–R373). A read unanswered for 50 ms is ended, counted, raised and reported to its ring, with its space (R374). A read that has not
left the queue has neither. -/
def Obligations.OutboundReads : Prop :=
  ∀ (s : State) (slice : Fin 4) (k : Nat) (rd : OutRead), (s.hub.penSt slice.val).reads[k]? = some rd →
    (readSent (s.hub.penSt slice.val) k = false → exec (.outboundReadTimeout slice k) s = .next s ∧
      ∀ data, exec (.outboundCompletion slice k data) s = .next s) ∧
    (readSent (s.hub.penSt slice.val) k = true →
      (∀ data : Bytes, (rd.got ++ data).length < rd.len → Completes (.outboundCompletion slice k data) s fun t =>
        (t.hub.penSt slice.val).reads = (s.hub.penSt slice.val).reads.set k { rd with got := rd.got ++ data } ∧
        t.hub.regs = s.hub.regs ∧ t.reel = s.reel) ∧
      (∀ data : Bytes, rd.len ≤ (rd.got ++ data).length → (rd.ring < 4 → fetchOf s.hub slice.val rd.ring = none) →
        Completes (.outboundCompletion slice k data) s fun t => ∃ h' : Hub,
          (h'.penSt slice.val).reads = (s.hub.penSt slice.val).reads.eraseIdx k ∧ h'.regs = s.hub.regs ∧ h'.net = s.hub.net ∧
          t.hub = fetchAll h' slice.val) ∧
      (∀ (data : Bytes) f, rd.len ≤ (rd.got ++ data).length → rd.ring < 4 → fetchOf s.hub slice.val rd.ring = some f →
        ((Tbl.ins f.parts rd.offset ((rd.got ++ data).take rd.len)).flatMap (·.2)).length < f.len →
        Completes (.outboundCompletion slice k data) s fun t => ∃ h' : Hub,
          (h'.penSt slice.val).reads = (s.hub.penSt slice.val).reads.eraseIdx k ∧
          fetchOf h' slice.val rd.ring = some { f with parts := Tbl.ins f.parts rd.offset ((rd.got ++ data).take rd.len) } ∧
          h'.regs = s.hub.regs ∧ t.hub = fetchAll (if f.asked < f.len ∧ hostReadWaits s.hub slice.val then h'.bump F.pstk_YIELDS_COUNT 1
            else h') slice.val) ∧
      (∀ (data : Bytes) f, rd.len ≤ (rd.got ++ data).length → rd.ring < 4 → fetchOf s.hub slice.val rd.ring = some f →
        f.len ≤ ((Tbl.ins f.parts rd.offset ((rd.got ++ data).take rd.len)).flatMap (·.2)).length →
        Completes (.outboundCompletion slice k data) s fun t => ∃ h' : Hub,
          (h'.penSt slice.val).reads = (s.hub.penSt slice.val).reads.eraseIdx k ∧ fetchOf h' slice.val rd.ring = none ∧
          h'.regs = s.hub.regs ∧
          t.hub = fetchAll (txWriteBack (nicSend h' slice.val rd.ring
            ((Tbl.ins f.parts rd.offset ((rd.got ++ data).take rd.len)).flatMap (·.2))) slice.val rd.ring f.addr f.len false) slice.val) ∧
      Completes (.outboundReadTimeout slice k) s fun t => ∃ h' : Hub,
        (h'.penSt slice.val).reads = (s.hub.penSt slice.val).reads.eraseIdx k ∧
        Counted s.hub h' F.pstk_OUT_TIMEOUTS_COUNT ∧ h'.bit (F.hdr_INT_STAT_EVENT Page.pstk) 11 = true ∧
        KeptBut [A.pstk_OUT_TIMEOUTS, Page.pstk + 0x10] s.hub h' ∧ h'.net = s.hub.net ∧
        ((rd.ring < 4 → fetchOf s.hub slice.val rd.ring = none) → t.hub = fetchAll h' slice.val) ∧
        (∀ f, rd.ring < 4 → fetchOf s.hub slice.val rd.ring = some f →
          t.hub = fetchAll (txWriteBack (dropFetch h' slice.val rd.ring) slice.val rd.ring f.addr f.len true) slice.val))

/-- A KIND 1 entry takes the sampled register's value as VALUE (R377, R378); a write of WORD by one of its writers sets VALUE of a KIND 2
entry, another write is an owner fault (R379). A changed word goes to its slot and counts as sent (R380); a slot takes the value, its
source, its reader and one more in SEQ (R381, R382). A value that was never sent counts as superseded (R380).
An event updates the KIND 3 words of its ID, or follows the first route entry that matches it to an inbox of this hub or to another;
with none it counts as unrouted (R377, R384, R385, R387); a write of EVENT_RAISE brings the writer's kind (R383). An inbox holds 16
events and drops the next with INBOX_FULL (R385). A read of INBOX pops the oldest event for its reader, and is an owner fault for another
(R386). -/
def Obligations.TallyWordsAndEvents : Prop :=
  (∀ (s : State) (w : Fin 256),
      (∀ k i a, wordOn s.hub w.val = true → s.hub.fget (F.tallyTab_MAP_CTL_KIND w.val) = 1 →
        sampleOk s.hub w.val = some (k, i, a) → s.hub.present k i = true → ownerPasses s.hub (.miller 0) (a / 0x1000 * 0x1000) = true →
        s.hub.domOn (k.domain i) = true → (s.hub.dom (k.domain i)).resetting = false →
        Completes (.wordSample w) s fun t =>
          t.hub.fget (F.tallyTab_MAP_VALUE_VALUE w.val) = wordValue s.hub a % 2 ^ 32 ∧
          (wordValue s.hub a % 2 ^ 32 ≠ s.hub.fget (F.tallyTab_MAP_VALUE_VALUE w.val) →
            s.hub.fget (F.tallyTab_MAP_VALUE_VALUE w.val) ≠ lastSent s.hub w.val →
            t.hub.Has F.tally_SUPERSEDED_COUNT (s.hub.fget F.tally_SUPERSEDED_COUNT + 1)) ∧
          KeptBut [A.tallyTab_MAP_VALUE w.val, A.tally_SUPERSEDED] s.hub t.hub) ∧
      (wordOn s.hub w.val = true → s.hub.fget (F.tallyTab_MAP_CTL_KIND w.val) = 1 →
        sampleOk s.hub w.val = none → Completes (.wordSample w) s fun t =>
          t.hub.bit (F.hdr_INT_STAT_EVENT Page.tally) 18 = true ∧ OthersKept (Page.tally + 0x10) s.hub t.hub) ∧
      (∀ (req : Req) (v : Word), Writes s req (A.tally_WORD w.val) →
        (wordWriter s.hub req w.val = true → Completes (.wordWrite req w v) s fun t =>
          t.hub.fget (F.tallyTab_MAP_VALUE_VALUE w.val) = v.toNat ∧
          KeptBut [A.tallyTab_MAP_VALUE w.val, A.tally_SUPERSEDED] s.hub t.hub) ∧
        (wordWriter s.hub req w.val = false → Completes (.wordWrite req w v) s fun t =>
          t.hub.fget (F.tallyTab_MAP_VALUE_VALUE w.val) = s.hub.fget (F.tallyTab_MAP_VALUE_VALUE w.val) ∧
          Counted s.hub t.hub F.pstk_OWNER_FAULT_COUNT ∧ t.hub.bit (F.hdr_INT_STAT_EVENT Page.pstk) 0 = true)) ∧
      (s.hub.is F.tally_CTL_EN = true → wordOn s.hub w.val = true →
        s.hub.fget (F.tallyTab_MAP_VALUE_VALUE w.val) ≠ lastSent s.hub w.val →
        (s.hub.fget (F.tallyTab_MAP_CTL_HUB w.val) = hubNumber s.hub → Completes (.wordSend w) s fun t =>
          t.hub.Has (F.tallyTab_SLOT_VALUE_VALUE (s.hub.fget (F.tallyTab_MAP_CTL_SLOT w.val)))
            (s.hub.fget (F.tallyTab_MAP_VALUE_VALUE w.val)) ∧
          t.hub.Has (F.tallyTab_SLOT_INFO_SRC_WORD (s.hub.fget (F.tallyTab_MAP_CTL_SLOT w.val))) w.val ∧
          t.hub.Has F.tally_SENT_COUNT (s.hub.fget F.tally_SENT_COUNT + 1) ∧
          lastSent t.hub w.val = s.hub.fget (F.tallyTab_MAP_VALUE_VALUE w.val)) ∧
        (∀ l, s.hub.fget (F.tallyTab_MAP_CTL_HUB w.val) ≠ hubNumber s.hub →
          routeTo s.hub (s.hub.fget (F.tallyTab_MAP_CTL_HUB w.val)) = some l → Completes (.wordSend w) s fun t =>
            t.hub.out = s.hub.out ++ [.tallyWord l (s.hub.fget (F.tallyTab_MAP_CTL_HUB w.val)) (s.hub.fget (F.tallyTab_MAP_CTL_SLOT w.val))
              (s.hub.fget (F.tallyTab_MAP_VALUE_VALUE w.val)) w.val (s.hub.fget (F.tallyTab_MAP_CTL_READER w.val))] ∧
            t.hub.Has F.tally_SENT_COUNT (s.hub.fget F.tally_SENT_COUNT + 1) ∧
            lastSent t.hub w.val = s.hub.fget (F.tallyTab_MAP_VALUE_VALUE w.val))) ∧
      (∀ (slot : Fin 256) (value : Word) (hub : Fin 4) reader, Completes (.slotReceive slot value w hub reader) s fun t =>
        t.hub.fget (F.tallyTab_SLOT_VALUE_VALUE slot.val) = value.toNat ∧ t.hub.fget (F.tallyTab_SLOT_INFO_SRC_WORD slot.val) = w.val ∧
        t.hub.fget (F.tallyTab_SLOT_INFO_SRC_HUB slot.val) = hub.val ∧ t.hub.Has (F.tallyTab_SLOT_INFO_READER slot.val) reader ∧
        t.hub.Has (F.tallyTab_SLOT_INFO_SEQ slot.val) (s.hub.fget (F.tallyTab_SLOT_INFO_SEQ slot.val) + 1) ∧
        KeptBut [A.tallyTab_SLOT_VALUE slot.val, A.tallyTab_SLOT_INFO slot.val] s.hub t.hub)) ∧
  (∀ (s : State),
      (∀ (id : BitVec 12) (arg : BitVec 16) (e : TEvent), id ≠ 0 → s.hub.is F.tally_CTL_EN = true → eventWords s.hub id.toNat = [] →
        (∀ (by_ : Option Req), (∀ req, by_ = some req → Writes s req A.tally_EVENT_RAISE) →
          e = { id := id.toNat, arg := arg.toNat, hub := hubNumber s.hub
                kind := match by_ with | none => 0 | some req => eventKind req } →
          (routeEntry s.hub id.toNat = none → Completes (.eventRaise by_ id arg) s fun t =>
            Counted s.hub t.hub F.tally_DROPS_UNROUTED ∧ t.hub.bit (F.hdr_INT_STAT_EVENT Page.tally) 16 = true) ∧
          (∀ i, routeEntry s.hub id.toNat = some i → Completes (.eventRaise by_ id arg) s fun t => ∃ h' : Hub,
            Counted s.hub h' (F.tallyTab_ROUTE_DEST_HITS i) ∧
            t.hub = deliverEvent h' (s.hub.fget (F.tallyTab_ROUTE_DEST_HUB i)) (s.hub.fget (F.tallyTab_ROUTE_DEST_TARGET i)) e))) ∧
      (∀ (id : BitVec 12) (arg : BitVec 16) (w : Nat), id ≠ 0 → s.hub.is F.tally_CTL_EN = true → eventWords s.hub id.toNat = [w] →
        Completes (.eventRaise none id arg) s fun t => t.hub.fget (F.tallyTab_MAP_VALUE_VALUE w) =
          arg.toNat + 2 ^ 16 * ((s.hub.fget (F.tallyTab_MAP_VALUE_VALUE w) / 2 ^ 16 + 1) % 2 ^ 16)) ∧
      (∀ (target : Fin 6) (id : BitVec 12) (arg : BitVec 16) (hub kind : Fin 4),
        ((inbox s.hub target.val).length < 16 → Completes (.eventArrival target id arg hub kind) s fun t =>
          inbox t.hub target.val = inbox s.hub target.val ++ [{ id := id.toNat, arg := arg.toNat, hub := hub.val, kind := kind.val }] ∧
          (target.val = 0 → t.hub.bit (F.hdr_INT_STAT_EVENT Page.tally) 0 = true) ∧
          (target.val = 5 → t.hub.bit (F.hdr_INT_STAT_EVENT Page.tally) 8 = true)) ∧
        (16 ≤ (inbox s.hub target.val).length → Completes (.eventArrival target id arg hub kind) s fun t =>
          inbox t.hub target.val = inbox s.hub target.val ∧ Counted s.hub t.hub F.tally_INBOX_FULL_COUNT ∧
          t.hub.bit (F.hdr_INT_STAT_EVENT Page.tally) 17 = true)) ∧
      (∀ (req : Req) (target : Fin 6), Reads s req (A.tally_INBOX target.val) →
        (∀ e l, readerOf req = target.val ∨ req = .jtag → inbox s.hub target.val = e :: l → Completes (.inboxRead req target) s fun t =>
          inbox t.hub target.val = l ∧
          t.hub.out = s.hub.out ++ [.readDone req (A.tally_INBOX target.val) (BitVec.ofNat 64 (eventBits e))]) ∧
        (readerOf req = target.val ∨ req = .jtag → inbox s.hub target.val = [] → Completes (.inboxRead req target) s fun t =>
          t.hub.out = s.hub.out ++ [.readDone req (A.tally_INBOX target.val) 0]) ∧
        (readerOf req ≠ target.val → req ≠ .jtag → Completes (.inboxRead req target) s fun t =>
          Counted s.hub t.hub F.pstk_OWNER_FAULT_COUNT ∧ inbox t.hub target.val = inbox s.hub target.val ∧
          t.hub.out = s.hub.out ++ [.readDone req (A.tally_INBOX target.val) 0])))

/-! ## Projectors and the ports they feed (R270–R312) -/

/-- A write that sets EN checks the active copy: a set that fails clears EN with FAULT_CODE and CFG_FAULT, one that passes starts the head
with its floors in force, at once or when its island has risen (R275, R277, R519). A write that clears EN releases the latched takes at
once, and the line in progress is finished with what they showed (R279). While EN = 1 another write of CTL only takes its values. -/
def Obligations.HeadEnableAndDisable : Prop :=
  ∀ (s : State) (req : Req) (p : Fin 4) (ctl : Word), Writes s req (A.proj_CTL p.val) →
    (s.hub.is (F.proj_CTL_EN p.val) = false →
      (projCheck s.hub.aget p.val ≠ 0 → Completes (.projEnable req p ctl) s fun t =>
        t.hub.is (F.proj_CTL_EN p.val) = false ∧ t.hub.Has (F.proj_FAULT_CODE p.val) (projCheck s.hub.aget p.val) ∧
        t.hub.bit (F.hdr_INT_STAT_EVENT (Page.proj p.val)) 10 = true ∧ t.hub.active = s.hub.active) ∧
      (projCheck s.hub.aget p.val = 0 → Completes (.projEnable req p ctl) s fun t => ∃ h' w : Hub,
        h'.is (F.proj_CTL_EN p.val) = true ∧ (h'.head p.val).rank = s.hub.headRank + 1 ∧ h'.active = s.hub.active ∧
        w = holdStart (dvfsSettle (enforceFloor (enforceFloor h' (17 + p.val)) 12)) 2 (.head p.val) ∧
        t.hub = if lowNow w 2 then w else headStart w p.val) ∧
      Completes (.projDisable req p ctl) s fun t =>
        Takes t.hub (A.proj_CTL p.val) (ctl.toNat &&& 0xFFFFFFFE) ∧ t.hub.active = s.hub.active) ∧
    (s.hub.is (F.proj_CTL_EN p.val) = true →
      (Completes (.projEnable req p ctl) s fun t =>
        Takes t.hub (A.proj_CTL p.val) (ctl.toNat ||| 1) ∧ t.hub.active = s.hub.active ∧ t.hub.heads = s.hub.heads) ∧
      Completes (.projDisable req p ctl) s fun t => ∃ w : Hub,
        w.is (F.proj_CTL_EN p.val) = false ∧ (∀ q : Fin 4, w.is (F.proj_LATCHED_VALID p.val q.val) = false) ∧
        w.is (F.proj_CONT_STAT_ARMED p.val) = false ∧ w.is (F.proj_STATUS_DARK p.val) = false ∧
        (w.head p.val).takes = (List.range 4).map (takeOf s.hub p.val) ∧
        (w.head p.val).last = (if headOn s.hub p.val && !(s.hub.is (F.proj_STATUS_DARK p.val)) then some (linesSince s.hub p.val) else none) ∧
        t.hub = dvfsSettle (settleDisplay (noteLatched w)))

/-- A vertical blank of a running head applies an armed shadow set with COMMIT_DONE, latches takes, counts the frame and raises VBLANK
(R64, R274, R301). At V_TOTAL_MAX an extended frame goes on without a second latch (R280). The first underrun of a frame raises
UNDERRUN; each line counts once and the first of all is kept, a stall as cause 1 (R289, R290). A frame's end reports OUT_SIG and judges
its continuity (R292, R294). A read of SIG_POP pops the oldest signature (R292). -/
def Obligations.HeadFrames : Prop :=
  ∀ (s : State) (p : Fin 4),
    (headOn s.hub p.val = true → s.hub.domOn (17 + p.val) = true → Completes (.vblank p) s fun t => ∃ h' w : Hub,
      (h'.head p.val).vblankAt = s.hub.time ∧ (h'.head p.val).acc = accNow s.hub p.val ∧ (h'.head p.val).extended = false ∧
      (h'.head p.val).under = [] ∧ (h'.head p.val).line = 0 ∧ (h'.head p.val).packet = 0 ∧ h'.regs = s.hub.regs ∧
      w = latch (settleHead1 (projApply h' p.val) p.val) p.val ∧
      t.hub.Has (F.proj_FRAME_COUNT_COUNT p.val) (w.fget (F.proj_FRAME_COUNT_COUNT p.val) + 1) ∧
      t.hub.bit (F.hdr_INT_STAT_EVENT (Page.proj p.val)) 0 = true ∧
      (s.hub.is (F.hdr_COMMIT_GO (Page.proj p.val)) = true → s.hub.is (F.hdr_COMMIT_HOLD (Page.proj p.val)) = false →
        t.hub.is (F.hdr_COMMIT_GO (Page.proj p.val)) = false ∧ t.hub.bit (F.hdr_INT_STAT_EVENT (Page.proj p.val)) 1 = true)) ∧
    (mayExtend s.hub p.val = true →
      Completes (.vTotalMaxReached p) s fun t => (t.hub.head p.val).extended = true ∧
        (t.hub.head p.val).extLines = mostExtra s.hub p.val ∧ t.hub.regs = s.hub.regs) ∧
    (∀ line pixel, headOn s.hub p.val = true → s.hub.is (F.proj_STATUS_DARK p.val) = false →
      (∀ u ∈ (s.hub.head p.val).under, u.1 ≠ line) →
      LineFails (.underrun p line pixel) s p.val line pixel 0 ∧ LineFails (.outputStall p line pixel) s p.val line pixel 1) ∧
    (headOn s.hub p.val = true → s.hub.is (F.proj_STATUS_DARK p.val) = false → s.hub.domOn (17 + p.val) = true →
      Completes (.frameEnd p) s fun t => ∃ w : Hub,
        w.fget (F.proj_OUT_SIG_CRC p.val) = outSig s.hub s.reel p.val ∧ (w.head p.val).lastSig = outSig s.hub s.reel p.val ∧
        t.hub = continuity w p.val (outSig s.hub s.reel p.val) ∧ t.reel = s.reel) ∧
    (∀ (req : Req) v l, Reads s req (A.proj_SIG_POP p.val) → (s.hub.head p.val).queue = v :: l →
      Completes (.sigPop req p) s fun t => (t.hub.head p.val).queue = l ∧ t.hub.Has (F.proj_SIG_LEVEL_COUNT p.val) l.length ∧
        t.hub.out = s.hub.out ++ [.readDone req (A.proj_SIG_POP p.val) (BitVec.ofNat 64 v)]) ∧
    (∀ (req : Req), Reads s req (A.proj_SIG_POP p.val) → (s.hub.head p.val).queue = [] →
      Completes (.sigPop req p) s fun t => (∀ g, t.hub.fget g = s.hub.fget g) ∧
        t.hub.out = s.hub.out ++ [.readDone req (A.proj_SIG_POP p.val) 0])

/-- A training of a port toward a monitor ends trained within its governing limits and those of the sink, or failed, and the display settles
(R304); a DPO reports its time, and LINK_UP or TRAIN_FAIL with LINK_DOWN of a link it had (R312, R313); toward a sleeping DPO it only wakes
(R512). RETRAIN reads 1 while a port that it names trains (R310, R312). An HPD IRQ of an enabled DPO counts, and a lost lock trains a used port again; so do the RETRAIN bits of the
head that masters ports and of a DPO in retained use (R304). A DPO's HPD
reads as its ball; an enabled one raises a change, wakes its domain on a rise and loses its sink on a fall (R312, R512). -/
def Obligations.DisplayPorts : Prop :=
  ∀ (s : State),
    (∀ (b : Fin 10) ok rate lanes caps ms, 8 ≤ b.val → s.hub.listens (33 + (b.val - 8)) = false →
      Completes (.dpTrainingComplete b ok rate lanes caps ms) s fun t => t.hub = wake s.hub (33 + (b.val - 8)) ∧ t.reel = s.reel) ∧
    (∀ (b : Fin 10) ok rate lanes caps ms, (8 ≤ b.val → s.hub.listens (33 + (b.val - 8)) = true) → dpTrainable s.hub b.val = true →
      dpWanted s.hub b.val = true → Completes (.dpTrainingComplete b ok rate lanes caps ms) s fun t => ∃ w : Hub,
        w.dpPort b.val = { s.hub.dpPort b.val with
          trained := ok, rate := if ok then min (min rate (portLimits s.hub b.val).1) caps.maxRate else 0
          lanes := if ok then min (min lanes (portLimits s.hub b.val).2) caps.maxLanes else 0, before := true, training := false
          caps := caps } ∧
        (8 ≤ b.val → w.fget (F.dpo_TRAIN_TIME_MS (b.val - 8)) = min ms 0xFFFF ∧
          w.bit (F.hdr_INT_STAT_EVENT (Page.dpo (b.val - 8))) (if ok then 1 else 4) = true ∧
          ((s.hub.dpPort b.val).trained = true → ok = false → w.bit (F.hdr_INT_STAT_EVENT (Page.dpo (b.val - 8))) 2 = true) ∧
          ((s.hub.dpPort b.val).before = true → Counted s.hub w (F.dpo_ERR_RETRAINS (b.val - 8)))) ∧
        t.hub = settleDisplay (noteDpo w b.val)) ∧
    (∀ o : Fin 2, (s.hub.dpPort (8 + o.val)).training = false → (settleRetrain s.hub).is (F.dpo_CTL_RETRAIN o.val) = false) ∧
    (∀ p : Fin 4, (∀ c, c < 8 → linkMaster s.hub c = some p.val → (s.hub.dpPort c).training = false) →
      (settleRetrain s.hub).is (F.proj_LINK_CTL_RETRAIN p.val) = false) ∧
    (∀ (b : Fin 10) lost, Completes (.hpdIrq b lost) s fun t => ∃ w : Hub,
      (8 ≤ b.val → s.hub.is (F.dpo_CTL_EN (b.val - 8)) = true →
        Counted s.hub w (F.dpo_ERR_HPD_IRQ (b.val - 8)) ∧ w.bit (F.hdr_INT_STAT_EVENT (Page.dpo (b.val - 8))) 3 = true) ∧
      (b.val < 8 ∨ s.hub.is (F.dpo_CTL_EN (b.val - 8)) = false → w = s.hub) ∧
      t.hub = if lost && !(headsAt w b.val).isEmpty && dpTrainable w b.val then dpStop w b.val true else w) ∧
    (∀ (req : Req) (p : Fin 4) (ctl : Word), Writes s req (A.proj_LINK_CTL p.val) →
      s.hub.is (F.proj_LINK_CTL_RETRAIN p.val) = false → Completes (.projRetrain req p ctl) s fun t => ∃ (h' : Hub) (bs : List Nat),
        Takes h' (A.proj_LINK_CTL p.val) (ctl.toNat ||| 0x80) ∧ OthersKept (A.proj_LINK_CTL p.val) s.hub h' ∧
        bs = ((List.range 8).filter fun b => linkMaster h' b == some p.val && portEligible h' p.val b && dpTrainable h' b) ∧
        (bs = [] → t.hub = h') ∧
        (bs ≠ [] → ∃ w : Hub, w.is (F.proj_LINK_CTL_RETRAIN p.val) = true ∧ OthersKept (A.proj_LINK_CTL p.val) h' w ∧
          t.hub = bs.foldl (fun h b => dpStop h b true) w)) ∧
    (∀ (req : Req) (o : Fin 2) (ctl : Word), Writes s req (A.dpo_CTL o.val) → Completes (.dpoRetrain req o ctl) s fun t => ∃ h' w : Hub,
      Takes h' (A.dpo_CTL o.val) (ctl.toNat ||| 0x100) ∧ OthersKept (A.dpo_CTL o.val) s.hub h' ∧ w = dpoWritten h' o.val ∧
      (w.is (F.dpo_CTL_RETRAIN o.val) = false → w.fget (F.dpo_STATUS_MODE o.val) = 2 → dpTrainable w (8 + o.val) = true →
        ∃ r : Hub, r.is (F.dpo_CTL_RETRAIN o.val) = true ∧ OthersKept (A.dpo_CTL o.val) w r ∧ t.hub = dpStop r (8 + o.val) true) ∧
      (w.is (F.dpo_CTL_RETRAIN o.val) = true ∨ w.fget (F.dpo_STATUS_MODE o.val) ≠ 2 → t.hub = w)) ∧
    (∀ (o : Fin 2) high, Completes (.dpoHpdChange o high) s fun t => ∃ h' : Hub,
      h'.dpPort (8 + o.val) = { s.hub.dpPort (8 + o.val) with hpd := high } ∧
      wordValue h' (A.dpo_STATUS o.val) % 2 = (if high then 1 else 0) ∧
      ((s.hub.dpPort (8 + o.val)).hpd = high ∨ s.hub.is (F.dpo_CTL_EN o.val) = false → h'.regs = s.hub.regs ∧ t.hub = h') ∧
      ((s.hub.dpPort (8 + o.val)).hpd ≠ high → s.hub.is (F.dpo_CTL_EN o.val) = true →
        h'.bit (F.hdr_INT_STAT_EVENT (Page.dpo o.val)) 0 = true ∧ OthersKept (Page.dpo o.val + 0x10) s.hub h' ∧
        t.hub = if high then settleDisplay (enforceFloor (wake h' (33 + o.val)) (33 + o.val)) else
          dpStop (h'.setDpPort (8 + o.val) { h'.dpPort (8 + o.val) with caps := dpPort0.caps }) (8 + o.val) false))

/-! ## Ethernet, the switch, NICs and PCIe storage (R314–R344) -/

/-- FDB_CMD reads, writes, deletes and flushes entries, a write of an absent port being dropped with BAD_CONFIG (R338, R341); a dynamic entry
ages out (R319). The switch drops a frame that its ingress filter refuses (R318), learns the sender, and sends a frame that no wire
port takes to no wire. A MAC delivers a good frame as a chain of packets with its hop number, discards one of a bad length or FCS with its
count, and counts a pause it repeats (R315, R316, R327). A link that comes up toward a sleeping domain only wakes it (R512, R523). -/
def Obligations.SwitchAndMacs : Prop :=
  ∀ (s : State),
    (∀ req (index : Fin 4096), Writes s req A.tailrace_FDB_CMD →
      (Completes (.fdbRead req index) s fun t => ∃ e : FdbEntry, e = (fdbAt s.hub index.val).getD ⟨0, 0, 0, false⟩ ∧
        t.hub.Has F.tailrace_FDB_MAC_LO_ADDR e.mac ∧ t.hub.Has F.tailrace_FDB_KEY_ADDR (e.mac / 2 ^ 32) ∧
        t.hub.Has F.tailrace_FDB_KEY_VID e.vid ∧ t.hub.Has F.tailrace_FDB_KEY_PORT e.port ∧
        t.hub.is F.tailrace_FDB_KEY_VALID = (fdbAt s.hub index.val).isSome ∧ t.hub.is F.tailrace_FDB_CMD_STATIC = e.fixed ∧
        t.hub.fget F.tailrace_FDB_CMD_OP = 0 ∧ t.hub.net = s.hub.net ∧
        KeptBut [A.tailrace_FDB_CMD, A.tailrace_FDB_MAC_LO, A.tailrace_FDB_KEY] s.hub t.hub) ∧
      (∀ fixed, Completes (.fdbWrite req index fixed) s fun t =>
        t.hub.fget F.tailrace_FDB_CMD_OP = 0 ∧ (∀ j, j ≠ index.val → fdbAt t.hub j = fdbAt s.hub j) ∧
        (portPresent s.hub (s.hub.fget F.tailrace_FDB_KEY_PORT) = false →
          t.hub.bit (F.hdr_INT_STAT_EVENT Page.tailrace) 2 = true ∧ t.hub.net = s.hub.net) ∧
        (portPresent s.hub (s.hub.fget F.tailrace_FDB_KEY_PORT) = true → fdbAt t.hub index.val =
          if s.hub.is F.tailrace_FDB_KEY_VALID then
            some { mac := s.hub.fget F.tailrace_FDB_MAC_LO_ADDR + 2 ^ 32 * s.hub.fget F.tailrace_FDB_KEY_ADDR
                   vid := s.hub.fget F.tailrace_FDB_KEY_VID, port := s.hub.fget F.tailrace_FDB_KEY_PORT, fixed := fixed }
          else none)) ∧
      (Completes (.fdbDelete req index) s fun t => fdbAt t.hub index.val = none ∧
        (∀ j, j ≠ index.val → fdbAt t.hub j = fdbAt s.hub j) ∧ OthersKept A.tailrace_FDB_CMD s.hub t.hub) ∧
      (Completes (.fdbFlushDynamic req) s fun t => (∀ j e, fdbAt t.hub j = some e → e.fixed = true) ∧
        (∀ j e, fdbAt s.hub j = some e → e.fixed = true → fdbAt t.hub j = some e) ∧
        OthersKept A.tailrace_FDB_CMD s.hub t.hub)) ∧
    (∀ (index : Fin 4096) e, fdbAt s.hub index.val = some e →
      (e.fixed = false → s.hub.fget F.tailrace_AGE_SECONDS ≠ 0 → Completes (.ageOut index) s fun t =>
        fdbAt t.hub index.val = none ∧ (∀ j, j ≠ index.val → fdbAt t.hub j = fdbAt s.hub j) ∧ t.hub.regs = s.hub.regs) ∧
      (e.fixed = true ∨ s.hub.fget F.tailrace_AGE_SECONDS = 0 → Completes (.ageOut index) s fun t => t = s)) ∧
    (∀ x l bs vid, s.hub.net.queue = x :: l → bs = switchTag s.hub x.inPort x.bytes → vid = tciOf bs % 4096 →
      Completes .switchForward s fun t => ∃ w : Hub, t.hub = settleXoffs w ∧ w.net.queue = l ∧ t.reel = s.reel ∧
        (s.hub.is F.tailrace_CTL_INGRESS_FILTER = true → vlanValid s.hub vid = false ∨ x.inPort ∉ vlanMembers s.hub vid →
          Counted s.hub w F.tailrace_DROPS_VLAN ∧ w.bit (F.hdr_INT_STAT_EVENT Page.tailrace) 1 = true ∧
          w.forebays = s.hub.forebays ∧ w.net.fdb = s.hub.net.fdb ∧ w.net.rx = s.hub.net.rx) ∧
        (s.hub.is F.tailrace_CTL_INGRESS_FILTER = false ∨ (vlanValid s.hub vid = true ∧ x.inPort ∈ vlanMembers s.hub vid) →
          (∀ i e, s.hub.is F.tailrace_CTL_LEARN = true → (beNat ((bs.drop 6).take 6)).testBit 40 = false →
            fdbFind s.hub vid (beNat ((bs.drop 6).take 6)) = some (i, e) → e.fixed = false →
            fdbAt w i = some { e with port := x.inPort }) ∧
          ((∀ p ∈ vlanMembers s.hub vid, p < 4 → p = x.inPort) → w.forebays = s.hub.forebays))) ∧
    (∀ (mac : Fin 2) frame late, s.hub.present .ethmac mac.val = true → s.hub.is (F.ethmac_CTL_EN mac.val) = true →
      s.hub.is (F.ethmac_STATUS_LINK_UP mac.val) = true →
      ((if tagged frame then frame.length else frame.length + 4) < 64 ∨
          maxFrame s.hub mac.val < (if tagged frame then frame.length else frame.length + 4) →
        Completes (.ethFrameReceive mac frame late) s fun t => Counted s.hub t.hub (F.ethmac_ERR_LENGTH mac.val) ∧
          t.hub.bit (F.hdr_INT_STAT_EVENT (Page.ethmac mac.val)) 4 = true ∧ t.hub.forebays = s.hub.forebays) ∧
      (64 ≤ (if tagged frame then frame.length else frame.length + 4) →
          (if tagged frame then frame.length else frame.length + 4) ≤ maxFrame s.hub mac.val →
        (fcsOk frame = true → Completes (.ethFrameReceive mac frame late) s fun t => ∃ h' : Hub,
          h'.pget (F.ethmac_RX_FRAMES_LO_COUNT mac.val) = (s.hub.pget (F.ethmac_RX_FRAMES_LO_COUNT mac.val) + 1) % 2 ^ 40 ∧
          KeptBut [A.ethmac_RX_FRAMES_LO mac.val, A.ethmac_RX_FRAMES_HI mac.val] s.hub h' ∧ h'.forebays = s.hub.forebays ∧
          t.hub = chainArrival h' (14 + mac.val) (framePcp s.hub mac.val frame) (packetsOf frame) true false
            (if tagged frame && (tciOf frame).testBit 12 then 1 else 0) none mac.val) ∧
        (fcsOk frame = false → Completes (.ethFrameReceive mac frame false) s fun t =>
          Counted s.hub t.hub (F.ethmac_ERR_FCS mac.val) ∧ t.hub.bit (F.hdr_INT_STAT_EVENT (Page.ethmac mac.val)) 4 = true ∧
          t.hub.forebays = s.hub.forebays))) ∧
    (∀ (mac : Fin 2), s.hub.fget (F.ethmac_STATUS_XOFF_HELD mac.val) ≠ 0 → Completes (.xoffRepeat mac) s fun t =>
      Counted s.hub t.hub (F.ethmac_PAUSE_CNT_TX mac.val) ∧ t.hub.bit (F.hdr_INT_STAT_EVENT (Page.ethmac mac.val)) 2 = true ∧
      t.hub.out = s.hub.out ++ [.pause mac.val (s.hub.fget (F.ethmac_PFC_CTL_MODE mac.val) == 2)
        (s.hub.fget (F.ethmac_STATUS_XOFF_HELD mac.val)) true] ∧
      KeptBut [A.ethmac_PAUSE_CNT mac.val, Page.ethmac mac.val + 0x10] s.hub t.hub) ∧
    (∀ (mac : Fin 2) speed, s.hub.present .ethmac mac.val = true → s.hub.listens 35 = false →
      Completes (.ethLinkUp mac speed) s fun t => t.hub = wake s.hub 35 ∧ t.reel = s.reel) ∧
    (∀ (mac : Fin 2) speed, s.hub.present .ethmac mac.val = true → s.hub.listens 35 = true → s.hub.is (F.ethmac_CTL_EN mac.val) = true →
      (s.hub.fget (F.ethmac_CTL_MODE mac.val) ≠ 0 → Completes (.ethLinkUp mac speed) s fun t => ∃ h' : Hub,
        h'.is (F.ethmac_STATUS_LINK_UP mac.val) = true ∧ h'.fget (F.ethmac_STATUS_SPEED mac.val) = macSpeed s.hub mac.val speed ∧
        h'.bit (F.hdr_INT_STAT_EVENT (Page.ethmac mac.val)) 0 = true ∧
        KeptBut [A.ethmac_STATUS mac.val, Page.ethmac mac.val + 0x10] s.hub h' ∧ 
        t.hub = dvfsSettle (wake (enforceFloor (capBack (settleXoff h' mac.val)) 3) 35)) ∧
      (s.hub.fget (F.ethmac_CTL_MODE mac.val) = 0 → busPowered s.hub = false → Completes (.ethLinkUp mac speed) s fun t => ∃ w : Hub,
        w = holdStart (dropHeld s.hub (heldEth mac.val)) 3 (.eth mac.val speed) ∧ (lowNow w 3 = true → t.hub = w) ∧
        (lowNow w 3 = false → ∃ h' : Hub, h'.is (F.ethmac_STATUS_LINK_UP mac.val) = true ∧
          h'.fget (F.ethmac_STATUS_SPEED mac.val) = 6 ∧ h'.bit (F.hdr_INT_STAT_EVENT (Page.ethmac mac.val)) 0 = true ∧
          KeptBut [A.ethmac_STATUS mac.val, Page.ethmac mac.val + 0x10] w h' ∧
          t.hub = dvfsSettle (wake (enforceFloor (capBack (settleXoff h' mac.val)) 3) 35)))) ∧
    (∀ (mac : Fin 2), s.hub.is (F.ethmac_STATUS_LINK_UP mac.val) = true → Completes (.ethLinkDown mac) s fun t => ∃ h' : Hub,
      h'.is (F.ethmac_STATUS_LINK_UP mac.val) = false ∧ h'.fget (F.ethmac_STATUS_SPEED mac.val) = 0 ∧
      h'.bit (F.hdr_INT_STAT_EVENT (Page.ethmac mac.val)) 1 = true ∧
      KeptBut [A.ethmac_STATUS mac.val, Page.ethmac mac.val + 0x10] s.hub h' ∧ t.hub = dvfsSettle (settleXoff h' mac.val))

/-- A NIC writes back an empty or an overlong transmit descriptor at once, behind what its block holds back, fetches any other within its limit, and waits at the limit (R323, R324). A
frame without a buffer is dropped, counted and reported; one with buffers is written to as many as are free, HEAD moves past them, and what is
left of it waits for more (R325). A deferred
interrupt bit is raised when its interval ends (R325). PERST# is released when no cause holds it (R335); a trained PCIe link reports its rate, width
and time, toward a sleeping port it only wakes (R331, R512); a lost link ends every outstanding request with UR (R336). A TLP enters as a chain of its kind's hop, a completion for no
request being discarded, the last completion of a request ending it; what comes after
the release of the port is discarded, counted red and its credit returned (R89, R332, R337). -/
def Obligations.NicsAndPcieStorage : Prop :=
  ∀ (s : State),
    (∀ (slice ring : Fin 4) addr len, ringPosted s.hub slice.val ring.val ≠ 0 → fetchOf s.hub slice.val ring.val = none →
      hostReadWaits s.hub slice.val = false →
      (len = 0 ∨ nicMax s.hub < len → Completes (.nicTransmit slice ring addr len) s fun t =>
        (t.hub.penSt slice.val).outq ++ (t.hub.penSt slice.val).blocked.map (·.1) =
          (s.hub.penSt slice.val).outq ++ (s.hub.penSt slice.val).blocked.map (·.1) ++
            [.write 1 (descAddr s.hub slice.val ring.val 0) (descBytes addr len 0 false (len != 0))] ∧
        t.hub.fget (F.nic_PTR_HEAD slice.val ring.val) =
          (s.hub.fget (F.nic_PTR_HEAD slice.val ring.val) + 1) % ringSize s.hub slice.val ring.val ∧
        KeptBut [A.nic_PTR slice.val ring.val, A.nic_INT_STAT slice.val] s.hub t.hub) ∧
      (0 < len → len ≤ nicMax s.hub →
        (max 1 (s.hub.fget F.tailrace_NIC_TX_LIMIT_CELLS) ≤
            nicHeld s.hub slice.val (s.hub.fget (F.nic_RING_CTL_PCP slice.val ring.val)) →
          Completes (.nicTransmit slice ring addr len) s fun t => t = s) ∧
        (nicHeld s.hub slice.val (s.hub.fget (F.nic_RING_CTL_PCP slice.val ring.val)) <
            max 1 (s.hub.fget F.tailrace_NIC_TX_LIMIT_CELLS) →
          Completes (.nicTransmit slice ring addr len) s fun t => ∃ f l, fetchOf t.hub slice.val ring.val = some f ∧
            f.addr = addr ∧ f.len = len ∧ (t.hub.penSt slice.val).outq = (s.hub.penSt slice.val).outq ++ l ∧
            t.hub.net.queue = s.hub.net.queue))) ∧
    (∀ (slice : Fin 4) bufs f l q left need n, Tbl.get (fun _ => []) s.hub.net.rx slice.val = f :: l →
      q = 4 + s.hub.fget (F.nic_RX_MAP_RING slice.val (f.tci / 8192)) →
      left = f.bytes.drop f.sent → need = max 1 ((left.length + ringBuf s.hub slice.val q - 1) / ringBuf s.hub slice.val q) →
      n = min need (min (ringPosted s.hub slice.val q) bufs.length) →
      (f.sent = 0 → ringPosted s.hub slice.val q = 0 → Completes (.nicReceive slice bufs) s fun t =>
        Counted s.hub t.hub (F.nic_RX_NOBUF_COUNT slice.val) ∧ t.hub.is (F.nic_INT_STAT_RX_NOBUF slice.val) = true ∧
        Tbl.get (fun _ => []) t.hub.net.rx slice.val = l ∧ (t.hub.penSt slice.val).outq = (s.hub.penSt slice.val).outq) ∧
      (0 < n → hostReadWaits s.hub slice.val = false → Completes (.nicReceive slice bufs) s fun t => ∃ posts,
          (t.hub.penSt slice.val).outq ++ (t.hub.penSt slice.val).blocked.map (·.1) =
            (s.hub.penSt slice.val).outq ++ (s.hub.penSt slice.val).blocked.map (·.1) ++ posts ∧
          posts.getLast? = some (.write 1 (descAddr s.hub slice.val q (n - 1)) (descBytes (bufs.getD (n - 1) 0)
            ((left.drop ((n - 1) * ringBuf s.hub slice.val q)).take (ringBuf s.hub slice.val q)).length f.tci (n == need) false)) ∧
          t.hub.fget (F.nic_PTR_HEAD slice.val q) =
            (s.hub.fget (F.nic_PTR_HEAD slice.val q) + n) % ringSize s.hub slice.val q ∧
          Tbl.get (fun _ => []) t.hub.net.rx slice.val =
            if n = need then l else { f with sent := f.sent + n * ringBuf s.hub slice.val q } :: l)) ∧
    (∀ (slice : Fin 4) (ring : Fin 8), s.hub.net.itrRuns.testBit (8 * slice.val + ring.val) = true →
      (s.hub.net.itrDue.testBit (8 * slice.val + ring.val) = true → Completes (.itrExpiry slice ring) s fun t =>
        t.hub.bit (F.nic_INT_STAT_RING slice.val) ring.val = true ∧ t.hub.net.itrRuns = s.hub.net.itrRuns ∧
        t.hub.net.itrDue.testBit (8 * slice.val + ring.val) = false ∧ OthersKept (A.nic_INT_STAT slice.val) s.hub t.hub) ∧
      (s.hub.net.itrDue.testBit (8 * slice.val + ring.val) = false → Completes (.itrExpiry slice ring) s fun t =>
        t.hub.net.itrRuns.testBit (8 * slice.val + ring.val) = false ∧ t.hub.regs = s.hub.regs)) ∧
    (∀ (port : Fin 2),
      (perstHeld s.hub port.val = false → Completes (.perstRelease port) s fun t =>
        t.hub.is (F.pciedn_STATUS_PERST port.val) = false ∧ OthersKept (A.pciedn_STATUS port.val) s.hub t.hub) ∧
      (perstHeld s.hub port.val = true → Completes (.perstRelease port) s fun t => t = s) ∧
      (∀ present, s.hub.is (F.pciedn_STATUS_PRESENT port.val) ≠ present → Completes (.pciePresenceChange port present) s fun t =>
        ∃ h' : Hub, h'.is (F.pciedn_STATUS_PRESENT port.val) = present ∧ h'.bit (F.hdr_INT_STAT_EVENT (Page.pciedn port.val)) 0 = true ∧
          KeptBut [A.pciedn_STATUS port.val, Page.pciedn port.val + 0x10] s.hub h' ∧
          t.hub = settleReports (if present then wake h' (36 + port.val) else pcieDown h' port.val)) ∧
      (∀ gen width ms, s.hub.listens (36 + port.val) = false → Completes (.pcieLinkUp port gen width ms) s fun t =>
        t.hub = wake s.hub (36 + port.val) ∧ t.reel = s.reel) ∧
      (∀ gen width ms g, s.hub.listens (36 + port.val) = true →
        (unitReleased s.hub (8 + port.val) = true → (s.hub.unitSt (8 + port.val)).attaching = true) →
        s.hub.is (F.pciedn_STATUS_PRESENT port.val) = true → s.hub.is (F.pciedn_STATUS_PERST port.val) = false →
        g = min (max 1 gen) (pcieMaxGen s.hub port.val) → g ≤ 3 ∨ lowNow s.hub 3 = false →
        Completes (.pcieLinkUp port gen width ms) s fun t => ∃ h' : Hub,
          h'.is (F.pciedn_STATUS_DLL_UP port.val) = true ∧ h'.fget (F.pciedn_STATUS_GEN port.val) = g ∧
          h'.fget (F.pciedn_STATUS_WIDTH port.val) = min (pcieLanes width) (pcieMaxWidth s.hub port.val) ∧
          h'.fget (F.pciedn_TRAIN_TIME_MS port.val) = min ms 0xFFFF ∧ h'.is (F.pciedn_CTL_RETRAIN port.val) = false ∧
          h'.bit (F.hdr_INT_STAT_EVENT (Page.pciedn port.val)) 1 = true ∧
          KeptBut [A.pciedn_STATUS port.val, A.pciedn_TRAIN_TIME port.val, A.pciedn_CTL port.val, Page.pciedn port.val + 0x10] s.hub h' ∧
          t.hub = attachTrained (settleReports (dvfsSettle (wake (enforceFloor (capBack h') 3) (36 + port.val)))) (8 + port.val)) ∧
      (s.hub.is (F.pciedn_STATUS_DLL_UP port.val) = true → Completes (.pcieLinkDown port) s fun t => ∃ h' : Hub,
        h'.is (F.pciedn_STATUS_DLL_UP port.val) = false ∧ h'.fget (F.pciedn_STATUS_GEN port.val) = 0 ∧
        h'.fget (F.pciedn_STATUS_WIDTH port.val) = 0 ∧ h'.is (F.pciedn_CTL_RETRAIN port.val) = false ∧ outstandingAt h' port.val = [] ∧
        h'.out = s.hub.out ++ (outstandingAt s.hub port.val).map (fun tag => .urCompletion port.val tag) ∧
        h'.bit (F.hdr_INT_STAT_EVENT (Page.pciedn port.val)) 2 = true ∧
        (outstandingAt s.hub port.val ≠ [] → h'.fget (F.pciedn_ERR_UR_CPL port.val) =
          min (s.hub.fget (F.pciedn_ERR_UR_CPL port.val) + (outstandingAt s.hub port.val).length) (2 ^ (F.pciedn_ERR_UR_CPL port.val).w - 1)) ∧
        t.hub = settleReports (dvfsSettle h')) ∧
      (∀ (kind : Fin 3) tag packets credit, s.hub.is (F.pciedn_STATUS_DLL_UP port.val) = true →
        (kind.val < 2 → Completes (.pcieTlpReceive port kind tag packets credit) s fun t =>
          t.hub = chainArrival s.hub (16 + port.val) kind.val packets true false 0 credit 8) ∧
        (kind.val = 2 → (outstandingAt s.hub port.val).contains tag = true →
          Completes (.pcieTlpReceive port kind tag packets credit) s fun t => ∃ h' : Hub,
            outstandingAt h' port.val = (if lastCompletion packets.flatten then (outstandingAt s.hub port.val).erase tag
              else outstandingAt s.hub port.val) ∧ h'.regs = s.hub.regs ∧
            h'.forebays = s.hub.forebays ∧ t.hub = chainArrival h' (16 + port.val) 2 packets true false 0 credit 8) ∧
        (kind.val = 2 → (outstandingAt s.hub port.val).contains tag = false →
          Completes (.pcieTlpReceive port kind tag packets credit) s fun t =>
            t.hub = returnCredit s.hub (16 + port.val) 2 credit packets.length)) ∧
      (∀ (kind : Fin 3) tag packets credit (o : Fin 4) p, s.hub.is (F.pciedn_STATUS_DLL_UP port.val) = false →
        s.hub.bit (F.slice_RELEASE_UNITS o.val) (8 + port.val) = true → lookup s.hub (16 + port.val) kind.val = some p →
        Completes (.pcieTlpReceive port kind tag packets credit) s fun t =>
          t.hub = returnCredit (countRed s.hub p packets.length) (16 + port.val) kind.val credit packets.length))

/-! ## USB hubs, dock functions and audio (R397–R432) -/

/-- CONNECT follows the value written and the hubs settle (R404, R405). A mailbox takes and gives a whole transfer of up to 512 bytes, waits
while it is full or empty, with NAK at high speed and NRDY at SuperSpeed, and a wait that ends is stalled (R409–R412). -/
def Obligations.DockConnectsAndMailbox : Prop :=
  ∀ (s : State) (slice : Fin 4),
    (∀ (req : Req) (ctl : Word), Writes s req (A.dockfn_CTL slice.val) →
      (Completes (.connect req slice ctl) s fun t => ∃ h' : Hub, Takes h' (A.dockfn_CTL slice.val) (ctl.toNat ||| 1) ∧
        OthersKept (A.dockfn_CTL slice.val) s.hub h' ∧ t.hub = settleUsb h') ∧
      (Completes (.disconnect req slice ctl) s fun t => ∃ h' : Hub, Takes h' (A.dockfn_CTL slice.val) (ctl.toNat &&& 0xFFFFFFFE) ∧
        OthersKept (A.dockfn_CTL slice.val) s.hub h' ∧ t.hub = settleUsb h')) ∧
    (∀ (port : Fin 8) speed, Completes (.connectChange port speed) s fun t => ∃ h' : Hub,
      dev2 h' port.val = min 3 speed ∧ h'.regs = s.hub.regs ∧ t.hub = settleUsb h') ∧
    (dockAnswers s.hub slice.val = true →
      (∀ data : Bytes, data ≠ [] → data.length ≤ 512 →
        (s.hub.is (F.dockfn_MBOX_OUT_FULL slice.val) = false → Completes (.mailboxOut slice data true) s fun t =>
          t.hub.fget (F.dockfn_MBOX_OUT_LEN slice.val) = data.length ∧ t.hub.is (F.dockfn_MBOX_OUT_FULL slice.val) = true ∧
          t.hub.bit (F.hdr_INT_STAT_EVENT (Page.dockfn slice.val)) 0 = true ∧
          ∀ w : Fin 128, t.hub.fget (F.dockfn_MBOX_OUT_BYTES slice.val w.val) = if 4 * w.val < data.length
            then ofBytes ((data.drop (4 * w.val)).take 4) else s.hub.fget (F.dockfn_MBOX_OUT_BYTES slice.val w.val)) ∧
        (s.hub.is (F.dockfn_MBOX_OUT_FULL slice.val) = false → Completes (.mailboxOut slice data false) s fun t =>
          Counted s.hub t.hub (F.dockfn_CTRL_ERR_ABORTS slice.val) ∧ OthersKept (A.dockfn_CTRL_ERR slice.val) s.hub t.hub ∧
          Tbl.get (fun _ => 0) t.hub.usb.waiting slice.val = 0) ∧
        (s.hub.is (F.dockfn_MBOX_OUT_FULL slice.val) = true → ∀ complete, Completes (.mailboxOut slice data complete) s fun t =>
          Tbl.get (fun _ => 0) t.hub.usb.waiting slice.val = 1 ∧ t.hub.regs = s.hub.regs ∧ t.hub.out = s.hub.out ++
            [.usbHandshake slice.val (if s.hub.fget (F.dockfn_STATUS_SPEED slice.val) = 1 then 2 else 3)])) ∧
      (∀ len,
        (s.hub.is (F.dockfn_MBOX_IN_READY slice.val) = true → Completes (.mailboxIn slice len true) s fun t =>
          t.hub.out = s.hub.out ++ [.usbReply slice.val
            (((List.range 128).flatMap fun w => leBytes 4 (s.hub.fget (F.dockfn_MBOX_IN_BYTES slice.val w))).take
              (min len (min 512 (s.hub.fget (F.dockfn_MBOX_IN_LEN slice.val)))))] ∧
          t.hub.is (F.dockfn_MBOX_IN_READY slice.val) = false ∧ t.hub.bit (F.hdr_INT_STAT_EVENT (Page.dockfn slice.val)) 1 = true ∧
          KeptBut [A.dockfn_MBOX slice.val, Page.dockfn slice.val + 0x10] s.hub t.hub) ∧
        (s.hub.is (F.dockfn_MBOX_IN_READY slice.val) = false → ∀ complete, Completes (.mailboxIn slice len complete) s fun t =>
          Tbl.get (fun _ => 0) t.hub.usb.waiting slice.val = 2 ∧ t.hub.regs = s.hub.regs ∧ t.hub.out = s.hub.out ++
            [.usbHandshake slice.val (if s.hub.fget (F.dockfn_STATUS_SPEED slice.val) = 1 then 2 else 3)]))) ∧
    (Tbl.get (fun _ => 0) s.hub.usb.waiting slice.val ≠ 0 → Completes (.vreqTimeout slice) s fun t =>
      Counted s.hub t.hub (F.dockfn_CTRL_ERR_STALLS slice.val) ∧ t.hub.out = s.hub.out ++ [.usbStall slice.val] ∧
      Tbl.get (fun _ => 0) t.hub.usb.waiting slice.val = 0 ∧ OthersKept (A.dockfn_CTRL_ERR slice.val) s.hub t.hub)

/-- A dock function answers the standard requests and the vendor requests, or stalls and counts what it does not support (R398, R406–R411);
a register write without its status stage has no effect and counts as aborted (R409), a PING is answered ACK or NAK on a high-speed bus
(R412). -/
def Obligations.DockRequests : Prop :=
  ∀ (s : State) (slice : Fin 4),
    dockAnswers s.hub slice.val = true →
      (∀ a, dockState s.hub slice.val ≠ 3 → Completes (.standardRequest slice (.setAddress a)) s fun t =>
        t.hub.Has (F.dockfn_STATUS_ADDR slice.val) a ∧ dockState t.hub slice.val = (if a % 128 = 0 then 1 else 2) ∧
        t.hub.out = s.hub.out ++ [.usbReply slice.val []] ∧ OthersKept (A.dockfn_STATUS slice.val) s.hub t.hub) ∧
      (∀ q, (∃ a, q = .setAddress a ∧ dockState s.hub slice.val = 3) ∨
          (∃ v, q = .setConfiguration v ∧ (dockState s.hub slice.val = 1 ∨ 1 < v)) ∨
          (∃ n alt, q = .setInterface n alt ∧ (dockState s.hub slice.val ≠ 3 ∨ 5 < n ∨ 2 < alt)) ∨ (∃ r, q = .vendor r) ∨
          (∃ e, q = .synchFrame e) ∨ (∃ bs, q = .setSel bs ∧ s.hub.fget (F.dockfn_STATUS_SPEED slice.val) = 1) ∨
          (∃ suspend wake, q = .functionSuspend suspend wake ∧ s.hub.fget (F.dockfn_STATUS_SPEED slice.val) = 1) ∨
          (∃ e on, q = .endpointHalt e on ∧ (dockState s.hub slice.val ≠ 3 ∨ dockHalts s.hub slice.val e = false)) →
        Completes (.standardRequest slice q) s fun t => Counted s.hub t.hub (F.dockfn_CTRL_ERR_STALLS slice.val) ∧
          t.hub.out = s.hub.out ++ [.usbStall slice.val] ∧ OthersKept (A.dockfn_CTRL_ERR slice.val) s.hub t.hub) ∧
      (dockState s.hub slice.val ≠ 1 → Completes (.standardRequest slice (.setConfiguration 1)) s fun t =>
        dockState t.hub slice.val = 3 ∧ t.hub.out = s.hub.out ++ [.usbReply slice.val []] ∧
        (dockState s.hub slice.val ≠ 3 → t.hub.bit (F.hdr_INT_STAT_EVENT (Page.dockfn slice.val)) 3 = true) ∧
        KeptBut [A.dockfn_STATUS slice.val, Page.dockfn slice.val + 0x10] s.hub t.hub) ∧
      (dockState s.hub slice.val ≠ 1 → Completes (.standardRequest slice (.setConfiguration 0)) s fun t =>
        dockState t.hub slice.val = 2 ∧ t.hub.fget (F.dockfn_STATUS_PLAY_ALT slice.val) = 0 ∧
        t.hub.fget (F.dockfn_STATUS_CAP_ALT slice.val) = 0 ∧ (∀ e, halted t.hub slice.val e = false) ∧
        t.hub.out = s.hub.out ++ [.usbReply slice.val []]) ∧
      (Completes (.standardRequest slice .getConfiguration) s fun t => t.hub.regs = s.hub.regs ∧
        t.hub.out = s.hub.out ++ [.usbReply slice.val [if dockState s.hub slice.val = 3 then 1 else 0]]) ∧
      (Completes (.standardRequest slice (.getStatus none)) s fun t => t.hub.regs = s.hub.regs ∧ ∃ self : Nat, self < 2 ∧
        t.hub.out = s.hub.out ++ [.usbReply slice.val (leBytes 2 (self + (if s.hub.fget (F.dockfn_STATUS_SPEED slice.val) = 1
          then 2 * s.hub.fget (F.dockfn_STATUS_RWAKE_EN slice.val) else 4 * (Tbl.get (fun _ => 0) s.hub.usb.feats slice.val % 4))))]) ∧
      (∀ e, dockHasEp s.hub slice.val e = true → Completes (.standardRequest slice (.getStatus (some e))) s fun t =>
        t.hub.regs = s.hub.regs ∧
        t.hub.out = s.hub.out ++ [.usbReply slice.val (leBytes 2 (if halted s.hub slice.val e = true then 1 else 0))]) ∧
      (∀ e on, dockState s.hub slice.val = 3 → dockHalts s.hub slice.val e = true →
        Completes (.standardRequest slice (.endpointHalt e on)) s fun t => halted t.hub slice.val e = on ∧ t.hub.regs = s.hub.regs ∧
          t.hub.out = s.hub.out ++ [.usbReply slice.val []]) ∧
      (∀ suspend wake, s.hub.fget (F.dockfn_STATUS_SPEED slice.val) ≠ 1 → dockState s.hub slice.val = 3 →
        Completes (.standardRequest slice (.functionSuspend suspend wake)) s fun t =>
          t.hub.is (F.dockfn_STATUS_RWAKE_EN slice.val) = wake ∧ t.hub.out = s.hub.out ++ [.usbReply slice.val []] ∧
          OthersKept (A.dockfn_STATUS slice.val) s.hub t.hub) ∧
      (∀ alt, dockState s.hub slice.val = 3 → s.hub.is (F.dockfn_CTL_AUDIO_EN slice.val) = true → alt ≤ 2 →
        Completes (.standardRequest slice (.setInterface 2 alt)) s fun t =>
          t.hub.fget (F.dockfn_STATUS_PLAY_ALT slice.val) = alt ∧ t.hub.out = s.hub.out ++ [.usbReply slice.val []] ∧
          (s.hub.fget (F.dockfn_STATUS_PLAY_ALT slice.val) ≠ alt →
            t.hub.bit (F.hdr_INT_STAT_EVENT (Page.dockfn slice.val)) 7 = true)) ∧
      (∀ on, Completes (.standardRequest slice (.remoteWake on)) s fun t => t.hub.is (F.dockfn_STATUS_RWAKE_EN slice.val) = on ∧
        t.hub.out = s.hub.out ++ [.usbReply slice.val []] ∧ OthersKept (A.dockfn_STATUS slice.val) s.hub t.hub) ∧
      (∀ len, Completes (.standardRequest slice (.get 1 len)) s fun t => t.hub.regs = s.hub.regs ∧
        t.hub.out = s.hub.out ++ [.usbDescriptor slice.val (.device (s.hub.fget (F.dockfn_IDS_VID slice.val))
          (s.hub.fget (F.dockfn_IDS_PID slice.val)) (s.hub.fget (F.dockfn_BCD_DEVICE slice.val))
          (if s.hub.fget (F.dockfn_STATUS_SPEED slice.val) = 1 then 64 else 512)) len]) ∧
      (∀ len, Completes (.standardRequest slice (.get 2 len)) s fun t => t.hub.regs = s.hub.regs ∧ ∃ l : List DockIface,
        t.hub.out = s.hub.out ++ [.usbDescriptor slice.val (.configuration l) len] ∧
        l.map (·.num) = [0] ++ (if s.hub.is (F.dockfn_CTL_AUDIO_EN slice.val) = true then [1, 2, 3] else []) ++
          (if s.hub.is (F.dockfn_CTL_HID_EN slice.val) = true then [4] else []) ++
          (if s.hub.is (F.dockfn_CTL_BB_EN slice.val) = true then [5] else [])) ∧
      (s.hub.fget (F.dockfn_STATUS_SPEED slice.val) = 1 → Completes (.standardRequest slice .ping) s fun t => ∃ code : Nat,
        (code = 0 ∨ code = 2) ∧ t.hub.out = s.hub.out ++ [.usbHandshake slice.val code] ∧ t.hub.regs = s.hub.regs) ∧
      (∀ len, Completes (.getInfo slice len) s fun t => t.hub.regs = s.hub.regs ∧ t.hub.out = s.hub.out ++
        [.usbReply slice.val (([BitVec.ofNat 8 s.hub.variant, BitVec.ofNat 8 slice.val, BitVec.ofNat 8 (hubNumber s.hub), 0] ++
          (leBytes 2 (s.hub.fget F.fabric_FW_VER_MINOR) ++ leBytes 2 (s.hub.fget F.fabric_FW_VER_MAJOR))).take len)]) ∧
      (∀ (offset : BitVec 25) (value : Word),
        (offset.toNat % 4 = 0 → Reads s (.slice slice) offset.toNat → Completes (.regRead slice offset 4) s fun t =>
          t.hub.out = (readWord s.hub (.slice slice) offset.toNat).1.out ++
            [.usbReply slice.val (leBytes 4 (readWord s.hub (.slice slice) offset.toNat).2)] ∧
          (∀ f, t.hub.fget f = (readWord s.hub (.slice slice) offset.toNat).1.fget f) ∧ t.reel = s.reel) ∧
        (offset.toNat % 4 = 0 → Passes s (.slice slice) offset.toNat true →
          endsBist (windowAccess (.slice slice) offset.toNat 4 true 0) = false → Completes (.regWrite slice offset 4 value true) s fun t =>
            t.hub = ep0Out (writeWord (invalidate s.hub false offset.toNat 4) (.slice slice) offset.toNat value.toNat) slice.val 4 ∧
            t.reel = s.reel) ∧
        (offset.toNat % 4 = 0 → Completes (.regWrite slice offset 4 value false) s fun t =>
          Counted s.hub t.hub (F.dockfn_CTRL_ERR_ABORTS slice.val) ∧ OthersKept (A.dockfn_CTRL_ERR slice.val) s.hub t.hub ∧
          t.reel = s.reel) ∧
        (offset.toNat % 4 ≠ 0 → Completes (.regRead slice offset 4) s fun t =>
          Counted s.hub t.hub (F.dockfn_CTRL_ERR_STALLS slice.val) ∧ t.hub.out = s.hub.out ++ [.usbStall slice.val]))

/-- The hubs of a slice answer the class requests for their ports, their descriptor and link power management, and the dock function
those for its clock source (R398, R418). Port k of a hub has the number k + 1 (R397). -/
def Obligations.HubClassRequests : Prop :=
  ∀ (s : State) (slice : Fin 4),
    (s.hub.present .usbhub slice.val = true →
      (∀ three p, p < 9 → Completes (.classRequest slice (.portStatus three (p + 1))) s fun t => t.hub.regs = s.hub.regs ∧
        t.hub.out = s.hub.out ++ [.usbPort slice.val (if three then 3 else 2) (p + 1)
          (s.hub.bit (if three then F.usbhub_CONN_USB3 slice.val else F.usbhub_CONN_USB2 slice.val) p)
          ((Tbl.get (fun _ => 0) s.hub.usb.suspended slice.val).testBit (hubPort three p))
          (decide (p < 8) && s.hub.usb.oc.testBit p && unitOwned s.hub p slice.val)
          ((Tbl.get (fun _ => 0) s.hub.usb.connChange slice.val).testBit (hubPort three p))
          ((Tbl.get (fun _ => 0) s.hub.usb.ocChange slice.val).testBit (hubPort three p))]) ∧
      (∀ three p on, p < 9 → Completes (.classRequest slice (.portSuspend three (p + 1) on)) s fun t =>
        (Tbl.get (fun _ => 0) t.hub.usb.suspended slice.val).testBit (hubPort three p) = on ∧ t.hub.regs = s.hub.regs) ∧
      (∀ three p, p < 9 → Completes (.classRequest slice (.clearConnection three (p + 1))) s fun t =>
        (Tbl.get (fun _ => 0) t.hub.usb.connChange slice.val).testBit (hubPort three p) = false ∧ t.hub.regs = s.hub.regs) ∧
      (∀ three p, p < 9 → Completes (.classRequest slice (.clearOverCurrent three (p + 1))) s fun t =>
        (Tbl.get (fun _ => 0) t.hub.usb.ocChange slice.val).testBit (hubPort three p) = false ∧ t.hub.regs = s.hub.regs) ∧
      (∀ three n on, Completes (.classRequest slice (.portPower three n on)) s fun t => t = s) ∧
      (∀ code, dockAnswers s.hub slice.val = true → s.hub.is (F.dockfn_CTL_AUDIO_EN slice.val) = true → rateOffered s.hub code = true →
        Completes (.classRequest slice (.setRate code)) s fun t => t.hub.Has (F.dockfn_STATUS_RATE slice.val) code ∧
          t.hub.out = s.hub.out ++ [.usbReply slice.val []] ∧ OthersKept (A.dockfn_STATUS slice.val) s.hub t.hub) ∧
      (∀ three, Completes (.classRequest slice (.hubDescriptor three)) s fun t => t.hub.regs = s.hub.regs ∧
        t.hub.out = s.hub.out ++ [.usbHubDescriptor slice.val (if three then 3 else 2) 9 (2 ^ 9) (if three then 0 else 8) (!three) false true
          (Config.containerId slice.val).toNat]) ∧
      (∀ three, Completes (.classRequest slice (.linkPower three)) s fun t => t.hub.regs = s.hub.regs ∧
        t.hub.out = s.hub.out ++ [.usbLinkPower slice.val (if three then 3 else 2)
          (s.hub.is (if three then F.usbhub_CTL_U12_EN slice.val else F.usbhub_CTL_LPM_EN slice.val))]))

/-- A suspended dock function resumes to the state it had, by its own wake, a K of 10 ms or an exit from U3 with a Function Wake after it, counted
in SENT, or by its host, a wake under way then being absorbed (R413–R415); a bus reset aborts the control transfer in progress and
returns the USB state to its defaults (R416). A HID report is sent at a poll and wakes a
suspended bus; a notification beyond the one that waits is lost and counted (R429).
A streaming function measures the feedback value and takes the isochronous frames (R420, R423; a measurement counts 256ths of a frame, the
model's choice, log 109). The AUD port sends the oldest block of the Foley mixer that it holds, zeros while it has no lock and when it
holds none, which it counts, and holds the last two blocks of its input (R421–R424; which block of input a third one displaces is the
model's choice, log 109). A slave port locks and loses its lock
(R424). -/
def Obligations.SuspendReportsAndAudio : Prop :=
  (∀ (s : State) (slice : Fin 4),
      (dockAnswers s.hub slice.val = true → s.hub.is (F.dockfn_WAKE_REQ slice.val) = false → s.hub.is (F.dockfn_HID_SEND slice.val) = false →
        Completes (.suspend slice .dock) s fun t => dockState t.hub slice.val = 4 ∧
        Tbl.get (fun _ => 0) t.hub.usb.before slice.val = dockState s.hub slice.val ∧
        t.hub.bit (F.hdr_INT_STAT_EVENT (Page.dockfn slice.val)) 4 = true ∧
        KeptBut [A.dockfn_STATUS slice.val, Page.dockfn slice.val + 0x10] s.hub t.hub) ∧
      (s.hub.is (F.usbhub_STATUS_UP3 slice.val) = true → Completes (.suspend slice .hub3) s fun t =>
        t.hub.is (F.usbhub_STATUS_UP3 slice.val) = false ∧ t.hub.is (F.usbhub_STATUS_U3 slice.val) = true ∧
        t.hub.bit (F.hdr_INT_STAT_EVENT (Page.usbhub slice.val)) 1 = true) ∧
      (dockState s.hub slice.val = 4 →
        (∀ req, Writes s req (A.dockfn_WAKE slice.val) → s.hub.is (F.dockfn_WAKE_REQ slice.val) = false →
          (s.hub.is (F.dockfn_STATUS_RWAKE_EN slice.val) = false → Completes (.remoteWake req slice) s fun t =>
            t.hub.is (F.dockfn_WAKE_REQ slice.val) = false ∧ OthersKept (A.dockfn_WAKE slice.val) s.hub t.hub ∧ t.hub.out = s.hub.out) ∧
          (s.hub.is (F.dockfn_STATUS_RWAKE_EN slice.val) = true →
            Completes (.remoteWake req slice) s fun t => t.hub.is (F.dockfn_WAKE_REQ slice.val) = true ∧
              t.hub.usb.driving.testBit slice.val = true ∧ OthersKept (A.dockfn_WAKE slice.val) s.hub t.hub ∧
              t.hub.out = s.hub.out ++ [.usbResume slice.val (s.hub.fget (F.dockfn_STATUS_SPEED slice.val) != 1)])) ∧
        (s.hub.usb.driving.testBit slice.val = true → Completes (.resumeKEnd slice) s fun t =>
          t.hub.is (F.dockfn_WAKE_REQ slice.val) = false ∧
          t.hub.Has (F.dockfn_WAKE_SENT slice.val) (s.hub.fget (F.dockfn_WAKE_SENT slice.val) + 1) ∧
          t.hub.Has (F.dockfn_STATUS_STATE slice.val) (Tbl.get (fun _ => 0) s.hub.usb.before slice.val) ∧
          t.hub.bit (F.hdr_INT_STAT_EVENT (Page.dockfn slice.val)) 5 = true ∧ t.hub.usb.driving.testBit slice.val = false ∧
          (s.hub.fget (F.dockfn_STATUS_SPEED slice.val) = 1 → t.hub.is (F.usbhub_STATUS_SUSP2 slice.val) = false) ∧
          (s.hub.fget (F.dockfn_STATUS_SPEED slice.val) ≠ 1 → t.hub.is (F.usbhub_STATUS_U3 slice.val) = false ∧
            t.hub.out.getLast? = some (.usbFunctionWake slice.val))) ∧
        (∀ u, s.hub.usb.driving.testBit slice.val = true → (u = .hub2 ∧ s.hub.fget (F.dockfn_STATUS_SPEED slice.val) = 1 ∨
            u = .hub3 ∧ s.hub.fget (F.dockfn_STATUS_SPEED slice.val) ≠ 1) → Completes (.hostResume slice u) s fun t =>
          t.hub.Has (F.dockfn_STATUS_STATE slice.val) (Tbl.get (fun _ => 0) s.hub.usb.before slice.val) ∧
          t.hub.usb.driving.testBit slice.val = false ∧ t.hub.is (F.dockfn_WAKE_REQ slice.val) = false ∧
          t.hub.bit (F.hdr_INT_STAT_EVENT (Page.dockfn slice.val)) 6 = true ∧
          t.hub.Has (F.dockfn_WAKE_ABSORBED slice.val) (s.hub.fget (F.dockfn_WAKE_ABSORBED slice.val) + 1)) ∧
        (Completes (.hostResume slice .dock) s fun t =>
          t.hub.Has (F.dockfn_STATUS_STATE slice.val) (Tbl.get (fun _ => 0) s.hub.usb.before slice.val) ∧
          t.hub.bit (F.hdr_INT_STAT_EVENT (Page.dockfn slice.val)) 5 = true ∧
          (s.hub.usb.driving.testBit slice.val = true ∨ s.hub.is (F.dockfn_WAKE_REQ slice.val) = true →
            t.hub.is (F.dockfn_WAKE_REQ slice.val) = false ∧ t.hub.bit (F.hdr_INT_STAT_EVENT (Page.dockfn slice.val)) 6 = true ∧
            t.hub.Has (F.dockfn_WAKE_ABSORBED slice.val) (s.hub.fget (F.dockfn_WAKE_ABSORBED slice.val) + 1)))) ∧
      (dockState s.hub slice.val ≠ 0 → Completes (.busReset slice) s fun t => ∃ h' : Hub, dockState h' slice.val = 1 ∧
        h'.fget (F.dockfn_STATUS_ADDR slice.val) = 0 ∧ h'.is (F.dockfn_STATUS_RWAKE_EN slice.val) = false ∧
        h'.fget (F.dockfn_STATUS_PLAY_ALT slice.val) = 0 ∧ h'.fget (F.dockfn_STATUS_CAP_ALT slice.val) = 0 ∧
        h'.is (F.dockfn_HID_SEND slice.val) = false ∧ h'.is (F.dockfn_MBOX_IN_READY slice.val) = false ∧
        h'.bit (F.hdr_INT_STAT_EVENT (Page.dockfn slice.val)) 2 = true ∧ h'.stalled.any (ofDock slice.val) = false ∧
        Tbl.get (fun _ => 0) h'.usb.waiting slice.val = 0 ∧ h'.usb.notify.testBit slice.val = false ∧ (t.hub, t.reel) = goOn h' s.reel) ∧
      (∀ (req : Req) (report : BitVec 16), Writes s req (A.dockfn_HID slice.val) → Completes (.hidSend (some req) slice report) s fun t =>
        ∃ h' : Hub, h'.fget (F.dockfn_HID_REPORT slice.val) = report.toNat ∧ h'.is (F.dockfn_HID_SEND slice.val) = true ∧
          OthersKept (A.dockfn_HID slice.val) s.hub h' ∧ h'.out = s.hub.out ∧
          t.hub = if s.hub.is (F.dockfn_HID_SEND slice.val) = false ∧ dockState s.hub slice.val = 4 ∧
            s.hub.is (F.dockfn_STATUS_RWAKE_EN slice.val) = true then signalWake h' slice.val else h') ∧
      (∀ report, s.hub.is (F.dockfn_HID_SEND slice.val) = true → dockState s.hub slice.val = 3 →
        s.hub.is (F.dockfn_CTL_HID_EN slice.val) = true →
          (halted s.hub slice.val 20 = false → Completes (.hidSend none slice report) s fun t =>
            t.hub.out = s.hub.out ++ [.usbReport slice.val (s.hub.fget (F.dockfn_HID_REPORT slice.val))] ∧
            t.hub.is (F.dockfn_HID_SEND slice.val) = false ∧ OthersKept (A.dockfn_HID slice.val) s.hub t.hub) ∧
          (halted s.hub slice.val 20 = true → Completes (.hidSend none slice report) s fun t =>
            t.hub.out = s.hub.out ++ [.usbHandshake slice.val 4] ∧ t.hub.regs = s.hub.regs)) ∧
      (∀ (req : Req) (value : Word), Writes s req (A.dockfn_NOTIFY slice.val) →
        (s.hub.usb.notify.testBit slice.val = false → Completes (.notify (some req) slice value) s fun t =>
          t.hub.fget (F.dockfn_NOTIFY_DATA slice.val) = value.toNat ∧ t.hub.usb.notify.testBit slice.val = true ∧
          OthersKept (A.dockfn_NOTIFY slice.val) s.hub t.hub) ∧
        (s.hub.usb.notify.testBit slice.val = true → Completes (.notify (some req) slice value) s fun t =>
          Counted s.hub t.hub (F.dockfn_CTRL_ERR_NOTIFY_LOST slice.val) ∧ OthersKept (A.dockfn_CTRL_ERR slice.val) s.hub t.hub)) ∧
      (∀ value, s.hub.usb.notify.testBit slice.val = true → dockState s.hub slice.val = 3 → halted s.hub slice.val 17 = false →
        Completes (.notify none slice value) s fun t =>
          t.hub.out = s.hub.out ++ [.usbNotify slice.val (s.hub.fget (F.dockfn_NOTIFY_DATA slice.val))] ∧
          t.hub.usb.notify.testBit slice.val = false ∧ t.hub.regs = s.hub.regs)) ∧
  (∀ (s : State),
      (∀ (slice : Fin 4), s.hub.fget (F.dockfn_STATUS_PLAY_ALT slice.val) ≠ 0 → dockState s.hub slice.val = 3 →
        (∀ clocks : Word, Completes (.feedback slice clocks) s fun t => t.hub.fget (F.dockfn_FEEDBACK_VALUE slice.val) =
            (if converted s.hub slice.val = true then clocks.toNat * 65536 * 147 / (256 * 512 * 160) else clocks.toNat * 65536 / (256 * 512)) ∧
          t.hub.out = s.hub.out ++ [.usbFeedback slice.val (t.hub.fget (F.dockfn_FEEDBACK_VALUE slice.val))] ∧
          OthersKept (A.dockfn_FEEDBACK slice.val) s.hub t.hub) ∧
        (∀ frames, Completes (.isochronousPacket slice (.play frames)) s fun t =>
          Tbl.get (fun _ => []) t.hub.usb.play slice.val = Tbl.get (fun _ => []) s.hub.usb.play slice.val ++ frames ∧
          t.hub.regs = s.hub.regs)) ∧
      (∀ (slice : Fin 4) n, captures s.hub slice.val = true → converted s.hub slice.val = false →
        Completes (.isochronousPacket slice (.capture n)) s fun t =>
          t.hub.out = s.hub.out ++ [.usbAudio slice.val ((Tbl.get (fun _ => []) s.hub.usb.capture slice.val).take n)] ∧
          Tbl.get (fun _ => []) t.hub.usb.capture slice.val = (Tbl.get (fun _ => []) s.hub.usb.capture slice.val).drop n ∧
          t.hub.regs = s.hub.regs) ∧
      (∀ delivered input, s.hub.is F.aud_CTL_EN = true → Completes (.audioBlock delivered input) s fun t => ∃ b : List (List Nat),
        t.hub.out = s.hub.out ++ [.audBlock (s.hub.fget F.aud_CTL_FORMAT == 1) (if s.hub.is F.aud_CTL_MASTER = true then
          some (256 * portHz s.hub, (if s.hub.fget F.aud_CTL_FORMAT = 1 then 256 else 64) * portHz s.hub, portHz s.hub) else none) b] ∧
        t.hub.Has F.aud_BLOCKS_COUNT (s.hub.fget F.aud_BLOCKS_COUNT + 1) ∧ t.hub.usb.audIn.length ≤ 2 ∧
        t.hub.usb.audIn.getLast? = some (input.take (blockFrames s.hub)) ∧
        (s.hub.is F.aud_STATUS_LOCK = false → b.length = blockFrames s.hub ∧ ∀ fr ∈ b, ∀ x ∈ fr, x = 0) ∧
        (delivered = 0 → s.hub.usb.audOut = [] → Counted s.hub t.hub F.aud_MIX_STAT_LATE ∧ t.hub.bit (F.hdr_INT_STAT_EVENT Page.aud) 1 = true ∧
          b.length = blockFrames s.hub ∧ ∀ fr ∈ b, ∀ x ∈ fr, x = 0) ∧
        (∀ b' l, delivered = 0 → s.hub.usb.audOut = b' :: l → t.hub.usb.audOut = l ∧
          t.hub.fget F.aud_MIX_STAT_LATE = s.hub.fget F.aud_MIX_STAT_LATE ∧ (s.hub.is F.aud_STATUS_LOCK = true → b' ≠ [] → b = b')) ∧
        (delivered = 1 → s.hub.usb.audOut = [] → s.hub.is F.aud_STATUS_LOCK = true → t.hub.usb.audOut = [] ∧ b.length = blockFrames s.hub ∧
          ∀ f c, f < blockFrames s.hub → c < 8 → (b[f]?.getD [])[c]?.getD 0 = ofInt 24 (mixSample s.hub (playFrames s.hub) f c).1)) ∧
      (s.hub.is F.aud_CTL_EN = true →
        (Completes .audLock s fun t => ∃ h' : Hub, h'.is F.aud_STATUS_RUN = true ∧ h'.is F.aud_STATUS_LOCK = true ∧
          (s.hub.is F.aud_STATUS_LOCK = false → h'.bit (F.hdr_INT_STAT_EVENT Page.aud) 0 = true) ∧
          KeptBut [A.aud_STATUS, Page.aud + 0x10] s.hub h' ∧ t.hub = settleUsb h') ∧
        (Completes .audLockLoss s fun t => ∃ h' : Hub, h'.is F.aud_STATUS_RUN = true ∧
          h'.is F.aud_STATUS_LOCK = s.hub.is F.aud_CTL_MASTER ∧
          (s.hub.is F.aud_STATUS_LOCK ≠ s.hub.is F.aud_CTL_MASTER → h'.bit (F.hdr_INT_STAT_EVENT Page.aud) 0 = true) ∧
          KeptBut [A.aud_STATUS, Page.aud + 0x10] s.hub h' ∧ t.hub = settleUsb h')))

/-! ## Type-C ports and Power Delivery (R433–R471) -/

/-- A port that sees Rd or Rp waits for its debounce, attaches in the role that its state leads to when the ledger has room, and waits in
BUDGET_WAIT when it has not (R434, R438, R448, R452). An open CC or a lost VBUS leads through the detach actions back to an unattached
state, a source through DISCHARGE (R438, R464). -/
def Obligations.PortStates : Prop :=
  ∀ (s : State) (p : Fin 12),
    (s.hub.power.shelf ≠ 2 → ∀ pin2 ra,
      (tcState s.hub p.val = 1 → Completes (.ccAttachSeen p .rp pin2 ra) s fun t => tcState t.hub p.val = 2 ∧
        (t.hub.port p.val).seen = 2 ∧ (t.hub.port p.val).pin2 = pin2 ∧ (t.hub.port p.val).ra = ra ∧
        OthersKept (A.typec_STATUS p.val) s.hub t.hub) ∧
      (tcState s.hub p.val = 4 → Completes (.ccAttachSeen p .rd pin2 ra) s fun t => ∃ w : Hub, tcState w p.val = 5 ∧
        (w.port p.val).seen = 1 ∧ (w.port p.val).pin2 = pin2 ∧ (w.port p.val).reserves = true ∧
        OthersKept (A.typec_STATUS p.val) s.hub w ∧ t.hub = settleLedger w) ∧
      (tcState s.hub p.val = 7 → Completes (.ccAttachSeen p .rd pin2 ra) s fun t =>
        (t.hub.port p.val).seen = 1 ∧ t.hub.regs = s.hub.regs) ∧
      (tcState s.hub p.val = 8 → Completes (.ccAttachSeen p .rp pin2 ra) s fun t =>
        (t.hub.port p.val).seen = 2 ∧ (t.hub.port p.val).pin2 = pin2 ∧ t.hub.regs = s.hub.regs)) ∧
    (tcState s.hub p.val = 2 → Completes (.terminationLost p) s fun t => Unattaches s.hub t.hub p.val 1) ∧
    (tcState s.hub p.val = 5 ∨ tcState s.hub p.val = 9 → Completes (.terminationLost p) s fun t => Unattaches s.hub t.hub p.val 4) ∧
    (tcState s.hub p.val = 2 →
      (s.hub.is (F.typec_CFG_TRY_SRC p.val) = true → roleOf s.hub p.val = 0 → inputGood s.hub = true →
        Completes (.ccDebounce p true) s fun t => tcState t.hub p.val = 7 ∧ (t.hub.port p.val).seen = 0 ∧
          OthersKept (A.typec_STATUS p.val) s.hub t.hub) ∧
      (s.hub.is (F.typec_CFG_TRY_SRC p.val) = false ∨ roleOf s.hub p.val ≠ 0 ∨ inputGood s.hub = false →
        Completes (.ccDebounce p true) s fun t => Attaches s.hub t.hub p.val false) ∧
      Completes (.ccDebounce p false) s fun t => t = s) ∧
    (tcState s.hub p.val = 8 → (s.hub.port p.val).seen = 2 →
      Completes (.ccDebounce p true) s fun t => Attaches s.hub t.hub p.val false) ∧
    (tcState s.hub p.val = 5 → ∀ vbus, SourceStarts (.ccDebounce p vbus) s p.val) ∧
    (tcState s.hub p.val = 7 → (s.hub.port p.val).seen = 1 → SourceStarts (.tryDebounce p) s p.val) ∧
    (s.hub.power.shelf ≠ 2 → p.val < 4 → roleOf s.hub p.val = 0 → inputGood s.hub = true → tcState s.hub p.val = 1 ∨ tcState s.hub p.val = 4 →
      Completes (.drpToggle p) s fun t => tcState t.hub p.val = 5 - tcState s.hub p.val ∧
        OthersKept (A.typec_STATUS p.val) s.hub t.hub) ∧
    (tcState s.hub p.val = 7 → Completes (.tryPeriodEnd p) s fun t => tcState t.hub p.val = 8 ∧ (t.hub.port p.val).seen = 0 ∧
      OthersKept (A.typec_STATUS p.val) s.hub t.hub) ∧
    (tcState s.hub p.val = 8 → Completes (.tryPeriodEnd p) s fun t => Unattaches s.hub t.hub p.val 1) ∧
    (tcState s.hub p.val = 6 → Completes (.ccOpen p) s fun t => ∃ w : Hub, tcState w p.val = 10 ∧ t.hub = detached w p.val ∧
      (p.val < 4 → w.fget (F.typec_STATUS_CONTRACT p.val) = 0 ∧ w.fget (F.typec_CONTRACT_MV p.val) = 0 ∧
        w.fget (F.typec_CONTRACT_MA p.val) = 0 ∧ w.is (F.typec_STATUS_EPR_MODE p.val) = false ∧
        w.is (F.typec_STATUS_FY9_MODE p.val) = false)) ∧
    (tcState s.hub p.val = 10 →
      (Completes (.vbusDischarged p) s fun t => Unattaches s.hub t.hub p.val (idleState s.hub p.val)) ∧
      (Completes (.dischargeSlow p) s fun t => t.hub.bit (F.hdr_INT_STAT_EVENT (Page.typec p.val)) 14 = true ∧
        OthersKept (Page.typec p.val + 0x10) s.hub t.hub)) ∧
    (tcState s.hub p.val = 6 → (s.hub.port p.val).hardReset = true → Completes (.vbusDischarged p) s fun t => ∃ w : Hub,
      (w.port p.val).hardReset = false ∧ (w.port p.val).vbus = true ∧ w.regs = s.hub.regs ∧ t.hub = settleWeirs w) ∧
    (tcState s.hub p.val = 11 → Completes (.errorRecoveryEnd p) s fun t =>
      Unattaches s.hub t.hub p.val (idleState s.hub p.val)) ∧
    (tcState s.hub p.val = 3 → (s.hub.port p.val).await ≠ 5 → Completes (.vbusLost p) s fun t =>
      Unattaches (detached (dropContract s.hub p.val) p.val) t.hub p.val (if s.hub.is (F.typec_CFG_EN p.val) then 1 else 0)) ∧
    (4 ≤ p.val → 2 ≤ s.hub.fget (F.typec_STATUS_ALT p.val) → dpMode (s.hub.fget (F.link_LINK_STATUS_MODE p.val)) = true → ∀ hpd,
      Completes (.attention p hpd) s fun t => t.hub = dpStop s.hub (p.val - 4) hpd)

/-- An attached port with no exchange of its own answers the partner's messages in hardware, changing no register beside those named
(R442–R444, R456–R459, R467), with Soft_Reset to an answer that nothing awaits (R442; that this is a protocol error is DEDUCED, log 112), and becomes sink by a Fast Role Swap once VBUS is at or below vSafe5V (R462); a Request within the PDO is accepted, one beyond it is rejected and counted (R443). -/
def Obligations.PdMessages : Prop :=
  ∀ (s : State) (p : Fin 12), attached s.hub p.val = true → ownAms s.hub p.val = false → (s.hub.port p.val).held = [] →
    ((tcState s.hub p.val = 6 → amsRuns s.hub p.val = false) →
      (s.hub.is (F.typec_STATUS_EPR_MODE p.val) = false →
        Says (.getSourceCap p) s p.val (.sourceCaps ((sprSet s.hub p.val).map (clipPdo (fiveAmp s.hub p.val))))) ∧
      Says (.getSinkCapMessage p) s p.val
        (if p.val < 4 then .sinkCaps [fixedPdo 5000 3000, fixedPdo 20000 (sinkMax s.hub p.val / 20)] else .notSupported) ∧
      Says (.prSwap p) s p.val .reject ∧ Says (.drSwap p) s p.val .reject ∧
      (vconnWindow s.hub p.val = false → Says (.vconnSwapMessage p) s p.val .reject) ∧
      Says (.eprKeepalive p) s p.val .keepAliveAck ∧ Says (.getRevision p) s p.val (.revision 3 2) ∧
      Says (.notSupported p) s p.val .notSupported ∧
      Says (.enterUsb p) s p.val
        (if 4 ≤ p.val then .notSupported else if s.hub.is (F.link_LINK_CTL_USB4_EN p.val) then .accept else .reject) ∧
      (4 ≤ p.val → ∀ v, Says (.structuredVdm p v) s p.val .notSupported) ∧
      (p.val < 4 → Says (.structuredVdm p .svids) s p.val (.vdmSvids [0x3BD2]) ∧
        Says (.structuredVdm p .identity) s p.val
          (.vdmIdentity (s.hub.fget (F.dockfn_IDS_VID p.val)) (s.hub.fget (F.dockfn_IDS_PID p.val)) .pdusbHub ⟨true, true, true⟩) ∧
        ∀ svid, svid ≠ 0x3BD2 → Says (.structuredVdm p (.enter svid)) s p.val .vdmNak) ∧
      (6 ≤ p.val → Says (.eprMode p true) s p.val (.eprFailed 5)) ∧
      ((s.hub.port p.val).frs ≠ 1 → Says (.frSwap p) s p.val .notSupported)) ∧
    ((tcState s.hub p.val = 6 → amsRuns s.hub p.val = false) → vconnWindow s.hub p.val = true →
      s.hub.is (F.typec_STATUS_VCONN_ON p.val) = false → Completes (.vconnSwapMessage p) s fun t =>
      t.hub.is (F.typec_STATUS_VCONN_ON p.val) = true ∧ t.hub.out = s.hub.out ++ [.pd p.val .accept, .pd p.val .psRdy] ∧
      OthersKept (A.typec_STATUS p.val) s.hub t.hub) ∧
    ((tcState s.hub p.val = 6 → amsRuns s.hub p.val = false) → p.val < 4 → Completes (.structuredVdm p (.enter 0x3BD2)) s fun t => t.hub.is (F.typec_STATUS_FY9_MODE p.val) = true ∧
      t.hub.out = s.hub.out ++ [.pd p.val .vdmAck] ∧ t.hub.bit (F.hdr_INT_STAT_EVENT (Page.typec p.val)) 5 = true ∧
      KeptBut [A.typec_STATUS p.val, Page.typec p.val + 0x10] s.hub t.hub) ∧
    (amsRuns s.hub p.val = false → p.val < 6 → s.hub.is (F.typec_CFG_EPR_EN p.val) = true → tcState s.hub p.val = 6 → s.hub.fget (F.typec_STATUS_CABLE p.val) = 3 →
      s.hub.fget (F.typec_STATUS_CONTRACT p.val) = 2 → s.hub.is (F.typec_STATUS_EPR_MODE p.val) = false →
      s.hub.fget (F.typec_SRC_CAP_CTL_EPR_COUNT p.val) ≠ 0 → Completes (.eprMode p true) s fun t => ∃ l,
        t.hub.is (F.typec_STATUS_EPR_MODE p.val) = true ∧
        t.hub.out = s.hub.out ++ [.pd p.val .eprEntered, .pd p.val (.eprSourceCaps l)] ∧
        OthersKept (A.typec_STATUS p.val) s.hub t.hub) ∧
    ((tcState s.hub p.val = 6 → amsRuns s.hub p.val = false) → s.hub.is (F.typec_STATUS_EPR_MODE p.val) = true →
      Completes (.eprMode p false) s fun t => ∃ l,
      t.hub.is (F.typec_STATUS_EPR_MODE p.val) = false ∧ t.hub.out = s.hub.out ++ [.pd p.val (.sourceCaps l)] ∧
      OthersKept (A.typec_STATUS p.val) s.hub t.hub) ∧
    (tcState s.hub p.val = 6 → (s.hub.port p.val).disc = 0 → ∀ (rdo : Word) pdo mv ma, (s.hub.port p.val).sent.find? (fun e => e.1 == rdo.toNat / 2 ^ 28) = some (rdo.toNat / 2 ^ 28, pdo) →
      (judgeRequest pdo rdo.toNat = some (mv, ma) → ma ≤ 3000 ∨ fiveAmp s.hub p.val = true → mv ≠ voltageNow s.hub p.val →
        (s.hub.port p.val).fwWait = false → Completes (.request p rdo) s fun t =>
          t.hub.out = s.hub.out ++ [.pd p.val .accept] ∧ t.hub.fget (F.typec_RDO_RDO p.val) = rdo.toNat ∧
          t.hub.Has (F.typec_CONTRACT_MV p.val) mv ∧ t.hub.Has (F.typec_CONTRACT_MA p.val) ma ∧ (t.hub.port p.val).trans = true ∧
          t.hub.bit (F.hdr_INT_STAT_EVENT (Page.typec p.val)) 2 = true ∧
          KeptBut [A.typec_RDO p.val, A.typec_CONTRACT p.val, Page.typec p.val + 0x10] s.hub t.hub) ∧
      (judgeRequest pdo rdo.toNat = some (mv, ma) → ma ≤ 3000 ∨ fiveAmp s.hub p.val = true → mv = voltageNow s.hub p.val →
        Completes (.request p rdo) s fun t => ∃ w : Hub, w.out = s.hub.out ++ [.pd p.val .accept] ∧
          w.fget (F.typec_RDO_RDO p.val) = rdo.toNat ∧ w.Has (F.typec_CONTRACT_MV p.val) mv ∧ w.Has (F.typec_CONTRACT_MA p.val) ma ∧
          KeptBut [A.typec_RDO p.val, A.typec_CONTRACT p.val, Page.typec p.val + 0x10] s.hub w ∧
          (vbusInRange w p.val = true → t.hub = heldAnswered (sendPsRdy w p.val) p.val) ∧
          (vbusInRange w p.val = false → (t.hub.port p.val).trans = true ∧ (t.hub.port p.val).selfRdy = true ∧ t.hub.out = w.out ∧
            t.hub.regs = w.regs)) ∧
      (judgeRequest pdo rdo.toNat = none ∨ (∃ mv ma, judgeRequest pdo rdo.toNat = some (mv, ma) ∧ 3000 < ma ∧ fiveAmp s.hub p.val = false) →
        Completes (.request p rdo) s fun t =>
        t.hub.out = s.hub.out ++ [.pd p.val .reject] ∧ Counted s.hub t.hub (F.typec_COUNTS_REJECTS p.val) ∧
        OthersKept (A.typec_COUNTS p.val) s.hub t.hub)) ∧
    (tcState s.hub p.val = 3 →
      (∀ pdos : List Word, bestPdo (sinkMax s.hub p.val) 1 ((pdos.map (·.toNat)).take 7) none = none →
        Completes (.sourceCapabilities p pdos) s fun t => t.hub.out = s.hub.out ∧
          ∀ i : Fin 7, t.hub.fget (F.typec_PARTNER_PDO_PDO p.val i.val) = (pdos.map (·.toNat)).getD i.val 0) ∧
      (∀ (pdos : List Word) pos w, bestPdo (sinkMax s.hub p.val) 1 ((pdos.map (·.toNat)).take 7) none = some (pos, w) →
        Completes (.sourceCapabilities p pdos) s fun t => ∃ rdo, t.hub.out = s.hub.out ++ [.pd p.val (.request rdo)] ∧
          rdo / 2 ^ 28 = pos ∧ (t.hub.port p.val).await = 6 ∧
          ∀ i : Fin 7, t.hub.fget (F.typec_PARTNER_PDO_PDO p.val i.val) = (pdos.map (·.toNat)).getD i.val 0)) ∧
    (∀ pdos : List Word, Completes (.sinkCapabilities p pdos) s fun t =>
      (∀ i : Fin 7, t.hub.fget (F.typec_PARTNER_PDO_PDO p.val i.val) = (pdos.map (·.toNat)).getD i.val 0) ∧
      t.hub.fget (F.typec_STATUS_PARTNER_FRS p.val) = (pdos.map (·.toNat)).headD 0 / 2 ^ 23 % 4 ∧ t.hub.out = s.hub.out) ∧
    (∀ mv ma rdo, (s.hub.port p.val).await = 7 → (s.hub.port p.val).asked = some (mv, ma, rdo) → Completes (.amsAnswer p .psRdy) s fun t =>
      ∃ w : Hub, w.Has (F.typec_CONTRACT_MV p.val) mv ∧ w.Has (F.typec_CONTRACT_MA p.val) ma ∧ w.Has (F.typec_RDO_RDO p.val) rdo ∧
        w.fget (F.typec_STATUS_CONTRACT p.val) = 2 ∧ w.bit (F.hdr_INT_STAT_EVENT (Page.typec p.val)) 3 = true ∧
        (w.port p.val).window = false ∧ t.hub = settleWeirs w) ∧
    ((s.hub.port p.val).await = 0 → ∀ a, Completes (.amsAnswer p a) s fun t => t.hub.out = s.hub.out ++ [.pd p.val .softReset] ∧
      (t.hub.port p.val).await = 4 ∧ t.hub.bit (F.hdr_INT_STAT_EVENT (Page.typec p.val)) 15 = true ∧
      Counted s.hub t.hub (F.typec_COUNTS_SOFT_RESETS p.val) ∧
      KeptBut [A.typec_COUNTS p.val, Page.typec p.val + 0x10] s.hub t.hub) ∧
    ((s.hub.port p.val).await = 6 → Completes (.amsAnswer p .accept) s fun t => (t.hub.port p.val).await = 7 ∧ t.hub.regs = s.hub.regs) ∧
    (∀ pdos, tcState s.hub p.val = 6 → Completes (.sourceCapabilities p pdos) s fun t =>
      t.hub.out = s.hub.out ++ [.pd p.val .notSupported] ∧ t.hub.regs = s.hub.regs) ∧
    (tcState s.hub p.val = 6 → (s.hub.port p.val).frs = 1 → p.val < 4 → safeFive s.hub p.val = false → Completes (.frSwap p) s fun t =>
      (t.hub.port p.val).frs = 4 ∧ tcState t.hub p.val = 6 ∧ t.hub.out = s.hub.out ++ [.pd p.val .accept]) ∧
    (tcState s.hub p.val = 6 → (s.hub.port p.val).frs = 1 → safeFive s.hub p.val = true → Completes (.frSwap p) s fun t => ∃ w : Hub, tcState w p.val = 3 ∧
      w.is (F.typec_STATUS_POWER_ROLE p.val) = false ∧ w.fget (F.typec_STATUS_CONTRACT p.val) = 1 ∧
      w.bit (F.hdr_INT_STAT_EVENT (Page.typec p.val)) 11 = true ∧ (w.port p.val).vbus = false ∧ (w.port p.val).reserves = false ∧
      (p.val < 4 → w.out = s.hub.out ++ [.pd p.val .accept, .pd p.val .psRdy]) ∧ t.hub = settleLedger (settleWeirs w)) ∧
    (Completes (.softResetMessage p) s fun t => Counted s.hub t.hub (F.typec_COUNTS_SOFT_RESETS p.val) ∧
      (t.hub.port p.val).window = true ∧ (t.hub.port p.val).trans = false ∧ OthersKept (A.typec_COUNTS p.val) s.hub t.hub ∧
      (tcState s.hub p.val = 3 → t.hub.out = s.hub.out ++ [.pd p.val .accept])) ∧
    (Completes (.hardResetReceived p) s fun t => ∃ w : Hub,
      w.fget (F.typec_STATUS_CONTRACT p.val) = (if tcState s.hub p.val = 6 then 0 else 1) ∧ (w.port p.val).vbus = false ∧
      (w.port p.val).window = true ∧ (w.port p.val).hardReset = (tcState s.hub p.val == 6) ∧
      (p.val < 4 → Counted s.hub w (F.typec_COUNTS_HARD_RESETS p.val) ∧
        w.bit (F.hdr_INT_STAT_EVENT (Page.typec p.val)) 8 = true ∧ w.fget (F.typec_CONTRACT_MV p.val) = 0) ∧ t.hub = settleWeirs w)

/-- A command of CMD is refused with RESULT 7 while another is busy (R470); each has its own check, message and result (R443, R450, R455, R458,
R465, R470). A wait that expires ends in its own way (R443, R444, R448); discovery goes from stage to stage (R455); the early warning drives
PFW_N low and signals the Fast Role Swap (R462, R496), from which the port asks to return (R463). -/
def Obligations.PdCommandsAndTimers : Prop :=
  ∀ (s : State) (p : Fin 12),
    (∀ req, Writes s req (A.typec_CMD p.val) →
      (∀ c ∈ [Instr.sendSrcCap req p, .psRdy req p, .getSinkCap req p, .vconnSwap req p, .softReset req p, .hardReset req p,
          .discover req p, .exitMode req p, .errorRecovery req p],
        (s.hub.is (F.typec_CMD_BUSY p.val) = true → Completes c s fun t => t.hub.fget (F.typec_CMD_RESULT p.val) = 7 ∧
          t.hub.is (F.typec_CMD_BUSY p.val) = true ∧ OthersKept (A.typec_CMD p.val) s.hub t.hub ∧ t.hub.out = s.hub.out) ∧
        (s.hub.is (F.typec_CMD_BUSY p.val) = false → (s.hub.port p.val).unsafeNext = true → Completes c s fun t =>
          EndsCmd s.hub t.hub p.val 7 ∧ (t.hub.port p.val).unsafeNext = false)) ∧
      (s.hub.is (F.typec_CMD_BUSY p.val) = false → (s.hub.port p.val).unsafeNext = false →
        (∀ spr epr top contract eff res,
          spr = (List.range (max 1 (s.hub.fget (F.typec_SRC_CAP_CTL_SPR_COUNT p.val)))).map (fun i => s.hub.fget (F.typec_SRC_PDO_PDO p.val i)) →
          epr = (List.range (if 6 ≤ p.val then 0 else min 6 (s.hub.fget (F.typec_SRC_CAP_CTL_EPR_COUNT p.val)))).map
            (fun i => s.hub.fget (F.typec_EPR_PDO_PDO p.val i)) →
          top = (spr ++ epr).foldl (fun a w => max a (pdoMw w)) 0 →
          contract = (if s.hub.fget (F.typec_STATUS_CONTRACT p.val) = 2 ∧ tcState s.hub p.val = 6 then
            s.hub.fget (F.typec_CONTRACT_MV p.val) * s.hub.fget (F.typec_CONTRACT_MA p.val) / 1000 else 0) →
          eff = (if (s.hub.port p.val).setMax ≤ top then top else max top contract) → res = max (floorMw s.hub p.val) eff →
          ((spr.all (pdoValid p.val · false) && epr.all (pdoValid p.val · true)) = false → Completes (.sendSrcCap req p) s fun t =>
            EndsCmd s.hub t.hub p.val 9 ∧ (t.hub.port p.val).spr = (s.hub.port p.val).spr) ∧
          ((spr.all (pdoValid p.val · false) && epr.all (pdoValid p.val · true)) = true →
            (s.hub.fget (F.typec_PORT_MAX_MW p.val) < res ∨ ((s.hub.port p.val).reserves = true ∧
                budget s.hub < ledgerUsed s.hub - reservation s.hub p.val + res) → Completes (.sendSrcCap req p) s fun t =>
              EndsCmd s.hub t.hub p.val 5 ∧ t.hub.bit (F.hdr_INT_STAT_EVENT (Page.typec p.val)) 9 = true ∧
              (t.hub.port p.val).spr = (s.hub.port p.val).spr) ∧
            (res ≤ s.hub.fget (F.typec_PORT_MAX_MW p.val) → (s.hub.port p.val).reserves = false ∨
                ledgerUsed s.hub - reservation s.hub p.val + res ≤ budget s.hub → Completes (.sendSrcCap req p) s fun t => ∃ w u : Hub,
              (w.port p.val).spr = some spr ∧ (w.port p.val).epr = epr ∧ (w.port p.val).setMax = eff ∧
              OthersKept (A.typec_CMD p.val) s.hub w ∧ u = settleLedger w ∧
              EndsCmd (if tcState u p.val = 6 ∧ chState u p.val = 2 then sendCaps u p.val else u) t.hub p.val 1))) ∧
        (tcState s.hub p.val = 6 → (s.hub.port p.val).trans = true →
          (vbusInRange s.hub p.val = true → Completes (.psRdy req p) s fun t => ∃ w : Hub, w.out = s.hub.out ∧
            OthersKept (A.typec_CMD p.val) s.hub w ∧ EndsCmd (heldAnswered (sendPsRdy w p.val) p.val) t.hub p.val 1) ∧
          (vbusInRange s.hub p.val = false → Completes (.psRdy req p) s fun t => EndsCmd s.hub t.hub p.val 8)) ∧
        (attached s.hub p.val = true → ownAms s.hub p.val = false → tcState s.hub p.val = 6 ∨ (s.hub.port p.val).txOk = true →
          (Completes (.getSinkCap req p) s fun t => t.hub.out = s.hub.out ++ [.pd p.val .getSinkCap] ∧
            (t.hub.port p.val).await = 2 ∧ t.hub.is (F.typec_CMD_BUSY p.val) = true ∧ OthersKept (A.typec_CMD p.val) s.hub t.hub) ∧
          (vconnWindow s.hub p.val = true → Completes (.vconnSwap req p) s fun t => t.hub.out = s.hub.out ++ [.pd p.val .vconnSwap] ∧
            (t.hub.port p.val).await = 3 ∧ t.hub.is (F.typec_CMD_BUSY p.val) = true ∧ OthersKept (A.typec_CMD p.val) s.hub t.hub)) ∧
        (attached s.hub p.val = true → ownAms s.hub p.val = false → vconnWindow s.hub p.val = false →
          Completes (.vconnSwap req p) s fun t => EndsCmd s.hub t.hub p.val 6) ∧
        (attached s.hub p.val = true →
          ((s.hub.port p.val).await ≠ 4 → Completes (.softReset req p) s fun t => t.hub.out = s.hub.out ++ [.pd p.val .softReset] ∧ (t.hub.port p.val).await = 4 ∧
            Counted s.hub t.hub (F.typec_COUNTS_SOFT_RESETS p.val) ∧ t.hub.is (F.typec_CMD_BUSY p.val) = true) ∧
          (Completes (.hardReset req p) s fun t => ∃ w : Hub, w.out = s.hub.out ++ [.pd p.val .hardReset] ∧
            OthersKept (A.typec_CMD p.val) s.hub w ∧ EndsCmd (hardReset w p.val) t.hub p.val 1)) ∧
        (4 ≤ p.val → tcState s.hub p.val = 6 →
          ((s.hub.port p.val).disc = 0 → s.hub.is (F.typec_CFG_EN p.val) = true → Completes (.discover req p) s fun t =>
            t.hub.out = s.hub.out ++ [.pd p.val .discoverIdentity] ∧ (t.hub.port p.val).disc = 2 ∧
            t.hub.is (F.typec_CMD_BUSY p.val) = true ∧ OthersKept (A.typec_CMD p.val) s.hub t.hub) ∧
          (s.hub.fget (F.typec_STATUS_ALT p.val) < 2 → s.hub.is (F.typec_STATUS_FY9_MODE p.val) = true →
            Completes (.exitMode req p) s fun t => t.hub.out = s.hub.out ++ [.pd p.val (.exitMode 0x3BD2)] ∧
              t.hub.is (F.typec_STATUS_FY9_MODE p.val) = false ∧ t.hub.bit (F.hdr_INT_STAT_EVENT (Page.typec p.val)) 5 = true ∧
              t.hub.fget (F.typec_CMD_RESULT p.val) = 1 ∧
              KeptBut [A.typec_CMD p.val, A.typec_STATUS p.val, Page.typec p.val + 0x10] s.hub t.hub)) ∧
        (attached s.hub p.val = false →
          (tcState s.hub p.val = 0 → Completes (.errorRecovery req p) s fun t => EndsCmd s.hub t.hub p.val 7) ∧
          (tcState s.hub p.val ≠ 0 → Completes (.errorRecovery req p) s fun t => ∃ w : Hub, tcState w p.val = 11 ∧
            KeptBut [A.typec_STATUS p.val, A.typec_CMD p.val] s.hub w ∧ EndsCmd (settleLedger w) t.hub p.val 1)))) ∧
    (tcState s.hub p.val = 6 →
      ((s.hub.port p.val).trans = true → Completes (.transitionTimeout p) s fun t => ∃ w : Hub,
        w.bit (F.hdr_INT_STAT_EVENT (Page.typec p.val)) 13 = true ∧ w.out = s.hub.out ++ [.pd p.val .hardReset] ∧
        OthersKept (Page.typec p.val + 0x10) s.hub w ∧ t.hub = hardReset w p.val) ∧
      (s.hub.is (F.typec_STATUS_EPR_MODE p.val) = true → Completes (.eprSinkTimeout p) s fun t => ∃ w : Hub,
        w.out = s.hub.out ++ [.pd p.val .hardReset] ∧ w.regs = s.hub.regs ∧ t.hub = hardReset w p.val) ∧
      ((s.hub.port p.val).await = 1 → (s.hub.port p.val).tries < 50 → s.hub.is (F.typec_STATUS_EPR_MODE p.val) = false →
        Completes (.sourceCapabilitiesRepeat p) s fun t => Counted s.hub t.hub (F.typec_COUNTS_RETRY_FAIL p.val) ∧
          (t.hub.port p.val).tries = (s.hub.port p.val).tries + 1 ∧
          t.hub.out = s.hub.out ++ [.pd p.val (.sourceCaps ((sprSet s.hub p.val).map (clipPdo (fiveAmp s.hub p.val))))]) ∧
      ((s.hub.port p.val).await = 1 → 50 ≤ (s.hub.port p.val).tries → (s.hub.port p.val).held = [] →
        Completes (.sourceCapabilitiesRepeat p) s fun t => Counted s.hub t.hub (F.typec_COUNTS_RETRY_FAIL p.val) ∧
          (t.hub.port p.val).await = 0 ∧ t.hub.out = s.hub.out) ∧
      (∀ vid pid usb4, (s.hub.port p.val).held = [] → (s.hub.port p.val).disc = 2 → Completes (.discoveryResponse p (.identity vid pid usb4)) s fun t =>
        t.hub.Has (F.typec_PARTNER_ID_VID p.val) vid ∧ t.hub.Has (F.typec_PARTNER_ID_PID p.val) pid ∧ (t.hub.port p.val).disc = 3 ∧
        (t.hub.port p.val).usb4 = usb4 ∧ t.hub.out = s.hub.out ++ [.pd p.val .discoverSvids] ∧
        OthersKept (A.typec_PARTNER_ID p.val) s.hub t.hub) ∧
      (∀ fy9, (s.hub.port p.val).held = [] → (s.hub.port p.val).disc = 3 → Completes (.discoveryResponse p (.svids true fy9)) s fun t =>
        t.hub.is (F.typec_STATUS_PARTNER_FY9 p.val) = fy9 ∧ (t.hub.port p.val).disc = 4 ∧ (t.hub.port p.val).dpSvid = true ∧
        t.hub.out = s.hub.out ++ [.pd p.val (.discoverModes 0xFF01)] ∧ OthersKept (A.typec_STATUS p.val) s.hub t.hub)) ∧
    (attached s.hub p.val = true → (s.hub.port p.val).await = 1 ∨ (s.hub.port p.val).await = 6 ∨ (s.hub.port p.val).await = 7 ∨
        (s.hub.port p.val).await = 8 →
      Completes (.responseTimeout p) s fun t => ∃ w : Hub, w.bit (F.hdr_INT_STAT_EVENT (Page.typec p.val)) 15 = true ∧
        w.out = s.hub.out ++ [.pd p.val .hardReset] ∧ OthersKept (Page.typec p.val + 0x10) s.hub w ∧ t.hub = hardReset w p.val) ∧
    (attached s.hub p.val = true → (s.hub.port p.val).held = [] →
      ((s.hub.port p.val).await = 2 ∨ (s.hub.port p.val).await = 3 → s.hub.is (F.typec_CMD_BUSY p.val) = true →
        Completes (.responseTimeout p) s fun t => t.hub.out = s.hub.out ++ [.pd p.val .softReset] ∧ (t.hub.port p.val).await = 4 ∧
          t.hub.fget (F.typec_CMD_RESULT p.val) = 4 ∧ t.hub.is (F.typec_CMD_BUSY p.val) = false ∧
          t.hub.bit (F.hdr_INT_STAT_EVENT (Page.typec p.val)) 15 = true ∧ Counted s.hub t.hub (F.typec_COUNTS_SOFT_RESETS p.val) ∧
          KeptBut [A.typec_CMD p.val, A.typec_COUNTS p.val, Page.typec p.val + 0x10] s.hub t.hub) ∧
      ((s.hub.port p.val).await = 4 → Completes (.responseTimeout p) s fun t => ∃ w : Hub,
        w.bit (F.hdr_INT_STAT_EVENT (Page.typec p.val)) 15 = true ∧ w.out = s.hub.out ++ [.pd p.val .hardReset] ∧
        KeptBut [A.typec_CMD p.val, Page.typec p.val + 0x10] s.hub w ∧ t.hub = hardReset w p.val)) ∧
    (tcState s.hub p.val = 3 →
      ((s.hub.port p.val).await = 0 → (s.hub.port p.val).prWaits = true → Completes (.sinkTxOk p) s fun t =>
        t.hub.out = s.hub.out ++ [.pd p.val .prSwap] ∧ (t.hub.port p.val).await = 5 ∧ (t.hub.port p.val).prWaits = false ∧
        (t.hub.port p.val).txOk = true ∧ t.hub.regs = s.hub.regs) ∧
      ((s.hub.port p.val).await = 0 → (s.hub.port p.val).prWaits = false → (s.hub.port p.val).cmdWaits = true →
        (s.hub.fget (F.typec_CMD_OP p.val) = 3 → Completes (.sinkTxOk p) s fun t => t.hub.out = s.hub.out ++ [.pd p.val .getSinkCap] ∧
          (t.hub.port p.val).await = 2 ∧ (t.hub.port p.val).cmdWaits = false ∧ t.hub.regs = s.hub.regs) ∧
        (s.hub.fget (F.typec_CMD_OP p.val) = 4 → vconnWindow s.hub p.val = false → Completes (.sinkTxOk p) s fun t =>
          EndsCmd s.hub t.hub p.val 6)) ∧
      ((s.hub.port p.val).frs = 2 → (s.hub.port p.val).frsFails < 3 → s.hub.is (F.typec_CFG_FRS_RETURN p.val) = true →
        inputGood s.hub = true → ownAms s.hub p.val = false → Completes (.frsReturn p) s fun t =>
          t.hub.regs = s.hub.regs ∧
          ((s.hub.port p.val).txOk = true → (s.hub.port p.val).await = 0 → (t.hub.port p.val).await = 5 ∧
            t.hub.out = s.hub.out ++ [.pd p.val .prSwap]) ∧
          ((s.hub.port p.val).txOk = false ∨ (s.hub.port p.val).await ≠ 0 → (t.hub.port p.val).prWaits = true ∧ t.hub.out = s.hub.out))) ∧
    (∀ (cause : EwCause) (en st : Fld), (cause = .uv ∧ en = F.weir_EW_CTL_UV_EN 12 ∧ st = F.weir_EW_STAT_UV 12) ∨
        (cause = .slope ∧ en = F.weir_EW_CTL_SLOPE_EN 12 ∧ st = F.weir_EW_STAT_SLOPE 12) ∨
        (cause = .rev ∧ en = F.weir_EW_CTL_REV_EN 12 ∧ st = F.weir_EW_STAT_REV 12) → s.hub.is en = true →
      Completes (.earlyWarning cause) s fun t => ∃ w u : Hub, w.is st = true ∧ w.is (F.weir_EW_STAT_PFW 12) = true ∧
        w.bit (F.hdr_INT_STAT_EVENT (Page.weir 12)) 8 = true ∧
        w.out = s.hub.out ++ (if s.hub.is (F.weir_EW_STAT_PFW 12) then [] else [.pfw true]) ∧
        KeptBut [A.weir_EW_STAT 12, Page.weir 12 + 0x10] s.hub w ∧ u.regs = w.regs ∧
        u.out = w.out ++ (([0, 1, 2, 3].filter fun q => tcState s.hub q == 6 && s.hub.is (F.typec_CFG_FRS_EN q) &&
          s.hub.fget (F.typec_STATUS_PARTNER_FRS q) != 0).map fun q => .pd q .frSignal) ∧
        t.hub = settleWeirs u)

/-! ## Power path, domains and SHELF (R472–R536) -/

/-- A frame of the SAR measures the channels one after the other while their domain is in RUN, each with its power, its energy and its extremes
(R477, R478, R501), and hands every measurement to the trips and the power-good logic of its channel; it measures VIN, VKEEP, VIO33 and
the die temperature in any domain state, keeps the lowest VIN and the highest temperature, and raises what a temperature calls for
(R476, R521, R522, R535). The fast comparator and a ramp that lasts too long trip a closed channel, whose cause is latched (R481, R483,
R485, R486), and do nothing to any other. A ramp that ends leaves its channel ON and its source port powered (R480, R446). CH_EN closes a
channel with a shunt, re-arms a tripped one after its 10 ms off, opens one, and is refused otherwise (R475, R487); FORCE_TRIP trips
(R485) and ENERGY_CLR clears the energy (R478). The input logic closes a dead-battery path, opens every sink path and releases PFW_N where
R494, R495 and R497 say, and nowhere else. EXTREMES reload when they are read (R501). -/
def Obligations.PowerPath : Prop :=
  ∀ (s : State),
    (∀ (frame : SarFrame), Completes (.sample frame) s fun t => ∃ (n : Nat) (u : Nat → Hub) (b w x : Hub),
      n = (if s.hub.ready 42 = true then min 14 frame.channels.length else 0) ∧ u 0 = s.hub ∧
      (∀ c v i, c < n → frame.channels[c]? = some (v, i) →
        ((u c).present .weir c = false → u (c + 1) = u c) ∧
        ((u c).present .weir c = true → ∃ (m : Hub) (ma : Int), ma = sampleMa i ((u c).fget (F.weir_SETUP_SHUNT_UOHM c)) ∧
          Measures (u c) m c (sampleMv v) ma ∧ u (c + 1) = powerGood (protect m c (sampleMv v) ma) c (sampleMv v))) ∧
      b = rdySettle (frsSettle (u n)) ∧
      w.Has F.pwr_MON0_VIN_MV frame.vin ∧ w.Has F.pwr_MON0_VKEEP_MV frame.vkeep ∧ w.Has F.pwr_MON1_VIO33_MV frame.vio33 ∧
      w.Has F.pwr_MON1_TEMP frame.temp ∧ w.Has F.pwr_MON_EXT_VIN_MIN_MV (min (b.fget F.pwr_MON_EXT_VIN_MIN_MV) (frame.vin % 2 ^ 16)) ∧
      w.Has F.pwr_MON_EXT_TEMP_MAX (if toInt 16 (b.fget F.pwr_MON_EXT_TEMP_MAX) < toInt 16 (frame.temp % 2 ^ 16) then frame.temp
        else b.fget F.pwr_MON_EXT_TEMP_MAX) ∧
      KeptBut [A.pwr_MON0, A.pwr_MON1, A.pwr_MON_EXT] b w ∧
      (isHot w = true → w.power.hotIslands.testBit 4 = false → x.bit (F.hdr_INT_STAT_EVENT Page.pwr) 8 = true) ∧
      ((4 * w.fget F.pwr_THERM_CRIT_C : Int) ≤ dieTemp w → w.power.critical = false → x.bit (F.hdr_INT_STAT_EVENT Page.pwr) 9 = true) ∧
      (∀ i : Fin 4, isHot w = true → basePoint w i.val = 1 → x.power.hotIslands.testBit i.val = true) ∧
      (isHot w = false → dieTemp w < 4 * coolC w → x.power.hotIslands = 0) ∧
      OthersKept (Page.pwr + 0x10) w x ∧ t.hub = dvfsSettle x ∧ t.reel = s.reel) ∧
    (∀ (c : Fin 14),
      (s.hub.present .weir c.val = true →
        (chClosed s.hub c.val = true → s.hub.fget (F.weir_LIMITS_FAST_MA c.val) ≠ 0 →
          Completes (.fastTrip c) s fun t => Trips s.hub t.hub c.val 2) ∧
        (chState s.hub c.val = 1 → Completes (.rampTimeout c) s fun t => Trips s.hub t.hub c.val 4) ∧
        (s.hub.is (F.weir_CTL_CH_EN c.val) = false → Completes (.offMet c) s fun t =>
          t.hub.is (F.weir_STATUS_OFF_MET c.val) = true ∧ OthersKept (A.weir_STATUS c.val) s.hub t.hub)) ∧
      (chClosed s.hub c.val = false ∨ s.hub.fget (F.weir_LIMITS_FAST_MA c.val) = 0 → Completes (.fastTrip c) s fun t => t = s) ∧
      (chState s.hub c.val ≠ 1 → (Completes (.rampTimeout c) s fun t => t = s) ∧ Completes (.rampEnd c) s fun t => t = s) ∧
      (s.hub.is (F.weir_CTL_CH_EN c.val) = true → Completes (.offMet c) s fun t => t = s) ∧
      (chState s.hub c.val = 1 → Completes (.rampEnd c) s fun t => ∃ w : Hub, chState w c.val = 2 ∧ (w.weir c.val).soa = 0 ∧
        OthersKept (A.weir_STATUS c.val) s.hub w ∧
        t.hub = if c.val < 12 ∧ s.hub.fget (F.weir_STATUS_PATH c.val) = 1 then portPowered w c.val else w) ∧
      (∀ (req : Req) (ctl : Word), Writes s req (A.weir_CTL c.val) →
        (Completes (.forceTrip req c ctl) s fun t => ∃ h0 w : Hub, h0.regs = s.hub.regs ∧
          w = weirControl h0 c.val (ctl.toNat &&& 0xFFFFFFF7) ∧ t.hub = chTrip w c.val 6 0 ∧
          (chState w c.val ≠ 3 → s.hub.present .weir c.val = true → Trips w t.hub c.val 6)) ∧
        (Completes (.energyClr req c ctl) s fun t => ∃ w : Hub, w.pget (F.weir_ENERGY_LO_MJ c.val) = 0 ∧ (w.weir c.val).frac = 0 ∧
          KeptBut [A.weir_CTL c.val, A.weir_ENERGY_LO c.val, A.weir_ENERGY_HI c.val] s.hub w ∧
          t.hub = weirSwitch w c.val (ctl.toNat ||| 4)) ∧
        (Completes (.chEn req c ctl) s fun t => ∃ h0 : Hub, h0.regs = s.hub.regs ∧ t.hub = weirControl h0 c.val ctl.toNat) ∧
        (ctl.toNat / 4 % 4 = 0 → chEnHeld s.hub c.val = true ∨ (ctl.getLsbD 0 = false ∧ s.hub.is (F.weir_CTL_CH_EN c.val) = false) ∨
            (ctl.getLsbD 0 = true ∧ 100 ≤ s.hub.fget (F.weir_SETUP_SHUNT_UOHM c.val) ∧ s.hub.is (F.weir_STATUS_LATCHED c.val) = true ∧
              s.hub.is (F.weir_CTL_CH_EN c.val) = true) → Completes (.chEn req c ctl) s fun t => ∃ w : Hub,
          w.is (F.weir_CTL_CH_EN c.val) = s.hub.is (F.weir_CTL_CH_EN c.val) ∧ OthersKept (A.weir_CTL c.val) s.hub w ∧
          t.hub = settleWeirs w) ∧
        (ctl.toNat / 4 % 4 = 0 → chEnHeld s.hub c.val = false →
          (ctl.getLsbD 0 = true → s.hub.fget (F.weir_SETUP_SHUNT_UOHM c.val) < 100 → Completes (.chEn req c ctl) s fun t => ∃ w : Hub,
            w.bit (F.hdr_INT_STAT_EVENT (Page.weir c.val)) 5 = true ∧
            w.is (F.weir_CTL_CH_EN c.val) = s.hub.is (F.weir_CTL_CH_EN c.val) ∧
            KeptBut [A.weir_CTL c.val, Page.weir c.val + 0x10] s.hub w ∧ t.hub = settleWeirs w) ∧
          (ctl.getLsbD 0 = true → 100 ≤ s.hub.fget (F.weir_SETUP_SHUNT_UOHM c.val) →
            (s.hub.is (F.weir_STATUS_LATCHED c.val) = false → Completes (.chEn req c ctl) s fun t => ∃ w : Hub,
              w.is (F.weir_CTL_CH_EN c.val) = true ∧ w.is (F.weir_STATUS_OFF_MET c.val) = false ∧
              KeptBut [A.weir_CTL c.val, A.weir_STATUS c.val] s.hub w ∧ t.hub = settleWeirs (settleWeirs w)) ∧
            (s.hub.is (F.weir_STATUS_LATCHED c.val) = true → s.hub.is (F.weir_CTL_CH_EN c.val) = false →
              (s.hub.is (F.weir_STATUS_OFF_MET c.val) = true → Completes (.chEn req c ctl) s fun t => ∃ w : Hub,
                w.is (F.weir_CTL_CH_EN c.val) = true ∧ w.is (F.weir_STATUS_LATCHED c.val) = false ∧ chState w c.val = 0 ∧
                w.is (F.weir_STATUS_OFF_MET c.val) = false ∧ KeptBut [A.weir_CTL c.val, A.weir_STATUS c.val] s.hub w ∧
                t.hub = settleWeirs (settleWeirs (if 4 ≤ c.val ∧ c.val < 12 then overCurrentEnd w (c.val - 4) else w))) ∧
              (s.hub.is (F.weir_STATUS_OFF_MET c.val) = false → Completes (.chEn req c ctl) s fun t => ∃ w : Hub,
                w.bit (F.hdr_INT_STAT_EVENT (Page.weir c.val)) 4 = true ∧ w.is (F.weir_CTL_CH_EN c.val) = false ∧
                w.is (F.weir_STATUS_LATCHED c.val) = true ∧ KeptBut [A.weir_CTL c.val, Page.weir c.val + 0x10] s.hub w ∧
                t.hub = settleWeirs w))) ∧
          (ctl.getLsbD 0 = false → s.hub.is (F.weir_CTL_CH_EN c.val) = true → Completes (.chEn req c ctl) s fun t => ∃ w : Hub,
            w.is (F.weir_CTL_CH_EN c.val) = false ∧ w.is (F.weir_STATUS_OFF_MET c.val) = false ∧
            KeptBut [A.weir_CTL c.val, A.weir_STATUS c.val] s.hub w ∧ t.hub = settleWeirs (settleWeirs w)))) ∧
      (∀ req, Reads s req (A.weir_EXTREMES c.val) → Answers (.extremes req c) s req (A.weir_EXTREMES c.val) fun t =>
        t.hub.Has (F.weir_EXTREMES_PEAK_MA c.val) (s.hub.fget (F.weir_MEAS_MA c.val)) ∧
        t.hub.Has (F.weir_EXTREMES_MIN_MV c.val) (s.hub.fget (F.weir_MEAS_MV c.val)) ∧
        OthersKept (A.weir_EXTREMES c.val) s.hub t.hub)) ∧
    (∀ ports,
      (∀ p, inputGood s.hub = false → anySinkClosed s.hub = false →
        (List.range 4).find? (fun p => ports.contains p && s.hub.present .weir p) = some p →
        Completes (.deadBatterySinkClose ports) s fun t => ∃ w : Hub, w.input.sinks = 2 ^ p ∧ w.input.deadBattery = 2 ^ p ∧
          w.regs = s.hub.regs ∧ t.hub = settleWeirs w) ∧
      (inputGood s.hub = true ∨ anySinkClosed s.hub = true ∨
          (List.range 4).find? (fun p => ports.contains p && s.hub.present .weir p) = none →
        Completes (.deadBatterySinkClose ports) s fun t => t = s)) ∧
    (inputGood s.hub = true → s.hub.input.rev = false → Completes .inputSwitchover s fun t => ∃ w : Hub, w.input.sinks = 0 ∧
      w.input.deadBattery = 0 ∧ w.regs = s.hub.regs ∧ t.hub = settleWeirs w) ∧
    (inputGood s.hub = false ∨ s.hub.input.rev = true → Completes .inputSwitchover s fun t => t = s) ∧
    (inputGood s.hub = true → s.hub.is (F.weir_EW_STAT_PFW 12) = true → Completes .pfwRelease s fun t => ∃ w : Hub,
      w.is (F.weir_EW_STAT_PFW 12) = false ∧ w.out = s.hub.out ++ [.pfw false] ∧ w.input.rev = false ∧
      w.bit (F.hdr_INT_STAT_EVENT (Page.weir 12)) 9 = true ∧
      KeptBut [A.weir_EW_STAT 12, Page.weir 12 + 0x10] s.hub w ∧ t.hub = settleWeirs w) ∧
    (inputGood s.hub = false ∨ s.hub.is (F.weir_EW_STAT_PFW 12) = false → Completes .pfwRelease s fun t => t = s)

/-- A domain without work in hand enters the deepest state that its policy permits and no floor forbids (R507–R509), its held pads latched (R523);
an entry that completes clears what the state does not keep (R18, R514). A waking domain becomes ready, what waited for the Reel then
landing, an abandoned block reset going on and its accesses being performed (R260, R513); one that the bus-powered profile holds does not
(R100, R510), and a failed wake is counted (R515).
A policy, DVFS targets and SHELF take what firmware writes, under their checks (R506, R518, R526, R527); an island whose change completes
takes its point, raises DVFS_DONE and lets go on what waited for it (R518, R519). SHELF is entered with every domain but ALWAYS and
VAULT off, and left through the boot (R528, R530). MON_EXT reloads when it is read (R535). -/
def Obligations.DomainsAndShelf : Prop :=
  (∀ (s : State) (d : Fin 43),
      (2 ≤ d.val → (s.hub.dom d.val).state = 0 → (s.hub.dom d.val).waking = false → (policyOf s.hub d.val).1 = true →
        (policyOf s.hub d.val).2.1 = true ∨ (policyOf s.hub d.val).2.2.1 = true → 1 ≤ floorOf s.hub d.val → workInHand s.hub d.val = false →
        Completes (.dozeEntry d) s fun t => t = { s with hub := s.hub.setDom d.val { s.hub.dom d.val with state := 1 } }) ∧
      (d.val < 2 ∨ (s.hub.dom d.val).state ≠ 0 ∨ (s.hub.dom d.val).waking = true ∨ (policyOf s.hub d.val).1 = false ∨
          ((policyOf s.hub d.val).2.1 = false ∧ (policyOf s.hub d.val).2.2.1 = false) ∨ floorOf s.hub d.val = 0 ∨
          workInHand s.hub d.val = true → Completes (.dozeEntry d) s fun t => t = s) ∧
      (∀ n, n = (if d.val = 12 ∧ profileHeld s.hub d.val then min 2 (deepest s.hub d.val) else deepest s.hub d.val) →
        (2 ≤ d.val → (policyOf s.hub d.val).2.2.2 ≠ 0 → (s.hub.dom d.val).waking = false → (s.hub.dom d.val).entering = 0 →
          (s.hub.dom d.val).state < n → workInHand s.hub d.val = false → Completes (.idleTimeout d) s fun t =>
            t.hub.dom d.val = (if n = 1 then { s.hub.dom d.val with state := 1 } else { s.hub.dom d.val with entering := n }) ∧
            (n = 1 → t.hub.regs = s.hub.regs) ∧
            KeptBut ((domainPages d.val).map (· + 0x2C)) s.hub t.hub ∧
            (n ≠ 1 → hasPads d.val = true → ∀ p ∈ domainPages d.val, s.hub.is (F.hdr_EDGE_MODE_HOLD p) = true →
              t.hub.is (F.hdr_EDGE_MODE_HELD p) = true) ∧ t.reel = s.reel) ∧
        (d.val < 2 ∨ (policyOf s.hub d.val).2.2.2 = 0 ∨ (s.hub.dom d.val).waking = true ∨ (s.hub.dom d.val).entering ≠ 0 ∨
            n ≤ (s.hub.dom d.val).state ∨ workInHand s.hub d.val = true → Completes (.idleTimeout d) s fun t => t = s)) ∧
      ((s.hub.dom d.val).entering = 0 → Completes (.lowPowerEntryComplete d) s fun t => t = s) ∧
      ((s.hub.dom d.val).entering ≠ 0 → Completes (.lowPowerEntryComplete d) s fun t => ∃ u w x : Hub,
        u = enterState s.hub d.val (s.hub.dom d.val).entering ∧
        (∀ p ∈ domainPages d.val, ∀ g : Fld, p + 0x40 ≤ g.key / 32 → g.key / 32 < p + 0x1000 → g.key / 32 ≠ A.reel_STAT →
          clsOf g.key = .d ∨ ((s.hub.dom d.val).entering = 3 ∧ (clsOf g.key = .n ∨ clsOf g.key = .l)) → u.fget g = resetOf u.otp g.key) ∧
        (∀ g : Fld, clsOf g.key = .a ∨ clsOf g.key = .s ∨ clsOf g.key = .v → g.key / 32 ≠ A.reel_STAT → u.fget g = s.hub.fget g) ∧
        w = (if (s.hub.dom d.val).entering = 3 then (domainKinds d.val).foldl (fun h q => loseWork h q.1 q.2.1) u else u) ∧
        x = (if (s.hub.dom d.val).entering = 3 ∧ d.val = 3 then settleBound { w with pathSt := [], auxGate := [], flows := [], credits := [] }
          else if (s.hub.dom d.val).entering = 3 ∧ d.val = 12 then { w with reelBad := [] } else w) ∧
        t.hub = x.setDom d.val { x.dom d.val with state := (s.hub.dom d.val).entering, entering := 0, wakeAt := x.time } ∧
        (t.hub.dom d.val).state = (s.hub.dom d.val).entering ∧ (t.hub.dom d.val).entering = 0 ∧
        t.reel = if (s.hub.dom d.val).entering = 3 ∧ d.val = 12 then [] else s.reel) ∧
      ((s.hub.dom d.val).waking = false ∨ (s.hub.dom d.val).entering ≠ 0 ∨ (s.hub.dom d.val).resetting = true →
        Completes (.domainReady d) s fun t => t = s) ∧
      ((s.hub.dom d.val).waking = true → (s.hub.dom d.val).entering = 0 → (s.hub.dom d.val).resetting = false →
        (profileHeld s.hub d.val = false → Completes (.domainReady d) s fun t => ∃ (b w u : Hub) (m : Memory), b = becomeReady s.hub d.val ∧
          (b.dom d.val).state = (s.hub.dom d.val).wakeTo ∧ (b.dom d.val).waking = false ∧
          (b.dom d.val).lastWakeUs = min ((s.hub.time - (s.hub.dom d.val).wakeAt) / 128) 0xFFFF ∧
          (w, m) = landAll (if d.val = 12 then settleGates b else b) s.reel ∧
          u = (domainKinds d.val).foldl (fun h q =>
            if h.is (F.hdr_RESET_CTL_BLOCK_RESET q.2.2) && h.ready d.val then blockAbandon h q.1 q.2.1 else h) w ∧
          (t.hub, t.reel) = goOn u m) ∧
        (profileHeld s.hub d.val = true → (d.val ≠ 12 ∨ (s.hub.dom d.val).state ≠ 3 → Completes (.domainReady d) s fun t => t = s) ∧
          (d.val = 12 → (s.hub.dom d.val).state = 3 → Completes (.domainReady d) s fun t => ∃ u : Hub, (u.dom 12).state = 2 ∧
            (u.dom 12).waking = decide ((s.hub.dom 12).wakeTo ≤ 1) ∧ u.is F.reel_STAT_CONTENT_LOST = true ∧
            u.is F.reel_STAT_SELF_REFRESH = true ∧ (∀ g : Fin 4, u.is (F.gate_STATUS_NEWEST_VALID g.val) = false) ∧
            t.hub = settleGates u ∧ t.reel = s.reel))) ∧
      ((s.hub.dom d.val).waking = true → profileHeld s.hub d.val = false → Completes (.wakeFail d) s fun t =>
        t.hub.fget F.pwr_WAKE_FAIL_DOMAIN = d.val ∧ Counted s.hub t.hub F.pwr_WAKE_FAIL_COUNT ∧
        t.hub.bit (F.hdr_INT_STAT_EVENT Page.pwr) 2 = true ∧ KeptBut [A.pwr_WAKE_FAIL, Page.pwr + 0x10] s.hub t.hub) ∧
      ((s.hub.dom d.val).waking = false ∨ profileHeld s.hub d.val = true → Completes (.wakeFail d) s fun t => t = s)) ∧
  (∀ (s : State),
      (∀ (req : Req) (page : Fin 216) (value : Word),
        (∀ k i, pageAt (4096 * page.val + 8) = some (k, i, 4096 * page.val) → k.hasHeader = true → Writes s req (4096 * page.val + 8) →
          Completes (.pwrPolicyWrite req none page value) s fun t => ∃ h0 w : Hub, h0.regs = s.hub.regs ∧
            w = (domainPages (k.domain i)).foldl (fun h p => storeWord h (p + 8) value.toNat) h0 ∧
            t.hub = enforcePolicy w (k.domain i)) ∧
        (∀ g : Fin 8, Writes s req (A.pwr_GROUP_POLICY g.val) → Completes (.pwrPolicyWrite req (some g) page value) s fun t => ∃ w : Hub,
          w.fget (F.pwr_GROUP_POLICY_POLICY g.val) = value.toNat % 8 + value.toNat / 2 ^ 8 % 2 ^ 16 * 2 ^ 8 ∧ OthersKept (A.pwr_GROUP_POLICY g.val) s.hub w ∧
          t.hub = enforcePolicy w (4 + g.val)) ∧
        (Writes s req A.pwr_DVFS_TARGET → Completes (.dvfsTargetWrite req value) s fun t => ∃ w : Hub,
          Takes w A.pwr_DVFS_TARGET value.toNat ∧ KeptBut [A.pwr_DVFS_TARGET, Page.pwr + 0x10] s.hub w ∧
          ((List.range 4).any (fun i => targetOf w i == 2 && lowBlocked w i) = true → w.bit (F.hdr_INT_STAT_EVENT Page.pwr) 1 = true) ∧
          t.hub = dvfsSettle w)) ∧
      (∀ (i : Fin 4), Completes (.dvfsDone i) s fun t => ∃ u : Hub,
        (Tbl.get (fun _ => 0) s.hub.power.dvfsTo i.val = 0 → u = s.hub) ∧
        (∀ p, Tbl.get (fun _ => 0) s.hub.power.dvfsTo i.val = p + 1 → ∃ w : Hub, (p < 4 → pointOf w i.val = p) ∧
          Tbl.get (fun _ => 0) w.power.dvfsTo i.val = 0 ∧ w.bit (F.hdr_INT_STAT_EVENT Page.pwr) 0 = true ∧
          KeptBut [A.pwr_DVFS_STATE, Page.pwr + 0x10] s.hub w ∧ u = dvfsSettle w) ∧
        (i.val < 2 ∨ lowNow u i.val = true → t.hub = u) ∧
        (2 ≤ i.val → lowNow u i.val = false → t.hub = (u.power.heldStarts.filter fun x => heldDisplay x == (i.val == 2)).foldl heldGoes
          (dropHeld u fun x => heldDisplay x == (i.val == 2)))) ∧
      (∀ req sources c, Writes s req A.pwr_SHELF → mayRwf req = true →
        c = shelfRefusal { s.hub with power := { s.hub.power with sources := sources } } →
        (s.hub.power.shelf = 0 → c = 0 → Completes (.shelfEnter req sources) s fun t => t.hub.power.shelf = 1 ∧
          t.hub.is F.pwr_SHELF_ENTER = true ∧ OthersKept A.pwr_SHELF s.hub t.hub) ∧
        (s.hub.power.shelf = 0 → c ≠ 0 → Completes (.shelfEnter req sources) s fun t => t.hub.power.shelf = 0 ∧
          t.hub.fget F.pwr_SHELF_STAT_REFUSE = c ∧ t.hub.bit (F.hdr_INT_STAT_EVENT Page.pwr) 3 = true ∧
          KeptBut [A.pwr_SHELF_STAT, Page.pwr + 0x10] s.hub t.hub) ∧
        (s.hub.power.shelf = 1 → Completes (.shelfEnter req sources) s fun t => t.hub.power.shelf = 1 ∧ t.hub.regs = s.hub.regs)) ∧
      (Writes s .bmc A.pwr_BMC_SHELF → s.hub.power.shelf = 0 →
        (Completes (.bmcShelf .bmc 0x5E1F) s fun t => ∃ u w : Hub, (∀ c : Fin 14, u.is (F.weir_CTL_CH_EN c.val) = false) ∧
          u.input.sinks = 0 ∧ KeptBut ((List.range 14).map A.weir_CTL) s.hub u ∧
          w = (List.range 4).foldl (fun h i => sliceReset h i 4) (shelfPorts (settleWeirs u)) ∧
          t.hub = { w with power := { w.power with shelf := 1 } }) ∧
        (∀ key, key ≠ 0x5E1F → Completes (.bmcShelf .bmc key) s fun t => t.hub.power.shelf = 0 ∧ t.hub.regs = s.hub.regs)) ∧
      (s.hub.power.shelf = 1 → Completes .shelfEntryComplete s fun t => ∃ w : Hub, w.power.shelf = 2 ∧ w.stalled = [] ∧
        (∀ d, 2 ≤ d → d < 43 → w.dom d = ⟨3, false, 0, 0, 0, 0, false⟩) ∧ w.out.getLast? = some .convPulse ∧ t.reel = [] ∧
        (s.hub.power.shelfWake = none → t.hub = w) ∧ ∀ source, s.hub.power.shelfWake = some source → t.hub = shelfLeave w source) ∧
      (s.hub.power.shelf ≠ 1 → Completes .shelfEntryComplete s fun t => t = s) ∧
      (∀ source,
        (s.hub.power.shelf = 2 → wakeEnabled s.hub source = true → Completes (.shelfWake source) s fun t =>
          t.hub = shelfLeave s.hub source ∧ t.reel = []) ∧
        (s.hub.power.shelf = 1 → wakeEnabled s.hub source = true → Completes (.shelfWake source) s fun t =>
          t.hub.power.shelfWake = some source ∧ t.hub.regs = s.hub.regs ∧ t.reel = s.reel) ∧
        (s.hub.power.shelf ≠ 0 → wakeEnabled s.hub source = false → Completes (.shelfWake source) s fun t => t = s) ∧
        (s.hub.power.shelf = 0 → (∀ n, source ≠ .vbus n) → Completes (.shelfWake source) s fun t => t = s)) ∧
      (∀ n, s.hub.power.shelf = 0 → Completes (.shelfWake (.vbus n)) s fun t => t.hub = wake s.hub (21 + n.val) ∧ t.reel = s.reel) ∧
      (∀ req, Reads s req A.pwr_MON_EXT → Answers (.monExt req) s req A.pwr_MON_EXT fun t =>
        t.hub.Has F.pwr_MON_EXT_VIN_MIN_MV (s.hub.fget F.pwr_MON0_VIN_MV) ∧
        t.hub.Has F.pwr_MON_EXT_TEMP_MAX (s.hub.fget F.pwr_MON1_TEMP) ∧ OthersKept A.pwr_MON_EXT s.hub t.hub))

/-! ## Clocks and Cue (R537–R587) -/

/-- REF_CTL is taken, and a reference other than the one in force is requested with the PLL held (R537–R542); the distiller, the Leat
reference and the PLL change its status and counts (R538–R542). A mux that completes passes what is called for, a rescued one
is counted and its domains are reset (R543, R544). DOMSRC sets a Shaft bit only under LOCK (R546); the meter counts one gate (R553); a
crossing half leaves FLUSH (R557); fabric time wraps into EPOCH (R548). -/
def Obligations.ClocksAndCrossings : Prop :=
  ∀ (s : State),
    (∀ (req : Req) (ctl : Word), Writes s req A.clk_REF_CTL → Completes (.refSelect req ctl) s fun t => ∃ u : Hub,
      Takes u A.clk_REF_CTL ctl.toNat ∧ KeptBut [A.clk_REF_CTL, A.clk_REF_STAT, Page.clk + 0x10] s.hub u ∧
      u.clock.fellBack = (effectiveSel u == 2 && u.is F.clk_REF_CTL_AUTO_FALLBACK && leatRefDown u) ∧
      (recovOk (u.fget F.clk_REF_CTL_RECOV) = false →
        u.is F.clk_REF_STAT_DIST_LOCK = false ∧ u.bit (F.hdr_INT_STAT_EVENT Page.clk) 3 = true) ∧
      (wantedRef u = u.fget F.clk_REF_STAT_ACTIVE → t.hub = u) ∧
      (wantedRef u ≠ u.fget F.clk_REF_STAT_ACTIVE → t.hub.is F.clk_REF_STAT_PLL_HOLD = true ∧
        t.hub.clock.muxBusy.testBit 0 = true ∧ OthersKept A.clk_REF_STAT u t.hub)) ∧
    (recovOk (s.hub.fget F.clk_REF_CTL_RECOV) = true → Completes .distLock s fun t => ∃ u : Hub,
      u.is F.clk_REF_STAT_DIST_LOCK = true ∧ u.is F.clk_REF_STAT_DIST_HOLD = false ∧
      (effectiveSel s.hub = 1 → u.clock.fellBack = false) ∧ OthersKept A.clk_REF_STAT s.hub u ∧ t.hub = settleRef u) ∧
    (Completes .distHold s fun t => ∃ u : Hub, u.is F.clk_REF_STAT_DIST_HOLD = true ∧ OthersKept A.clk_REF_STAT s.hub u ∧
      t.hub = if s.hub.fget F.clk_DIST_CTL_HOLDOVER_MS = 0 then holdoverExpiry u else u) ∧
    (Completes .distResume s fun t => t.hub.is F.clk_REF_STAT_DIST_HOLD = false ∧ OthersKept A.clk_REF_STAT s.hub t.hub) ∧
    (s.hub.is F.clk_REF_STAT_DIST_HOLD = true → s.hub.is F.clk_REF_CTL_AUTO_FALLBACK = true → s.hub.fget F.clk_REF_STAT_ACTIVE = 1 →
      Completes .holdoverExpiry s fun t => ∃ u : Hub, u.is F.clk_REF_STAT_DIST_LOCK = false ∧ u.clock.fellBack = true ∧
        u.bit (F.hdr_INT_STAT_EVENT Page.clk) 2 = true ∧ KeptBut [A.clk_REF_STAT, Page.clk + 0x10] s.hub u ∧ t.hub = settleRef u) ∧
    (∀ leat : Fin 2, effectiveSel s.hub = 2 → s.hub.fget F.clk_REF_CTL_LEAT = leat.val → s.hub.is F.clk_REF_CTL_AUTO_FALLBACK = true →
      s.hub.clock.fellBack = false → Completes (.refFallback leat) s fun t => ∃ u : Hub, u.clock.fellBack = true ∧
        u.bit (F.hdr_INT_STAT_EVENT Page.clk) 2 = true ∧ OthersKept (Page.clk + 0x10) s.hub u ∧ t.hub = settleRef u) ∧
    (Completes .pllLock s fun t => ∃ u : Hub, u.is F.clk_REF_STAT_LOCK = true ∧ OthersKept A.clk_REF_STAT s.hub u ∧ t.hub = dvfsSettle u) ∧
    (s.hub.is F.clk_REF_STAT_LOCK = true → Completes .lockLoss s fun t => t.hub.is F.clk_REF_STAT_LOCK = false ∧ Counted s.hub t.hub F.clk_REF_STAT_LOCK_LOSSES ∧
      t.hub.bit (F.hdr_INT_STAT_EVENT Page.clk) 1 = true ∧ KeptBut [A.clk_REF_STAT, Page.clk + 0x10] s.hub t.hub) ∧
    (s.hub.is F.clk_REF_STAT_LOCK = false → Completes .lockLoss s fun t => t = s) ∧
    (∀ mux : Fin 10, s.hub.clock.muxBusy.testBit mux.val = true →
      (Completes (.muxSwitchComplete mux) s fun t => ∃ u : Hub, u.clock.muxBusy.testBit mux.val = false ∧
        (mux.val = 0 → u.fget F.clk_REF_STAT_ACTIVE = wantedRef s.hub ∧ u.is F.clk_REF_STAT_PLL_HOLD = false ∧
          OthersKept A.clk_REF_STAT s.hub u ∧ t.hub = settleRef u) ∧
        (0 < mux.val → mux.val < 9 → u.clock.shaft.testBit (mux.val - 1) = s.hub.bit F.clk_DOMSRC_SHAFT (mux.val - 1) ∧
          u.bit F.clk_DOMSRC_BUSY (mux.val - 1) = false ∧ OthersKept A.clk_DOMSRC s.hub u ∧ t.hub = dvfsSettle u) ∧
        (mux.val = 9 → u.clock.clkoutSrc = s.hub.fget F.clk_CLKOUT_SRC ∧ u.clock.clkoutDiv = s.hub.fget F.clk_CLKOUT_DIV + 1 ∧
          u.regs = s.hub.regs ∧ t.hub = u)) ∧
      (Completes (.muxRescue mux) s fun t => ∃ w : Hub, w.fget F.clk_RESCUE_LAST = mux.val ∧ Counted s.hub w F.clk_RESCUE_COUNT ∧
        w.bit (F.hdr_INT_STAT_EVENT Page.clk) 0 = true ∧ KeptBut [A.clk_RESCUE, Page.clk + 0x10] s.hub w ∧
        (mux.val = 0 ∨ mux.val = 9 → t.hub = muxComplete w mux.val) ∧
        (0 < mux.val → mux.val < 9 → (clockFeeds (mux.val - 1)).contains 2 = false →
          t.hub = (clockFeeds (mux.val - 1)).foldl domainReset (muxComplete w mux.val)) ∧
        (0 < mux.val → mux.val < 9 → (clockFeeds (mux.val - 1)).contains 2 = true →
          t.hub = chipReset (muxComplete w mux.val) 6))) ∧
    (∀ (req : Req) (shaft : Byte), Writes s req A.clk_DOMSRC → Completes (.domsrcWrite req shaft) s fun t => ∃ w : Hub,
      w.Has F.clk_DOMSRC_SHAFT
        (if s.hub.is F.clk_REF_STAT_LOCK then shaft.toNat else shaft.toNat &&& s.hub.fget F.clk_DOMSRC_SHAFT) ∧
      OthersKept A.clk_DOMSRC s.hub w ∧ t.hub = (List.range 8).foldl settleClock w) ∧
    (∀ (req : Req) (src : Fin 32), Writes s req A.clk_METER_CTL → s.hub.is F.clk_METER_CTL_BUSY = false →
      Completes (.meterGo req src) s fun t => t.hub.is F.clk_METER_CTL_BUSY = true ∧ t.hub.is F.clk_METER_CTL_GO = true ∧
        t.hub.clock.meterSrc = src.val ∧ OthersKept A.clk_METER_CTL s.hub t.hub) ∧
    (∀ edges, s.hub.is F.clk_METER_CTL_BUSY = true → Completes (.meterDone edges) s fun t =>
      t.hub.Has F.clk_METER_COUNT_COUNT (meterCount s.hub edges) ∧ t.hub.is F.clk_METER_CTL_BUSY = false ∧
      t.hub.is F.clk_METER_CTL_GO = false ∧ t.hub.bit (F.hdr_INT_STAT_EVENT Page.clk) 4 = true ∧
      KeptBut [A.clk_METER_COUNT, A.clk_METER_CTL, Page.clk + 0x10] s.hub t.hub) ∧
    (∀ (xing : Fin 21) (tx : Bool) k, k = 2 * xing.val + (if tx then 1 else 0) → (s.hub.half k).flush = true →
      sideInReset s.hub xing.val = false →
      Completes (.xingResync xing tx) s fun t => t.hub.half k = { s.hub.half k with flush := false,
                                                                                    resyncs := min ((s.hub.half k).resyncs + 1) 0xFFFF } ∧
        t.hub.regs = s.hub.regs) ∧
    (∀ (xing : Fin 21) (tx : Bool), sideInReset s.hub xing.val = true → Completes (.xingResync xing tx) s fun t => t = s) ∧
    (∀ d : Fin 43, Completes (.forcedGate d) s fun t => ∃ w : Hub, Counted s.hub w F.clk_GATING_FORCED_GATES ∧
      w.bit (F.hdr_INT_STAT_EVENT Page.clk) 6 = true ∧ w.stalled = s.hub.stalled.filter (fun a => !(a.await == .ready d.val)) ∧
      (t.hub, t.reel) = goOn (pump w s.reel).1 (pump w s.reel).2) ∧
    (s.hub.ftime < 2 ^ 40 → Completes .ftimeWrap s fun t => t.hub.ftime = 0 ∧ t.hub.epoch = (s.hub.epoch + 1) % 2 ^ 32 ∧
      t.hub.regs = s.hub.regs)

/-- A filter takes the raw line (R565). Arbitration gives every present target its BEST and LINE (R568). A claim returns BEST, pushes and
activates it (R570); a completion of the top pops it, another freezes the target (R573); STACK_RESET empties the stack (R574). The doorbell
words set and clear the latches of the software doorbells (R581). -/
def Obligations.CueDelivers : Prop :=
  ∀ (s : State),
    (∀ id : Fin 512, id.val ≠ 0 → Completes (.filter id) s fun t => t.hub.cue.level.testBit id.val = rawLine s.hub id.val ∧
      t.hub.regs = s.hub.regs) ∧
    (Completes .arbitrate s fun t => ∀ k : Fin 8, targetPresent s.hub k.val = true →
      t.hub.fget (F.cue0_BEST_ID k.val) = cueBest s.hub k.val ∧
      t.hub.is (F.cue0_TSTAT_LINE k.val) = cueLine s.hub k.val (cueBest s.hub k.val)) ∧
    (∀ (req : Req) (k : Fin 8), Reads s req (A.cue0_CLAIM k.val) →
      (targetPresent s.hub k.val = true → s.hub.is (F.cue0_TSTAT_LINE k.val) = true → s.hub.fget (F.cue0_BEST_ID k.val) ≠ 0 →
        s.hub.is (F.cue0_TSTAT_FROZEN k.val) = false → cueDepth s.hub k.val < 16 → Completes (.claim req k) s fun t =>
          t.hub.out = s.hub.out ++ [.readDone req (A.cue0_CLAIM k.val) (BitVec.ofNat 64 (s.hub.fget (F.cue0_BEST_ID k.val)))] ∧
          t.hub.Has (F.cue0_STACK_ID k.val (cueDepth s.hub k.val)) (s.hub.fget (F.cue0_BEST_ID k.val)) ∧
          t.hub.is (F.cue0_STACK_VALID k.val (cueDepth s.hub k.val)) = true ∧ cueDepth t.hub k.val = cueDepth s.hub k.val + 1 ∧
          t.hub.cue.active.testBit (s.hub.fget (F.cue0_BEST_ID k.val)) = true) ∧
      (s.hub.is (F.cue0_TSTAT_LINE k.val) = false → Completes (.claim req k) s fun t => (∀ f, t.hub.fget f = s.hub.fget f) ∧
        t.hub.out = s.hub.out ++ [.readDone req (A.cue0_CLAIM k.val) 0])) ∧
    (∀ (req : Req) (k : Fin 8), targetPresent s.hub k.val = true →
      (Writes s req (A.cue0_COMPLETE k.val) → s.hub.is (F.cue0_TSTAT_FROZEN k.val) = false → ∀ id : Fin 512,
        (0 < cueDepth s.hub k.val → cueDepth s.hub k.val ≤ 16 → cueTop s.hub k.val = id.val → Completes (.complete req k id) s fun t =>
          ∃ w : Hub, cueDepth w k.val = cueDepth s.hub k.val - 1 ∧ w.cue.active.testBit id.val = false ∧
            w.is (F.cue0_STACK_VALID k.val (cueDepth s.hub k.val - 1)) = false ∧ t.hub = arbitrate1 w k.val) ∧
        (cueDepth s.hub k.val = 0 ∨ cueTop s.hub k.val ≠ id.val → Completes (.complete req k id) s fun t =>
          t.hub.is (F.cue0_TSTAT_FROZEN k.val) = true ∧ t.hub.is (F.cue0_TSTAT_LINE k.val) = false ∧
          t.hub.fget (F.cue0_FAULT_ID k.val) = id.val ∧ t.hub.bit (F.hdr_INT_STAT_EVENT Page.cue0) k.val = true ∧
          cueDepth t.hub k.val = cueDepth s.hub k.val)) ∧
      (∀ ctl : Word, Writes s req (A.cue0_TCTL k.val) → Completes (.stackReset req k ctl) s fun t =>
        Takes t.hub (A.cue0_TCTL k.val) (ctl.toNat ||| 0x10000) ∧ cueDepth t.hub k.val = 0 ∧
        t.hub.is (F.cue0_TSTAT_FROZEN k.val) = false ∧ ∀ d : Fin 16, t.hub.is (F.cue0_STACK_VALID k.val d.val) = false)) ∧
    (∀ (req : Req) (w : Fin 7) (bells : Word) (b : Fin 32),
      (Writes s req (A.cue3_DB_SET w.val) → Completes (.dbSet req w bells) s fun t =>
        t.hub.bit (F.cue3_DB_SET_BELLS w.val) b.val =
          (s.hub.bit (F.cue3_DB_SET_BELLS w.val) b.val || (bells.getLsbD b.val && decide (4 ≤ 32 * w.val + b.val))) ∧
        OthersKept (A.cue3_DB_SET w.val) s.hub t.hub) ∧
      (Writes s req (A.cue3_DB_CLR w.val) → Completes (.dbClr req w bells) s fun t =>
        t.hub.bit (F.cue3_DB_SET_BELLS w.val) b.val =
          (s.hub.bit (F.cue3_DB_SET_BELLS w.val) b.val && !(bells.getLsbD b.val && decide (4 ≤ 32 * w.val + b.val))) ∧
        OthersKept (A.cue3_DB_SET w.val) s.hub t.hub))

/-! ## The Vault (R588–R609) -/

/-- A write of CMD with a command starts it, with the values that the registers then hold, or is dropped while one runs (R597). When it
ends, RESULT, OUT_LEN and CMD_DONE report it (R597): EXTEND hashes into a measurement that is not locked (R592, R593), DERIVE, GENERATE and ECDH fill a
slot (R595, R598), CLEAR empties one, GCM_DEC accepts a right tag alone, SIGN, QUOTE and PUBKEY return what they sign or show (R598, R600),
PROVISION makes the root (R591). -/
def Obligations.VaultCommands : Prop :=
  ∀ (s : State),
    (∀ req, Writes s req A.vault_CMD → (∀ m : Fin 4, VaultStarts s req (.extend req m) (1 + 16 * m.val)) ∧
      (∀ (slot : Fin 32) (msel : Fin 16) (ecdsa : Bool),
        VaultStarts s req (.derive req slot msel ecdsa) (vaultWord 2 slot.val 0 msel.val ecdsa) ∧
        VaultStarts s req (.generate req slot ecdsa) (vaultWord 3 slot.val 0 0 ecdsa)) ∧
      (∀ slot tslot : Fin 32, VaultStarts s req (.ecdh req slot tslot) (vaultWord 9 slot.val tslot.val 0 false) ∧
        VaultStarts s req (.gcmEnc req slot) (vaultWord 4 slot.val 0 0 false) ∧
        VaultStarts s req (.gcmDec req slot) (vaultWord 5 slot.val 0 0 false) ∧
        VaultStarts s req (.sign req slot) (vaultWord 6 slot.val 0 0 false) ∧
        VaultStarts s req (.quote req slot) (vaultWord 7 slot.val 0 0 false) ∧
        VaultStarts s req (.pubkey req slot) (vaultWord 8 slot.val 0 0 false) ∧
        VaultStarts s req (.clear req slot) (vaultWord 11 slot.val 0 0 false)) ∧
      VaultStarts s req (.random req) 10 ∧ VaultStarts s req (.provision req) 12 ∧ VaultStarts s req (.endorse req) 13) ∧
    (∀ r, s.hub.vault.run = some r →
      (r.op = 1 →
        (r.input.length ≠ 48 → Completes .cmdDone s fun t => VaultEnds s.hub t.hub 6 0 fun w => w.vault.slots = s.hub.vault.slots) ∧
        (r.input.length = 48 → r.locked = true → Completes .cmdDone s fun t => VaultEnds s.hub t.hub 7 0 fun w =>
          measOf w (r.slot % 4) = measOf s.hub (r.slot % 4)) ∧
        (r.input.length = 48 → r.locked = false → Completes .cmdDone s fun t => VaultEnds s.hub t.hub 1 0 fun w =>
          measOf w (r.slot % 4) = hash384 (measOf s.hub (r.slot % 4) ++ r.input) ∧
          Counted s.hub w (F.vault_MEAS_COUNT_COUNT (r.slot % 4)))) ∧
      (r.op = 2 → 1 ≤ r.input.length → r.input.length ≤ 64 → 2 ≤ r.slot →
        (vaultRoot s.hub = none → Completes .cmdDone s fun t => VaultEnds s.hub t.hub 4 0 fun w => w.vault.slots = s.hub.vault.slots) ∧
        (∀ k, vaultRoot s.hub = some k → Completes .cmdDone s fun t => VaultEnds s.hub t.hub 1 0 fun w =>
          vaultSlot w r.slot = some { ecdsa := r.ecdsa, derived := true, msel := r.msel, users := r.useNext
                                      key := kdfKey k r.ecdsa (kdfContext s.hub r.msel r.input r.slot) })) ∧
      (r.op = 3 →
        (r.slot < 2 → Completes .cmdDone s fun t => VaultEnds s.hub t.hub 3 0 fun w => w.vault.slots = s.hub.vault.slots) ∧
        (2 ≤ r.slot → s.hub.is F.vault_STATUS_ENTROPY_OK = true → Completes .cmdDone s fun t => VaultEnds s.hub t.hub 1 0 fun w =>
          ∃ key : Bytes, key.length = (if r.ecdsa then 48 else 32) ∧
            vaultSlot w r.slot = some { ecdsa := r.ecdsa, derived := false, msel := 0, users := r.useNext, key := key })) ∧
      (r.op = 4 → 1008 < r.input.length → Completes .cmdDone s fun t => VaultEnds s.hub t.hub 6 0 fun _ => True) ∧
      (r.op = 5 → ∀ x, slotFor s.hub r r.slot (some false) = .ok x → r.aad ≤ 512 → 28 + r.aad ≤ r.input.length → r.input.length ≤ 1024 →
        (r.input.drop (r.input.length - 16) ≠ bytesOf 16 (Config.gcmTag x.key (r.input.take 12) ((r.input.drop 12).take r.aad)
            ((r.input.drop (12 + r.aad)).take (r.input.length - 28 - r.aad))) →
          Completes .cmdDone s fun t => VaultEnds s.hub t.hub 8 0 fun _ => True) ∧
        (r.input.drop (r.input.length - 16) = bytesOf 16 (Config.gcmTag x.key (r.input.take 12) ((r.input.drop 12).take r.aad)
            ((r.input.drop (12 + r.aad)).take (r.input.length - 28 - r.aad))) →
          Completes .cmdDone s fun t => VaultEnds s.hub t.hub 1 (r.input.length - 28 - r.aad) fun _ => True)) ∧
      (r.op = 6 → r.input.length = 48 → r.slot ≠ 0 → s.hub.is F.vault_STATUS_ENTROPY_OK = true → ∀ x, slotFor s.hub r r.slot (some true) = .ok x →
        Completes .cmdDone s fun t => VaultEnds s.hub t.hub 1 96 fun w => w.vault.slots = s.hub.vault.slots) ∧
      (r.op = 7 → 16 ≤ r.input.length → r.input.length ≤ 64 → s.hub.is F.vault_STATUS_ENTROPY_OK = true →
        (vaultRoot s.hub = none → Completes .cmdDone s fun t => VaultEnds s.hub t.hub 4 0 fun w => w.vault.slots = s.hub.vault.slots) ∧
        ∀ x y, (vaultRoot s.hub).isSome = true → slotFor s.hub r 1 (some true) = .ok x → slotFor s.hub r r.slot none = .ok y →
          Completes .cmdDone s fun t => VaultEnds s.hub t.hub 1 484 fun w => w.vault.slots = s.hub.vault.slots) ∧
      (r.op = 8 → ∀ x, slotFor s.hub r r.slot (some true) = .ok x → Completes .cmdDone s fun t =>
        VaultEnds s.hub t.hub 1 96 fun w => wordBytes w F.vault_OUT_BYTES 24 = publicKey x.key) ∧
      (r.op = 9 → 97 ≤ r.input.length → r.input.length ≤ 160 → 2 ≤ r.tslot → ∀ x, slotFor s.hub r r.slot (some true) = .ok x →
        (Config.p384OnCurve (r.input.take 96) = false → Completes .cmdDone s fun t =>
          VaultEnds s.hub t.hub 9 0 fun w => w.vault.slots = s.hub.vault.slots) ∧
        (Config.p384OnCurve (r.input.take 96) = true → Completes .cmdDone s fun t => VaultEnds s.hub t.hub 1 0 fun w =>
          vaultSlot w r.tslot = some { ecdsa := false, derived := true, msel := 0, users := r.useNext
                                       key := kdfKey (bytesOf 48 (Config.p384Shared x.key (r.input.take 96))) false
                                         (r.input.drop 96 ++ [BitVec.ofNat 8 r.tslot]) })) ∧
      (r.op = 10 → r.input.length ≤ 1024 →
        (s.hub.is F.vault_STATUS_ENTROPY_OK = true → Completes .cmdDone s fun t =>
          VaultEnds s.hub t.hub 1 r.input.length fun w => w.vault.slots = s.hub.vault.slots) ∧
        (s.hub.is F.vault_STATUS_ENTROPY_OK = false → Completes .cmdDone s fun t => VaultEnds s.hub t.hub 10 0 fun _ => True)) ∧
      (r.op = 11 → 2 ≤ r.slot → Completes .cmdDone s fun t => VaultEnds s.hub t.hub 1 0 fun w => vaultSlot w r.slot = none) ∧
      (r.op = 12 →
        (r.user ≠ 4 → Completes .cmdDone s fun t => VaultEnds s.hub t.hub 3 0 fun w => w.vault.masked = s.hub.vault.masked) ∧
        (r.user = 4 → provState s.hub = 0 → s.hub.is F.vault_STATUS_ENTROPY_OK = true → Completes .cmdDone s fun t =>
          VaultEnds s.hub t.hub 1 192 fun w => (∃ root, vaultRoot w = some root ∧ root.length = 32) ∧
            w.is F.vault_STATUS_ENROL = false ∧ (vaultSlot w 0).isSome = true)) ∧
      (r.op = 13 → s.hub.is F.vault_STATUS_ENTROPY_OK = true → (vaultRoot s.hub).isSome = true →
        ∀ x y, slotFor s.hub r 0 (some true) = .ok x → slotFor s.hub r 1 (some true) = .ok y → Completes .cmdDone s fun t =>
          VaultEnds s.hub t.hub 1 336 fun w => w.vault.slots = s.hub.vault.slots))

/-- A lock bit stays once it is set, and lock bits 0 and 2 make the identity and the alias key where there is a root (R593, R594). The mask is
rewritten and the root stays (R589). A trip of an armed sensor zeroises and is recorded (R602–R604); LOCK freezes the modes (R605); the entropy
source follows its tests (R601). -/
def Obligations.VaultProtects : Prop :=
  ∀ (s : State),
    (∀ (req : Req) (bits : Fin 16), Writes s req A.vault_MEAS_LOCK → Completes (.measLock req bits) s fun t =>
      t.hub.Has F.vault_MEAS_LOCK_LOCK (s.hub.fget F.vault_MEAS_LOCK_LOCK ||| bits.val) ∧ OthersKept A.vault_MEAS_LOCK s.hub t.hub ∧
      (vaultRoot s.hub = none → t.hub.vault = s.hub.vault) ∧
      (∀ k, vaultRoot s.hub = some k →
        (bits.val.testBit 0 = true → s.hub.bit F.vault_MEAS_LOCK_LOCK 0 = false →
          vaultSlot t.hub 0 = some { ecdsa := true, derived := true, msel := 1, users := 0x10
                                     key := kdfKey k true (kdfContext s.hub 1 [0] 0) }) ∧
        (bits.val.testBit 2 = true → s.hub.bit F.vault_MEAS_LOCK_LOCK 2 = false →
          vaultSlot t.hub 1 = some { ecdsa := true, derived := true, msel := 7, users := 0x10
                                     key := kdfKey k true (kdfContext s.hub 7 [1] 1) }))) ∧
    (Completes .maskRewrite s fun t => t.hub.vault.mask.length = 32 ∧
      ((∀ k, vaultRoot s.hub = some k → k.length ≤ 32) → vaultRoot t.hub = vaultRoot s.hub) ∧ t.hub.vault.slots = s.hub.vault.slots ∧
      (s.hub.vault.ms < 999 → t.hub.vault.ms = s.hub.vault.ms + 1 ∧ t.hub.regs = s.hub.regs) ∧
      (s.hub.vault.ms = 999 → t.hub.vault.ms = 0 ∧ t.hub.Has F.vault_VTIME_COUNT (s.hub.fget F.vault_VTIME_COUNT + 1) ∧
        OthersKept A.vault_VTIME s.hub t.hub)) ∧
    (∀ sources : BitVec 6,
      (armed s.hub sources.toNat = 0 → Completes (.tamper sources) s fun t => ∃ w : Hub,
        w.fget F.vault_TAMPER_STAT_LIVE = sources.toNat ∧ w.vault = s.hub.vault ∧ OthersKept A.vault_TAMPER_STAT s.hub w ∧ t.hub = keysGone w) ∧
      (armed s.hub sources.toNat ≠ 0 → Completes (.tamper sources) s fun t => ∃ w : Hub, w.vault.masked = none ∧ w.vault.slots = [] ∧
        w.vault.run = none ∧ w.is F.vault_STATUS_RETAIN_LOST = true ∧ w.fget F.vault_TAMPER_CTL_MODE01 = 0 ∧
        w.fget F.vault_TAMPER_CTL_MODE23 = 0 ∧ w.is F.vault_TAMPER_CTL_LOCK = false ∧
        w.bit (F.hdr_INT_STAT_EVENT Page.vault) 8 = true ∧
        (s.hub.vault.run ≠ none → w.fget F.vault_CMD_RESULT = 12 ∧ w.is F.vault_STATUS_BUSY = false) ∧
        (s.hub.fget F.vault_TLOG_CTL_COUNT < 4 → w.fget F.vault_TLOG_CTL_COUNT = s.hub.fget F.vault_TLOG_CTL_COUNT + 1 ∧
          w.fget (F.vault_TLOG_CAUSE_SOURCES (s.hub.fget F.vault_TLOG_CTL_COUNT)) = armed s.hub sources.toNat ∧
          w.Has (F.vault_TLOG_TIME_VTIME (s.hub.fget F.vault_TLOG_CTL_COUNT)) (s.hub.fget F.vault_VTIME_COUNT)) ∧
        (4 ≤ s.hub.fget F.vault_TLOG_CTL_COUNT → w.is F.vault_TLOG_CTL_OVERFLOW = true) ∧ t.hub = keysGone w)) ∧
    (Completes .entropyFail s fun t => t.hub.is F.vault_STATUS_ENTROPY_OK = false ∧ Counted s.hub t.hub F.vault_ENTROPY_HEALTH_FAILS ∧
      t.hub.bit (F.hdr_INT_STAT_EVENT Page.vault) 9 = true ∧
      KeptBut [A.vault_STATUS, A.vault_ENTROPY, Page.vault + 0x10] s.hub t.hub) ∧
    (Completes .entropyRecovery s fun t => t.hub.is F.vault_STATUS_ENTROPY_OK = true ∧ OthersKept A.vault_STATUS s.hub t.hub) ∧
    (Completes .reseed s fun t => t.hub.vault.requests = 0 ∧ t.hub.fresh = s.hub.fresh + 1 ∧ t.hub.regs = s.hub.regs) ∧
    (∀ (req : Req) (modes : Fin 16), Writes s req A.vault_TAMPER_CTL →
      (s.hub.is F.vault_TAMPER_CTL_LOCK = false → Completes (.tamperLock req modes) s fun t =>
        t.hub.fget F.vault_TAMPER_CTL_MODE01 = modes.val % 4 ∧ t.hub.fget F.vault_TAMPER_CTL_MODE23 = modes.val / 4 ∧
        t.hub.is F.vault_TAMPER_CTL_LOCK = true ∧ OthersKept A.vault_TAMPER_CTL s.hub t.hub) ∧
      (s.hub.is F.vault_TAMPER_CTL_LOCK = true → Completes (.tamperLock req modes) s fun t => ∀ f, t.hub.fget f = s.hub.fget f)) ∧
    (∀ req, Writes s req A.vault_TLOG_CTL → Completes (.tlogClear req) s fun t => t.hub.fget F.vault_TLOG_CTL_COUNT = 0 ∧
      ∀ i : Fin 4, t.hub.fget (F.vault_TLOG_CAUSE_SOURCES i.val) = 0 ∧ t.hub.fget (F.vault_TLOG_TIME_VTIME i.val) = 0)

/-! ## Leat links and the fabric (R610–R642) -/

/-- A member hears a sync word on its sync link: it forwards it with that link's delay, compares its time, and holds a step for the
turn boundary where they differ by more than 2 ticks; a hub without a head joins (R621). A link that trains learns its peer (R629), one
that is lost forgets it (R622, R629); DELAY follows the round trip (R620); the digest is the one written last (R623). A key that fits its
slot is loaded with its counters at 0, one already in force goes on, another sets SEC_FAULT (R631, R632); a frame whose tag fails is counted and discarded (R633); messages go and come
as R634 says, under the link's tag and frame counters (R630, R632). -/
def Obligations.LeatLinks : Prop :=
  ∀ (s : State) (l : Fin 2),
    (∀ (dt : Nat) (x : SyncWord), standalone s.hub = false → leatTalks s.hub l.val = true → x.headId ≠ hubNumber s.hub →
      s.hub.fget F.fabric_STATE_ROLE_NOW ≠ 1 → Completes (.syncWord l dt x) s fun t => ∃ u : Hub,
        u.ftime = (s.hub.ftime + dt) % 2 ^ 40 ∧ (u.leatSt l.val).syncHops = some x.hops ∧ (∀ f, u.fget f = s.hub.fget f) ∧
        u.out = s.hub.out ++ (if leatTalks s.hub (1 - l.val) then
          [.syncWord (1 - l.val) { x with delay := x.delay + s.hub.fget (F.leat_DELAY_SIXTEENTHS (1 - l.val)), hops := x.hops + 1 }] else []) ∧
        (syncLink u ≠ some l.val → t.hub = settleLeats u) ∧
        (syncLink u = some l.val → s.hub.fget F.fabric_STATE_ROLE_NOW = 2 → s.hub.fget F.fabric_STATE_HEAD_ID = x.headId → u.epoch = x.epoch →
          ∃ v : Hub, v.Has F.fabric_GEN_COUNT x.gen ∧ v.fabric.missed = 0 ∧ v.ftime = u.ftime ∧
            v.fget F.fabric_OFFSET_TICKS = ofInt 16 (max (-32768) (min 32767 (syncOffset u x))) ∧
            ((syncOffset u x).natAbs ≤ 2 → v.fabric.cleanSyncs = s.hub.fabric.cleanSyncs + 1 ∧ v.fabric.step = s.hub.fabric.step ∧
              (16 ≤ v.fabric.cleanSyncs → cause v 0 = false)) ∧
            (2 < (syncOffset u x).natAbs → v.fabric.cleanSyncs = 0 ∧ v.fabric.step = some (syncOffset u x, none)) ∧
            t.hub = settleFabric (checkAgreement (checkTables
              (if 64 < (syncOffset u x).natAbs then setCause v 0 true else v) x) x)) ∧
        (syncLink u = some l.val → s.hub.fget F.fabric_STATE_ROLE_NOW ≠ 2 → ∃ v : Hub,
          v.ftime = (x.ftime + x.delay / 16) % 2 ^ 40 ∧ v.fget F.fabric_STATE_ROLE_NOW = 2 ∧ v.Has F.fabric_STATE_HEAD_ID x.headId ∧
          v.Has F.sluice_TURN_PHASE_TICKS x.phase ∧ v.Has F.fabric_STATE_MEMBERS x.members ∧ v.Has F.fabric_GEN_COUNT x.gen ∧
          v.bit (F.hdr_INT_STAT_EVENT Page.fabric) 0 = true ∧ cause v 5 = false ∧
          t.hub = settleFabric (checkAgreement (checkTables (setCause v 0 true) x) x))) ∧
    (∀ (sixteenths : Nat) (st : LeatStatus), leatTalks s.hub l.val = true → Completes (.roundTrip l sixteenths st) s fun t => ∃ u : Hub,
      u.fget (F.leat_DELAY_SIXTEENTHS l.val) = min sixteenths (2 ^ 20 - 1) ∧ (u.leatSt l.val).status = st ∧
      OthersKept (A.leat_DELAY l.val) s.hub u ∧
      t.hub = settleLeats (if st.hubs.any (·.id == hubNumber s.hub) then setCause u 4 true else u)) ∧
    (∀ (peer : LeatPeer) (st : LeatStatus), s.hub.present .leat l.val = true → s.hub.listens (38 + l.val) = false →
      Completes (.leatLinkUp l peer st) s fun t => t.hub = wake s.hub (38 + l.val)) ∧
    (∀ (peer : LeatPeer) (st : LeatStatus), s.hub.present .leat l.val = true → s.hub.listens (38 + l.val) = true → leatHold s.hub l.val = 0 ∨ leatHold s.hub l.val = 3 → (s.hub.leatSt l.val).trained = false →
      lowNow s.hub 3 = false → Completes (.leatLinkUp l peer st) s fun t => ∃ u : Hub,
        u.leatSt l.val = { s.hub.leatSt l.val with trained := true, peer := peer, status := st, syncHops := none, fails := 0 } ∧
        u.Has (F.leat_STATUS_PEER_ID l.val) peer.id ∧ u.Has (F.leat_STATUS_PEER_LEAT l.val) peer.leat ∧
        u.Has (F.leat_STATUS_PEER_ROLE l.val) peer.role ∧ u.is (F.leat_CTL_RETRAIN l.val) = false ∧
        u.bit (F.hdr_INT_STAT_EVENT (Page.leat l.val)) 0 = true ∧
        KeptBut [A.leat_STATUS l.val, A.leat_CTL l.val, Page.leat l.val + 0x10] s.hub u ∧
        t.hub = settleMessage (leatRefBack (wake (enforceFloor (settleFabric
          (if peer.id == hubNumber s.hub || st.hubs.any (·.id == hubNumber s.hub) then setCause u 4 true else u)) 3) (38 + l.val)) l.val) l.val) ∧
    ((s.hub.leatSt l.val).trained = true → Completes (.leatLinkDown l) s fun t => ∃ u : Hub, (u.leatSt l.val).trained = false ∧
      (u.leatSt l.val).syncHops = none ∧ (u.leatSt l.val).key = (s.hub.leatSt l.val).key ∧
      u.bit (F.hdr_INT_STAT_EVENT (Page.leat l.val)) 1 = true ∧ OthersKept (Page.leat l.val + 0x10) s.hub u ∧
      t.hub = leatRefLost (settleFabric (endUnfinished u (18 + l.val))) l.val) ∧
    (∀ (req : Req) (lo : Word), Writes s req A.fabric_CFG_HASH_LO → Completes (.cfgHashWrite req lo) s fun t =>
      t.hub.fabric.hash = lo.toNat + 2 ^ 32 * s.hub.fget F.fabric_CFG_HASH_HI_HASH ∧
      t.hub.fget F.fabric_CFG_HASH_LO_HASH = lo.toNat ∧ OthersKept A.fabric_CFG_HASH_LO s.hub t.hub) ∧
    (s.hub.fabric.differs = true → s.hub.fget F.fabric_STATE_ROLE_NOW = 2 → Completes .hashGraceExpiry s fun t => ∃ u : Hub,
      cause u 2 = true ∧ u.is F.fabric_STATE_QUARANTINE = true ∧
      (quarantined s.hub = true → OthersKept A.fabric_STATE s.hub u ∧ t.hub = u) ∧
      (quarantined s.hub = false → Counted s.hub u F.fabric_QUAR_COUNT_COUNT ∧ u.bit (F.hdr_INT_STAT_EVENT Page.fabric) 3 = true ∧
        KeptBut [A.fabric_STATE, A.fabric_QUAR_COUNT, Page.fabric + 0x10] s.hub u ∧ t.hub = settleLeats u)) ∧
    (∀ (req : Req) (slot next_ : Fin 32), Writes s req (A.leat_SEC l.val) →
      (linkKeyOk s.hub slot.val = true → (s.hub.leatSt l.val).key = some slot.val → Completes (.keySlotWrite req l slot next_) s fun t =>
        t.hub.Has (F.leat_SEC_KEY_SLOT l.val) (s.hub.fget (F.leat_SEC_KEY_SLOT l.val)) ∧
        t.hub.fget (F.leat_SEC_NEXT_SLOT l.val) = next_.val ∧ t.hub.leatSt l.val = s.hub.leatSt l.val ∧
        OthersKept (A.leat_SEC l.val) s.hub t.hub) ∧
      (linkKeyOk s.hub slot.val = true → (s.hub.leatSt l.val).key ≠ some slot.val → Completes (.keySlotWrite req l slot next_) s fun t => ∃ u : Hub,
        u.fget (F.leat_SEC_KEY_SLOT l.val) = slot.val ∧ u.fget (F.leat_SEC_NEXT_SLOT l.val) = next_.val ∧
        (u.leatSt l.val).key = some slot.val ∧ (u.leatSt l.val).sent = 0 ∧ (u.leatSt l.val).received = 0 ∧ OthersKept (A.leat_SEC l.val) s.hub u ∧ t.hub = settleFabric u ∧
        (t.hub.is (F.leat_SEC_ROLL l.val) = false → Completes (.roll req l slot next_) s fun t' => t'.hub = rollKey t.hub l.val)) ∧
      (linkKeyOk s.hub slot.val = false →
        (Completes (.keySlotWrite req l slot next_) s fun t =>
          t.hub.Has (F.leat_SEC_KEY_SLOT l.val) (s.hub.fget (F.leat_SEC_KEY_SLOT l.val)) ∧
          t.hub.fget (F.leat_SEC_NEXT_SLOT l.val) = next_.val ∧ t.hub.is (F.leat_SEC_SEC_FAULT l.val) = true ∧
          t.hub.bit (F.hdr_INT_STAT_EVENT (Page.leat l.val)) 7 = true ∧ t.hub.fabric = s.hub.fabric ∧
          KeptBut [A.leat_SEC l.val, Page.leat l.val + 0x10] s.hub t.hub) ∧
        (linkKeyOk s.hub next_.val = true → s.hub.is (F.leat_SEC_ROLL l.val) = false → Completes (.roll req l slot next_) s fun t =>
          t.hub.is (F.leat_SEC_ROLL l.val) = true ∧ (t.hub.leatSt l.val).armed = some next_.val ∧
          (t.hub.leatSt l.val).key = (s.hub.leatSt l.val).key ∧ t.hub.fget (F.leat_SEC_NEXT_SLOT l.val) = next_.val ∧
          KeptBut [A.leat_SEC l.val, Page.leat l.val + 0x10] s.hub t.hub))) ∧
    (Completes (.frameCounterLimit l) s fun t => ∃ u : Hub, (u.leatSt l.val).key = none ∧ u.regs = s.hub.regs ∧ t.hub = settleFabric u) ∧
    (∀ (tag : Option Bytes) (pieces : List LeatPiece) (fits : Bool), (s.hub.leatSt l.val).trained = true → leatHold s.hub l.val = 0 →
      fits = leatTagOk s.hub l.val (pieces.flatMap fun p => p.packets.flatten) tag →
      (tagChecked s.hub l.val = true → fits = false → Completes (.leatFrameReceive l tag pieces) s fun t => ∃ u : Hub,
        Counted s.hub u (F.leat_ERR_AUTH_FAIL l.val) ∧ u.bit (F.hdr_INT_STAT_EVENT (Page.leat l.val)) 4 = true ∧
        (u.leatSt l.val).fails = (s.hub.leatSt l.val).fails + 1 ∧ (u.leatSt l.val).received = (s.hub.leatSt l.val).received + 1 ∧
        KeptBut [A.leat_ERR l.val, Page.leat l.val + 0x10] s.hub u ∧
        t.hub = if 16 ≤ (s.hub.leatSt l.val).fails + 1 then leatRetrain (endUnfinished u (18 + l.val)) l.val
          else endUnfinished u (18 + l.val)) ∧
      ((tagChecked s.hub l.val = false ∨ fits = true) →
        (s.hub.fget (F.leat_STATUS_LSTATE l.val) ≠ 3 → Completes (.leatFrameReceive l tag pieces) s fun t =>
          t.hub.fget (F.leat_ERR_RX_DISCARD l.val) =
            min (s.hub.fget (F.leat_ERR_RX_DISCARD l.val) + (pieces.map (·.packets.length)).sum) (2 ^ 16 - 1) ∧
          OthersKept (A.leat_ERR l.val) s.hub t.hub) ∧
        (s.hub.fget (F.leat_STATUS_LSTATE l.val) = 3 → ∀ p c, pieces = [p] → ingressOk s.hub (18 + l.val) = true → p.packets ≠ [] →
          (s.hub.forebay (18 + l.val)).chains.getLast? = some c → c.closed = false → c.fate ≠ .refused →
          c.taken + (c.packets.length + p.packets.length) ≤ 36 → Completes (.leatFrameReceive l tag pieces) s fun t => (t.hub.forebay (18 + l.val)).chains =
            (s.hub.forebay (18 + l.val)).chains.dropLast ++ [{ c with packets := c.packets ++ p.packets, closed := p.closed }] ∧
            t.hub.regs = s.hub.regs))) ∧
    (∀ (req : Req) (len : Nat), Writes s req (A.leat_MSG_CTL l.val) → s.hub.is (F.leat_MSG_CTL_TX_GO l.val) = false → 0 < len % 1024 →
      (leatTalks s.hub l.val = true → (s.hub.leatSt l.val).status.rxFull = false →
        (tagChecked s.hub l.val = true → (s.hub.leatSt l.val).sent + 1 ≠ 2 ^ 40) → Completes (.txGo req l len) s fun t =>
        t.hub.out = s.hub.out ++ [.leatMessage l.val (messageWire s.hub l.val
          ((wordBytes s.hub (F.leat_TX_MSG_BYTES l.val) 128).take (min 512 (len % 1024))))] ∧
        (t.hub.leatSt l.val).sent = (s.hub.leatSt l.val).sent + (if tagChecked s.hub l.val then 1 else 0) ∧
        (t.hub.leatSt l.val).status.rxFull = true ∧ t.hub.is (F.leat_MSG_CTL_TX_GO l.val) = false ∧
        t.hub.is (F.leat_MSG_CTL_TX_BUSY l.val) = false ∧ t.hub.bit (F.hdr_INT_STAT_EVENT (Page.leat l.val)) 3 = true ∧
        KeptBut [A.leat_MSG_CTL l.val, Page.leat l.val + 0x10] s.hub t.hub) ∧
      (leatTalks s.hub l.val = false ∨ (s.hub.leatSt l.val).status.rxFull = true → Completes (.txGo req l len) s fun t =>
        t.hub.out = s.hub.out ∧ t.hub.is (F.leat_MSG_CTL_TX_BUSY l.val) = true ∧ OthersKept (A.leat_MSG_CTL l.val) s.hub t.hub)) ∧
    (∀ m : Bytes, leatTalks s.hub l.val = true → m ≠ [] →
      (s.hub.is (F.leat_MSG_CTL_RX_FULL l.val) = false → ∀ wire : Bytes,
        wire = (if tagChecked s.hub l.val then (leatSeal s.hub l.val (peerNonce s.hub l.val) m).1 ++
          (leatSeal s.hub l.val (peerNonce s.hub l.val) m).2 else m) → Completes (.msgRx l wire) s fun t =>
        t.hub.is (F.leat_MSG_CTL_RX_FULL l.val) = true ∧ t.hub.fget (F.leat_MSG_CTL_RX_LEN l.val) = min 512 m.length ∧
        (wordBytes t.hub (F.leat_RX_MSG_BYTES l.val) 128).take (min 512 m.length) = m.take 512 ∧
        t.hub.bit (F.hdr_INT_STAT_EVENT (Page.leat l.val)) 2 = true ∧
        (t.hub.leatSt l.val).received = (s.hub.leatSt l.val).received + (if tagChecked s.hub l.val then 1 else 0)) ∧
      (tagChecked s.hub l.val = true → (s.hub.leatSt l.val).fails < 15 → m.length < 16 → Completes (.msgRx l m) s fun t =>
        Counted s.hub t.hub (F.leat_ERR_AUTH_FAIL l.val) ∧ t.hub.bit (F.hdr_INT_STAT_EVENT (Page.leat l.val)) 4 = true ∧
        KeptBut [A.leat_ERR l.val, Page.leat l.val + 0x10] s.hub t.hub) ∧
      (tagChecked s.hub l.val = false → s.hub.is (F.leat_MSG_CTL_RX_FULL l.val) = true → Completes (.msgRx l m) s fun t => t.hub = s.hub))

/-! ## Resets, boot and BIST (R643–R666) -/

/-- A power reset leaves the Vault's class V alone and sets its cause (R643, R645); RESET_N, the second expiry of the watchdog and a key
write perform a chip reset (R643, R644, R648, R649). The watchdog warns, is kicked, stops and restarts as R648 says. A core that is reset
loses its pairs and its Cue stack (R647, R688); RUN starts and stops it (R653). -/
def Obligations.ResetsAndWatchdog : Prop :=
  ∀ (s : State),
    (∀ lost, PowerResets (.por lost) s 0 lost ∧ PowerResets (.bor lost) s 1 lost) ∧
    (s.hub.power.shelf ≠ 2 → Completes .resetN s fun t => ChipResets s.hub t.hub 2) ∧
    (wdtRuns s.hub = true →
      (s.hub.is F.chip_WDT_LEFT_WARNED = false → Completes .wdtWarn s fun t => t.hub.is F.chip_WDT_LEFT_WARNED = true ∧
        t.hub.bit (F.hdr_INT_STAT_EVENT Page.chip) 0 = true ∧ t.hub.boot.wdtAt = s.hub.time ∧
        t.hub.boot.wdtMs = max 1 (s.hub.fget F.chip_WDT_CTL_TIMEOUT_MS) ∧ KeptBut [A.chip_WDT_LEFT, Page.chip + 0x10] s.hub t.hub) ∧
      (s.hub.is F.chip_WDT_LEFT_WARNED = true → Completes .wdt s fun t => ChipResets s.hub t.hub 3)) ∧
    (∀ (req : Req) (key : BitVec 16), Writes s req A.chip_WDT_KICK →
      (mayRwf req = true → key = 0x4B1C → Completes (.wdtKick req key) s fun t => t.hub.is F.chip_WDT_LEFT_WARNED = false ∧
        t.hub.boot.wdtAt = s.hub.time ∧ t.hub.boot.wdtMs = max 1 (s.hub.fget F.chip_WDT_CTL_TIMEOUT_MS) ∧
        OthersKept A.chip_WDT_LEFT s.hub t.hub) ∧
      (key ≠ 0x4B1C → Completes (.wdtKick req key) s fun t => (∀ f, t.hub.fget f = s.hub.fget f) ∧ t.hub.boot = s.hub.boot)) ∧
    (∀ (req : Req) (en : Bool) (ms : BitVec 16), Writes s req A.chip_WDT_CTL → Completes (.wdtCtlWrite req en ms) s fun t =>
      t.hub.is F.chip_WDT_CTL_EN = en ∧ t.hub.fget F.chip_WDT_CTL_TIMEOUT_MS = ms.toNat ∧
      (s.hub.is F.chip_WDT_CTL_EN = false → en = true → t.hub.is F.chip_WDT_LEFT_WARNED = false ∧ t.hub.boot.wdtAt = s.hub.time ∧
        t.hub.boot.wdtMs = max 1 ms.toNat) ∧
      (s.hub.is F.chip_WDT_CTL_EN = true → en = true → t.hub.boot = s.hub.boot ∧ OthersKept A.chip_WDT_CTL s.hub t.hub) ∧
      (s.hub.is F.chip_WDT_CTL_EN = true → en = false → t.hub.Has F.chip_WDT_LEFT_MS (wdtLeft s.hub) ∧ t.hub.boot = s.hub.boot)) ∧
    (∀ (req : Req) (key : BitVec 16), Writes s req A.chip_SOFT_RESET →
      (∀ core, req = .miller core → key = 0x50F7 → Completes (.soft req key) s fun t => ChipResets s.hub t.hub 4) ∧
      (key ≠ 0x50F7 → Completes (.soft req key) s fun t => ∀ f, t.hub.fget f = s.hub.fget f)) ∧
    (∀ (req : Req) (core : Fin 4) (on : Bool), Writes s req (A.miller_CTL core.val) →
      (Completes (.coreReset req core on) s fun t => t.hub.is (F.miller_CTL_RUN core.val) = on ∧
        t.hub.fget (F.miller_STATUS_STATE core.val) = (if on then 1 else 0) ∧
        t.hub.snaps = s.hub.snaps.filter (fun e => e.1 % 16 != 4 + core.val) ∧
        t.hub.staging = s.hub.staging.filter (fun e => e.1 % 16 != 4 + core.val) ∧
        (targetPresent s.hub core.val = true → cueDepth t.hub core.val = 0) ∧
        (core.val = 0 → 2 ≤ s.hub.boot.phase → s.hub.boot.phase ≤ 5 → t.hub.boot.phase = 1) ∧
        ∀ f : Fld, f.key / 32 < Page.cue0 ∨ Page.cue0 + 0x1000 ≤ f.key / 32 → f.key / 32 ∉ [A.miller_CTL core.val, A.miller_STATUS core.val] →
          t.hub.fget f = s.hub.fget f) ∧
      (Completes (.run req core on) s fun t => t.hub.is (F.miller_CTL_RUN core.val) = on ∧
        (s.hub.is (F.miller_CTL_RUN core.val) ≠ on → t.hub.fget (F.miller_STATUS_STATE core.val) = if on then 1 else 0) ∧
        KeptBut [A.miller_CTL core.val, A.miller_STATUS core.val] s.hub t.hub))

/-- The ROM checks copy A, then copy B, starts the first that R655 accepts, and otherwise goes into recovery or halts (R653–R657); the
modes wait for LOAD_DATA, for an image over USB, or hold the Weirs open (R657, R658). The load registers gather an image
and check it (R657, R665). BIST runs its domains or refuses the command (R660, R661), ends early on ABORT, and records the results
(R662). -/
def Obligations.BootAndBist : Prop :=
  ∀ (s : State),
    (∀ (a b : Bytes) (aOk bOk : Bool), s.hub.power.shelf = 0 →
      (s.hub.boot.phase = 0 → Completes (.boot a b aOk bOk) s fun t => ∃ u : Hub, u.bit F.vault_MEAS_LOCK_LOCK 0 = true ∧
        (u.otp.bootMode % 4 = 0 → imageCheck u.otp a aOk = 0 → Boots u t.hub a false) ∧
        (u.otp.bootMode % 4 = 1 → t.hub.boot.phase = 3) ∧ (u.otp.bootMode % 4 = 2 → t.hub.boot.phase = 2)) ∧
      (s.hub.boot.phase = 1 →
        (s.hub.otp.bootMode % 4 = 0 → imageCheck s.hub.otp a aOk = 0 → Completes (.boot a b aOk bOk) s fun t =>
          Boots s.hub t.hub a false ∧ t.hub.fget F.chip_BOOT_STAT_FAIL = 0 ∧ t.hub.fget (F.miller_STATUS_STATE 0) = 1) ∧
        (s.hub.otp.bootMode % 4 = 0 → imageCheck s.hub.otp a aOk ≠ 0 → imageCheck s.hub.otp b bOk = 0 →
          Completes (.boot a b aOk bOk) s fun t => Boots s.hub t.hub b true ∧ t.hub.fget F.chip_BOOT_STAT_FAIL = imageCheck s.hub.otp a aOk) ∧
        (s.hub.otp.bootMode % 4 = 0 → imageCheck s.hub.otp a aOk ≠ 0 → imageCheck s.hub.otp b bOk ≠ 0 →
          Completes (.boot a b aOk bOk) s fun t => t.hub.fget F.chip_BOOT_STAT_FAIL = imageCheck s.hub.otp b bOk ∧
            (s.hub.otp.recoveryEn = true → t.hub.boot.phase = 3 ∧ t.hub.fget F.chip_BOOT_STAT_MODE = 1) ∧
            (s.hub.otp.recoveryEn = false → t.hub.boot.phase = 4 ∧ t.hub.fget (F.miller_STATUS_STATE 0) = 3 ∧
              t.hub.is F.chip_WDT_CTL_EN = false)) ∧
        (s.hub.otp.bootMode % 4 = 1 ∨ s.hub.otp.bootMode % 4 = 2 → Completes (.boot a b aOk bOk) s fun t =>
          t.hub.boot.phase = (if s.hub.otp.bootMode % 4 = 1 then 3 else 2) ∧ t.hub.boot.stream = [] ∧
          t.hub.fget (F.miller_STATUS_STATE 0) = 1 ∧ t.hub.fget F.chip_BOOT_STAT_MODE = s.hub.otp.bootMode % 4 ∧
          KeptBut [A.miller_STATUS 0, A.chip_BOOT_STAT] s.hub t.hub) ∧
        (s.hub.otp.bootMode % 4 = 3 → Completes (.boot a b aOk bOk) s fun t => ∃ u : Hub, u.is F.chip_WDT_CTL_EN = false ∧
          (∀ c : Fin 14, c.val ≠ 12 → u.is (F.weir_CTL_CH_EN c.val) = false) ∧ u.bit F.vault_MEAS_LOCK_LOCK 1 = true ∧
          u.bit F.vault_MEAS_LOCK_LOCK 2 = true ∧
          t.hub = { settleWeirs u with boot := { (settleWeirs u).boot with phase := 5, stream := [] } }))) ∧
    (∀ req : Req, Writes s req A.miller_LOAD_CTL →
      (s.hub.boot.phase = 2 → Completes (.loadStart req) s fun t => t.hub.boot = { s.hub.boot with stream := [] } ∧
        t.hub.fget F.miller_LOAD_COUNT_BYTES = 0 ∧ OthersKept A.miller_LOAD_COUNT s.hub t.hub) ∧
      (s.hub.boot.phase = 2 → Completes (.loadDone req) s fun t =>
        t.hub.fget F.miller_LOAD_CTL_RESULT = imageCheck s.hub.otp s.hub.boot.stream true ∧
        t.hub.fget F.chip_BOOT_STAT_FAIL = imageCheck s.hub.otp s.hub.boot.stream true ∧
        t.hub.bit (F.hdr_INT_STAT_EVENT Page.miller) 0 = true ∧
        (imageCheck s.hub.otp s.hub.boot.stream true = 0 → Boots s.hub t.hub s.hub.boot.stream false) ∧
        (imageCheck s.hub.otp s.hub.boot.stream true ≠ 0 → t.hub.boot.phase = 2 ∧ t.hub.boot.stream = s.hub.boot.stream)) ∧
      (s.hub.boot.phase ≠ 2 →
        (Completes (.loadStart req) s fun t => t.hub.boot = s.hub.boot ∧ ∀ f, t.hub.fget f = s.hub.fget f) ∧
        Completes (.loadDone req) s fun t => t.hub.boot = s.hub.boot ∧ ∀ f, t.hub.fget f = s.hub.fget f)) ∧
    (∀ (req : Req) (v : Word), Writes s req A.miller_LOAD_DATA →
      (s.hub.boot.phase = 2 → Completes (.loadData req v) s fun t => t.hub.boot.stream = s.hub.boot.stream ++ leBytes 4 v.toNat ∧
        t.hub.Has F.miller_LOAD_COUNT_BYTES (s.hub.boot.stream.length + 4) ∧ OthersKept A.miller_LOAD_COUNT s.hub t.hub) ∧
      (s.hub.boot.phase ≠ 2 → Completes (.loadData req v) s fun t => t.hub.boot = s.hub.boot ∧ ∀ f, t.hub.fget f = s.hub.fget f)) ∧
    (∀ image : Bytes, s.hub.boot.phase = 3 → Completes (.recoveryImage image) s fun t =>
      t.hub.fget F.chip_BOOT_STAT_FAIL = imageCheck s.hub.otp image true ∧ t.hub.is F.chip_WDT_LEFT_WARNED = false ∧
      (imageCheck s.hub.otp image true = 0 → Boots s.hub t.hub image false) ∧
      (imageCheck s.hub.otp image true ≠ 0 → t.hub.boot.phase = 3)) ∧
    (∀ (req : Req) (kind : Fin 4), Writes s req A.bist_CMD →
      (s.hub.is F.bist_CMD_BUSY = true ∨ kind.val = 0 ∨ bistSelected s.hub = [] → Completes (.bistGo req kind) s fun t => ∃ u : Hub,
        u.boot = s.hub.boot ∧ OthersKept A.bist_CMD s.hub u ∧ (t.hub, t.reel) = goOn u s.reel) ∧
      (s.hub.is F.bist_CMD_BUSY = false → kind.val ≠ 0 →
        (∀ d, (bistSelected s.hub).find? (fun d => bistRefusal s.hub req kind.val d != 0) = some d → Completes (.bistGo req kind) s fun t =>
          ∃ u : Hub, u.fget F.bist_REFUSE_DOMAIN = d ∧ u.fget F.bist_REFUSE_CAUSE = bistRefusal s.hub req kind.val d ∧
            u.bit (F.hdr_INT_STAT_EVENT Page.bist) 2 = true ∧ u.boot = s.hub.boot ∧
            KeptBut [A.bist_CMD, A.bist_REFUSE, Page.bist + 0x10] s.hub u ∧ (t.hub, t.reel) = goOn u s.reel) ∧
        (bistSelected s.hub ≠ [] → (∀ d ∈ bistSelected s.hub, bistRefusal s.hub req kind.val d = 0) →
          Completes (.bistGo req kind) s fun t => ∃ u : Hub, u.is F.bist_CMD_BUSY = true ∧ u.is F.bist_CMD_GO = true ∧
            u.boot.bist = some (bistSelected s.hub, kind.val) ∧ (∀ d ∈ bistSelected s.hub, (u.dom d).resetting = true) ∧
            (t.hub, t.reel) = goOn u s.reel)) ∧
      (∀ ds ty, s.hub.boot.bist = some (ds, ty) → Completes (.abort req kind) s fun t => ∃ u w : Hub,
        (∀ d ∈ ds, Tbl.get (fun _ => none) u.boot.results d = some { passed := false, aborted := true, kind := ty, timeMs := 0, misr := 0 }) ∧
        u.boot.bist = some (ds, ty) ∧ OthersKept A.bist_CMD s.hub u ∧ w = bistRelease (if ty = 3 then settleGates (contentLost u) else u) ∧
        w.is F.bist_CMD_BUSY = false ∧ w.is F.bist_CMD_GO = false ∧ (t.hub, t.reel) = goOn w s.reel)) ∧
    (∀ (ms : Nat) (misrs : List (Nat × Nat)) ds ty, s.hub.boot.bist = some (ds, ty) → Completes (.bistDone ms misrs) s fun t => ∃ u : Hub,
      (∀ d ∈ ds, Tbl.get (fun _ => none) u.boot.results d = some
        { passed := tableAt misrs d % 2 ^ 64 == tableAt s.hub.otp.golden (4 * d + ty), aborted := false, kind := ty, timeMs := min ms 0xFFFF
          misr := tableAt misrs d % 2 ^ 64 }) ∧
      u.bit (F.hdr_INT_STAT_EVENT Page.bist) 0 = true ∧
      (∀ d ∈ ds, tableAt misrs d % 2 ^ 64 ≠ tableAt s.hub.otp.golden (4 * d + ty) → u.bit (F.hdr_INT_STAT_EVENT Page.bist) 1 = true) ∧
      OthersKept (Page.bist + 0x10) s.hub u ∧
      (ty ≠ 3 → (t.hub, t.reel) = goOn (bistRelease u) s.reel) ∧ (ty = 3 → (t.hub, t.reel) = goOn (bistRelease (settleGates (contentLost u))) []))

/-! ## GPIO, buses, flash, UART and the BMC target (R682–R685) -/

/-- GPIO_IN shows what the hub and the board drive, and a rising level latches where EDGE_EN says so (R683). A bus, the flash
controller and the UART start, send, receive and end as R682 says, each with the fields that GO found (R686), a CONV_SAFE write first (R684). A BMC transfer of the right length is
one register access, and another is ignored (R685). -/
def Obligations.BoardInterfaces : Prop :=
  ∀ (s : State),
    (∀ (g : Fin 32) (high : Bool), Completes (.gpioEdge g high) s fun t => KeptBut [A.misc_GPIO_IN, A.misc_GPIO_EDGE] s.hub t.hub ∧
      ∀ i : Fin 32, t.hub.bit F.misc_GPIO_IN_IN i.val = (if s.hub.bit F.misc_GPIO_OE_OE i.val then s.hub.bit F.misc_GPIO_OUT_OUT i.val
        else if i.val = g.val then high else s.hub.misc.pins.testBit i.val) ∧
      t.hub.bit F.misc_GPIO_EDGE_SEEN i.val = (s.hub.bit F.misc_GPIO_EDGE_SEEN i.val ||
        (gpioLevel t.hub i.val && !gpioLevel s.hub i.val && s.hub.bit F.misc_GPIO_EDGE_EN_EN i.val))) ∧
    (∀ (req : Req) (n : Fin 2) (cmd : Word), Writes s req (A.misc_BUS_CMD n.val) →
      (s.hub.is (F.misc_BUS_CTL_EN n.val) = false → Completes (.busGo req n cmd) s fun t =>
        t.hub.out = s.hub.out ∧ t.hub.misc = s.hub.misc ∧ OthersKept (A.misc_BUS_CMD n.val) s.hub t.hub) ∧
      (s.hub.is (F.misc_BUS_CTL_EN n.val) = true → s.hub.is (F.misc_BUS_CMD_GO n.val) = false →
        (busRunning s.hub n.val = 0 → Completes (.busGo req n cmd) s fun t => t.hub.is (F.misc_BUS_CMD_GO n.val) = true ∧
          busRunning t.hub n.val = 1 ∧ OthersKept (A.misc_BUS_CMD n.val) s.hub t.hub ∧
          (cmd.getLsbD 7 = true → t.hub.out = s.hub.out ++
            [.busTransfer n.val (s.hub.is (F.misc_BUS_CTL_I3C n.val)) (busKhz s.hub n.val) (cmd.toNat % 128) true (min 16 (cmd.toNat / 256 % 32)) []] ∧ t.hub.misc.busTx = s.hub.misc.busTx) ∧
          (cmd.getLsbD 7 = false → t.hub.out = s.hub.out ++
              [.busTransfer n.val (s.hub.is (F.misc_BUS_CTL_I3C n.val)) (busKhz s.hub n.val) (cmd.toNat % 128) false (min 16 (cmd.toNat / 256 % 32))
                ((Tbl.get (fun _ => []) s.hub.misc.busTx n.val).take (min 16 (cmd.toNat / 256 % 32)))] ∧
            Tbl.get (fun _ => []) t.hub.misc.busTx n.val =
              (Tbl.get (fun _ => []) s.hub.misc.busTx n.val).drop (min 16 (cmd.toNat / 256 % 32)))) ∧
        (busRunning s.hub n.val ≠ 0 → Completes (.busGo req n cmd) s fun t => t.hub.is (F.misc_BUS_CMD_GO n.val) = true ∧
          t.hub.is (F.misc_BUS_STAT_PREEMPTED n.val) = true ∧ t.hub.out = s.hub.out ∧ t.hub.misc.busRun = s.hub.misc.busRun ∧
          t.hub.misc.busTx = s.hub.misc.busTx ∧ Tbl.get (fun _ => 0) t.hub.misc.busCmd n.val = cmd.toNat % 2 ^ 13))) ∧
    (∀ (n : Fin 2) (nack : Bool) (data : Bytes),
      (busRunning s.hub n.val = 1 → n.val = 0 ∨ s.hub.misc.conv = [] → Completes (.busDone n nack data) s fun t =>
        busRunning t.hub n.val = 0 ∧ t.hub.is (F.misc_BUS_CMD_GO n.val) = false ∧ t.hub.is (F.misc_BUS_STAT_DONE n.val) = true ∧
        t.hub.out = s.hub.out ∧ KeptBut [A.misc_BUS_CMD n.val, A.misc_BUS_STAT n.val] s.hub t.hub ∧
        (nack = true → t.hub.is (F.misc_BUS_STAT_NACK n.val) = true ∧ busRx t.hub n.val = busRx s.hub n.val) ∧
        (nack = false → busReads s.hub n.val = true →
          busRx t.hub n.val = (busRx s.hub n.val ++ data.take (busLen s.hub n.val)).take 16 ∧
          t.hub.fget (F.misc_BUS_STAT_LEVEL n.val) = (busRx t.hub n.val).length)) ∧
      (busRunning s.hub n.val ≠ 0 → n.val = 1 → ∀ p rest, p < 12 → s.hub.misc.conv = p :: rest → Completes (.busDone n nack data) s fun t =>
        busRunning t.hub n.val = 2 ∧ t.hub.misc.conv = rest ∧ t.hub.out = s.hub.out ++ [.convSafe p
          (s.hub.fget (F.typec_CONV_SAFE_ADDR p)) (s.hub.fget (F.typec_CONV_SAFE_REG p)) (s.hub.fget (F.typec_CONV_SAFE_VALUE p))]) ∧
      (busRunning s.hub n.val = 2 → n.val = 0 ∨ s.hub.misc.conv = [] → s.hub.is (F.misc_BUS_CMD_GO n.val) = true →
        Completes (.busDone n nack data) s fun t => busRunning t.hub n.val = 1 ∧ t.hub.regs = s.hub.regs ∧ t.hub.out = s.hub.out ++
          [.busTransfer n.val (s.hub.is (F.misc_BUS_CTL_I3C n.val)) (busKhz s.hub n.val) (busAddr s.hub n.val) (busReads s.hub n.val)
            (busLen s.hub n.val) (if busReads s.hub n.val then []
              else (Tbl.get (fun _ => []) s.hub.misc.busTx n.val).take (busLen s.hub n.val))])) ∧
    (∀ (req : Req) (cmd : Word), Writes s req A.misc_SPI_CMD →
      (s.hub.is F.misc_SPI_CTL_EN = true → s.hub.is F.misc_SPI_CMD_GO = false → Completes (.spiGo req cmd) s fun t =>
        t.hub.is F.misc_SPI_CMD_GO = true ∧ OthersKept A.misc_SPI_CMD s.hub t.hub ∧
        t.hub.misc.spiCmd = cmd.toNat % 2 ^ 19 ∧
        t.hub.out = s.hub.out ++ [.spiCommand (s.hub.fget F.misc_SPI_CTL_WIDTH % 3) (max 1 (s.hub.fget F.misc_SPI_CTL_DIV)) (cmd.toNat % 256) (if cmd.getLsbD 8 then some (s.hub.fget F.misc_SPI_ADDR_ADDR) else none)
          (cmd.getLsbD 9) (min 256 (cmd.toNat / 1024 % 512))
          (if cmd.getLsbD 9 then [] else s.hub.misc.spiTx.take (min 256 (cmd.toNat / 1024 % 512)))]) ∧
      (s.hub.is F.misc_SPI_CTL_EN = false → Completes (.spiGo req cmd) s fun t => t.hub.out = s.hub.out ∧ t.hub.misc = s.hub.misc)) ∧
    (∀ data : Bytes, s.hub.is F.misc_SPI_CMD_GO = true → Completes (.spiDone data) s fun t => t.hub.is F.misc_SPI_CMD_GO = false ∧
      t.hub.misc.spiRx = (if spiReads s.hub then s.hub.misc.spiRx ++ data.take (spiLen s.hub) else s.hub.misc.spiRx) ∧
      OthersKept A.misc_SPI_CMD s.hub t.hub) ∧
    (∀ (req : Req) (byte : Byte) (sent : Nat), Writes { s with hub := uartSent s.hub sent } req A.misc_UART_TX →
      (s.hub.is F.misc_UART_CTL_EN = true → Completes (.uartTx req byte sent) s fun t =>
        t.hub.out = s.hub.out ++ (s.hub.misc.uartTx.take sent).map (.uartByte (16 * max 1 (s.hub.fget F.misc_UART_CTL_DIV))) ∧
        t.hub.misc.uartTx = s.hub.misc.uartTx.drop sent ++ (if 16 ≤ (s.hub.misc.uartTx.drop sent).length then [] else [byte]) ∧
        t.hub.is F.misc_UART_STAT_TX_FULL = decide (16 ≤ t.hub.misc.uartTx.length)) ∧
      (s.hub.is F.misc_UART_CTL_EN = false → Completes (.uartTx req byte sent) s fun t => t.hub.out = s.hub.out ∧
        t.hub.misc.uartTx = s.hub.misc.uartTx ++ (if 16 ≤ s.hub.misc.uartTx.length then [] else [byte]))) ∧
    (∀ byte : Byte, s.hub.is F.misc_UART_CTL_EN = true →
      (s.hub.misc.uartRx.length < 16 → Completes (.uartReceive byte) s fun t => t.hub.misc.uartRx = s.hub.misc.uartRx ++ [byte] ∧
        t.hub.is F.misc_UART_STAT_RX_EMPTY = false ∧ OthersKept A.misc_UART_STAT s.hub t.hub) ∧
      (16 ≤ s.hub.misc.uartRx.length → Completes (.uartReceive byte) s fun t => t.hub.misc = s.hub.misc ∧
        t.hub.is F.misc_UART_STAT_OVERRUN = true ∧ OthersKept A.misc_UART_STAT s.hub t.hub)) ∧
    (∀ (req : Req) (n : Fin 2), Reads s req (A.misc_BUS_RX n.val) → Completes (.busRx req n) s fun t =>
      t.hub.out = s.hub.out ++ [.readDone req (A.misc_BUS_RX n.val) (BitVec.ofNat 64 (ofBytes ((busRx s.hub n.val).take 1)))] ∧
      busRx t.hub n.val = (busRx s.hub n.val).drop 1 ∧ OthersKept (A.misc_BUS_STAT n.val) s.hub t.hub) ∧
    (∀ req : Req, Reads s req A.misc_SPI_RX → Completes (.spiRx req) s fun t =>
      t.hub.out = s.hub.out ++ [.readDone req A.misc_SPI_RX (BitVec.ofNat 64 (ofBytes (s.hub.misc.spiRx.take 4)))] ∧
      t.hub.misc.spiRx = s.hub.misc.spiRx.drop 4 ∧ t.hub.regs = s.hub.regs) ∧
    (∀ req : Req, Reads s req A.misc_UART_RX → Completes (.uartRx req) s fun t =>
      t.hub.out = s.hub.out ++ [.readDone req A.misc_UART_RX (BitVec.ofNat 64 (ofBytes (s.hub.misc.uartRx.take 1)))] ∧
      t.hub.misc.uartRx = s.hub.misc.uartRx.drop 1 ∧ OthersKept A.misc_UART_STAT s.hub t.hub) ∧
    (∀ (bytes : Bytes) (n : Nat),
      (bytes.length = 8 → n = 0 → Completes (.bmcAccess bytes n) s fun t => exec (.registerWrite .bmc
        (BitVec.ofNat 32 (ofBytes (bytes.take 4))) 4 (BitVec.ofNat 64 (ofBytes (bytes.drop 4)))) s = .next t) ∧
      (bytes.length = 4 → n = 4 → Completes (.bmcAccess bytes n) s fun t =>
        exec (.pairLoRead .bmc ⟨BitVec.ofNat 32 (ofBytes bytes), 4⟩) s = .next t) ∧
      (¬(bytes.length = 8 ∧ n = 0) → ¬(bytes.length = 4 ∧ n = 4) → Completes (.bmcAccess bytes n) s fun t => t = s))

/-! ## Reset (R643, and the reset columns of the register tables) -/

/-- The machine right after a POR: the POR cause is set and the boot sequence is due; no command, access, chain or stored byte waits; every
domain of the chip is in RUN; and fields of the register tables read their reset values. -/
def Obligations.ResetValues : Prop :=
  State.reset.pending = [] ∧ State.reset.reel = [] ∧ State.reset.hub.stalled = [] ∧ State.reset.hub.chains = [] ∧
  State.reset.hub.out = [] ∧ State.reset.hub.ftime = 0 ∧ State.reset.hub.epoch = 0 ∧ State.reset.hub.boot.phase = 0 ∧
  State.reset.hub.vault.masked = none ∧ (∀ d : Fin 43, domainPresent State.reset.hub.otp.variant d.val = true → (State.reset.hub.dom d.val).state = 0) ∧
  ∀ e ∈ [(F.chip_RESET_CAUSE_CAUSE, 1), (F.chip_WDT_CTL_EN, 1), (F.chip_WDT_CTL_TIMEOUT_MS, 2000), (F.chip_WDT_LEFT_MS, 2000),
      (F.miller_CTL_RUN 0, 1), (F.miller_CTL_RUN 1, 0), (F.miller_STATUS_STATE 0, 0), (F.slice_PATH_QUOTA_QUOTA 0, 256),
      (F.slice_PRIO_MAP_CLASS 2 5, 5), (F.link_LINK_CTL_MAX_GEN 7, 2), (F.mill_CTL_CUT_EN, 1), (F.mill_CRED_DEFAULT_CELLS, 64),
      (F.hopper_GROUPS_ACTIVE, 0xFF), (F.hopper_LOSSY_LIMIT_CELLS, 65536), (F.hopper_CRED_FLOOR_CELLS, 8192), (F.sluice_CTL_RUN, 1),
      (F.sluice_IDLE_FLOOR_RATE, 0x400), (F.sluice_CORE_BUDGET_CELLS, 73242), (F.sluiceOut_CW67_W7 3, 16), (F.wred_MIN_CELLS 0 0, 4096),
      (F.gate_CTL_TAKES 1, 3), (F.gate_BW_FLOOR 2, 2000), (F.reel_SCRUB_PERIOD_S, 600), (F.proj_GALPHA_ALPHA 0 1, 1023), (F.dpo_CTL_MAX_LANES 1, 4),
      (F.tailrace_AGE_SECONDS, 300), (F.ethmac_MAX_FRAME_BYTES 0, 9216), (F.nic_RING_CTL_BUF 3 2, 8), (F.pciedn_CTL_MAX_GEN 1, 5),
      (F.pstk_CALM_LIMIT_LIMIT 0, 0x3FFFFFF), (F.pstk_CALM_LIMIT_LIMIT 1, 0), (F.tally_DEST_IVL_US 5, 1000), (F.tally_DEST_IVL_US 4, 10),
      (F.usbhub_CTL_EN3 3, 1), (F.dockfn_VREQ_TIMEOUT_MS 2, 50), (F.aud_GAIN_GAIN 0, 0x4000), (F.typec_CFG_ROLE 3, 0), (F.typec_CFG_ROLE 4, 2),
      (F.weir_CTL_CH_EN 12, 1), (F.weir_CTL_CH_EN 11, 0), (F.weir_CTL_PG_AUTO 11, 1), (F.weir_CTL_PG_AUTO 13, 0), (F.pwr_THERM_HOT_C, 85),
      (F.pwr_THERM_COOL_C, 80), (F.pwr_THERM_CRIT_C, 110), (F.clk_DIST_RATIO_RATIO, 0x1000000), (F.clk_DOMSRC_SHAFT, 0),
      (F.cue0_TCTL_THRESHOLD 7, 64), (F.cue1_SRC_PRIO 9, 63), (F.vault_USE_NEXT_USE, 0x10), (F.vault_STATUS_RETAIN_LOST, 1), (F.leat_CTL_EN 1, 1),
      (F.fabric_HASH_GRACE_MS, 100), (F.misc_SPI_CTL_DIV, 8), (F.misc_UART_CTL_DIV, 21), (F.misc_UART_STAT_RX_EMPTY, 1),
      (F.hdr_OWNER_FW Page.sluice, 1), (F.hdr_PWR_POLICY_IDLE Page.sluice, 0x40)],
    State.reset.hub.fget e.1 = e.2
end

