-- ==== Sys2Proof/Laws/State.lean ====
section
/-! SUPPORT. One lemma per field of the hub and per update: what an update leaves as it was. -/

namespace Sys2Proof.Machine

variable (h : Hub)

@[simp] theorem Hub.fset_otp : ∀ (f : Fld) (v : Nat), (h.fset f v).otp = h.otp := fun _ _ => rfl
@[simp] theorem Hub.fset_active : ∀ (f : Fld) (v : Nat), (h.fset f v).active = h.active := fun _ _ => rfl
@[simp] theorem Hub.fset_snaps : ∀ (f : Fld) (v : Nat), (h.fset f v).snaps = h.snaps := fun _ _ => rfl
@[simp] theorem Hub.fset_staging : ∀ (f : Fld) (v : Nat), (h.fset f v).staging = h.staging := fun _ _ => rfl
@[simp] theorem Hub.fset_ownerApplied : ∀ (f : Fld) (v : Nat), (h.fset f v).ownerApplied = h.ownerApplied := fun _ _ => rfl
@[simp] theorem Hub.fset_domains : ∀ (f : Fld) (v : Nat), (h.fset f v).domains = h.domains := fun _ _ => rfl
@[simp] theorem Hub.fset_stalled : ∀ (f : Fld) (v : Nat), (h.fset f v).stalled = h.stalled := fun _ _ => rfl
@[simp] theorem Hub.fset_ftime : ∀ (f : Fld) (v : Nat), (h.fset f v).ftime = h.ftime := fun _ _ => rfl
@[simp] theorem Hub.fset_epoch : ∀ (f : Fld) (v : Nat), (h.fset f v).epoch = h.epoch := fun _ _ => rfl
@[simp] theorem Hub.fset_fresh : ∀ (f : Fld) (v : Nat), (h.fset f v).fresh = h.fresh := fun _ _ => rfl
@[simp] theorem Hub.fset_out : ∀ (f : Fld) (v : Nat), (h.fset f v).out = h.out := fun _ _ => rfl
@[simp] theorem Hub.fset_turn : ∀ (f : Fld) (v : Nat), (h.fset f v).turn = h.turn := fun _ _ => rfl
@[simp] theorem Hub.fset_forebays : ∀ (f : Fld) (v : Nat), (h.fset f v).forebays = h.forebays := fun _ _ => rfl
@[simp] theorem Hub.fset_chains : ∀ (f : Fld) (v : Nat), (h.fset f v).chains = h.chains := fun _ _ => rfl
@[simp] theorem Hub.fset_nextChain : ∀ (f : Fld) (v : Nat), (h.fset f v).nextChain = h.nextChain := fun _ _ => rfl
@[simp] theorem Hub.fset_leaked : ∀ (f : Fld) (v : Nat), (h.fset f v).leaked = h.leaked := fun _ _ => rfl
@[simp] theorem Hub.fset_marked : ∀ (f : Fld) (v : Nat), (h.fset f v).marked = h.marked := fun _ _ => rfl
@[simp] theorem Hub.fset_cellErr : ∀ (f : Fld) (v : Nat), (h.fset f v).cellErr = h.cellErr := fun _ _ => rfl
@[simp] theorem Hub.fset_credits : ∀ (f : Fld) (v : Nat), (h.fset f v).credits = h.credits := fun _ _ => rfl
@[simp] theorem Hub.fset_txq : ∀ (f : Fld) (v : Nat), (h.fset f v).txq = h.txq := fun _ _ => rfl
@[simp] theorem Hub.fset_halves : ∀ (f : Fld) (v : Nat), (h.fset f v).halves = h.halves := fun _ _ => rfl
@[simp] theorem Hub.fset_pathSt : ∀ (f : Fld) (v : Nat), (h.fset f v).pathSt = h.pathSt := fun _ _ => rfl
@[simp] theorem Hub.fset_factors : ∀ (f : Fld) (v : Nat), (h.fset f v).factors = h.factors := fun _ _ => rfl
@[simp] theorem Hub.fset_flows : ∀ (f : Fld) (v : Nat), (h.fset f v).flows = h.flows := fun _ _ => rfl
@[simp] theorem Hub.fset_classes : ∀ (f : Fld) (v : Nat), (h.fset f v).classes = h.classes := fun _ _ => rfl
@[simp] theorem Hub.fset_outlets : ∀ (f : Fld) (v : Nat), (h.fset f v).outlets = h.outlets := fun _ _ => rfl
@[simp] theorem Hub.fset_lossyFullSeen : ∀ (f : Fld) (v : Nat), (h.fset f v).lossyFullSeen = h.lossyFullSeen := fun _ _ => rfl
@[simp] theorem Hub.fset_cellsWritten : ∀ (f : Fld) (v : Nat), (h.fset f v).cellsWritten = h.cellsWritten := fun _ _ => rfl
@[simp] theorem Hub.fset_cellsRead : ∀ (f : Fld) (v : Nat), (h.fset f v).cellsRead = h.cellsRead := fun _ _ => rfl
@[simp] theorem Hub.fset_power : ∀ (f : Fld) (v : Nat), (h.fset f v).power = h.power := fun _ _ => rfl
@[simp] theorem Hub.fset_clock : ∀ (f : Fld) (v : Nat), (h.fset f v).clock = h.clock := fun _ _ => rfl
@[simp] theorem Hub.fset_bindSince : ∀ (f : Fld) (v : Nat), (h.fset f v).bindSince = h.bindSince := fun _ _ => rfl
@[simp] theorem Hub.fset_bindNext : ∀ (f : Fld) (v : Nat), (h.fset f v).bindNext = h.bindNext := fun _ _ => rfl
@[simp] theorem Hub.fset_sinks : ∀ (f : Fld) (v : Nat), (h.fset f v).sinks = h.sinks := fun _ _ => rfl
@[simp] theorem Hub.fset_reports : ∀ (f : Fld) (v : Nat), (h.fset f v).reports = h.reports := fun _ _ => rfl
@[simp] theorem Hub.fset_linkAllow : ∀ (f : Fld) (v : Nat), (h.fset f v).linkAllow = h.linkAllow := fun _ _ => rfl
@[simp] theorem Hub.fset_units : ∀ (f : Fld) (v : Nat), (h.fset f v).units = h.units := fun _ _ => rfl
@[simp] theorem Hub.fset_cmPaths : ∀ (f : Fld) (v : Nat), (h.fset f v).cmPaths = h.cmPaths := fun _ _ => rfl
@[simp] theorem Hub.fset_auxGate : ∀ (f : Fld) (v : Nat), (h.fset f v).auxGate = h.auxGate := fun _ _ => rfl
@[simp] theorem Hub.fset_gates : ∀ (f : Fld) (v : Nat), (h.fset f v).gates = h.gates := fun _ _ => rfl
@[simp] theorem Hub.fset_reelBad : ∀ (f : Fld) (v : Nat), (h.fset f v).reelBad = h.reelBad := fun _ _ => rfl
@[simp] theorem Hub.fset_reelBlocks : ∀ (f : Fld) (v : Nat), (h.fset f v).reelBlocks = h.reelBlocks := fun _ _ => rfl
@[simp] theorem Hub.fset_heads : ∀ (f : Fld) (v : Nat), (h.fset f v).heads = h.heads := fun _ _ => rfl
@[simp] theorem Hub.fset_dpPorts : ∀ (f : Fld) (v : Nat), (h.fset f v).dpPorts = h.dpPorts := fun _ _ => rfl
@[simp] theorem Hub.fset_headRank : ∀ (f : Fld) (v : Nat), (h.fset f v).headRank = h.headRank := fun _ _ => rfl
@[simp] theorem Hub.fset_net : ∀ (f : Fld) (v : Nat), (h.fset f v).net = h.net := fun _ _ => rfl
@[simp] theorem Hub.fset_pen : ∀ (f : Fld) (v : Nat), (h.fset f v).pen = h.pen := fun _ _ => rfl
@[simp] theorem Hub.fset_vault : ∀ (f : Fld) (v : Nat), (h.fset f v).vault = h.vault := fun _ _ => rfl
@[simp] theorem Hub.fset_fabric : ∀ (f : Fld) (v : Nat), (h.fset f v).fabric = h.fabric := fun _ _ => rfl
@[simp] theorem Hub.fset_cue : ∀ (f : Fld) (v : Nat), (h.fset f v).cue = h.cue := fun _ _ => rfl
@[simp] theorem Hub.fset_tally : ∀ (f : Fld) (v : Nat), (h.fset f v).tally = h.tally := fun _ _ => rfl
@[simp] theorem Hub.fset_tunnels : ∀ (f : Fld) (v : Nat), (h.fset f v).tunnels = h.tunnels := fun _ _ => rfl
@[simp] theorem Hub.fset_usb : ∀ (f : Fld) (v : Nat), (h.fset f v).usb = h.usb := fun _ _ => rfl
@[simp] theorem Hub.fset_ports : ∀ (f : Fld) (v : Nat), (h.fset f v).ports = h.ports := fun _ _ => rfl
@[simp] theorem Hub.fset_weirs : ∀ (f : Fld) (v : Nat), (h.fset f v).weirs = h.weirs := fun _ _ => rfl
@[simp] theorem Hub.fset_input : ∀ (f : Fld) (v : Nat), (h.fset f v).input = h.input := fun _ _ => rfl
@[simp] theorem Hub.fset_misc : ∀ (f : Fld) (v : Nat), (h.fset f v).misc = h.misc := fun _ _ => rfl
@[simp] theorem Hub.fset_boot : ∀ (f : Fld) (v : Nat), (h.fset f v).boot = h.boot := fun _ _ => rfl

@[simp] theorem Hub.flag_otp : ∀ (f : Fld) (b : Bool), (h.flag f b).otp = h.otp := fun _ _ => rfl
@[simp] theorem Hub.flag_active : ∀ (f : Fld) (b : Bool), (h.flag f b).active = h.active := fun _ _ => rfl
@[simp] theorem Hub.flag_snaps : ∀ (f : Fld) (b : Bool), (h.flag f b).snaps = h.snaps := fun _ _ => rfl
@[simp] theorem Hub.flag_staging : ∀ (f : Fld) (b : Bool), (h.flag f b).staging = h.staging := fun _ _ => rfl
@[simp] theorem Hub.flag_ownerApplied : ∀ (f : Fld) (b : Bool), (h.flag f b).ownerApplied = h.ownerApplied := fun _ _ => rfl
@[simp] theorem Hub.flag_domains : ∀ (f : Fld) (b : Bool), (h.flag f b).domains = h.domains := fun _ _ => rfl
@[simp] theorem Hub.flag_stalled : ∀ (f : Fld) (b : Bool), (h.flag f b).stalled = h.stalled := fun _ _ => rfl
@[simp] theorem Hub.flag_ftime : ∀ (f : Fld) (b : Bool), (h.flag f b).ftime = h.ftime := fun _ _ => rfl
@[simp] theorem Hub.flag_epoch : ∀ (f : Fld) (b : Bool), (h.flag f b).epoch = h.epoch := fun _ _ => rfl
@[simp] theorem Hub.flag_fresh : ∀ (f : Fld) (b : Bool), (h.flag f b).fresh = h.fresh := fun _ _ => rfl
@[simp] theorem Hub.flag_out : ∀ (f : Fld) (b : Bool), (h.flag f b).out = h.out := fun _ _ => rfl
@[simp] theorem Hub.flag_turn : ∀ (f : Fld) (b : Bool), (h.flag f b).turn = h.turn := fun _ _ => rfl
@[simp] theorem Hub.flag_forebays : ∀ (f : Fld) (b : Bool), (h.flag f b).forebays = h.forebays := fun _ _ => rfl
@[simp] theorem Hub.flag_chains : ∀ (f : Fld) (b : Bool), (h.flag f b).chains = h.chains := fun _ _ => rfl
@[simp] theorem Hub.flag_nextChain : ∀ (f : Fld) (b : Bool), (h.flag f b).nextChain = h.nextChain := fun _ _ => rfl
@[simp] theorem Hub.flag_leaked : ∀ (f : Fld) (b : Bool), (h.flag f b).leaked = h.leaked := fun _ _ => rfl
@[simp] theorem Hub.flag_marked : ∀ (f : Fld) (b : Bool), (h.flag f b).marked = h.marked := fun _ _ => rfl
@[simp] theorem Hub.flag_cellErr : ∀ (f : Fld) (b : Bool), (h.flag f b).cellErr = h.cellErr := fun _ _ => rfl
@[simp] theorem Hub.flag_credits : ∀ (f : Fld) (b : Bool), (h.flag f b).credits = h.credits := fun _ _ => rfl
@[simp] theorem Hub.flag_txq : ∀ (f : Fld) (b : Bool), (h.flag f b).txq = h.txq := fun _ _ => rfl
@[simp] theorem Hub.flag_halves : ∀ (f : Fld) (b : Bool), (h.flag f b).halves = h.halves := fun _ _ => rfl
@[simp] theorem Hub.flag_pathSt : ∀ (f : Fld) (b : Bool), (h.flag f b).pathSt = h.pathSt := fun _ _ => rfl
@[simp] theorem Hub.flag_factors : ∀ (f : Fld) (b : Bool), (h.flag f b).factors = h.factors := fun _ _ => rfl
@[simp] theorem Hub.flag_flows : ∀ (f : Fld) (b : Bool), (h.flag f b).flows = h.flows := fun _ _ => rfl
@[simp] theorem Hub.flag_classes : ∀ (f : Fld) (b : Bool), (h.flag f b).classes = h.classes := fun _ _ => rfl
@[simp] theorem Hub.flag_outlets : ∀ (f : Fld) (b : Bool), (h.flag f b).outlets = h.outlets := fun _ _ => rfl
@[simp] theorem Hub.flag_lossyFullSeen : ∀ (f : Fld) (b : Bool), (h.flag f b).lossyFullSeen = h.lossyFullSeen := fun _ _ => rfl
@[simp] theorem Hub.flag_cellsWritten : ∀ (f : Fld) (b : Bool), (h.flag f b).cellsWritten = h.cellsWritten := fun _ _ => rfl
@[simp] theorem Hub.flag_cellsRead : ∀ (f : Fld) (b : Bool), (h.flag f b).cellsRead = h.cellsRead := fun _ _ => rfl
@[simp] theorem Hub.flag_power : ∀ (f : Fld) (b : Bool), (h.flag f b).power = h.power := fun _ _ => rfl
@[simp] theorem Hub.flag_clock : ∀ (f : Fld) (b : Bool), (h.flag f b).clock = h.clock := fun _ _ => rfl
@[simp] theorem Hub.flag_bindSince : ∀ (f : Fld) (b : Bool), (h.flag f b).bindSince = h.bindSince := fun _ _ => rfl
@[simp] theorem Hub.flag_bindNext : ∀ (f : Fld) (b : Bool), (h.flag f b).bindNext = h.bindNext := fun _ _ => rfl
@[simp] theorem Hub.flag_sinks : ∀ (f : Fld) (b : Bool), (h.flag f b).sinks = h.sinks := fun _ _ => rfl
@[simp] theorem Hub.flag_reports : ∀ (f : Fld) (b : Bool), (h.flag f b).reports = h.reports := fun _ _ => rfl
@[simp] theorem Hub.flag_linkAllow : ∀ (f : Fld) (b : Bool), (h.flag f b).linkAllow = h.linkAllow := fun _ _ => rfl
@[simp] theorem Hub.flag_units : ∀ (f : Fld) (b : Bool), (h.flag f b).units = h.units := fun _ _ => rfl
@[simp] theorem Hub.flag_cmPaths : ∀ (f : Fld) (b : Bool), (h.flag f b).cmPaths = h.cmPaths := fun _ _ => rfl
@[simp] theorem Hub.flag_auxGate : ∀ (f : Fld) (b : Bool), (h.flag f b).auxGate = h.auxGate := fun _ _ => rfl
@[simp] theorem Hub.flag_gates : ∀ (f : Fld) (b : Bool), (h.flag f b).gates = h.gates := fun _ _ => rfl
@[simp] theorem Hub.flag_reelBad : ∀ (f : Fld) (b : Bool), (h.flag f b).reelBad = h.reelBad := fun _ _ => rfl
@[simp] theorem Hub.flag_reelBlocks : ∀ (f : Fld) (b : Bool), (h.flag f b).reelBlocks = h.reelBlocks := fun _ _ => rfl
@[simp] theorem Hub.flag_heads : ∀ (f : Fld) (b : Bool), (h.flag f b).heads = h.heads := fun _ _ => rfl
@[simp] theorem Hub.flag_dpPorts : ∀ (f : Fld) (b : Bool), (h.flag f b).dpPorts = h.dpPorts := fun _ _ => rfl
@[simp] theorem Hub.flag_headRank : ∀ (f : Fld) (b : Bool), (h.flag f b).headRank = h.headRank := fun _ _ => rfl
@[simp] theorem Hub.flag_net : ∀ (f : Fld) (b : Bool), (h.flag f b).net = h.net := fun _ _ => rfl
@[simp] theorem Hub.flag_pen : ∀ (f : Fld) (b : Bool), (h.flag f b).pen = h.pen := fun _ _ => rfl
@[simp] theorem Hub.flag_vault : ∀ (f : Fld) (b : Bool), (h.flag f b).vault = h.vault := fun _ _ => rfl
@[simp] theorem Hub.flag_fabric : ∀ (f : Fld) (b : Bool), (h.flag f b).fabric = h.fabric := fun _ _ => rfl
@[simp] theorem Hub.flag_cue : ∀ (f : Fld) (b : Bool), (h.flag f b).cue = h.cue := fun _ _ => rfl
@[simp] theorem Hub.flag_tally : ∀ (f : Fld) (b : Bool), (h.flag f b).tally = h.tally := fun _ _ => rfl
@[simp] theorem Hub.flag_tunnels : ∀ (f : Fld) (b : Bool), (h.flag f b).tunnels = h.tunnels := fun _ _ => rfl
@[simp] theorem Hub.flag_usb : ∀ (f : Fld) (b : Bool), (h.flag f b).usb = h.usb := fun _ _ => rfl
@[simp] theorem Hub.flag_ports : ∀ (f : Fld) (b : Bool), (h.flag f b).ports = h.ports := fun _ _ => rfl
@[simp] theorem Hub.flag_weirs : ∀ (f : Fld) (b : Bool), (h.flag f b).weirs = h.weirs := fun _ _ => rfl
@[simp] theorem Hub.flag_input : ∀ (f : Fld) (b : Bool), (h.flag f b).input = h.input := fun _ _ => rfl
@[simp] theorem Hub.flag_misc : ∀ (f : Fld) (b : Bool), (h.flag f b).misc = h.misc := fun _ _ => rfl
@[simp] theorem Hub.flag_boot : ∀ (f : Fld) (b : Bool), (h.flag f b).boot = h.boot := fun _ _ => rfl

@[simp] theorem Hub.bump_otp : ∀ (f : Fld) (n : Nat), (h.bump f n).otp = h.otp := fun _ _ => rfl
@[simp] theorem Hub.bump_active : ∀ (f : Fld) (n : Nat), (h.bump f n).active = h.active := fun _ _ => rfl
@[simp] theorem Hub.bump_snaps : ∀ (f : Fld) (n : Nat), (h.bump f n).snaps = h.snaps := fun _ _ => rfl
@[simp] theorem Hub.bump_staging : ∀ (f : Fld) (n : Nat), (h.bump f n).staging = h.staging := fun _ _ => rfl
@[simp] theorem Hub.bump_ownerApplied : ∀ (f : Fld) (n : Nat), (h.bump f n).ownerApplied = h.ownerApplied := fun _ _ => rfl
@[simp] theorem Hub.bump_domains : ∀ (f : Fld) (n : Nat), (h.bump f n).domains = h.domains := fun _ _ => rfl
@[simp] theorem Hub.bump_stalled : ∀ (f : Fld) (n : Nat), (h.bump f n).stalled = h.stalled := fun _ _ => rfl
@[simp] theorem Hub.bump_ftime : ∀ (f : Fld) (n : Nat), (h.bump f n).ftime = h.ftime := fun _ _ => rfl
@[simp] theorem Hub.bump_epoch : ∀ (f : Fld) (n : Nat), (h.bump f n).epoch = h.epoch := fun _ _ => rfl
@[simp] theorem Hub.bump_fresh : ∀ (f : Fld) (n : Nat), (h.bump f n).fresh = h.fresh := fun _ _ => rfl
@[simp] theorem Hub.bump_out : ∀ (f : Fld) (n : Nat), (h.bump f n).out = h.out := fun _ _ => rfl
@[simp] theorem Hub.bump_turn : ∀ (f : Fld) (n : Nat), (h.bump f n).turn = h.turn := fun _ _ => rfl
@[simp] theorem Hub.bump_forebays : ∀ (f : Fld) (n : Nat), (h.bump f n).forebays = h.forebays := fun _ _ => rfl
@[simp] theorem Hub.bump_chains : ∀ (f : Fld) (n : Nat), (h.bump f n).chains = h.chains := fun _ _ => rfl
@[simp] theorem Hub.bump_nextChain : ∀ (f : Fld) (n : Nat), (h.bump f n).nextChain = h.nextChain := fun _ _ => rfl
@[simp] theorem Hub.bump_leaked : ∀ (f : Fld) (n : Nat), (h.bump f n).leaked = h.leaked := fun _ _ => rfl
@[simp] theorem Hub.bump_marked : ∀ (f : Fld) (n : Nat), (h.bump f n).marked = h.marked := fun _ _ => rfl
@[simp] theorem Hub.bump_cellErr : ∀ (f : Fld) (n : Nat), (h.bump f n).cellErr = h.cellErr := fun _ _ => rfl
@[simp] theorem Hub.bump_credits : ∀ (f : Fld) (n : Nat), (h.bump f n).credits = h.credits := fun _ _ => rfl
@[simp] theorem Hub.bump_txq : ∀ (f : Fld) (n : Nat), (h.bump f n).txq = h.txq := fun _ _ => rfl
@[simp] theorem Hub.bump_halves : ∀ (f : Fld) (n : Nat), (h.bump f n).halves = h.halves := fun _ _ => rfl
@[simp] theorem Hub.bump_pathSt : ∀ (f : Fld) (n : Nat), (h.bump f n).pathSt = h.pathSt := fun _ _ => rfl
@[simp] theorem Hub.bump_factors : ∀ (f : Fld) (n : Nat), (h.bump f n).factors = h.factors := fun _ _ => rfl
@[simp] theorem Hub.bump_flows : ∀ (f : Fld) (n : Nat), (h.bump f n).flows = h.flows := fun _ _ => rfl
@[simp] theorem Hub.bump_classes : ∀ (f : Fld) (n : Nat), (h.bump f n).classes = h.classes := fun _ _ => rfl
@[simp] theorem Hub.bump_outlets : ∀ (f : Fld) (n : Nat), (h.bump f n).outlets = h.outlets := fun _ _ => rfl
@[simp] theorem Hub.bump_lossyFullSeen : ∀ (f : Fld) (n : Nat), (h.bump f n).lossyFullSeen = h.lossyFullSeen := fun _ _ => rfl
@[simp] theorem Hub.bump_cellsWritten : ∀ (f : Fld) (n : Nat), (h.bump f n).cellsWritten = h.cellsWritten := fun _ _ => rfl
@[simp] theorem Hub.bump_cellsRead : ∀ (f : Fld) (n : Nat), (h.bump f n).cellsRead = h.cellsRead := fun _ _ => rfl
@[simp] theorem Hub.bump_power : ∀ (f : Fld) (n : Nat), (h.bump f n).power = h.power := fun _ _ => rfl
@[simp] theorem Hub.bump_clock : ∀ (f : Fld) (n : Nat), (h.bump f n).clock = h.clock := fun _ _ => rfl
@[simp] theorem Hub.bump_bindSince : ∀ (f : Fld) (n : Nat), (h.bump f n).bindSince = h.bindSince := fun _ _ => rfl
@[simp] theorem Hub.bump_bindNext : ∀ (f : Fld) (n : Nat), (h.bump f n).bindNext = h.bindNext := fun _ _ => rfl
@[simp] theorem Hub.bump_sinks : ∀ (f : Fld) (n : Nat), (h.bump f n).sinks = h.sinks := fun _ _ => rfl
@[simp] theorem Hub.bump_reports : ∀ (f : Fld) (n : Nat), (h.bump f n).reports = h.reports := fun _ _ => rfl
@[simp] theorem Hub.bump_linkAllow : ∀ (f : Fld) (n : Nat), (h.bump f n).linkAllow = h.linkAllow := fun _ _ => rfl
@[simp] theorem Hub.bump_units : ∀ (f : Fld) (n : Nat), (h.bump f n).units = h.units := fun _ _ => rfl
@[simp] theorem Hub.bump_cmPaths : ∀ (f : Fld) (n : Nat), (h.bump f n).cmPaths = h.cmPaths := fun _ _ => rfl
@[simp] theorem Hub.bump_auxGate : ∀ (f : Fld) (n : Nat), (h.bump f n).auxGate = h.auxGate := fun _ _ => rfl
@[simp] theorem Hub.bump_gates : ∀ (f : Fld) (n : Nat), (h.bump f n).gates = h.gates := fun _ _ => rfl
@[simp] theorem Hub.bump_reelBad : ∀ (f : Fld) (n : Nat), (h.bump f n).reelBad = h.reelBad := fun _ _ => rfl
@[simp] theorem Hub.bump_reelBlocks : ∀ (f : Fld) (n : Nat), (h.bump f n).reelBlocks = h.reelBlocks := fun _ _ => rfl
@[simp] theorem Hub.bump_heads : ∀ (f : Fld) (n : Nat), (h.bump f n).heads = h.heads := fun _ _ => rfl
@[simp] theorem Hub.bump_dpPorts : ∀ (f : Fld) (n : Nat), (h.bump f n).dpPorts = h.dpPorts := fun _ _ => rfl
@[simp] theorem Hub.bump_headRank : ∀ (f : Fld) (n : Nat), (h.bump f n).headRank = h.headRank := fun _ _ => rfl
@[simp] theorem Hub.bump_net : ∀ (f : Fld) (n : Nat), (h.bump f n).net = h.net := fun _ _ => rfl
@[simp] theorem Hub.bump_pen : ∀ (f : Fld) (n : Nat), (h.bump f n).pen = h.pen := fun _ _ => rfl
@[simp] theorem Hub.bump_vault : ∀ (f : Fld) (n : Nat), (h.bump f n).vault = h.vault := fun _ _ => rfl
@[simp] theorem Hub.bump_fabric : ∀ (f : Fld) (n : Nat), (h.bump f n).fabric = h.fabric := fun _ _ => rfl
@[simp] theorem Hub.bump_cue : ∀ (f : Fld) (n : Nat), (h.bump f n).cue = h.cue := fun _ _ => rfl
@[simp] theorem Hub.bump_tally : ∀ (f : Fld) (n : Nat), (h.bump f n).tally = h.tally := fun _ _ => rfl
@[simp] theorem Hub.bump_tunnels : ∀ (f : Fld) (n : Nat), (h.bump f n).tunnels = h.tunnels := fun _ _ => rfl
@[simp] theorem Hub.bump_usb : ∀ (f : Fld) (n : Nat), (h.bump f n).usb = h.usb := fun _ _ => rfl
@[simp] theorem Hub.bump_ports : ∀ (f : Fld) (n : Nat), (h.bump f n).ports = h.ports := fun _ _ => rfl
@[simp] theorem Hub.bump_weirs : ∀ (f : Fld) (n : Nat), (h.bump f n).weirs = h.weirs := fun _ _ => rfl
@[simp] theorem Hub.bump_input : ∀ (f : Fld) (n : Nat), (h.bump f n).input = h.input := fun _ _ => rfl
@[simp] theorem Hub.bump_misc : ∀ (f : Fld) (n : Nat), (h.bump f n).misc = h.misc := fun _ _ => rfl
@[simp] theorem Hub.bump_boot : ∀ (f : Fld) (n : Nat), (h.bump f n).boot = h.boot := fun _ _ => rfl

@[simp] theorem Hub.putBit_otp : ∀ (f : Fld) (n : Nat) (b : Bool), (h.putBit f n b).otp = h.otp := fun _ _ _ => rfl
@[simp] theorem Hub.putBit_active : ∀ (f : Fld) (n : Nat) (b : Bool), (h.putBit f n b).active = h.active := fun _ _ _ => rfl
@[simp] theorem Hub.putBit_snaps : ∀ (f : Fld) (n : Nat) (b : Bool), (h.putBit f n b).snaps = h.snaps := fun _ _ _ => rfl
@[simp] theorem Hub.putBit_staging : ∀ (f : Fld) (n : Nat) (b : Bool), (h.putBit f n b).staging = h.staging := fun _ _ _ => rfl
@[simp] theorem Hub.putBit_ownerApplied : ∀ (f : Fld) (n : Nat) (b : Bool), (h.putBit f n b).ownerApplied = h.ownerApplied := fun _ _ _ => rfl
@[simp] theorem Hub.putBit_domains : ∀ (f : Fld) (n : Nat) (b : Bool), (h.putBit f n b).domains = h.domains := fun _ _ _ => rfl
@[simp] theorem Hub.putBit_stalled : ∀ (f : Fld) (n : Nat) (b : Bool), (h.putBit f n b).stalled = h.stalled := fun _ _ _ => rfl
@[simp] theorem Hub.putBit_ftime : ∀ (f : Fld) (n : Nat) (b : Bool), (h.putBit f n b).ftime = h.ftime := fun _ _ _ => rfl
@[simp] theorem Hub.putBit_epoch : ∀ (f : Fld) (n : Nat) (b : Bool), (h.putBit f n b).epoch = h.epoch := fun _ _ _ => rfl
@[simp] theorem Hub.putBit_fresh : ∀ (f : Fld) (n : Nat) (b : Bool), (h.putBit f n b).fresh = h.fresh := fun _ _ _ => rfl
@[simp] theorem Hub.putBit_out : ∀ (f : Fld) (n : Nat) (b : Bool), (h.putBit f n b).out = h.out := fun _ _ _ => rfl
@[simp] theorem Hub.putBit_turn : ∀ (f : Fld) (n : Nat) (b : Bool), (h.putBit f n b).turn = h.turn := fun _ _ _ => rfl
@[simp] theorem Hub.putBit_forebays : ∀ (f : Fld) (n : Nat) (b : Bool), (h.putBit f n b).forebays = h.forebays := fun _ _ _ => rfl
@[simp] theorem Hub.putBit_chains : ∀ (f : Fld) (n : Nat) (b : Bool), (h.putBit f n b).chains = h.chains := fun _ _ _ => rfl
@[simp] theorem Hub.putBit_nextChain : ∀ (f : Fld) (n : Nat) (b : Bool), (h.putBit f n b).nextChain = h.nextChain := fun _ _ _ => rfl
@[simp] theorem Hub.putBit_leaked : ∀ (f : Fld) (n : Nat) (b : Bool), (h.putBit f n b).leaked = h.leaked := fun _ _ _ => rfl
@[simp] theorem Hub.putBit_marked : ∀ (f : Fld) (n : Nat) (b : Bool), (h.putBit f n b).marked = h.marked := fun _ _ _ => rfl
@[simp] theorem Hub.putBit_cellErr : ∀ (f : Fld) (n : Nat) (b : Bool), (h.putBit f n b).cellErr = h.cellErr := fun _ _ _ => rfl
@[simp] theorem Hub.putBit_credits : ∀ (f : Fld) (n : Nat) (b : Bool), (h.putBit f n b).credits = h.credits := fun _ _ _ => rfl
@[simp] theorem Hub.putBit_txq : ∀ (f : Fld) (n : Nat) (b : Bool), (h.putBit f n b).txq = h.txq := fun _ _ _ => rfl
@[simp] theorem Hub.putBit_halves : ∀ (f : Fld) (n : Nat) (b : Bool), (h.putBit f n b).halves = h.halves := fun _ _ _ => rfl
@[simp] theorem Hub.putBit_pathSt : ∀ (f : Fld) (n : Nat) (b : Bool), (h.putBit f n b).pathSt = h.pathSt := fun _ _ _ => rfl
@[simp] theorem Hub.putBit_factors : ∀ (f : Fld) (n : Nat) (b : Bool), (h.putBit f n b).factors = h.factors := fun _ _ _ => rfl
@[simp] theorem Hub.putBit_flows : ∀ (f : Fld) (n : Nat) (b : Bool), (h.putBit f n b).flows = h.flows := fun _ _ _ => rfl
@[simp] theorem Hub.putBit_classes : ∀ (f : Fld) (n : Nat) (b : Bool), (h.putBit f n b).classes = h.classes := fun _ _ _ => rfl
@[simp] theorem Hub.putBit_outlets : ∀ (f : Fld) (n : Nat) (b : Bool), (h.putBit f n b).outlets = h.outlets := fun _ _ _ => rfl
@[simp] theorem Hub.putBit_lossyFullSeen : ∀ (f : Fld) (n : Nat) (b : Bool), (h.putBit f n b).lossyFullSeen = h.lossyFullSeen := fun _ _ _ => rfl
@[simp] theorem Hub.putBit_cellsWritten : ∀ (f : Fld) (n : Nat) (b : Bool), (h.putBit f n b).cellsWritten = h.cellsWritten := fun _ _ _ => rfl
@[simp] theorem Hub.putBit_cellsRead : ∀ (f : Fld) (n : Nat) (b : Bool), (h.putBit f n b).cellsRead = h.cellsRead := fun _ _ _ => rfl
@[simp] theorem Hub.putBit_power : ∀ (f : Fld) (n : Nat) (b : Bool), (h.putBit f n b).power = h.power := fun _ _ _ => rfl
@[simp] theorem Hub.putBit_clock : ∀ (f : Fld) (n : Nat) (b : Bool), (h.putBit f n b).clock = h.clock := fun _ _ _ => rfl
@[simp] theorem Hub.putBit_bindSince : ∀ (f : Fld) (n : Nat) (b : Bool), (h.putBit f n b).bindSince = h.bindSince := fun _ _ _ => rfl
@[simp] theorem Hub.putBit_bindNext : ∀ (f : Fld) (n : Nat) (b : Bool), (h.putBit f n b).bindNext = h.bindNext := fun _ _ _ => rfl
@[simp] theorem Hub.putBit_sinks : ∀ (f : Fld) (n : Nat) (b : Bool), (h.putBit f n b).sinks = h.sinks := fun _ _ _ => rfl
@[simp] theorem Hub.putBit_reports : ∀ (f : Fld) (n : Nat) (b : Bool), (h.putBit f n b).reports = h.reports := fun _ _ _ => rfl
@[simp] theorem Hub.putBit_linkAllow : ∀ (f : Fld) (n : Nat) (b : Bool), (h.putBit f n b).linkAllow = h.linkAllow := fun _ _ _ => rfl
@[simp] theorem Hub.putBit_units : ∀ (f : Fld) (n : Nat) (b : Bool), (h.putBit f n b).units = h.units := fun _ _ _ => rfl
@[simp] theorem Hub.putBit_cmPaths : ∀ (f : Fld) (n : Nat) (b : Bool), (h.putBit f n b).cmPaths = h.cmPaths := fun _ _ _ => rfl
@[simp] theorem Hub.putBit_auxGate : ∀ (f : Fld) (n : Nat) (b : Bool), (h.putBit f n b).auxGate = h.auxGate := fun _ _ _ => rfl
@[simp] theorem Hub.putBit_gates : ∀ (f : Fld) (n : Nat) (b : Bool), (h.putBit f n b).gates = h.gates := fun _ _ _ => rfl
@[simp] theorem Hub.putBit_reelBad : ∀ (f : Fld) (n : Nat) (b : Bool), (h.putBit f n b).reelBad = h.reelBad := fun _ _ _ => rfl
@[simp] theorem Hub.putBit_reelBlocks : ∀ (f : Fld) (n : Nat) (b : Bool), (h.putBit f n b).reelBlocks = h.reelBlocks := fun _ _ _ => rfl
@[simp] theorem Hub.putBit_heads : ∀ (f : Fld) (n : Nat) (b : Bool), (h.putBit f n b).heads = h.heads := fun _ _ _ => rfl
@[simp] theorem Hub.putBit_dpPorts : ∀ (f : Fld) (n : Nat) (b : Bool), (h.putBit f n b).dpPorts = h.dpPorts := fun _ _ _ => rfl
@[simp] theorem Hub.putBit_headRank : ∀ (f : Fld) (n : Nat) (b : Bool), (h.putBit f n b).headRank = h.headRank := fun _ _ _ => rfl
@[simp] theorem Hub.putBit_net : ∀ (f : Fld) (n : Nat) (b : Bool), (h.putBit f n b).net = h.net := fun _ _ _ => rfl
@[simp] theorem Hub.putBit_pen : ∀ (f : Fld) (n : Nat) (b : Bool), (h.putBit f n b).pen = h.pen := fun _ _ _ => rfl
@[simp] theorem Hub.putBit_vault : ∀ (f : Fld) (n : Nat) (b : Bool), (h.putBit f n b).vault = h.vault := fun _ _ _ => rfl
@[simp] theorem Hub.putBit_fabric : ∀ (f : Fld) (n : Nat) (b : Bool), (h.putBit f n b).fabric = h.fabric := fun _ _ _ => rfl
@[simp] theorem Hub.putBit_cue : ∀ (f : Fld) (n : Nat) (b : Bool), (h.putBit f n b).cue = h.cue := fun _ _ _ => rfl
@[simp] theorem Hub.putBit_tally : ∀ (f : Fld) (n : Nat) (b : Bool), (h.putBit f n b).tally = h.tally := fun _ _ _ => rfl
@[simp] theorem Hub.putBit_tunnels : ∀ (f : Fld) (n : Nat) (b : Bool), (h.putBit f n b).tunnels = h.tunnels := fun _ _ _ => rfl
@[simp] theorem Hub.putBit_usb : ∀ (f : Fld) (n : Nat) (b : Bool), (h.putBit f n b).usb = h.usb := fun _ _ _ => rfl
@[simp] theorem Hub.putBit_ports : ∀ (f : Fld) (n : Nat) (b : Bool), (h.putBit f n b).ports = h.ports := fun _ _ _ => rfl
@[simp] theorem Hub.putBit_weirs : ∀ (f : Fld) (n : Nat) (b : Bool), (h.putBit f n b).weirs = h.weirs := fun _ _ _ => rfl
@[simp] theorem Hub.putBit_input : ∀ (f : Fld) (n : Nat) (b : Bool), (h.putBit f n b).input = h.input := fun _ _ _ => rfl
@[simp] theorem Hub.putBit_misc : ∀ (f : Fld) (n : Nat) (b : Bool), (h.putBit f n b).misc = h.misc := fun _ _ _ => rfl
@[simp] theorem Hub.putBit_boot : ∀ (f : Fld) (n : Nat) (b : Bool), (h.putBit f n b).boot = h.boot := fun _ _ _ => rfl

@[simp] theorem Hub.pset_otp : ∀ (f : Fld) (v : Nat), (h.pset f v).otp = h.otp := fun _ _ => rfl
@[simp] theorem Hub.pset_active : ∀ (f : Fld) (v : Nat), (h.pset f v).active = h.active := fun _ _ => rfl
@[simp] theorem Hub.pset_snaps : ∀ (f : Fld) (v : Nat), (h.pset f v).snaps = h.snaps := fun _ _ => rfl
@[simp] theorem Hub.pset_staging : ∀ (f : Fld) (v : Nat), (h.pset f v).staging = h.staging := fun _ _ => rfl
@[simp] theorem Hub.pset_ownerApplied : ∀ (f : Fld) (v : Nat), (h.pset f v).ownerApplied = h.ownerApplied := fun _ _ => rfl
@[simp] theorem Hub.pset_domains : ∀ (f : Fld) (v : Nat), (h.pset f v).domains = h.domains := fun _ _ => rfl
@[simp] theorem Hub.pset_stalled : ∀ (f : Fld) (v : Nat), (h.pset f v).stalled = h.stalled := fun _ _ => rfl
@[simp] theorem Hub.pset_ftime : ∀ (f : Fld) (v : Nat), (h.pset f v).ftime = h.ftime := fun _ _ => rfl
@[simp] theorem Hub.pset_epoch : ∀ (f : Fld) (v : Nat), (h.pset f v).epoch = h.epoch := fun _ _ => rfl
@[simp] theorem Hub.pset_fresh : ∀ (f : Fld) (v : Nat), (h.pset f v).fresh = h.fresh := fun _ _ => rfl
@[simp] theorem Hub.pset_out : ∀ (f : Fld) (v : Nat), (h.pset f v).out = h.out := fun _ _ => rfl
@[simp] theorem Hub.pset_turn : ∀ (f : Fld) (v : Nat), (h.pset f v).turn = h.turn := fun _ _ => rfl
@[simp] theorem Hub.pset_forebays : ∀ (f : Fld) (v : Nat), (h.pset f v).forebays = h.forebays := fun _ _ => rfl
@[simp] theorem Hub.pset_chains : ∀ (f : Fld) (v : Nat), (h.pset f v).chains = h.chains := fun _ _ => rfl
@[simp] theorem Hub.pset_nextChain : ∀ (f : Fld) (v : Nat), (h.pset f v).nextChain = h.nextChain := fun _ _ => rfl
@[simp] theorem Hub.pset_leaked : ∀ (f : Fld) (v : Nat), (h.pset f v).leaked = h.leaked := fun _ _ => rfl
@[simp] theorem Hub.pset_marked : ∀ (f : Fld) (v : Nat), (h.pset f v).marked = h.marked := fun _ _ => rfl
@[simp] theorem Hub.pset_cellErr : ∀ (f : Fld) (v : Nat), (h.pset f v).cellErr = h.cellErr := fun _ _ => rfl
@[simp] theorem Hub.pset_credits : ∀ (f : Fld) (v : Nat), (h.pset f v).credits = h.credits := fun _ _ => rfl
@[simp] theorem Hub.pset_txq : ∀ (f : Fld) (v : Nat), (h.pset f v).txq = h.txq := fun _ _ => rfl
@[simp] theorem Hub.pset_halves : ∀ (f : Fld) (v : Nat), (h.pset f v).halves = h.halves := fun _ _ => rfl
@[simp] theorem Hub.pset_pathSt : ∀ (f : Fld) (v : Nat), (h.pset f v).pathSt = h.pathSt := fun _ _ => rfl
@[simp] theorem Hub.pset_factors : ∀ (f : Fld) (v : Nat), (h.pset f v).factors = h.factors := fun _ _ => rfl
@[simp] theorem Hub.pset_flows : ∀ (f : Fld) (v : Nat), (h.pset f v).flows = h.flows := fun _ _ => rfl
@[simp] theorem Hub.pset_classes : ∀ (f : Fld) (v : Nat), (h.pset f v).classes = h.classes := fun _ _ => rfl
@[simp] theorem Hub.pset_outlets : ∀ (f : Fld) (v : Nat), (h.pset f v).outlets = h.outlets := fun _ _ => rfl
@[simp] theorem Hub.pset_lossyFullSeen : ∀ (f : Fld) (v : Nat), (h.pset f v).lossyFullSeen = h.lossyFullSeen := fun _ _ => rfl
@[simp] theorem Hub.pset_cellsWritten : ∀ (f : Fld) (v : Nat), (h.pset f v).cellsWritten = h.cellsWritten := fun _ _ => rfl
@[simp] theorem Hub.pset_cellsRead : ∀ (f : Fld) (v : Nat), (h.pset f v).cellsRead = h.cellsRead := fun _ _ => rfl
@[simp] theorem Hub.pset_power : ∀ (f : Fld) (v : Nat), (h.pset f v).power = h.power := fun _ _ => rfl
@[simp] theorem Hub.pset_clock : ∀ (f : Fld) (v : Nat), (h.pset f v).clock = h.clock := fun _ _ => rfl
@[simp] theorem Hub.pset_bindSince : ∀ (f : Fld) (v : Nat), (h.pset f v).bindSince = h.bindSince := fun _ _ => rfl
@[simp] theorem Hub.pset_bindNext : ∀ (f : Fld) (v : Nat), (h.pset f v).bindNext = h.bindNext := fun _ _ => rfl
@[simp] theorem Hub.pset_sinks : ∀ (f : Fld) (v : Nat), (h.pset f v).sinks = h.sinks := fun _ _ => rfl
@[simp] theorem Hub.pset_reports : ∀ (f : Fld) (v : Nat), (h.pset f v).reports = h.reports := fun _ _ => rfl
@[simp] theorem Hub.pset_linkAllow : ∀ (f : Fld) (v : Nat), (h.pset f v).linkAllow = h.linkAllow := fun _ _ => rfl
@[simp] theorem Hub.pset_units : ∀ (f : Fld) (v : Nat), (h.pset f v).units = h.units := fun _ _ => rfl
@[simp] theorem Hub.pset_cmPaths : ∀ (f : Fld) (v : Nat), (h.pset f v).cmPaths = h.cmPaths := fun _ _ => rfl
@[simp] theorem Hub.pset_auxGate : ∀ (f : Fld) (v : Nat), (h.pset f v).auxGate = h.auxGate := fun _ _ => rfl
@[simp] theorem Hub.pset_gates : ∀ (f : Fld) (v : Nat), (h.pset f v).gates = h.gates := fun _ _ => rfl
@[simp] theorem Hub.pset_reelBad : ∀ (f : Fld) (v : Nat), (h.pset f v).reelBad = h.reelBad := fun _ _ => rfl
@[simp] theorem Hub.pset_reelBlocks : ∀ (f : Fld) (v : Nat), (h.pset f v).reelBlocks = h.reelBlocks := fun _ _ => rfl
@[simp] theorem Hub.pset_heads : ∀ (f : Fld) (v : Nat), (h.pset f v).heads = h.heads := fun _ _ => rfl
@[simp] theorem Hub.pset_dpPorts : ∀ (f : Fld) (v : Nat), (h.pset f v).dpPorts = h.dpPorts := fun _ _ => rfl
@[simp] theorem Hub.pset_headRank : ∀ (f : Fld) (v : Nat), (h.pset f v).headRank = h.headRank := fun _ _ => rfl
@[simp] theorem Hub.pset_net : ∀ (f : Fld) (v : Nat), (h.pset f v).net = h.net := fun _ _ => rfl
@[simp] theorem Hub.pset_pen : ∀ (f : Fld) (v : Nat), (h.pset f v).pen = h.pen := fun _ _ => rfl
@[simp] theorem Hub.pset_vault : ∀ (f : Fld) (v : Nat), (h.pset f v).vault = h.vault := fun _ _ => rfl
@[simp] theorem Hub.pset_fabric : ∀ (f : Fld) (v : Nat), (h.pset f v).fabric = h.fabric := fun _ _ => rfl
@[simp] theorem Hub.pset_cue : ∀ (f : Fld) (v : Nat), (h.pset f v).cue = h.cue := fun _ _ => rfl
@[simp] theorem Hub.pset_tally : ∀ (f : Fld) (v : Nat), (h.pset f v).tally = h.tally := fun _ _ => rfl
@[simp] theorem Hub.pset_tunnels : ∀ (f : Fld) (v : Nat), (h.pset f v).tunnels = h.tunnels := fun _ _ => rfl
@[simp] theorem Hub.pset_usb : ∀ (f : Fld) (v : Nat), (h.pset f v).usb = h.usb := fun _ _ => rfl
@[simp] theorem Hub.pset_ports : ∀ (f : Fld) (v : Nat), (h.pset f v).ports = h.ports := fun _ _ => rfl
@[simp] theorem Hub.pset_weirs : ∀ (f : Fld) (v : Nat), (h.pset f v).weirs = h.weirs := fun _ _ => rfl
@[simp] theorem Hub.pset_input : ∀ (f : Fld) (v : Nat), (h.pset f v).input = h.input := fun _ _ => rfl
@[simp] theorem Hub.pset_misc : ∀ (f : Fld) (v : Nat), (h.pset f v).misc = h.misc := fun _ _ => rfl
@[simp] theorem Hub.pset_boot : ∀ (f : Fld) (v : Nat), (h.pset f v).boot = h.boot := fun _ _ => rfl

@[simp] theorem Hub.pbump_otp : ∀ (f : Fld) (n : Nat), (h.pbump f n).otp = h.otp := fun _ _ => rfl
@[simp] theorem Hub.pbump_active : ∀ (f : Fld) (n : Nat), (h.pbump f n).active = h.active := fun _ _ => rfl
@[simp] theorem Hub.pbump_snaps : ∀ (f : Fld) (n : Nat), (h.pbump f n).snaps = h.snaps := fun _ _ => rfl
@[simp] theorem Hub.pbump_staging : ∀ (f : Fld) (n : Nat), (h.pbump f n).staging = h.staging := fun _ _ => rfl
@[simp] theorem Hub.pbump_ownerApplied : ∀ (f : Fld) (n : Nat), (h.pbump f n).ownerApplied = h.ownerApplied := fun _ _ => rfl
@[simp] theorem Hub.pbump_domains : ∀ (f : Fld) (n : Nat), (h.pbump f n).domains = h.domains := fun _ _ => rfl
@[simp] theorem Hub.pbump_stalled : ∀ (f : Fld) (n : Nat), (h.pbump f n).stalled = h.stalled := fun _ _ => rfl
@[simp] theorem Hub.pbump_ftime : ∀ (f : Fld) (n : Nat), (h.pbump f n).ftime = h.ftime := fun _ _ => rfl
@[simp] theorem Hub.pbump_epoch : ∀ (f : Fld) (n : Nat), (h.pbump f n).epoch = h.epoch := fun _ _ => rfl
@[simp] theorem Hub.pbump_fresh : ∀ (f : Fld) (n : Nat), (h.pbump f n).fresh = h.fresh := fun _ _ => rfl
@[simp] theorem Hub.pbump_out : ∀ (f : Fld) (n : Nat), (h.pbump f n).out = h.out := fun _ _ => rfl
@[simp] theorem Hub.pbump_turn : ∀ (f : Fld) (n : Nat), (h.pbump f n).turn = h.turn := fun _ _ => rfl
@[simp] theorem Hub.pbump_forebays : ∀ (f : Fld) (n : Nat), (h.pbump f n).forebays = h.forebays := fun _ _ => rfl
@[simp] theorem Hub.pbump_chains : ∀ (f : Fld) (n : Nat), (h.pbump f n).chains = h.chains := fun _ _ => rfl
@[simp] theorem Hub.pbump_nextChain : ∀ (f : Fld) (n : Nat), (h.pbump f n).nextChain = h.nextChain := fun _ _ => rfl
@[simp] theorem Hub.pbump_leaked : ∀ (f : Fld) (n : Nat), (h.pbump f n).leaked = h.leaked := fun _ _ => rfl
@[simp] theorem Hub.pbump_marked : ∀ (f : Fld) (n : Nat), (h.pbump f n).marked = h.marked := fun _ _ => rfl
@[simp] theorem Hub.pbump_cellErr : ∀ (f : Fld) (n : Nat), (h.pbump f n).cellErr = h.cellErr := fun _ _ => rfl
@[simp] theorem Hub.pbump_credits : ∀ (f : Fld) (n : Nat), (h.pbump f n).credits = h.credits := fun _ _ => rfl
@[simp] theorem Hub.pbump_txq : ∀ (f : Fld) (n : Nat), (h.pbump f n).txq = h.txq := fun _ _ => rfl
@[simp] theorem Hub.pbump_halves : ∀ (f : Fld) (n : Nat), (h.pbump f n).halves = h.halves := fun _ _ => rfl
@[simp] theorem Hub.pbump_pathSt : ∀ (f : Fld) (n : Nat), (h.pbump f n).pathSt = h.pathSt := fun _ _ => rfl
@[simp] theorem Hub.pbump_factors : ∀ (f : Fld) (n : Nat), (h.pbump f n).factors = h.factors := fun _ _ => rfl
@[simp] theorem Hub.pbump_flows : ∀ (f : Fld) (n : Nat), (h.pbump f n).flows = h.flows := fun _ _ => rfl
@[simp] theorem Hub.pbump_classes : ∀ (f : Fld) (n : Nat), (h.pbump f n).classes = h.classes := fun _ _ => rfl
@[simp] theorem Hub.pbump_outlets : ∀ (f : Fld) (n : Nat), (h.pbump f n).outlets = h.outlets := fun _ _ => rfl
@[simp] theorem Hub.pbump_lossyFullSeen : ∀ (f : Fld) (n : Nat), (h.pbump f n).lossyFullSeen = h.lossyFullSeen := fun _ _ => rfl
@[simp] theorem Hub.pbump_cellsWritten : ∀ (f : Fld) (n : Nat), (h.pbump f n).cellsWritten = h.cellsWritten := fun _ _ => rfl
@[simp] theorem Hub.pbump_cellsRead : ∀ (f : Fld) (n : Nat), (h.pbump f n).cellsRead = h.cellsRead := fun _ _ => rfl
@[simp] theorem Hub.pbump_power : ∀ (f : Fld) (n : Nat), (h.pbump f n).power = h.power := fun _ _ => rfl
@[simp] theorem Hub.pbump_clock : ∀ (f : Fld) (n : Nat), (h.pbump f n).clock = h.clock := fun _ _ => rfl
@[simp] theorem Hub.pbump_bindSince : ∀ (f : Fld) (n : Nat), (h.pbump f n).bindSince = h.bindSince := fun _ _ => rfl
@[simp] theorem Hub.pbump_bindNext : ∀ (f : Fld) (n : Nat), (h.pbump f n).bindNext = h.bindNext := fun _ _ => rfl
@[simp] theorem Hub.pbump_sinks : ∀ (f : Fld) (n : Nat), (h.pbump f n).sinks = h.sinks := fun _ _ => rfl
@[simp] theorem Hub.pbump_reports : ∀ (f : Fld) (n : Nat), (h.pbump f n).reports = h.reports := fun _ _ => rfl
@[simp] theorem Hub.pbump_linkAllow : ∀ (f : Fld) (n : Nat), (h.pbump f n).linkAllow = h.linkAllow := fun _ _ => rfl
@[simp] theorem Hub.pbump_units : ∀ (f : Fld) (n : Nat), (h.pbump f n).units = h.units := fun _ _ => rfl
@[simp] theorem Hub.pbump_cmPaths : ∀ (f : Fld) (n : Nat), (h.pbump f n).cmPaths = h.cmPaths := fun _ _ => rfl
@[simp] theorem Hub.pbump_auxGate : ∀ (f : Fld) (n : Nat), (h.pbump f n).auxGate = h.auxGate := fun _ _ => rfl
@[simp] theorem Hub.pbump_gates : ∀ (f : Fld) (n : Nat), (h.pbump f n).gates = h.gates := fun _ _ => rfl
@[simp] theorem Hub.pbump_reelBad : ∀ (f : Fld) (n : Nat), (h.pbump f n).reelBad = h.reelBad := fun _ _ => rfl
@[simp] theorem Hub.pbump_reelBlocks : ∀ (f : Fld) (n : Nat), (h.pbump f n).reelBlocks = h.reelBlocks := fun _ _ => rfl
@[simp] theorem Hub.pbump_heads : ∀ (f : Fld) (n : Nat), (h.pbump f n).heads = h.heads := fun _ _ => rfl
@[simp] theorem Hub.pbump_dpPorts : ∀ (f : Fld) (n : Nat), (h.pbump f n).dpPorts = h.dpPorts := fun _ _ => rfl
@[simp] theorem Hub.pbump_headRank : ∀ (f : Fld) (n : Nat), (h.pbump f n).headRank = h.headRank := fun _ _ => rfl
@[simp] theorem Hub.pbump_net : ∀ (f : Fld) (n : Nat), (h.pbump f n).net = h.net := fun _ _ => rfl
@[simp] theorem Hub.pbump_pen : ∀ (f : Fld) (n : Nat), (h.pbump f n).pen = h.pen := fun _ _ => rfl
@[simp] theorem Hub.pbump_vault : ∀ (f : Fld) (n : Nat), (h.pbump f n).vault = h.vault := fun _ _ => rfl
@[simp] theorem Hub.pbump_fabric : ∀ (f : Fld) (n : Nat), (h.pbump f n).fabric = h.fabric := fun _ _ => rfl
@[simp] theorem Hub.pbump_cue : ∀ (f : Fld) (n : Nat), (h.pbump f n).cue = h.cue := fun _ _ => rfl
@[simp] theorem Hub.pbump_tally : ∀ (f : Fld) (n : Nat), (h.pbump f n).tally = h.tally := fun _ _ => rfl
@[simp] theorem Hub.pbump_tunnels : ∀ (f : Fld) (n : Nat), (h.pbump f n).tunnels = h.tunnels := fun _ _ => rfl
@[simp] theorem Hub.pbump_usb : ∀ (f : Fld) (n : Nat), (h.pbump f n).usb = h.usb := fun _ _ => rfl
@[simp] theorem Hub.pbump_ports : ∀ (f : Fld) (n : Nat), (h.pbump f n).ports = h.ports := fun _ _ => rfl
@[simp] theorem Hub.pbump_weirs : ∀ (f : Fld) (n : Nat), (h.pbump f n).weirs = h.weirs := fun _ _ => rfl
@[simp] theorem Hub.pbump_input : ∀ (f : Fld) (n : Nat), (h.pbump f n).input = h.input := fun _ _ => rfl
@[simp] theorem Hub.pbump_misc : ∀ (f : Fld) (n : Nat), (h.pbump f n).misc = h.misc := fun _ _ => rfl
@[simp] theorem Hub.pbump_boot : ∀ (f : Fld) (n : Nat), (h.pbump f n).boot = h.boot := fun _ _ => rfl

@[simp] theorem Hub.event_otp : ∀ (p b : Nat), (h.event p b).otp = h.otp := fun _ _ => rfl
@[simp] theorem Hub.event_active : ∀ (p b : Nat), (h.event p b).active = h.active := fun _ _ => rfl
@[simp] theorem Hub.event_snaps : ∀ (p b : Nat), (h.event p b).snaps = h.snaps := fun _ _ => rfl
@[simp] theorem Hub.event_staging : ∀ (p b : Nat), (h.event p b).staging = h.staging := fun _ _ => rfl
@[simp] theorem Hub.event_ownerApplied : ∀ (p b : Nat), (h.event p b).ownerApplied = h.ownerApplied := fun _ _ => rfl
@[simp] theorem Hub.event_domains : ∀ (p b : Nat), (h.event p b).domains = h.domains := fun _ _ => rfl
@[simp] theorem Hub.event_stalled : ∀ (p b : Nat), (h.event p b).stalled = h.stalled := fun _ _ => rfl
@[simp] theorem Hub.event_ftime : ∀ (p b : Nat), (h.event p b).ftime = h.ftime := fun _ _ => rfl
@[simp] theorem Hub.event_epoch : ∀ (p b : Nat), (h.event p b).epoch = h.epoch := fun _ _ => rfl
@[simp] theorem Hub.event_fresh : ∀ (p b : Nat), (h.event p b).fresh = h.fresh := fun _ _ => rfl
@[simp] theorem Hub.event_out : ∀ (p b : Nat), (h.event p b).out = h.out := fun _ _ => rfl
@[simp] theorem Hub.event_turn : ∀ (p b : Nat), (h.event p b).turn = h.turn := fun _ _ => rfl
@[simp] theorem Hub.event_forebays : ∀ (p b : Nat), (h.event p b).forebays = h.forebays := fun _ _ => rfl
@[simp] theorem Hub.event_chains : ∀ (p b : Nat), (h.event p b).chains = h.chains := fun _ _ => rfl
@[simp] theorem Hub.event_nextChain : ∀ (p b : Nat), (h.event p b).nextChain = h.nextChain := fun _ _ => rfl
@[simp] theorem Hub.event_leaked : ∀ (p b : Nat), (h.event p b).leaked = h.leaked := fun _ _ => rfl
@[simp] theorem Hub.event_marked : ∀ (p b : Nat), (h.event p b).marked = h.marked := fun _ _ => rfl
@[simp] theorem Hub.event_cellErr : ∀ (p b : Nat), (h.event p b).cellErr = h.cellErr := fun _ _ => rfl
@[simp] theorem Hub.event_credits : ∀ (p b : Nat), (h.event p b).credits = h.credits := fun _ _ => rfl
@[simp] theorem Hub.event_txq : ∀ (p b : Nat), (h.event p b).txq = h.txq := fun _ _ => rfl
@[simp] theorem Hub.event_halves : ∀ (p b : Nat), (h.event p b).halves = h.halves := fun _ _ => rfl
@[simp] theorem Hub.event_pathSt : ∀ (p b : Nat), (h.event p b).pathSt = h.pathSt := fun _ _ => rfl
@[simp] theorem Hub.event_factors : ∀ (p b : Nat), (h.event p b).factors = h.factors := fun _ _ => rfl
@[simp] theorem Hub.event_flows : ∀ (p b : Nat), (h.event p b).flows = h.flows := fun _ _ => rfl
@[simp] theorem Hub.event_classes : ∀ (p b : Nat), (h.event p b).classes = h.classes := fun _ _ => rfl
@[simp] theorem Hub.event_outlets : ∀ (p b : Nat), (h.event p b).outlets = h.outlets := fun _ _ => rfl
@[simp] theorem Hub.event_lossyFullSeen : ∀ (p b : Nat), (h.event p b).lossyFullSeen = h.lossyFullSeen := fun _ _ => rfl
@[simp] theorem Hub.event_cellsWritten : ∀ (p b : Nat), (h.event p b).cellsWritten = h.cellsWritten := fun _ _ => rfl
@[simp] theorem Hub.event_cellsRead : ∀ (p b : Nat), (h.event p b).cellsRead = h.cellsRead := fun _ _ => rfl
@[simp] theorem Hub.event_power : ∀ (p b : Nat), (h.event p b).power = h.power := fun _ _ => rfl
@[simp] theorem Hub.event_clock : ∀ (p b : Nat), (h.event p b).clock = h.clock := fun _ _ => rfl
@[simp] theorem Hub.event_bindSince : ∀ (p b : Nat), (h.event p b).bindSince = h.bindSince := fun _ _ => rfl
@[simp] theorem Hub.event_bindNext : ∀ (p b : Nat), (h.event p b).bindNext = h.bindNext := fun _ _ => rfl
@[simp] theorem Hub.event_sinks : ∀ (p b : Nat), (h.event p b).sinks = h.sinks := fun _ _ => rfl
@[simp] theorem Hub.event_reports : ∀ (p b : Nat), (h.event p b).reports = h.reports := fun _ _ => rfl
@[simp] theorem Hub.event_linkAllow : ∀ (p b : Nat), (h.event p b).linkAllow = h.linkAllow := fun _ _ => rfl
@[simp] theorem Hub.event_units : ∀ (p b : Nat), (h.event p b).units = h.units := fun _ _ => rfl
@[simp] theorem Hub.event_cmPaths : ∀ (p b : Nat), (h.event p b).cmPaths = h.cmPaths := fun _ _ => rfl
@[simp] theorem Hub.event_auxGate : ∀ (p b : Nat), (h.event p b).auxGate = h.auxGate := fun _ _ => rfl
@[simp] theorem Hub.event_gates : ∀ (p b : Nat), (h.event p b).gates = h.gates := fun _ _ => rfl
@[simp] theorem Hub.event_reelBad : ∀ (p b : Nat), (h.event p b).reelBad = h.reelBad := fun _ _ => rfl
@[simp] theorem Hub.event_reelBlocks : ∀ (p b : Nat), (h.event p b).reelBlocks = h.reelBlocks := fun _ _ => rfl
@[simp] theorem Hub.event_heads : ∀ (p b : Nat), (h.event p b).heads = h.heads := fun _ _ => rfl
@[simp] theorem Hub.event_dpPorts : ∀ (p b : Nat), (h.event p b).dpPorts = h.dpPorts := fun _ _ => rfl
@[simp] theorem Hub.event_headRank : ∀ (p b : Nat), (h.event p b).headRank = h.headRank := fun _ _ => rfl
@[simp] theorem Hub.event_net : ∀ (p b : Nat), (h.event p b).net = h.net := fun _ _ => rfl
@[simp] theorem Hub.event_pen : ∀ (p b : Nat), (h.event p b).pen = h.pen := fun _ _ => rfl
@[simp] theorem Hub.event_vault : ∀ (p b : Nat), (h.event p b).vault = h.vault := fun _ _ => rfl
@[simp] theorem Hub.event_fabric : ∀ (p b : Nat), (h.event p b).fabric = h.fabric := fun _ _ => rfl
@[simp] theorem Hub.event_cue : ∀ (p b : Nat), (h.event p b).cue = h.cue := fun _ _ => rfl
@[simp] theorem Hub.event_tally : ∀ (p b : Nat), (h.event p b).tally = h.tally := fun _ _ => rfl
@[simp] theorem Hub.event_tunnels : ∀ (p b : Nat), (h.event p b).tunnels = h.tunnels := fun _ _ => rfl
@[simp] theorem Hub.event_usb : ∀ (p b : Nat), (h.event p b).usb = h.usb := fun _ _ => rfl
@[simp] theorem Hub.event_ports : ∀ (p b : Nat), (h.event p b).ports = h.ports := fun _ _ => rfl
@[simp] theorem Hub.event_weirs : ∀ (p b : Nat), (h.event p b).weirs = h.weirs := fun _ _ => rfl
@[simp] theorem Hub.event_input : ∀ (p b : Nat), (h.event p b).input = h.input := fun _ _ => rfl
@[simp] theorem Hub.event_misc : ∀ (p b : Nat), (h.event p b).misc = h.misc := fun _ _ => rfl
@[simp] theorem Hub.event_boot : ∀ (p b : Nat), (h.event p b).boot = h.boot := fun _ _ => rfl

@[simp] theorem Hub.aset_otp : ∀ (f : Fld) (v : Nat), (h.aset f v).otp = h.otp := fun _ _ => rfl
@[simp] theorem Hub.aset_regs : ∀ (f : Fld) (v : Nat), (h.aset f v).regs = h.regs := fun _ _ => rfl
@[simp] theorem Hub.aset_snaps : ∀ (f : Fld) (v : Nat), (h.aset f v).snaps = h.snaps := fun _ _ => rfl
@[simp] theorem Hub.aset_staging : ∀ (f : Fld) (v : Nat), (h.aset f v).staging = h.staging := fun _ _ => rfl
@[simp] theorem Hub.aset_ownerApplied : ∀ (f : Fld) (v : Nat), (h.aset f v).ownerApplied = h.ownerApplied := fun _ _ => rfl
@[simp] theorem Hub.aset_domains : ∀ (f : Fld) (v : Nat), (h.aset f v).domains = h.domains := fun _ _ => rfl
@[simp] theorem Hub.aset_stalled : ∀ (f : Fld) (v : Nat), (h.aset f v).stalled = h.stalled := fun _ _ => rfl
@[simp] theorem Hub.aset_ftime : ∀ (f : Fld) (v : Nat), (h.aset f v).ftime = h.ftime := fun _ _ => rfl
@[simp] theorem Hub.aset_epoch : ∀ (f : Fld) (v : Nat), (h.aset f v).epoch = h.epoch := fun _ _ => rfl
@[simp] theorem Hub.aset_fresh : ∀ (f : Fld) (v : Nat), (h.aset f v).fresh = h.fresh := fun _ _ => rfl
@[simp] theorem Hub.aset_out : ∀ (f : Fld) (v : Nat), (h.aset f v).out = h.out := fun _ _ => rfl
@[simp] theorem Hub.aset_turn : ∀ (f : Fld) (v : Nat), (h.aset f v).turn = h.turn := fun _ _ => rfl
@[simp] theorem Hub.aset_forebays : ∀ (f : Fld) (v : Nat), (h.aset f v).forebays = h.forebays := fun _ _ => rfl
@[simp] theorem Hub.aset_chains : ∀ (f : Fld) (v : Nat), (h.aset f v).chains = h.chains := fun _ _ => rfl
@[simp] theorem Hub.aset_nextChain : ∀ (f : Fld) (v : Nat), (h.aset f v).nextChain = h.nextChain := fun _ _ => rfl
@[simp] theorem Hub.aset_leaked : ∀ (f : Fld) (v : Nat), (h.aset f v).leaked = h.leaked := fun _ _ => rfl
@[simp] theorem Hub.aset_marked : ∀ (f : Fld) (v : Nat), (h.aset f v).marked = h.marked := fun _ _ => rfl
@[simp] theorem Hub.aset_cellErr : ∀ (f : Fld) (v : Nat), (h.aset f v).cellErr = h.cellErr := fun _ _ => rfl
@[simp] theorem Hub.aset_credits : ∀ (f : Fld) (v : Nat), (h.aset f v).credits = h.credits := fun _ _ => rfl
@[simp] theorem Hub.aset_txq : ∀ (f : Fld) (v : Nat), (h.aset f v).txq = h.txq := fun _ _ => rfl
@[simp] theorem Hub.aset_halves : ∀ (f : Fld) (v : Nat), (h.aset f v).halves = h.halves := fun _ _ => rfl
@[simp] theorem Hub.aset_pathSt : ∀ (f : Fld) (v : Nat), (h.aset f v).pathSt = h.pathSt := fun _ _ => rfl
@[simp] theorem Hub.aset_factors : ∀ (f : Fld) (v : Nat), (h.aset f v).factors = h.factors := fun _ _ => rfl
@[simp] theorem Hub.aset_flows : ∀ (f : Fld) (v : Nat), (h.aset f v).flows = h.flows := fun _ _ => rfl
@[simp] theorem Hub.aset_classes : ∀ (f : Fld) (v : Nat), (h.aset f v).classes = h.classes := fun _ _ => rfl
@[simp] theorem Hub.aset_outlets : ∀ (f : Fld) (v : Nat), (h.aset f v).outlets = h.outlets := fun _ _ => rfl
@[simp] theorem Hub.aset_lossyFullSeen : ∀ (f : Fld) (v : Nat), (h.aset f v).lossyFullSeen = h.lossyFullSeen := fun _ _ => rfl
@[simp] theorem Hub.aset_cellsWritten : ∀ (f : Fld) (v : Nat), (h.aset f v).cellsWritten = h.cellsWritten := fun _ _ => rfl
@[simp] theorem Hub.aset_cellsRead : ∀ (f : Fld) (v : Nat), (h.aset f v).cellsRead = h.cellsRead := fun _ _ => rfl
@[simp] theorem Hub.aset_power : ∀ (f : Fld) (v : Nat), (h.aset f v).power = h.power := fun _ _ => rfl
@[simp] theorem Hub.aset_clock : ∀ (f : Fld) (v : Nat), (h.aset f v).clock = h.clock := fun _ _ => rfl
@[simp] theorem Hub.aset_bindSince : ∀ (f : Fld) (v : Nat), (h.aset f v).bindSince = h.bindSince := fun _ _ => rfl
@[simp] theorem Hub.aset_bindNext : ∀ (f : Fld) (v : Nat), (h.aset f v).bindNext = h.bindNext := fun _ _ => rfl
@[simp] theorem Hub.aset_sinks : ∀ (f : Fld) (v : Nat), (h.aset f v).sinks = h.sinks := fun _ _ => rfl
@[simp] theorem Hub.aset_reports : ∀ (f : Fld) (v : Nat), (h.aset f v).reports = h.reports := fun _ _ => rfl
@[simp] theorem Hub.aset_linkAllow : ∀ (f : Fld) (v : Nat), (h.aset f v).linkAllow = h.linkAllow := fun _ _ => rfl
@[simp] theorem Hub.aset_units : ∀ (f : Fld) (v : Nat), (h.aset f v).units = h.units := fun _ _ => rfl
@[simp] theorem Hub.aset_cmPaths : ∀ (f : Fld) (v : Nat), (h.aset f v).cmPaths = h.cmPaths := fun _ _ => rfl
@[simp] theorem Hub.aset_auxGate : ∀ (f : Fld) (v : Nat), (h.aset f v).auxGate = h.auxGate := fun _ _ => rfl
@[simp] theorem Hub.aset_gates : ∀ (f : Fld) (v : Nat), (h.aset f v).gates = h.gates := fun _ _ => rfl
@[simp] theorem Hub.aset_reelBad : ∀ (f : Fld) (v : Nat), (h.aset f v).reelBad = h.reelBad := fun _ _ => rfl
@[simp] theorem Hub.aset_reelBlocks : ∀ (f : Fld) (v : Nat), (h.aset f v).reelBlocks = h.reelBlocks := fun _ _ => rfl
@[simp] theorem Hub.aset_heads : ∀ (f : Fld) (v : Nat), (h.aset f v).heads = h.heads := fun _ _ => rfl
@[simp] theorem Hub.aset_dpPorts : ∀ (f : Fld) (v : Nat), (h.aset f v).dpPorts = h.dpPorts := fun _ _ => rfl
@[simp] theorem Hub.aset_headRank : ∀ (f : Fld) (v : Nat), (h.aset f v).headRank = h.headRank := fun _ _ => rfl
@[simp] theorem Hub.aset_net : ∀ (f : Fld) (v : Nat), (h.aset f v).net = h.net := fun _ _ => rfl
@[simp] theorem Hub.aset_pen : ∀ (f : Fld) (v : Nat), (h.aset f v).pen = h.pen := fun _ _ => rfl
@[simp] theorem Hub.aset_vault : ∀ (f : Fld) (v : Nat), (h.aset f v).vault = h.vault := fun _ _ => rfl
@[simp] theorem Hub.aset_fabric : ∀ (f : Fld) (v : Nat), (h.aset f v).fabric = h.fabric := fun _ _ => rfl
@[simp] theorem Hub.aset_cue : ∀ (f : Fld) (v : Nat), (h.aset f v).cue = h.cue := fun _ _ => rfl
@[simp] theorem Hub.aset_tally : ∀ (f : Fld) (v : Nat), (h.aset f v).tally = h.tally := fun _ _ => rfl
@[simp] theorem Hub.aset_tunnels : ∀ (f : Fld) (v : Nat), (h.aset f v).tunnels = h.tunnels := fun _ _ => rfl
@[simp] theorem Hub.aset_usb : ∀ (f : Fld) (v : Nat), (h.aset f v).usb = h.usb := fun _ _ => rfl
@[simp] theorem Hub.aset_ports : ∀ (f : Fld) (v : Nat), (h.aset f v).ports = h.ports := fun _ _ => rfl
@[simp] theorem Hub.aset_weirs : ∀ (f : Fld) (v : Nat), (h.aset f v).weirs = h.weirs := fun _ _ => rfl
@[simp] theorem Hub.aset_input : ∀ (f : Fld) (v : Nat), (h.aset f v).input = h.input := fun _ _ => rfl
@[simp] theorem Hub.aset_misc : ∀ (f : Fld) (v : Nat), (h.aset f v).misc = h.misc := fun _ _ => rfl
@[simp] theorem Hub.aset_boot : ∀ (f : Fld) (v : Nat), (h.aset f v).boot = h.boot := fun _ _ => rfl

@[simp] theorem Hub.emit_otp : ∀ (e : Emission), (h.emit e).otp = h.otp := fun _ => rfl
@[simp] theorem Hub.emit_regs : ∀ (e : Emission), (h.emit e).regs = h.regs := fun _ => rfl
@[simp] theorem Hub.emit_active : ∀ (e : Emission), (h.emit e).active = h.active := fun _ => rfl
@[simp] theorem Hub.emit_snaps : ∀ (e : Emission), (h.emit e).snaps = h.snaps := fun _ => rfl
@[simp] theorem Hub.emit_staging : ∀ (e : Emission), (h.emit e).staging = h.staging := fun _ => rfl
@[simp] theorem Hub.emit_ownerApplied : ∀ (e : Emission), (h.emit e).ownerApplied = h.ownerApplied := fun _ => rfl
@[simp] theorem Hub.emit_domains : ∀ (e : Emission), (h.emit e).domains = h.domains := fun _ => rfl
@[simp] theorem Hub.emit_stalled : ∀ (e : Emission), (h.emit e).stalled = h.stalled := fun _ => rfl
@[simp] theorem Hub.emit_ftime : ∀ (e : Emission), (h.emit e).ftime = h.ftime := fun _ => rfl
@[simp] theorem Hub.emit_epoch : ∀ (e : Emission), (h.emit e).epoch = h.epoch := fun _ => rfl
@[simp] theorem Hub.emit_fresh : ∀ (e : Emission), (h.emit e).fresh = h.fresh := fun _ => rfl
@[simp] theorem Hub.emit_turn : ∀ (e : Emission), (h.emit e).turn = h.turn := fun _ => rfl
@[simp] theorem Hub.emit_forebays : ∀ (e : Emission), (h.emit e).forebays = h.forebays := fun _ => rfl
@[simp] theorem Hub.emit_chains : ∀ (e : Emission), (h.emit e).chains = h.chains := fun _ => rfl
@[simp] theorem Hub.emit_nextChain : ∀ (e : Emission), (h.emit e).nextChain = h.nextChain := fun _ => rfl
@[simp] theorem Hub.emit_leaked : ∀ (e : Emission), (h.emit e).leaked = h.leaked := fun _ => rfl
@[simp] theorem Hub.emit_marked : ∀ (e : Emission), (h.emit e).marked = h.marked := fun _ => rfl
@[simp] theorem Hub.emit_cellErr : ∀ (e : Emission), (h.emit e).cellErr = h.cellErr := fun _ => rfl
@[simp] theorem Hub.emit_credits : ∀ (e : Emission), (h.emit e).credits = h.credits := fun _ => rfl
@[simp] theorem Hub.emit_txq : ∀ (e : Emission), (h.emit e).txq = h.txq := fun _ => rfl
@[simp] theorem Hub.emit_halves : ∀ (e : Emission), (h.emit e).halves = h.halves := fun _ => rfl
@[simp] theorem Hub.emit_pathSt : ∀ (e : Emission), (h.emit e).pathSt = h.pathSt := fun _ => rfl
@[simp] theorem Hub.emit_factors : ∀ (e : Emission), (h.emit e).factors = h.factors := fun _ => rfl
@[simp] theorem Hub.emit_flows : ∀ (e : Emission), (h.emit e).flows = h.flows := fun _ => rfl
@[simp] theorem Hub.emit_classes : ∀ (e : Emission), (h.emit e).classes = h.classes := fun _ => rfl
@[simp] theorem Hub.emit_outlets : ∀ (e : Emission), (h.emit e).outlets = h.outlets := fun _ => rfl
@[simp] theorem Hub.emit_lossyFullSeen : ∀ (e : Emission), (h.emit e).lossyFullSeen = h.lossyFullSeen := fun _ => rfl
@[simp] theorem Hub.emit_cellsWritten : ∀ (e : Emission), (h.emit e).cellsWritten = h.cellsWritten := fun _ => rfl
@[simp] theorem Hub.emit_cellsRead : ∀ (e : Emission), (h.emit e).cellsRead = h.cellsRead := fun _ => rfl
@[simp] theorem Hub.emit_power : ∀ (e : Emission), (h.emit e).power = h.power := fun _ => rfl
@[simp] theorem Hub.emit_clock : ∀ (e : Emission), (h.emit e).clock = h.clock := fun _ => rfl
@[simp] theorem Hub.emit_bindSince : ∀ (e : Emission), (h.emit e).bindSince = h.bindSince := fun _ => rfl
@[simp] theorem Hub.emit_bindNext : ∀ (e : Emission), (h.emit e).bindNext = h.bindNext := fun _ => rfl
@[simp] theorem Hub.emit_sinks : ∀ (e : Emission), (h.emit e).sinks = h.sinks := fun _ => rfl
@[simp] theorem Hub.emit_reports : ∀ (e : Emission), (h.emit e).reports = h.reports := fun _ => rfl
@[simp] theorem Hub.emit_linkAllow : ∀ (e : Emission), (h.emit e).linkAllow = h.linkAllow := fun _ => rfl
@[simp] theorem Hub.emit_units : ∀ (e : Emission), (h.emit e).units = h.units := fun _ => rfl
@[simp] theorem Hub.emit_cmPaths : ∀ (e : Emission), (h.emit e).cmPaths = h.cmPaths := fun _ => rfl
@[simp] theorem Hub.emit_auxGate : ∀ (e : Emission), (h.emit e).auxGate = h.auxGate := fun _ => rfl
@[simp] theorem Hub.emit_gates : ∀ (e : Emission), (h.emit e).gates = h.gates := fun _ => rfl
@[simp] theorem Hub.emit_reelBad : ∀ (e : Emission), (h.emit e).reelBad = h.reelBad := fun _ => rfl
@[simp] theorem Hub.emit_reelBlocks : ∀ (e : Emission), (h.emit e).reelBlocks = h.reelBlocks := fun _ => rfl
@[simp] theorem Hub.emit_heads : ∀ (e : Emission), (h.emit e).heads = h.heads := fun _ => rfl
@[simp] theorem Hub.emit_dpPorts : ∀ (e : Emission), (h.emit e).dpPorts = h.dpPorts := fun _ => rfl
@[simp] theorem Hub.emit_headRank : ∀ (e : Emission), (h.emit e).headRank = h.headRank := fun _ => rfl
@[simp] theorem Hub.emit_net : ∀ (e : Emission), (h.emit e).net = h.net := fun _ => rfl
@[simp] theorem Hub.emit_pen : ∀ (e : Emission), (h.emit e).pen = h.pen := fun _ => rfl
@[simp] theorem Hub.emit_vault : ∀ (e : Emission), (h.emit e).vault = h.vault := fun _ => rfl
@[simp] theorem Hub.emit_fabric : ∀ (e : Emission), (h.emit e).fabric = h.fabric := fun _ => rfl
@[simp] theorem Hub.emit_cue : ∀ (e : Emission), (h.emit e).cue = h.cue := fun _ => rfl
@[simp] theorem Hub.emit_tally : ∀ (e : Emission), (h.emit e).tally = h.tally := fun _ => rfl
@[simp] theorem Hub.emit_tunnels : ∀ (e : Emission), (h.emit e).tunnels = h.tunnels := fun _ => rfl
@[simp] theorem Hub.emit_usb : ∀ (e : Emission), (h.emit e).usb = h.usb := fun _ => rfl
@[simp] theorem Hub.emit_ports : ∀ (e : Emission), (h.emit e).ports = h.ports := fun _ => rfl
@[simp] theorem Hub.emit_weirs : ∀ (e : Emission), (h.emit e).weirs = h.weirs := fun _ => rfl
@[simp] theorem Hub.emit_input : ∀ (e : Emission), (h.emit e).input = h.input := fun _ => rfl
@[simp] theorem Hub.emit_misc : ∀ (e : Emission), (h.emit e).misc = h.misc := fun _ => rfl
@[simp] theorem Hub.emit_boot : ∀ (e : Emission), (h.emit e).boot = h.boot := fun _ => rfl

@[simp] theorem Hub.draw_otp : (h.draw).otp = h.otp := rfl
@[simp] theorem Hub.draw_regs : (h.draw).regs = h.regs := rfl
@[simp] theorem Hub.draw_active : (h.draw).active = h.active := rfl
@[simp] theorem Hub.draw_snaps : (h.draw).snaps = h.snaps := rfl
@[simp] theorem Hub.draw_staging : (h.draw).staging = h.staging := rfl
@[simp] theorem Hub.draw_ownerApplied : (h.draw).ownerApplied = h.ownerApplied := rfl
@[simp] theorem Hub.draw_domains : (h.draw).domains = h.domains := rfl
@[simp] theorem Hub.draw_stalled : (h.draw).stalled = h.stalled := rfl
@[simp] theorem Hub.draw_ftime : (h.draw).ftime = h.ftime := rfl
@[simp] theorem Hub.draw_epoch : (h.draw).epoch = h.epoch := rfl
@[simp] theorem Hub.draw_out : (h.draw).out = h.out := rfl
@[simp] theorem Hub.draw_turn : (h.draw).turn = h.turn := rfl
@[simp] theorem Hub.draw_forebays : (h.draw).forebays = h.forebays := rfl
@[simp] theorem Hub.draw_chains : (h.draw).chains = h.chains := rfl
@[simp] theorem Hub.draw_nextChain : (h.draw).nextChain = h.nextChain := rfl
@[simp] theorem Hub.draw_leaked : (h.draw).leaked = h.leaked := rfl
@[simp] theorem Hub.draw_marked : (h.draw).marked = h.marked := rfl
@[simp] theorem Hub.draw_cellErr : (h.draw).cellErr = h.cellErr := rfl
@[simp] theorem Hub.draw_credits : (h.draw).credits = h.credits := rfl
@[simp] theorem Hub.draw_txq : (h.draw).txq = h.txq := rfl
@[simp] theorem Hub.draw_halves : (h.draw).halves = h.halves := rfl
@[simp] theorem Hub.draw_pathSt : (h.draw).pathSt = h.pathSt := rfl
@[simp] theorem Hub.draw_factors : (h.draw).factors = h.factors := rfl
@[simp] theorem Hub.draw_flows : (h.draw).flows = h.flows := rfl
@[simp] theorem Hub.draw_classes : (h.draw).classes = h.classes := rfl
@[simp] theorem Hub.draw_outlets : (h.draw).outlets = h.outlets := rfl
@[simp] theorem Hub.draw_lossyFullSeen : (h.draw).lossyFullSeen = h.lossyFullSeen := rfl
@[simp] theorem Hub.draw_cellsWritten : (h.draw).cellsWritten = h.cellsWritten := rfl
@[simp] theorem Hub.draw_cellsRead : (h.draw).cellsRead = h.cellsRead := rfl
@[simp] theorem Hub.draw_power : (h.draw).power = h.power := rfl
@[simp] theorem Hub.draw_clock : (h.draw).clock = h.clock := rfl
@[simp] theorem Hub.draw_bindSince : (h.draw).bindSince = h.bindSince := rfl
@[simp] theorem Hub.draw_bindNext : (h.draw).bindNext = h.bindNext := rfl
@[simp] theorem Hub.draw_sinks : (h.draw).sinks = h.sinks := rfl
@[simp] theorem Hub.draw_reports : (h.draw).reports = h.reports := rfl
@[simp] theorem Hub.draw_linkAllow : (h.draw).linkAllow = h.linkAllow := rfl
@[simp] theorem Hub.draw_units : (h.draw).units = h.units := rfl
@[simp] theorem Hub.draw_cmPaths : (h.draw).cmPaths = h.cmPaths := rfl
@[simp] theorem Hub.draw_auxGate : (h.draw).auxGate = h.auxGate := rfl
@[simp] theorem Hub.draw_gates : (h.draw).gates = h.gates := rfl
@[simp] theorem Hub.draw_reelBad : (h.draw).reelBad = h.reelBad := rfl
@[simp] theorem Hub.draw_reelBlocks : (h.draw).reelBlocks = h.reelBlocks := rfl
@[simp] theorem Hub.draw_heads : (h.draw).heads = h.heads := rfl
@[simp] theorem Hub.draw_dpPorts : (h.draw).dpPorts = h.dpPorts := rfl
@[simp] theorem Hub.draw_headRank : (h.draw).headRank = h.headRank := rfl
@[simp] theorem Hub.draw_net : (h.draw).net = h.net := rfl
@[simp] theorem Hub.draw_pen : (h.draw).pen = h.pen := rfl
@[simp] theorem Hub.draw_vault : (h.draw).vault = h.vault := rfl
@[simp] theorem Hub.draw_fabric : (h.draw).fabric = h.fabric := rfl
@[simp] theorem Hub.draw_cue : (h.draw).cue = h.cue := rfl
@[simp] theorem Hub.draw_tally : (h.draw).tally = h.tally := rfl
@[simp] theorem Hub.draw_tunnels : (h.draw).tunnels = h.tunnels := rfl
@[simp] theorem Hub.draw_usb : (h.draw).usb = h.usb := rfl
@[simp] theorem Hub.draw_ports : (h.draw).ports = h.ports := rfl
@[simp] theorem Hub.draw_weirs : (h.draw).weirs = h.weirs := rfl
@[simp] theorem Hub.draw_input : (h.draw).input = h.input := rfl
@[simp] theorem Hub.draw_misc : (h.draw).misc = h.misc := rfl
@[simp] theorem Hub.draw_boot : (h.draw).boot = h.boot := rfl

@[simp] theorem Hub.setDom_otp : ∀ (d : Nat) (x : DomSt), (h.setDom d x).otp = h.otp := fun _ _ => rfl
@[simp] theorem Hub.setDom_regs : ∀ (d : Nat) (x : DomSt), (h.setDom d x).regs = h.regs := fun _ _ => rfl
@[simp] theorem Hub.setDom_active : ∀ (d : Nat) (x : DomSt), (h.setDom d x).active = h.active := fun _ _ => rfl
@[simp] theorem Hub.setDom_snaps : ∀ (d : Nat) (x : DomSt), (h.setDom d x).snaps = h.snaps := fun _ _ => rfl
@[simp] theorem Hub.setDom_staging : ∀ (d : Nat) (x : DomSt), (h.setDom d x).staging = h.staging := fun _ _ => rfl
@[simp] theorem Hub.setDom_ownerApplied : ∀ (d : Nat) (x : DomSt), (h.setDom d x).ownerApplied = h.ownerApplied := fun _ _ => rfl
@[simp] theorem Hub.setDom_stalled : ∀ (d : Nat) (x : DomSt), (h.setDom d x).stalled = h.stalled := fun _ _ => rfl
@[simp] theorem Hub.setDom_ftime : ∀ (d : Nat) (x : DomSt), (h.setDom d x).ftime = h.ftime := fun _ _ => rfl
@[simp] theorem Hub.setDom_epoch : ∀ (d : Nat) (x : DomSt), (h.setDom d x).epoch = h.epoch := fun _ _ => rfl
@[simp] theorem Hub.setDom_fresh : ∀ (d : Nat) (x : DomSt), (h.setDom d x).fresh = h.fresh := fun _ _ => rfl
@[simp] theorem Hub.setDom_out : ∀ (d : Nat) (x : DomSt), (h.setDom d x).out = h.out := fun _ _ => rfl
@[simp] theorem Hub.setDom_turn : ∀ (d : Nat) (x : DomSt), (h.setDom d x).turn = h.turn := fun _ _ => rfl
@[simp] theorem Hub.setDom_forebays : ∀ (d : Nat) (x : DomSt), (h.setDom d x).forebays = h.forebays := fun _ _ => rfl
@[simp] theorem Hub.setDom_chains : ∀ (d : Nat) (x : DomSt), (h.setDom d x).chains = h.chains := fun _ _ => rfl
@[simp] theorem Hub.setDom_nextChain : ∀ (d : Nat) (x : DomSt), (h.setDom d x).nextChain = h.nextChain := fun _ _ => rfl
@[simp] theorem Hub.setDom_leaked : ∀ (d : Nat) (x : DomSt), (h.setDom d x).leaked = h.leaked := fun _ _ => rfl
@[simp] theorem Hub.setDom_marked : ∀ (d : Nat) (x : DomSt), (h.setDom d x).marked = h.marked := fun _ _ => rfl
@[simp] theorem Hub.setDom_cellErr : ∀ (d : Nat) (x : DomSt), (h.setDom d x).cellErr = h.cellErr := fun _ _ => rfl
@[simp] theorem Hub.setDom_credits : ∀ (d : Nat) (x : DomSt), (h.setDom d x).credits = h.credits := fun _ _ => rfl
@[simp] theorem Hub.setDom_txq : ∀ (d : Nat) (x : DomSt), (h.setDom d x).txq = h.txq := fun _ _ => rfl
@[simp] theorem Hub.setDom_halves : ∀ (d : Nat) (x : DomSt), (h.setDom d x).halves = h.halves := fun _ _ => rfl
@[simp] theorem Hub.setDom_pathSt : ∀ (d : Nat) (x : DomSt), (h.setDom d x).pathSt = h.pathSt := fun _ _ => rfl
@[simp] theorem Hub.setDom_factors : ∀ (d : Nat) (x : DomSt), (h.setDom d x).factors = h.factors := fun _ _ => rfl
@[simp] theorem Hub.setDom_flows : ∀ (d : Nat) (x : DomSt), (h.setDom d x).flows = h.flows := fun _ _ => rfl
@[simp] theorem Hub.setDom_classes : ∀ (d : Nat) (x : DomSt), (h.setDom d x).classes = h.classes := fun _ _ => rfl
@[simp] theorem Hub.setDom_outlets : ∀ (d : Nat) (x : DomSt), (h.setDom d x).outlets = h.outlets := fun _ _ => rfl
@[simp] theorem Hub.setDom_lossyFullSeen : ∀ (d : Nat) (x : DomSt), (h.setDom d x).lossyFullSeen = h.lossyFullSeen := fun _ _ => rfl
@[simp] theorem Hub.setDom_cellsWritten : ∀ (d : Nat) (x : DomSt), (h.setDom d x).cellsWritten = h.cellsWritten := fun _ _ => rfl
@[simp] theorem Hub.setDom_cellsRead : ∀ (d : Nat) (x : DomSt), (h.setDom d x).cellsRead = h.cellsRead := fun _ _ => rfl
@[simp] theorem Hub.setDom_power : ∀ (d : Nat) (x : DomSt), (h.setDom d x).power = h.power := fun _ _ => rfl
@[simp] theorem Hub.setDom_clock : ∀ (d : Nat) (x : DomSt), (h.setDom d x).clock = h.clock := fun _ _ => rfl
@[simp] theorem Hub.setDom_bindSince : ∀ (d : Nat) (x : DomSt), (h.setDom d x).bindSince = h.bindSince := fun _ _ => rfl
@[simp] theorem Hub.setDom_bindNext : ∀ (d : Nat) (x : DomSt), (h.setDom d x).bindNext = h.bindNext := fun _ _ => rfl
@[simp] theorem Hub.setDom_sinks : ∀ (d : Nat) (x : DomSt), (h.setDom d x).sinks = h.sinks := fun _ _ => rfl
@[simp] theorem Hub.setDom_reports : ∀ (d : Nat) (x : DomSt), (h.setDom d x).reports = h.reports := fun _ _ => rfl
@[simp] theorem Hub.setDom_linkAllow : ∀ (d : Nat) (x : DomSt), (h.setDom d x).linkAllow = h.linkAllow := fun _ _ => rfl
@[simp] theorem Hub.setDom_units : ∀ (d : Nat) (x : DomSt), (h.setDom d x).units = h.units := fun _ _ => rfl
@[simp] theorem Hub.setDom_cmPaths : ∀ (d : Nat) (x : DomSt), (h.setDom d x).cmPaths = h.cmPaths := fun _ _ => rfl
@[simp] theorem Hub.setDom_auxGate : ∀ (d : Nat) (x : DomSt), (h.setDom d x).auxGate = h.auxGate := fun _ _ => rfl
@[simp] theorem Hub.setDom_gates : ∀ (d : Nat) (x : DomSt), (h.setDom d x).gates = h.gates := fun _ _ => rfl
@[simp] theorem Hub.setDom_reelBad : ∀ (d : Nat) (x : DomSt), (h.setDom d x).reelBad = h.reelBad := fun _ _ => rfl
@[simp] theorem Hub.setDom_reelBlocks : ∀ (d : Nat) (x : DomSt), (h.setDom d x).reelBlocks = h.reelBlocks := fun _ _ => rfl
@[simp] theorem Hub.setDom_heads : ∀ (d : Nat) (x : DomSt), (h.setDom d x).heads = h.heads := fun _ _ => rfl
@[simp] theorem Hub.setDom_dpPorts : ∀ (d : Nat) (x : DomSt), (h.setDom d x).dpPorts = h.dpPorts := fun _ _ => rfl
@[simp] theorem Hub.setDom_headRank : ∀ (d : Nat) (x : DomSt), (h.setDom d x).headRank = h.headRank := fun _ _ => rfl
@[simp] theorem Hub.setDom_net : ∀ (d : Nat) (x : DomSt), (h.setDom d x).net = h.net := fun _ _ => rfl
@[simp] theorem Hub.setDom_pen : ∀ (d : Nat) (x : DomSt), (h.setDom d x).pen = h.pen := fun _ _ => rfl
@[simp] theorem Hub.setDom_vault : ∀ (d : Nat) (x : DomSt), (h.setDom d x).vault = h.vault := fun _ _ => rfl
@[simp] theorem Hub.setDom_fabric : ∀ (d : Nat) (x : DomSt), (h.setDom d x).fabric = h.fabric := fun _ _ => rfl
@[simp] theorem Hub.setDom_cue : ∀ (d : Nat) (x : DomSt), (h.setDom d x).cue = h.cue := fun _ _ => rfl
@[simp] theorem Hub.setDom_tally : ∀ (d : Nat) (x : DomSt), (h.setDom d x).tally = h.tally := fun _ _ => rfl
@[simp] theorem Hub.setDom_tunnels : ∀ (d : Nat) (x : DomSt), (h.setDom d x).tunnels = h.tunnels := fun _ _ => rfl
@[simp] theorem Hub.setDom_usb : ∀ (d : Nat) (x : DomSt), (h.setDom d x).usb = h.usb := fun _ _ => rfl
@[simp] theorem Hub.setDom_ports : ∀ (d : Nat) (x : DomSt), (h.setDom d x).ports = h.ports := fun _ _ => rfl
@[simp] theorem Hub.setDom_weirs : ∀ (d : Nat) (x : DomSt), (h.setDom d x).weirs = h.weirs := fun _ _ => rfl
@[simp] theorem Hub.setDom_input : ∀ (d : Nat) (x : DomSt), (h.setDom d x).input = h.input := fun _ _ => rfl
@[simp] theorem Hub.setDom_misc : ∀ (d : Nat) (x : DomSt), (h.setDom d x).misc = h.misc := fun _ _ => rfl
@[simp] theorem Hub.setDom_boot : ∀ (d : Nat) (x : DomSt), (h.setDom d x).boot = h.boot := fun _ _ => rfl

@[simp] theorem Hub.setLeat_otp : ∀ (l : Nat) (x : LeatSt), (h.setLeat l x).otp = h.otp := fun _ _ => rfl
@[simp] theorem Hub.setLeat_regs : ∀ (l : Nat) (x : LeatSt), (h.setLeat l x).regs = h.regs := fun _ _ => rfl
@[simp] theorem Hub.setLeat_active : ∀ (l : Nat) (x : LeatSt), (h.setLeat l x).active = h.active := fun _ _ => rfl
@[simp] theorem Hub.setLeat_snaps : ∀ (l : Nat) (x : LeatSt), (h.setLeat l x).snaps = h.snaps := fun _ _ => rfl
@[simp] theorem Hub.setLeat_staging : ∀ (l : Nat) (x : LeatSt), (h.setLeat l x).staging = h.staging := fun _ _ => rfl
@[simp] theorem Hub.setLeat_ownerApplied : ∀ (l : Nat) (x : LeatSt), (h.setLeat l x).ownerApplied = h.ownerApplied := fun _ _ => rfl
@[simp] theorem Hub.setLeat_domains : ∀ (l : Nat) (x : LeatSt), (h.setLeat l x).domains = h.domains := fun _ _ => rfl
@[simp] theorem Hub.setLeat_stalled : ∀ (l : Nat) (x : LeatSt), (h.setLeat l x).stalled = h.stalled := fun _ _ => rfl
@[simp] theorem Hub.setLeat_ftime : ∀ (l : Nat) (x : LeatSt), (h.setLeat l x).ftime = h.ftime := fun _ _ => rfl
@[simp] theorem Hub.setLeat_epoch : ∀ (l : Nat) (x : LeatSt), (h.setLeat l x).epoch = h.epoch := fun _ _ => rfl
@[simp] theorem Hub.setLeat_fresh : ∀ (l : Nat) (x : LeatSt), (h.setLeat l x).fresh = h.fresh := fun _ _ => rfl
@[simp] theorem Hub.setLeat_out : ∀ (l : Nat) (x : LeatSt), (h.setLeat l x).out = h.out := fun _ _ => rfl
@[simp] theorem Hub.setLeat_turn : ∀ (l : Nat) (x : LeatSt), (h.setLeat l x).turn = h.turn := fun _ _ => rfl
@[simp] theorem Hub.setLeat_forebays : ∀ (l : Nat) (x : LeatSt), (h.setLeat l x).forebays = h.forebays := fun _ _ => rfl
@[simp] theorem Hub.setLeat_chains : ∀ (l : Nat) (x : LeatSt), (h.setLeat l x).chains = h.chains := fun _ _ => rfl
@[simp] theorem Hub.setLeat_nextChain : ∀ (l : Nat) (x : LeatSt), (h.setLeat l x).nextChain = h.nextChain := fun _ _ => rfl
@[simp] theorem Hub.setLeat_leaked : ∀ (l : Nat) (x : LeatSt), (h.setLeat l x).leaked = h.leaked := fun _ _ => rfl
@[simp] theorem Hub.setLeat_marked : ∀ (l : Nat) (x : LeatSt), (h.setLeat l x).marked = h.marked := fun _ _ => rfl
@[simp] theorem Hub.setLeat_cellErr : ∀ (l : Nat) (x : LeatSt), (h.setLeat l x).cellErr = h.cellErr := fun _ _ => rfl
@[simp] theorem Hub.setLeat_credits : ∀ (l : Nat) (x : LeatSt), (h.setLeat l x).credits = h.credits := fun _ _ => rfl
@[simp] theorem Hub.setLeat_txq : ∀ (l : Nat) (x : LeatSt), (h.setLeat l x).txq = h.txq := fun _ _ => rfl
@[simp] theorem Hub.setLeat_halves : ∀ (l : Nat) (x : LeatSt), (h.setLeat l x).halves = h.halves := fun _ _ => rfl
@[simp] theorem Hub.setLeat_pathSt : ∀ (l : Nat) (x : LeatSt), (h.setLeat l x).pathSt = h.pathSt := fun _ _ => rfl
@[simp] theorem Hub.setLeat_factors : ∀ (l : Nat) (x : LeatSt), (h.setLeat l x).factors = h.factors := fun _ _ => rfl
@[simp] theorem Hub.setLeat_flows : ∀ (l : Nat) (x : LeatSt), (h.setLeat l x).flows = h.flows := fun _ _ => rfl
@[simp] theorem Hub.setLeat_classes : ∀ (l : Nat) (x : LeatSt), (h.setLeat l x).classes = h.classes := fun _ _ => rfl
@[simp] theorem Hub.setLeat_outlets : ∀ (l : Nat) (x : LeatSt), (h.setLeat l x).outlets = h.outlets := fun _ _ => rfl
@[simp] theorem Hub.setLeat_lossyFullSeen : ∀ (l : Nat) (x : LeatSt), (h.setLeat l x).lossyFullSeen = h.lossyFullSeen := fun _ _ => rfl
@[simp] theorem Hub.setLeat_cellsWritten : ∀ (l : Nat) (x : LeatSt), (h.setLeat l x).cellsWritten = h.cellsWritten := fun _ _ => rfl
@[simp] theorem Hub.setLeat_cellsRead : ∀ (l : Nat) (x : LeatSt), (h.setLeat l x).cellsRead = h.cellsRead := fun _ _ => rfl
@[simp] theorem Hub.setLeat_power : ∀ (l : Nat) (x : LeatSt), (h.setLeat l x).power = h.power := fun _ _ => rfl
@[simp] theorem Hub.setLeat_clock : ∀ (l : Nat) (x : LeatSt), (h.setLeat l x).clock = h.clock := fun _ _ => rfl
@[simp] theorem Hub.setLeat_bindSince : ∀ (l : Nat) (x : LeatSt), (h.setLeat l x).bindSince = h.bindSince := fun _ _ => rfl
@[simp] theorem Hub.setLeat_bindNext : ∀ (l : Nat) (x : LeatSt), (h.setLeat l x).bindNext = h.bindNext := fun _ _ => rfl
@[simp] theorem Hub.setLeat_sinks : ∀ (l : Nat) (x : LeatSt), (h.setLeat l x).sinks = h.sinks := fun _ _ => rfl
@[simp] theorem Hub.setLeat_reports : ∀ (l : Nat) (x : LeatSt), (h.setLeat l x).reports = h.reports := fun _ _ => rfl
@[simp] theorem Hub.setLeat_linkAllow : ∀ (l : Nat) (x : LeatSt), (h.setLeat l x).linkAllow = h.linkAllow := fun _ _ => rfl
@[simp] theorem Hub.setLeat_units : ∀ (l : Nat) (x : LeatSt), (h.setLeat l x).units = h.units := fun _ _ => rfl
@[simp] theorem Hub.setLeat_cmPaths : ∀ (l : Nat) (x : LeatSt), (h.setLeat l x).cmPaths = h.cmPaths := fun _ _ => rfl
@[simp] theorem Hub.setLeat_auxGate : ∀ (l : Nat) (x : LeatSt), (h.setLeat l x).auxGate = h.auxGate := fun _ _ => rfl
@[simp] theorem Hub.setLeat_gates : ∀ (l : Nat) (x : LeatSt), (h.setLeat l x).gates = h.gates := fun _ _ => rfl
@[simp] theorem Hub.setLeat_reelBad : ∀ (l : Nat) (x : LeatSt), (h.setLeat l x).reelBad = h.reelBad := fun _ _ => rfl
@[simp] theorem Hub.setLeat_reelBlocks : ∀ (l : Nat) (x : LeatSt), (h.setLeat l x).reelBlocks = h.reelBlocks := fun _ _ => rfl
@[simp] theorem Hub.setLeat_heads : ∀ (l : Nat) (x : LeatSt), (h.setLeat l x).heads = h.heads := fun _ _ => rfl
@[simp] theorem Hub.setLeat_dpPorts : ∀ (l : Nat) (x : LeatSt), (h.setLeat l x).dpPorts = h.dpPorts := fun _ _ => rfl
@[simp] theorem Hub.setLeat_headRank : ∀ (l : Nat) (x : LeatSt), (h.setLeat l x).headRank = h.headRank := fun _ _ => rfl
@[simp] theorem Hub.setLeat_net : ∀ (l : Nat) (x : LeatSt), (h.setLeat l x).net = h.net := fun _ _ => rfl
@[simp] theorem Hub.setLeat_pen : ∀ (l : Nat) (x : LeatSt), (h.setLeat l x).pen = h.pen := fun _ _ => rfl
@[simp] theorem Hub.setLeat_vault : ∀ (l : Nat) (x : LeatSt), (h.setLeat l x).vault = h.vault := fun _ _ => rfl
@[simp] theorem Hub.setLeat_cue : ∀ (l : Nat) (x : LeatSt), (h.setLeat l x).cue = h.cue := fun _ _ => rfl
@[simp] theorem Hub.setLeat_tally : ∀ (l : Nat) (x : LeatSt), (h.setLeat l x).tally = h.tally := fun _ _ => rfl
@[simp] theorem Hub.setLeat_tunnels : ∀ (l : Nat) (x : LeatSt), (h.setLeat l x).tunnels = h.tunnels := fun _ _ => rfl
@[simp] theorem Hub.setLeat_usb : ∀ (l : Nat) (x : LeatSt), (h.setLeat l x).usb = h.usb := fun _ _ => rfl
@[simp] theorem Hub.setLeat_ports : ∀ (l : Nat) (x : LeatSt), (h.setLeat l x).ports = h.ports := fun _ _ => rfl
@[simp] theorem Hub.setLeat_weirs : ∀ (l : Nat) (x : LeatSt), (h.setLeat l x).weirs = h.weirs := fun _ _ => rfl
@[simp] theorem Hub.setLeat_input : ∀ (l : Nat) (x : LeatSt), (h.setLeat l x).input = h.input := fun _ _ => rfl
@[simp] theorem Hub.setLeat_misc : ∀ (l : Nat) (x : LeatSt), (h.setLeat l x).misc = h.misc := fun _ _ => rfl
@[simp] theorem Hub.setLeat_boot : ∀ (l : Nat) (x : LeatSt), (h.setLeat l x).boot = h.boot := fun _ _ => rfl

@[simp] theorem Hub.setGate_otp : ∀ (g : Nat) (x : GateSt), (h.setGate g x).otp = h.otp := fun _ _ => rfl
@[simp] theorem Hub.setGate_regs : ∀ (g : Nat) (x : GateSt), (h.setGate g x).regs = h.regs := fun _ _ => rfl
@[simp] theorem Hub.setGate_active : ∀ (g : Nat) (x : GateSt), (h.setGate g x).active = h.active := fun _ _ => rfl
@[simp] theorem Hub.setGate_snaps : ∀ (g : Nat) (x : GateSt), (h.setGate g x).snaps = h.snaps := fun _ _ => rfl
@[simp] theorem Hub.setGate_staging : ∀ (g : Nat) (x : GateSt), (h.setGate g x).staging = h.staging := fun _ _ => rfl
@[simp] theorem Hub.setGate_ownerApplied : ∀ (g : Nat) (x : GateSt), (h.setGate g x).ownerApplied = h.ownerApplied := fun _ _ => rfl
@[simp] theorem Hub.setGate_domains : ∀ (g : Nat) (x : GateSt), (h.setGate g x).domains = h.domains := fun _ _ => rfl
@[simp] theorem Hub.setGate_stalled : ∀ (g : Nat) (x : GateSt), (h.setGate g x).stalled = h.stalled := fun _ _ => rfl
@[simp] theorem Hub.setGate_ftime : ∀ (g : Nat) (x : GateSt), (h.setGate g x).ftime = h.ftime := fun _ _ => rfl
@[simp] theorem Hub.setGate_epoch : ∀ (g : Nat) (x : GateSt), (h.setGate g x).epoch = h.epoch := fun _ _ => rfl
@[simp] theorem Hub.setGate_fresh : ∀ (g : Nat) (x : GateSt), (h.setGate g x).fresh = h.fresh := fun _ _ => rfl
@[simp] theorem Hub.setGate_out : ∀ (g : Nat) (x : GateSt), (h.setGate g x).out = h.out := fun _ _ => rfl
@[simp] theorem Hub.setGate_turn : ∀ (g : Nat) (x : GateSt), (h.setGate g x).turn = h.turn := fun _ _ => rfl
@[simp] theorem Hub.setGate_forebays : ∀ (g : Nat) (x : GateSt), (h.setGate g x).forebays = h.forebays := fun _ _ => rfl
@[simp] theorem Hub.setGate_chains : ∀ (g : Nat) (x : GateSt), (h.setGate g x).chains = h.chains := fun _ _ => rfl
@[simp] theorem Hub.setGate_nextChain : ∀ (g : Nat) (x : GateSt), (h.setGate g x).nextChain = h.nextChain := fun _ _ => rfl
@[simp] theorem Hub.setGate_leaked : ∀ (g : Nat) (x : GateSt), (h.setGate g x).leaked = h.leaked := fun _ _ => rfl
@[simp] theorem Hub.setGate_marked : ∀ (g : Nat) (x : GateSt), (h.setGate g x).marked = h.marked := fun _ _ => rfl
@[simp] theorem Hub.setGate_cellErr : ∀ (g : Nat) (x : GateSt), (h.setGate g x).cellErr = h.cellErr := fun _ _ => rfl
@[simp] theorem Hub.setGate_credits : ∀ (g : Nat) (x : GateSt), (h.setGate g x).credits = h.credits := fun _ _ => rfl
@[simp] theorem Hub.setGate_txq : ∀ (g : Nat) (x : GateSt), (h.setGate g x).txq = h.txq := fun _ _ => rfl
@[simp] theorem Hub.setGate_halves : ∀ (g : Nat) (x : GateSt), (h.setGate g x).halves = h.halves := fun _ _ => rfl
@[simp] theorem Hub.setGate_pathSt : ∀ (g : Nat) (x : GateSt), (h.setGate g x).pathSt = h.pathSt := fun _ _ => rfl
@[simp] theorem Hub.setGate_factors : ∀ (g : Nat) (x : GateSt), (h.setGate g x).factors = h.factors := fun _ _ => rfl
@[simp] theorem Hub.setGate_flows : ∀ (g : Nat) (x : GateSt), (h.setGate g x).flows = h.flows := fun _ _ => rfl
@[simp] theorem Hub.setGate_classes : ∀ (g : Nat) (x : GateSt), (h.setGate g x).classes = h.classes := fun _ _ => rfl
@[simp] theorem Hub.setGate_outlets : ∀ (g : Nat) (x : GateSt), (h.setGate g x).outlets = h.outlets := fun _ _ => rfl
@[simp] theorem Hub.setGate_lossyFullSeen : ∀ (g : Nat) (x : GateSt), (h.setGate g x).lossyFullSeen = h.lossyFullSeen := fun _ _ => rfl
@[simp] theorem Hub.setGate_cellsWritten : ∀ (g : Nat) (x : GateSt), (h.setGate g x).cellsWritten = h.cellsWritten := fun _ _ => rfl
@[simp] theorem Hub.setGate_cellsRead : ∀ (g : Nat) (x : GateSt), (h.setGate g x).cellsRead = h.cellsRead := fun _ _ => rfl
@[simp] theorem Hub.setGate_power : ∀ (g : Nat) (x : GateSt), (h.setGate g x).power = h.power := fun _ _ => rfl
@[simp] theorem Hub.setGate_clock : ∀ (g : Nat) (x : GateSt), (h.setGate g x).clock = h.clock := fun _ _ => rfl
@[simp] theorem Hub.setGate_bindSince : ∀ (g : Nat) (x : GateSt), (h.setGate g x).bindSince = h.bindSince := fun _ _ => rfl
@[simp] theorem Hub.setGate_bindNext : ∀ (g : Nat) (x : GateSt), (h.setGate g x).bindNext = h.bindNext := fun _ _ => rfl
@[simp] theorem Hub.setGate_sinks : ∀ (g : Nat) (x : GateSt), (h.setGate g x).sinks = h.sinks := fun _ _ => rfl
@[simp] theorem Hub.setGate_reports : ∀ (g : Nat) (x : GateSt), (h.setGate g x).reports = h.reports := fun _ _ => rfl
@[simp] theorem Hub.setGate_linkAllow : ∀ (g : Nat) (x : GateSt), (h.setGate g x).linkAllow = h.linkAllow := fun _ _ => rfl
@[simp] theorem Hub.setGate_units : ∀ (g : Nat) (x : GateSt), (h.setGate g x).units = h.units := fun _ _ => rfl
@[simp] theorem Hub.setGate_cmPaths : ∀ (g : Nat) (x : GateSt), (h.setGate g x).cmPaths = h.cmPaths := fun _ _ => rfl
@[simp] theorem Hub.setGate_auxGate : ∀ (g : Nat) (x : GateSt), (h.setGate g x).auxGate = h.auxGate := fun _ _ => rfl
@[simp] theorem Hub.setGate_reelBad : ∀ (g : Nat) (x : GateSt), (h.setGate g x).reelBad = h.reelBad := fun _ _ => rfl
@[simp] theorem Hub.setGate_reelBlocks : ∀ (g : Nat) (x : GateSt), (h.setGate g x).reelBlocks = h.reelBlocks := fun _ _ => rfl
@[simp] theorem Hub.setGate_heads : ∀ (g : Nat) (x : GateSt), (h.setGate g x).heads = h.heads := fun _ _ => rfl
@[simp] theorem Hub.setGate_dpPorts : ∀ (g : Nat) (x : GateSt), (h.setGate g x).dpPorts = h.dpPorts := fun _ _ => rfl
@[simp] theorem Hub.setGate_headRank : ∀ (g : Nat) (x : GateSt), (h.setGate g x).headRank = h.headRank := fun _ _ => rfl
@[simp] theorem Hub.setGate_net : ∀ (g : Nat) (x : GateSt), (h.setGate g x).net = h.net := fun _ _ => rfl
@[simp] theorem Hub.setGate_pen : ∀ (g : Nat) (x : GateSt), (h.setGate g x).pen = h.pen := fun _ _ => rfl
@[simp] theorem Hub.setGate_vault : ∀ (g : Nat) (x : GateSt), (h.setGate g x).vault = h.vault := fun _ _ => rfl
@[simp] theorem Hub.setGate_fabric : ∀ (g : Nat) (x : GateSt), (h.setGate g x).fabric = h.fabric := fun _ _ => rfl
@[simp] theorem Hub.setGate_cue : ∀ (g : Nat) (x : GateSt), (h.setGate g x).cue = h.cue := fun _ _ => rfl
@[simp] theorem Hub.setGate_tally : ∀ (g : Nat) (x : GateSt), (h.setGate g x).tally = h.tally := fun _ _ => rfl
@[simp] theorem Hub.setGate_tunnels : ∀ (g : Nat) (x : GateSt), (h.setGate g x).tunnels = h.tunnels := fun _ _ => rfl
@[simp] theorem Hub.setGate_usb : ∀ (g : Nat) (x : GateSt), (h.setGate g x).usb = h.usb := fun _ _ => rfl
@[simp] theorem Hub.setGate_ports : ∀ (g : Nat) (x : GateSt), (h.setGate g x).ports = h.ports := fun _ _ => rfl
@[simp] theorem Hub.setGate_weirs : ∀ (g : Nat) (x : GateSt), (h.setGate g x).weirs = h.weirs := fun _ _ => rfl
@[simp] theorem Hub.setGate_input : ∀ (g : Nat) (x : GateSt), (h.setGate g x).input = h.input := fun _ _ => rfl
@[simp] theorem Hub.setGate_misc : ∀ (g : Nat) (x : GateSt), (h.setGate g x).misc = h.misc := fun _ _ => rfl
@[simp] theorem Hub.setGate_boot : ∀ (g : Nat) (x : GateSt), (h.setGate g x).boot = h.boot := fun _ _ => rfl

@[simp] theorem Hub.setChain_otp : ∀ (c : Chain), (h.setChain c).otp = h.otp := fun _ => rfl
@[simp] theorem Hub.setChain_regs : ∀ (c : Chain), (h.setChain c).regs = h.regs := fun _ => rfl
@[simp] theorem Hub.setChain_active : ∀ (c : Chain), (h.setChain c).active = h.active := fun _ => rfl
@[simp] theorem Hub.setChain_snaps : ∀ (c : Chain), (h.setChain c).snaps = h.snaps := fun _ => rfl
@[simp] theorem Hub.setChain_staging : ∀ (c : Chain), (h.setChain c).staging = h.staging := fun _ => rfl
@[simp] theorem Hub.setChain_ownerApplied : ∀ (c : Chain), (h.setChain c).ownerApplied = h.ownerApplied := fun _ => rfl
@[simp] theorem Hub.setChain_domains : ∀ (c : Chain), (h.setChain c).domains = h.domains := fun _ => rfl
@[simp] theorem Hub.setChain_stalled : ∀ (c : Chain), (h.setChain c).stalled = h.stalled := fun _ => rfl
@[simp] theorem Hub.setChain_ftime : ∀ (c : Chain), (h.setChain c).ftime = h.ftime := fun _ => rfl
@[simp] theorem Hub.setChain_epoch : ∀ (c : Chain), (h.setChain c).epoch = h.epoch := fun _ => rfl
@[simp] theorem Hub.setChain_fresh : ∀ (c : Chain), (h.setChain c).fresh = h.fresh := fun _ => rfl
@[simp] theorem Hub.setChain_out : ∀ (c : Chain), (h.setChain c).out = h.out := fun _ => rfl
@[simp] theorem Hub.setChain_turn : ∀ (c : Chain), (h.setChain c).turn = h.turn := fun _ => rfl
@[simp] theorem Hub.setChain_forebays : ∀ (c : Chain), (h.setChain c).forebays = h.forebays := fun _ => rfl
@[simp] theorem Hub.setChain_nextChain : ∀ (c : Chain), (h.setChain c).nextChain = h.nextChain := fun _ => rfl
@[simp] theorem Hub.setChain_leaked : ∀ (c : Chain), (h.setChain c).leaked = h.leaked := fun _ => rfl
@[simp] theorem Hub.setChain_marked : ∀ (c : Chain), (h.setChain c).marked = h.marked := fun _ => rfl
@[simp] theorem Hub.setChain_cellErr : ∀ (c : Chain), (h.setChain c).cellErr = h.cellErr := fun _ => rfl
@[simp] theorem Hub.setChain_credits : ∀ (c : Chain), (h.setChain c).credits = h.credits := fun _ => rfl
@[simp] theorem Hub.setChain_txq : ∀ (c : Chain), (h.setChain c).txq = h.txq := fun _ => rfl
@[simp] theorem Hub.setChain_halves : ∀ (c : Chain), (h.setChain c).halves = h.halves := fun _ => rfl
@[simp] theorem Hub.setChain_pathSt : ∀ (c : Chain), (h.setChain c).pathSt = h.pathSt := fun _ => rfl
@[simp] theorem Hub.setChain_factors : ∀ (c : Chain), (h.setChain c).factors = h.factors := fun _ => rfl
@[simp] theorem Hub.setChain_flows : ∀ (c : Chain), (h.setChain c).flows = h.flows := fun _ => rfl
@[simp] theorem Hub.setChain_classes : ∀ (c : Chain), (h.setChain c).classes = h.classes := fun _ => rfl
@[simp] theorem Hub.setChain_outlets : ∀ (c : Chain), (h.setChain c).outlets = h.outlets := fun _ => rfl
@[simp] theorem Hub.setChain_lossyFullSeen : ∀ (c : Chain), (h.setChain c).lossyFullSeen = h.lossyFullSeen := fun _ => rfl
@[simp] theorem Hub.setChain_cellsWritten : ∀ (c : Chain), (h.setChain c).cellsWritten = h.cellsWritten := fun _ => rfl
@[simp] theorem Hub.setChain_cellsRead : ∀ (c : Chain), (h.setChain c).cellsRead = h.cellsRead := fun _ => rfl
@[simp] theorem Hub.setChain_power : ∀ (c : Chain), (h.setChain c).power = h.power := fun _ => rfl
@[simp] theorem Hub.setChain_clock : ∀ (c : Chain), (h.setChain c).clock = h.clock := fun _ => rfl
@[simp] theorem Hub.setChain_bindSince : ∀ (c : Chain), (h.setChain c).bindSince = h.bindSince := fun _ => rfl
@[simp] theorem Hub.setChain_bindNext : ∀ (c : Chain), (h.setChain c).bindNext = h.bindNext := fun _ => rfl
@[simp] theorem Hub.setChain_sinks : ∀ (c : Chain), (h.setChain c).sinks = h.sinks := fun _ => rfl
@[simp] theorem Hub.setChain_reports : ∀ (c : Chain), (h.setChain c).reports = h.reports := fun _ => rfl
@[simp] theorem Hub.setChain_linkAllow : ∀ (c : Chain), (h.setChain c).linkAllow = h.linkAllow := fun _ => rfl
@[simp] theorem Hub.setChain_units : ∀ (c : Chain), (h.setChain c).units = h.units := fun _ => rfl
@[simp] theorem Hub.setChain_cmPaths : ∀ (c : Chain), (h.setChain c).cmPaths = h.cmPaths := fun _ => rfl
@[simp] theorem Hub.setChain_auxGate : ∀ (c : Chain), (h.setChain c).auxGate = h.auxGate := fun _ => rfl
@[simp] theorem Hub.setChain_gates : ∀ (c : Chain), (h.setChain c).gates = h.gates := fun _ => rfl
@[simp] theorem Hub.setChain_reelBad : ∀ (c : Chain), (h.setChain c).reelBad = h.reelBad := fun _ => rfl
@[simp] theorem Hub.setChain_reelBlocks : ∀ (c : Chain), (h.setChain c).reelBlocks = h.reelBlocks := fun _ => rfl
@[simp] theorem Hub.setChain_heads : ∀ (c : Chain), (h.setChain c).heads = h.heads := fun _ => rfl
@[simp] theorem Hub.setChain_dpPorts : ∀ (c : Chain), (h.setChain c).dpPorts = h.dpPorts := fun _ => rfl
@[simp] theorem Hub.setChain_headRank : ∀ (c : Chain), (h.setChain c).headRank = h.headRank := fun _ => rfl
@[simp] theorem Hub.setChain_net : ∀ (c : Chain), (h.setChain c).net = h.net := fun _ => rfl
@[simp] theorem Hub.setChain_pen : ∀ (c : Chain), (h.setChain c).pen = h.pen := fun _ => rfl
@[simp] theorem Hub.setChain_vault : ∀ (c : Chain), (h.setChain c).vault = h.vault := fun _ => rfl
@[simp] theorem Hub.setChain_fabric : ∀ (c : Chain), (h.setChain c).fabric = h.fabric := fun _ => rfl
@[simp] theorem Hub.setChain_cue : ∀ (c : Chain), (h.setChain c).cue = h.cue := fun _ => rfl
@[simp] theorem Hub.setChain_tally : ∀ (c : Chain), (h.setChain c).tally = h.tally := fun _ => rfl
@[simp] theorem Hub.setChain_tunnels : ∀ (c : Chain), (h.setChain c).tunnels = h.tunnels := fun _ => rfl
@[simp] theorem Hub.setChain_usb : ∀ (c : Chain), (h.setChain c).usb = h.usb := fun _ => rfl
@[simp] theorem Hub.setChain_ports : ∀ (c : Chain), (h.setChain c).ports = h.ports := fun _ => rfl
@[simp] theorem Hub.setChain_weirs : ∀ (c : Chain), (h.setChain c).weirs = h.weirs := fun _ => rfl
@[simp] theorem Hub.setChain_input : ∀ (c : Chain), (h.setChain c).input = h.input := fun _ => rfl
@[simp] theorem Hub.setChain_misc : ∀ (c : Chain), (h.setChain c).misc = h.misc := fun _ => rfl
@[simp] theorem Hub.setChain_boot : ∀ (c : Chain), (h.setChain c).boot = h.boot := fun _ => rfl

@[simp] theorem Hub.setFlow_otp : ∀ (p o : Nat) (f : Flow), (h.setFlow p o f).otp = h.otp := fun _ _ _ => rfl
@[simp] theorem Hub.setFlow_regs : ∀ (p o : Nat) (f : Flow), (h.setFlow p o f).regs = h.regs := fun _ _ _ => rfl
@[simp] theorem Hub.setFlow_active : ∀ (p o : Nat) (f : Flow), (h.setFlow p o f).active = h.active := fun _ _ _ => rfl
@[simp] theorem Hub.setFlow_snaps : ∀ (p o : Nat) (f : Flow), (h.setFlow p o f).snaps = h.snaps := fun _ _ _ => rfl
@[simp] theorem Hub.setFlow_staging : ∀ (p o : Nat) (f : Flow), (h.setFlow p o f).staging = h.staging := fun _ _ _ => rfl
@[simp] theorem Hub.setFlow_ownerApplied : ∀ (p o : Nat) (f : Flow), (h.setFlow p o f).ownerApplied = h.ownerApplied := fun _ _ _ => rfl
@[simp] theorem Hub.setFlow_domains : ∀ (p o : Nat) (f : Flow), (h.setFlow p o f).domains = h.domains := fun _ _ _ => rfl
@[simp] theorem Hub.setFlow_stalled : ∀ (p o : Nat) (f : Flow), (h.setFlow p o f).stalled = h.stalled := fun _ _ _ => rfl
@[simp] theorem Hub.setFlow_ftime : ∀ (p o : Nat) (f : Flow), (h.setFlow p o f).ftime = h.ftime := fun _ _ _ => rfl
@[simp] theorem Hub.setFlow_epoch : ∀ (p o : Nat) (f : Flow), (h.setFlow p o f).epoch = h.epoch := fun _ _ _ => rfl
@[simp] theorem Hub.setFlow_fresh : ∀ (p o : Nat) (f : Flow), (h.setFlow p o f).fresh = h.fresh := fun _ _ _ => rfl
@[simp] theorem Hub.setFlow_out : ∀ (p o : Nat) (f : Flow), (h.setFlow p o f).out = h.out := fun _ _ _ => rfl
@[simp] theorem Hub.setFlow_turn : ∀ (p o : Nat) (f : Flow), (h.setFlow p o f).turn = h.turn := fun _ _ _ => rfl
@[simp] theorem Hub.setFlow_forebays : ∀ (p o : Nat) (f : Flow), (h.setFlow p o f).forebays = h.forebays := fun _ _ _ => rfl
@[simp] theorem Hub.setFlow_chains : ∀ (p o : Nat) (f : Flow), (h.setFlow p o f).chains = h.chains := fun _ _ _ => rfl
@[simp] theorem Hub.setFlow_nextChain : ∀ (p o : Nat) (f : Flow), (h.setFlow p o f).nextChain = h.nextChain := fun _ _ _ => rfl
@[simp] theorem Hub.setFlow_leaked : ∀ (p o : Nat) (f : Flow), (h.setFlow p o f).leaked = h.leaked := fun _ _ _ => rfl
@[simp] theorem Hub.setFlow_marked : ∀ (p o : Nat) (f : Flow), (h.setFlow p o f).marked = h.marked := fun _ _ _ => rfl
@[simp] theorem Hub.setFlow_cellErr : ∀ (p o : Nat) (f : Flow), (h.setFlow p o f).cellErr = h.cellErr := fun _ _ _ => rfl
@[simp] theorem Hub.setFlow_credits : ∀ (p o : Nat) (f : Flow), (h.setFlow p o f).credits = h.credits := fun _ _ _ => rfl
@[simp] theorem Hub.setFlow_txq : ∀ (p o : Nat) (f : Flow), (h.setFlow p o f).txq = h.txq := fun _ _ _ => rfl
@[simp] theorem Hub.setFlow_halves : ∀ (p o : Nat) (f : Flow), (h.setFlow p o f).halves = h.halves := fun _ _ _ => rfl
@[simp] theorem Hub.setFlow_pathSt : ∀ (p o : Nat) (f : Flow), (h.setFlow p o f).pathSt = h.pathSt := fun _ _ _ => rfl
@[simp] theorem Hub.setFlow_factors : ∀ (p o : Nat) (f : Flow), (h.setFlow p o f).factors = h.factors := fun _ _ _ => rfl
@[simp] theorem Hub.setFlow_classes : ∀ (p o : Nat) (f : Flow), (h.setFlow p o f).classes = h.classes := fun _ _ _ => rfl
@[simp] theorem Hub.setFlow_outlets : ∀ (p o : Nat) (f : Flow), (h.setFlow p o f).outlets = h.outlets := fun _ _ _ => rfl
@[simp] theorem Hub.setFlow_lossyFullSeen : ∀ (p o : Nat) (f : Flow), (h.setFlow p o f).lossyFullSeen = h.lossyFullSeen := fun _ _ _ => rfl
@[simp] theorem Hub.setFlow_cellsWritten : ∀ (p o : Nat) (f : Flow), (h.setFlow p o f).cellsWritten = h.cellsWritten := fun _ _ _ => rfl
@[simp] theorem Hub.setFlow_cellsRead : ∀ (p o : Nat) (f : Flow), (h.setFlow p o f).cellsRead = h.cellsRead := fun _ _ _ => rfl
@[simp] theorem Hub.setFlow_power : ∀ (p o : Nat) (f : Flow), (h.setFlow p o f).power = h.power := fun _ _ _ => rfl
@[simp] theorem Hub.setFlow_clock : ∀ (p o : Nat) (f : Flow), (h.setFlow p o f).clock = h.clock := fun _ _ _ => rfl
@[simp] theorem Hub.setFlow_bindSince : ∀ (p o : Nat) (f : Flow), (h.setFlow p o f).bindSince = h.bindSince := fun _ _ _ => rfl
@[simp] theorem Hub.setFlow_bindNext : ∀ (p o : Nat) (f : Flow), (h.setFlow p o f).bindNext = h.bindNext := fun _ _ _ => rfl
@[simp] theorem Hub.setFlow_sinks : ∀ (p o : Nat) (f : Flow), (h.setFlow p o f).sinks = h.sinks := fun _ _ _ => rfl
@[simp] theorem Hub.setFlow_reports : ∀ (p o : Nat) (f : Flow), (h.setFlow p o f).reports = h.reports := fun _ _ _ => rfl
@[simp] theorem Hub.setFlow_linkAllow : ∀ (p o : Nat) (f : Flow), (h.setFlow p o f).linkAllow = h.linkAllow := fun _ _ _ => rfl
@[simp] theorem Hub.setFlow_units : ∀ (p o : Nat) (f : Flow), (h.setFlow p o f).units = h.units := fun _ _ _ => rfl
@[simp] theorem Hub.setFlow_cmPaths : ∀ (p o : Nat) (f : Flow), (h.setFlow p o f).cmPaths = h.cmPaths := fun _ _ _ => rfl
@[simp] theorem Hub.setFlow_auxGate : ∀ (p o : Nat) (f : Flow), (h.setFlow p o f).auxGate = h.auxGate := fun _ _ _ => rfl
@[simp] theorem Hub.setFlow_gates : ∀ (p o : Nat) (f : Flow), (h.setFlow p o f).gates = h.gates := fun _ _ _ => rfl
@[simp] theorem Hub.setFlow_reelBad : ∀ (p o : Nat) (f : Flow), (h.setFlow p o f).reelBad = h.reelBad := fun _ _ _ => rfl
@[simp] theorem Hub.setFlow_reelBlocks : ∀ (p o : Nat) (f : Flow), (h.setFlow p o f).reelBlocks = h.reelBlocks := fun _ _ _ => rfl
@[simp] theorem Hub.setFlow_heads : ∀ (p o : Nat) (f : Flow), (h.setFlow p o f).heads = h.heads := fun _ _ _ => rfl
@[simp] theorem Hub.setFlow_dpPorts : ∀ (p o : Nat) (f : Flow), (h.setFlow p o f).dpPorts = h.dpPorts := fun _ _ _ => rfl
@[simp] theorem Hub.setFlow_headRank : ∀ (p o : Nat) (f : Flow), (h.setFlow p o f).headRank = h.headRank := fun _ _ _ => rfl
@[simp] theorem Hub.setFlow_net : ∀ (p o : Nat) (f : Flow), (h.setFlow p o f).net = h.net := fun _ _ _ => rfl
@[simp] theorem Hub.setFlow_pen : ∀ (p o : Nat) (f : Flow), (h.setFlow p o f).pen = h.pen := fun _ _ _ => rfl
@[simp] theorem Hub.setFlow_vault : ∀ (p o : Nat) (f : Flow), (h.setFlow p o f).vault = h.vault := fun _ _ _ => rfl
@[simp] theorem Hub.setFlow_fabric : ∀ (p o : Nat) (f : Flow), (h.setFlow p o f).fabric = h.fabric := fun _ _ _ => rfl
@[simp] theorem Hub.setFlow_cue : ∀ (p o : Nat) (f : Flow), (h.setFlow p o f).cue = h.cue := fun _ _ _ => rfl
@[simp] theorem Hub.setFlow_tally : ∀ (p o : Nat) (f : Flow), (h.setFlow p o f).tally = h.tally := fun _ _ _ => rfl
@[simp] theorem Hub.setFlow_tunnels : ∀ (p o : Nat) (f : Flow), (h.setFlow p o f).tunnels = h.tunnels := fun _ _ _ => rfl
@[simp] theorem Hub.setFlow_usb : ∀ (p o : Nat) (f : Flow), (h.setFlow p o f).usb = h.usb := fun _ _ _ => rfl
@[simp] theorem Hub.setFlow_ports : ∀ (p o : Nat) (f : Flow), (h.setFlow p o f).ports = h.ports := fun _ _ _ => rfl
@[simp] theorem Hub.setFlow_weirs : ∀ (p o : Nat) (f : Flow), (h.setFlow p o f).weirs = h.weirs := fun _ _ _ => rfl
@[simp] theorem Hub.setFlow_input : ∀ (p o : Nat) (f : Flow), (h.setFlow p o f).input = h.input := fun _ _ _ => rfl
@[simp] theorem Hub.setFlow_misc : ∀ (p o : Nat) (f : Flow), (h.setFlow p o f).misc = h.misc := fun _ _ _ => rfl
@[simp] theorem Hub.setFlow_boot : ∀ (p o : Nat) (f : Flow), (h.setFlow p o f).boot = h.boot := fun _ _ _ => rfl

@[simp] theorem Hub.setPst_otp : ∀ (p : Nat) (x : PathSt), (h.setPst p x).otp = h.otp := fun _ _ => rfl
@[simp] theorem Hub.setPst_regs : ∀ (p : Nat) (x : PathSt), (h.setPst p x).regs = h.regs := fun _ _ => rfl
@[simp] theorem Hub.setPst_active : ∀ (p : Nat) (x : PathSt), (h.setPst p x).active = h.active := fun _ _ => rfl
@[simp] theorem Hub.setPst_snaps : ∀ (p : Nat) (x : PathSt), (h.setPst p x).snaps = h.snaps := fun _ _ => rfl
@[simp] theorem Hub.setPst_staging : ∀ (p : Nat) (x : PathSt), (h.setPst p x).staging = h.staging := fun _ _ => rfl
@[simp] theorem Hub.setPst_ownerApplied : ∀ (p : Nat) (x : PathSt), (h.setPst p x).ownerApplied = h.ownerApplied := fun _ _ => rfl
@[simp] theorem Hub.setPst_domains : ∀ (p : Nat) (x : PathSt), (h.setPst p x).domains = h.domains := fun _ _ => rfl
@[simp] theorem Hub.setPst_stalled : ∀ (p : Nat) (x : PathSt), (h.setPst p x).stalled = h.stalled := fun _ _ => rfl
@[simp] theorem Hub.setPst_ftime : ∀ (p : Nat) (x : PathSt), (h.setPst p x).ftime = h.ftime := fun _ _ => rfl
@[simp] theorem Hub.setPst_epoch : ∀ (p : Nat) (x : PathSt), (h.setPst p x).epoch = h.epoch := fun _ _ => rfl
@[simp] theorem Hub.setPst_fresh : ∀ (p : Nat) (x : PathSt), (h.setPst p x).fresh = h.fresh := fun _ _ => rfl
@[simp] theorem Hub.setPst_out : ∀ (p : Nat) (x : PathSt), (h.setPst p x).out = h.out := fun _ _ => rfl
@[simp] theorem Hub.setPst_turn : ∀ (p : Nat) (x : PathSt), (h.setPst p x).turn = h.turn := fun _ _ => rfl
@[simp] theorem Hub.setPst_forebays : ∀ (p : Nat) (x : PathSt), (h.setPst p x).forebays = h.forebays := fun _ _ => rfl
@[simp] theorem Hub.setPst_chains : ∀ (p : Nat) (x : PathSt), (h.setPst p x).chains = h.chains := fun _ _ => rfl
@[simp] theorem Hub.setPst_nextChain : ∀ (p : Nat) (x : PathSt), (h.setPst p x).nextChain = h.nextChain := fun _ _ => rfl
@[simp] theorem Hub.setPst_leaked : ∀ (p : Nat) (x : PathSt), (h.setPst p x).leaked = h.leaked := fun _ _ => rfl
@[simp] theorem Hub.setPst_marked : ∀ (p : Nat) (x : PathSt), (h.setPst p x).marked = h.marked := fun _ _ => rfl
@[simp] theorem Hub.setPst_cellErr : ∀ (p : Nat) (x : PathSt), (h.setPst p x).cellErr = h.cellErr := fun _ _ => rfl
@[simp] theorem Hub.setPst_credits : ∀ (p : Nat) (x : PathSt), (h.setPst p x).credits = h.credits := fun _ _ => rfl
@[simp] theorem Hub.setPst_txq : ∀ (p : Nat) (x : PathSt), (h.setPst p x).txq = h.txq := fun _ _ => rfl
@[simp] theorem Hub.setPst_halves : ∀ (p : Nat) (x : PathSt), (h.setPst p x).halves = h.halves := fun _ _ => rfl
@[simp] theorem Hub.setPst_factors : ∀ (p : Nat) (x : PathSt), (h.setPst p x).factors = h.factors := fun _ _ => rfl
@[simp] theorem Hub.setPst_flows : ∀ (p : Nat) (x : PathSt), (h.setPst p x).flows = h.flows := fun _ _ => rfl
@[simp] theorem Hub.setPst_classes : ∀ (p : Nat) (x : PathSt), (h.setPst p x).classes = h.classes := fun _ _ => rfl
@[simp] theorem Hub.setPst_outlets : ∀ (p : Nat) (x : PathSt), (h.setPst p x).outlets = h.outlets := fun _ _ => rfl
@[simp] theorem Hub.setPst_lossyFullSeen : ∀ (p : Nat) (x : PathSt), (h.setPst p x).lossyFullSeen = h.lossyFullSeen := fun _ _ => rfl
@[simp] theorem Hub.setPst_cellsWritten : ∀ (p : Nat) (x : PathSt), (h.setPst p x).cellsWritten = h.cellsWritten := fun _ _ => rfl
@[simp] theorem Hub.setPst_cellsRead : ∀ (p : Nat) (x : PathSt), (h.setPst p x).cellsRead = h.cellsRead := fun _ _ => rfl
@[simp] theorem Hub.setPst_power : ∀ (p : Nat) (x : PathSt), (h.setPst p x).power = h.power := fun _ _ => rfl
@[simp] theorem Hub.setPst_clock : ∀ (p : Nat) (x : PathSt), (h.setPst p x).clock = h.clock := fun _ _ => rfl
@[simp] theorem Hub.setPst_bindSince : ∀ (p : Nat) (x : PathSt), (h.setPst p x).bindSince = h.bindSince := fun _ _ => rfl
@[simp] theorem Hub.setPst_bindNext : ∀ (p : Nat) (x : PathSt), (h.setPst p x).bindNext = h.bindNext := fun _ _ => rfl
@[simp] theorem Hub.setPst_sinks : ∀ (p : Nat) (x : PathSt), (h.setPst p x).sinks = h.sinks := fun _ _ => rfl
@[simp] theorem Hub.setPst_reports : ∀ (p : Nat) (x : PathSt), (h.setPst p x).reports = h.reports := fun _ _ => rfl
@[simp] theorem Hub.setPst_linkAllow : ∀ (p : Nat) (x : PathSt), (h.setPst p x).linkAllow = h.linkAllow := fun _ _ => rfl
@[simp] theorem Hub.setPst_units : ∀ (p : Nat) (x : PathSt), (h.setPst p x).units = h.units := fun _ _ => rfl
@[simp] theorem Hub.setPst_cmPaths : ∀ (p : Nat) (x : PathSt), (h.setPst p x).cmPaths = h.cmPaths := fun _ _ => rfl
@[simp] theorem Hub.setPst_auxGate : ∀ (p : Nat) (x : PathSt), (h.setPst p x).auxGate = h.auxGate := fun _ _ => rfl
@[simp] theorem Hub.setPst_gates : ∀ (p : Nat) (x : PathSt), (h.setPst p x).gates = h.gates := fun _ _ => rfl
@[simp] theorem Hub.setPst_reelBad : ∀ (p : Nat) (x : PathSt), (h.setPst p x).reelBad = h.reelBad := fun _ _ => rfl
@[simp] theorem Hub.setPst_reelBlocks : ∀ (p : Nat) (x : PathSt), (h.setPst p x).reelBlocks = h.reelBlocks := fun _ _ => rfl
@[simp] theorem Hub.setPst_heads : ∀ (p : Nat) (x : PathSt), (h.setPst p x).heads = h.heads := fun _ _ => rfl
@[simp] theorem Hub.setPst_dpPorts : ∀ (p : Nat) (x : PathSt), (h.setPst p x).dpPorts = h.dpPorts := fun _ _ => rfl
@[simp] theorem Hub.setPst_headRank : ∀ (p : Nat) (x : PathSt), (h.setPst p x).headRank = h.headRank := fun _ _ => rfl
@[simp] theorem Hub.setPst_net : ∀ (p : Nat) (x : PathSt), (h.setPst p x).net = h.net := fun _ _ => rfl
@[simp] theorem Hub.setPst_pen : ∀ (p : Nat) (x : PathSt), (h.setPst p x).pen = h.pen := fun _ _ => rfl
@[simp] theorem Hub.setPst_vault : ∀ (p : Nat) (x : PathSt), (h.setPst p x).vault = h.vault := fun _ _ => rfl
@[simp] theorem Hub.setPst_fabric : ∀ (p : Nat) (x : PathSt), (h.setPst p x).fabric = h.fabric := fun _ _ => rfl
@[simp] theorem Hub.setPst_cue : ∀ (p : Nat) (x : PathSt), (h.setPst p x).cue = h.cue := fun _ _ => rfl
@[simp] theorem Hub.setPst_tally : ∀ (p : Nat) (x : PathSt), (h.setPst p x).tally = h.tally := fun _ _ => rfl
@[simp] theorem Hub.setPst_tunnels : ∀ (p : Nat) (x : PathSt), (h.setPst p x).tunnels = h.tunnels := fun _ _ => rfl
@[simp] theorem Hub.setPst_usb : ∀ (p : Nat) (x : PathSt), (h.setPst p x).usb = h.usb := fun _ _ => rfl
@[simp] theorem Hub.setPst_ports : ∀ (p : Nat) (x : PathSt), (h.setPst p x).ports = h.ports := fun _ _ => rfl
@[simp] theorem Hub.setPst_weirs : ∀ (p : Nat) (x : PathSt), (h.setPst p x).weirs = h.weirs := fun _ _ => rfl
@[simp] theorem Hub.setPst_input : ∀ (p : Nat) (x : PathSt), (h.setPst p x).input = h.input := fun _ _ => rfl
@[simp] theorem Hub.setPst_misc : ∀ (p : Nat) (x : PathSt), (h.setPst p x).misc = h.misc := fun _ _ => rfl
@[simp] theorem Hub.setPst_boot : ∀ (p : Nat) (x : PathSt), (h.setPst p x).boot = h.boot := fun _ _ => rfl

@[simp] theorem Hub.setForebay_otp : ∀ (i : Nat) (f : Forebay), (h.setForebay i f).otp = h.otp := fun _ _ => rfl
@[simp] theorem Hub.setForebay_regs : ∀ (i : Nat) (f : Forebay), (h.setForebay i f).regs = h.regs := fun _ _ => rfl
@[simp] theorem Hub.setForebay_active : ∀ (i : Nat) (f : Forebay), (h.setForebay i f).active = h.active := fun _ _ => rfl
@[simp] theorem Hub.setForebay_snaps : ∀ (i : Nat) (f : Forebay), (h.setForebay i f).snaps = h.snaps := fun _ _ => rfl
@[simp] theorem Hub.setForebay_staging : ∀ (i : Nat) (f : Forebay), (h.setForebay i f).staging = h.staging := fun _ _ => rfl
@[simp] theorem Hub.setForebay_ownerApplied : ∀ (i : Nat) (f : Forebay), (h.setForebay i f).ownerApplied = h.ownerApplied := fun _ _ => rfl
@[simp] theorem Hub.setForebay_domains : ∀ (i : Nat) (f : Forebay), (h.setForebay i f).domains = h.domains := fun _ _ => rfl
@[simp] theorem Hub.setForebay_stalled : ∀ (i : Nat) (f : Forebay), (h.setForebay i f).stalled = h.stalled := fun _ _ => rfl
@[simp] theorem Hub.setForebay_ftime : ∀ (i : Nat) (f : Forebay), (h.setForebay i f).ftime = h.ftime := fun _ _ => rfl
@[simp] theorem Hub.setForebay_epoch : ∀ (i : Nat) (f : Forebay), (h.setForebay i f).epoch = h.epoch := fun _ _ => rfl
@[simp] theorem Hub.setForebay_fresh : ∀ (i : Nat) (f : Forebay), (h.setForebay i f).fresh = h.fresh := fun _ _ => rfl
@[simp] theorem Hub.setForebay_out : ∀ (i : Nat) (f : Forebay), (h.setForebay i f).out = h.out := fun _ _ => rfl
@[simp] theorem Hub.setForebay_turn : ∀ (i : Nat) (f : Forebay), (h.setForebay i f).turn = h.turn := fun _ _ => rfl
@[simp] theorem Hub.setForebay_chains : ∀ (i : Nat) (f : Forebay), (h.setForebay i f).chains = h.chains := fun _ _ => rfl
@[simp] theorem Hub.setForebay_nextChain : ∀ (i : Nat) (f : Forebay), (h.setForebay i f).nextChain = h.nextChain := fun _ _ => rfl
@[simp] theorem Hub.setForebay_leaked : ∀ (i : Nat) (f : Forebay), (h.setForebay i f).leaked = h.leaked := fun _ _ => rfl
@[simp] theorem Hub.setForebay_marked : ∀ (i : Nat) (f : Forebay), (h.setForebay i f).marked = h.marked := fun _ _ => rfl
@[simp] theorem Hub.setForebay_cellErr : ∀ (i : Nat) (f : Forebay), (h.setForebay i f).cellErr = h.cellErr := fun _ _ => rfl
@[simp] theorem Hub.setForebay_credits : ∀ (i : Nat) (f : Forebay), (h.setForebay i f).credits = h.credits := fun _ _ => rfl
@[simp] theorem Hub.setForebay_txq : ∀ (i : Nat) (f : Forebay), (h.setForebay i f).txq = h.txq := fun _ _ => rfl
@[simp] theorem Hub.setForebay_halves : ∀ (i : Nat) (f : Forebay), (h.setForebay i f).halves = h.halves := fun _ _ => rfl
@[simp] theorem Hub.setForebay_pathSt : ∀ (i : Nat) (f : Forebay), (h.setForebay i f).pathSt = h.pathSt := fun _ _ => rfl
@[simp] theorem Hub.setForebay_factors : ∀ (i : Nat) (f : Forebay), (h.setForebay i f).factors = h.factors := fun _ _ => rfl
@[simp] theorem Hub.setForebay_flows : ∀ (i : Nat) (f : Forebay), (h.setForebay i f).flows = h.flows := fun _ _ => rfl
@[simp] theorem Hub.setForebay_classes : ∀ (i : Nat) (f : Forebay), (h.setForebay i f).classes = h.classes := fun _ _ => rfl
@[simp] theorem Hub.setForebay_outlets : ∀ (i : Nat) (f : Forebay), (h.setForebay i f).outlets = h.outlets := fun _ _ => rfl
@[simp] theorem Hub.setForebay_lossyFullSeen : ∀ (i : Nat) (f : Forebay), (h.setForebay i f).lossyFullSeen = h.lossyFullSeen := fun _ _ => rfl
@[simp] theorem Hub.setForebay_cellsWritten : ∀ (i : Nat) (f : Forebay), (h.setForebay i f).cellsWritten = h.cellsWritten := fun _ _ => rfl
@[simp] theorem Hub.setForebay_cellsRead : ∀ (i : Nat) (f : Forebay), (h.setForebay i f).cellsRead = h.cellsRead := fun _ _ => rfl
@[simp] theorem Hub.setForebay_power : ∀ (i : Nat) (f : Forebay), (h.setForebay i f).power = h.power := fun _ _ => rfl
@[simp] theorem Hub.setForebay_clock : ∀ (i : Nat) (f : Forebay), (h.setForebay i f).clock = h.clock := fun _ _ => rfl
@[simp] theorem Hub.setForebay_bindSince : ∀ (i : Nat) (f : Forebay), (h.setForebay i f).bindSince = h.bindSince := fun _ _ => rfl
@[simp] theorem Hub.setForebay_bindNext : ∀ (i : Nat) (f : Forebay), (h.setForebay i f).bindNext = h.bindNext := fun _ _ => rfl
@[simp] theorem Hub.setForebay_sinks : ∀ (i : Nat) (f : Forebay), (h.setForebay i f).sinks = h.sinks := fun _ _ => rfl
@[simp] theorem Hub.setForebay_reports : ∀ (i : Nat) (f : Forebay), (h.setForebay i f).reports = h.reports := fun _ _ => rfl
@[simp] theorem Hub.setForebay_linkAllow : ∀ (i : Nat) (f : Forebay), (h.setForebay i f).linkAllow = h.linkAllow := fun _ _ => rfl
@[simp] theorem Hub.setForebay_units : ∀ (i : Nat) (f : Forebay), (h.setForebay i f).units = h.units := fun _ _ => rfl
@[simp] theorem Hub.setForebay_cmPaths : ∀ (i : Nat) (f : Forebay), (h.setForebay i f).cmPaths = h.cmPaths := fun _ _ => rfl
@[simp] theorem Hub.setForebay_auxGate : ∀ (i : Nat) (f : Forebay), (h.setForebay i f).auxGate = h.auxGate := fun _ _ => rfl
@[simp] theorem Hub.setForebay_gates : ∀ (i : Nat) (f : Forebay), (h.setForebay i f).gates = h.gates := fun _ _ => rfl
@[simp] theorem Hub.setForebay_reelBad : ∀ (i : Nat) (f : Forebay), (h.setForebay i f).reelBad = h.reelBad := fun _ _ => rfl
@[simp] theorem Hub.setForebay_reelBlocks : ∀ (i : Nat) (f : Forebay), (h.setForebay i f).reelBlocks = h.reelBlocks := fun _ _ => rfl
@[simp] theorem Hub.setForebay_heads : ∀ (i : Nat) (f : Forebay), (h.setForebay i f).heads = h.heads := fun _ _ => rfl
@[simp] theorem Hub.setForebay_dpPorts : ∀ (i : Nat) (f : Forebay), (h.setForebay i f).dpPorts = h.dpPorts := fun _ _ => rfl
@[simp] theorem Hub.setForebay_headRank : ∀ (i : Nat) (f : Forebay), (h.setForebay i f).headRank = h.headRank := fun _ _ => rfl
@[simp] theorem Hub.setForebay_net : ∀ (i : Nat) (f : Forebay), (h.setForebay i f).net = h.net := fun _ _ => rfl
@[simp] theorem Hub.setForebay_pen : ∀ (i : Nat) (f : Forebay), (h.setForebay i f).pen = h.pen := fun _ _ => rfl
@[simp] theorem Hub.setForebay_vault : ∀ (i : Nat) (f : Forebay), (h.setForebay i f).vault = h.vault := fun _ _ => rfl
@[simp] theorem Hub.setForebay_fabric : ∀ (i : Nat) (f : Forebay), (h.setForebay i f).fabric = h.fabric := fun _ _ => rfl
@[simp] theorem Hub.setForebay_cue : ∀ (i : Nat) (f : Forebay), (h.setForebay i f).cue = h.cue := fun _ _ => rfl
@[simp] theorem Hub.setForebay_tally : ∀ (i : Nat) (f : Forebay), (h.setForebay i f).tally = h.tally := fun _ _ => rfl
@[simp] theorem Hub.setForebay_tunnels : ∀ (i : Nat) (f : Forebay), (h.setForebay i f).tunnels = h.tunnels := fun _ _ => rfl
@[simp] theorem Hub.setForebay_usb : ∀ (i : Nat) (f : Forebay), (h.setForebay i f).usb = h.usb := fun _ _ => rfl
@[simp] theorem Hub.setForebay_ports : ∀ (i : Nat) (f : Forebay), (h.setForebay i f).ports = h.ports := fun _ _ => rfl
@[simp] theorem Hub.setForebay_weirs : ∀ (i : Nat) (f : Forebay), (h.setForebay i f).weirs = h.weirs := fun _ _ => rfl
@[simp] theorem Hub.setForebay_input : ∀ (i : Nat) (f : Forebay), (h.setForebay i f).input = h.input := fun _ _ => rfl
@[simp] theorem Hub.setForebay_misc : ∀ (i : Nat) (f : Forebay), (h.setForebay i f).misc = h.misc := fun _ _ => rfl
@[simp] theorem Hub.setForebay_boot : ∀ (i : Nat) (f : Forebay), (h.setForebay i f).boot = h.boot := fun _ _ => rfl

@[simp] theorem Hub.setHalf_otp : ∀ (k : Nat) (x : Half), (h.setHalf k x).otp = h.otp := fun _ _ => rfl
@[simp] theorem Hub.setHalf_regs : ∀ (k : Nat) (x : Half), (h.setHalf k x).regs = h.regs := fun _ _ => rfl
@[simp] theorem Hub.setHalf_active : ∀ (k : Nat) (x : Half), (h.setHalf k x).active = h.active := fun _ _ => rfl
@[simp] theorem Hub.setHalf_snaps : ∀ (k : Nat) (x : Half), (h.setHalf k x).snaps = h.snaps := fun _ _ => rfl
@[simp] theorem Hub.setHalf_staging : ∀ (k : Nat) (x : Half), (h.setHalf k x).staging = h.staging := fun _ _ => rfl
@[simp] theorem Hub.setHalf_ownerApplied : ∀ (k : Nat) (x : Half), (h.setHalf k x).ownerApplied = h.ownerApplied := fun _ _ => rfl
@[simp] theorem Hub.setHalf_domains : ∀ (k : Nat) (x : Half), (h.setHalf k x).domains = h.domains := fun _ _ => rfl
@[simp] theorem Hub.setHalf_stalled : ∀ (k : Nat) (x : Half), (h.setHalf k x).stalled = h.stalled := fun _ _ => rfl
@[simp] theorem Hub.setHalf_ftime : ∀ (k : Nat) (x : Half), (h.setHalf k x).ftime = h.ftime := fun _ _ => rfl
@[simp] theorem Hub.setHalf_epoch : ∀ (k : Nat) (x : Half), (h.setHalf k x).epoch = h.epoch := fun _ _ => rfl
@[simp] theorem Hub.setHalf_fresh : ∀ (k : Nat) (x : Half), (h.setHalf k x).fresh = h.fresh := fun _ _ => rfl
@[simp] theorem Hub.setHalf_out : ∀ (k : Nat) (x : Half), (h.setHalf k x).out = h.out := fun _ _ => rfl
@[simp] theorem Hub.setHalf_turn : ∀ (k : Nat) (x : Half), (h.setHalf k x).turn = h.turn := fun _ _ => rfl
@[simp] theorem Hub.setHalf_forebays : ∀ (k : Nat) (x : Half), (h.setHalf k x).forebays = h.forebays := fun _ _ => rfl
@[simp] theorem Hub.setHalf_chains : ∀ (k : Nat) (x : Half), (h.setHalf k x).chains = h.chains := fun _ _ => rfl
@[simp] theorem Hub.setHalf_nextChain : ∀ (k : Nat) (x : Half), (h.setHalf k x).nextChain = h.nextChain := fun _ _ => rfl
@[simp] theorem Hub.setHalf_leaked : ∀ (k : Nat) (x : Half), (h.setHalf k x).leaked = h.leaked := fun _ _ => rfl
@[simp] theorem Hub.setHalf_marked : ∀ (k : Nat) (x : Half), (h.setHalf k x).marked = h.marked := fun _ _ => rfl
@[simp] theorem Hub.setHalf_cellErr : ∀ (k : Nat) (x : Half), (h.setHalf k x).cellErr = h.cellErr := fun _ _ => rfl
@[simp] theorem Hub.setHalf_credits : ∀ (k : Nat) (x : Half), (h.setHalf k x).credits = h.credits := fun _ _ => rfl
@[simp] theorem Hub.setHalf_txq : ∀ (k : Nat) (x : Half), (h.setHalf k x).txq = h.txq := fun _ _ => rfl
@[simp] theorem Hub.setHalf_pathSt : ∀ (k : Nat) (x : Half), (h.setHalf k x).pathSt = h.pathSt := fun _ _ => rfl
@[simp] theorem Hub.setHalf_factors : ∀ (k : Nat) (x : Half), (h.setHalf k x).factors = h.factors := fun _ _ => rfl
@[simp] theorem Hub.setHalf_flows : ∀ (k : Nat) (x : Half), (h.setHalf k x).flows = h.flows := fun _ _ => rfl
@[simp] theorem Hub.setHalf_classes : ∀ (k : Nat) (x : Half), (h.setHalf k x).classes = h.classes := fun _ _ => rfl
@[simp] theorem Hub.setHalf_outlets : ∀ (k : Nat) (x : Half), (h.setHalf k x).outlets = h.outlets := fun _ _ => rfl
@[simp] theorem Hub.setHalf_lossyFullSeen : ∀ (k : Nat) (x : Half), (h.setHalf k x).lossyFullSeen = h.lossyFullSeen := fun _ _ => rfl
@[simp] theorem Hub.setHalf_cellsWritten : ∀ (k : Nat) (x : Half), (h.setHalf k x).cellsWritten = h.cellsWritten := fun _ _ => rfl
@[simp] theorem Hub.setHalf_cellsRead : ∀ (k : Nat) (x : Half), (h.setHalf k x).cellsRead = h.cellsRead := fun _ _ => rfl
@[simp] theorem Hub.setHalf_power : ∀ (k : Nat) (x : Half), (h.setHalf k x).power = h.power := fun _ _ => rfl
@[simp] theorem Hub.setHalf_clock : ∀ (k : Nat) (x : Half), (h.setHalf k x).clock = h.clock := fun _ _ => rfl
@[simp] theorem Hub.setHalf_bindSince : ∀ (k : Nat) (x : Half), (h.setHalf k x).bindSince = h.bindSince := fun _ _ => rfl
@[simp] theorem Hub.setHalf_bindNext : ∀ (k : Nat) (x : Half), (h.setHalf k x).bindNext = h.bindNext := fun _ _ => rfl
@[simp] theorem Hub.setHalf_sinks : ∀ (k : Nat) (x : Half), (h.setHalf k x).sinks = h.sinks := fun _ _ => rfl
@[simp] theorem Hub.setHalf_reports : ∀ (k : Nat) (x : Half), (h.setHalf k x).reports = h.reports := fun _ _ => rfl
@[simp] theorem Hub.setHalf_linkAllow : ∀ (k : Nat) (x : Half), (h.setHalf k x).linkAllow = h.linkAllow := fun _ _ => rfl
@[simp] theorem Hub.setHalf_units : ∀ (k : Nat) (x : Half), (h.setHalf k x).units = h.units := fun _ _ => rfl
@[simp] theorem Hub.setHalf_cmPaths : ∀ (k : Nat) (x : Half), (h.setHalf k x).cmPaths = h.cmPaths := fun _ _ => rfl
@[simp] theorem Hub.setHalf_auxGate : ∀ (k : Nat) (x : Half), (h.setHalf k x).auxGate = h.auxGate := fun _ _ => rfl
@[simp] theorem Hub.setHalf_gates : ∀ (k : Nat) (x : Half), (h.setHalf k x).gates = h.gates := fun _ _ => rfl
@[simp] theorem Hub.setHalf_reelBad : ∀ (k : Nat) (x : Half), (h.setHalf k x).reelBad = h.reelBad := fun _ _ => rfl
@[simp] theorem Hub.setHalf_reelBlocks : ∀ (k : Nat) (x : Half), (h.setHalf k x).reelBlocks = h.reelBlocks := fun _ _ => rfl
@[simp] theorem Hub.setHalf_heads : ∀ (k : Nat) (x : Half), (h.setHalf k x).heads = h.heads := fun _ _ => rfl
@[simp] theorem Hub.setHalf_dpPorts : ∀ (k : Nat) (x : Half), (h.setHalf k x).dpPorts = h.dpPorts := fun _ _ => rfl
@[simp] theorem Hub.setHalf_headRank : ∀ (k : Nat) (x : Half), (h.setHalf k x).headRank = h.headRank := fun _ _ => rfl
@[simp] theorem Hub.setHalf_net : ∀ (k : Nat) (x : Half), (h.setHalf k x).net = h.net := fun _ _ => rfl
@[simp] theorem Hub.setHalf_pen : ∀ (k : Nat) (x : Half), (h.setHalf k x).pen = h.pen := fun _ _ => rfl
@[simp] theorem Hub.setHalf_vault : ∀ (k : Nat) (x : Half), (h.setHalf k x).vault = h.vault := fun _ _ => rfl
@[simp] theorem Hub.setHalf_fabric : ∀ (k : Nat) (x : Half), (h.setHalf k x).fabric = h.fabric := fun _ _ => rfl
@[simp] theorem Hub.setHalf_cue : ∀ (k : Nat) (x : Half), (h.setHalf k x).cue = h.cue := fun _ _ => rfl
@[simp] theorem Hub.setHalf_tally : ∀ (k : Nat) (x : Half), (h.setHalf k x).tally = h.tally := fun _ _ => rfl
@[simp] theorem Hub.setHalf_tunnels : ∀ (k : Nat) (x : Half), (h.setHalf k x).tunnels = h.tunnels := fun _ _ => rfl
@[simp] theorem Hub.setHalf_usb : ∀ (k : Nat) (x : Half), (h.setHalf k x).usb = h.usb := fun _ _ => rfl
@[simp] theorem Hub.setHalf_ports : ∀ (k : Nat) (x : Half), (h.setHalf k x).ports = h.ports := fun _ _ => rfl
@[simp] theorem Hub.setHalf_weirs : ∀ (k : Nat) (x : Half), (h.setHalf k x).weirs = h.weirs := fun _ _ => rfl
@[simp] theorem Hub.setHalf_input : ∀ (k : Nat) (x : Half), (h.setHalf k x).input = h.input := fun _ _ => rfl
@[simp] theorem Hub.setHalf_misc : ∀ (k : Nat) (x : Half), (h.setHalf k x).misc = h.misc := fun _ _ => rfl
@[simp] theorem Hub.setHalf_boot : ∀ (k : Nat) (x : Half), (h.setHalf k x).boot = h.boot := fun _ _ => rfl

@[simp] theorem Hub.setUnit_otp : ∀ (u : Nat) (x : UnitSt), (h.setUnit u x).otp = h.otp := fun _ _ => rfl
@[simp] theorem Hub.setUnit_regs : ∀ (u : Nat) (x : UnitSt), (h.setUnit u x).regs = h.regs := fun _ _ => rfl
@[simp] theorem Hub.setUnit_active : ∀ (u : Nat) (x : UnitSt), (h.setUnit u x).active = h.active := fun _ _ => rfl
@[simp] theorem Hub.setUnit_snaps : ∀ (u : Nat) (x : UnitSt), (h.setUnit u x).snaps = h.snaps := fun _ _ => rfl
@[simp] theorem Hub.setUnit_staging : ∀ (u : Nat) (x : UnitSt), (h.setUnit u x).staging = h.staging := fun _ _ => rfl
@[simp] theorem Hub.setUnit_ownerApplied : ∀ (u : Nat) (x : UnitSt), (h.setUnit u x).ownerApplied = h.ownerApplied := fun _ _ => rfl
@[simp] theorem Hub.setUnit_domains : ∀ (u : Nat) (x : UnitSt), (h.setUnit u x).domains = h.domains := fun _ _ => rfl
@[simp] theorem Hub.setUnit_stalled : ∀ (u : Nat) (x : UnitSt), (h.setUnit u x).stalled = h.stalled := fun _ _ => rfl
@[simp] theorem Hub.setUnit_ftime : ∀ (u : Nat) (x : UnitSt), (h.setUnit u x).ftime = h.ftime := fun _ _ => rfl
@[simp] theorem Hub.setUnit_epoch : ∀ (u : Nat) (x : UnitSt), (h.setUnit u x).epoch = h.epoch := fun _ _ => rfl
@[simp] theorem Hub.setUnit_fresh : ∀ (u : Nat) (x : UnitSt), (h.setUnit u x).fresh = h.fresh := fun _ _ => rfl
@[simp] theorem Hub.setUnit_out : ∀ (u : Nat) (x : UnitSt), (h.setUnit u x).out = h.out := fun _ _ => rfl
@[simp] theorem Hub.setUnit_turn : ∀ (u : Nat) (x : UnitSt), (h.setUnit u x).turn = h.turn := fun _ _ => rfl
@[simp] theorem Hub.setUnit_forebays : ∀ (u : Nat) (x : UnitSt), (h.setUnit u x).forebays = h.forebays := fun _ _ => rfl
@[simp] theorem Hub.setUnit_chains : ∀ (u : Nat) (x : UnitSt), (h.setUnit u x).chains = h.chains := fun _ _ => rfl
@[simp] theorem Hub.setUnit_nextChain : ∀ (u : Nat) (x : UnitSt), (h.setUnit u x).nextChain = h.nextChain := fun _ _ => rfl
@[simp] theorem Hub.setUnit_leaked : ∀ (u : Nat) (x : UnitSt), (h.setUnit u x).leaked = h.leaked := fun _ _ => rfl
@[simp] theorem Hub.setUnit_marked : ∀ (u : Nat) (x : UnitSt), (h.setUnit u x).marked = h.marked := fun _ _ => rfl
@[simp] theorem Hub.setUnit_cellErr : ∀ (u : Nat) (x : UnitSt), (h.setUnit u x).cellErr = h.cellErr := fun _ _ => rfl
@[simp] theorem Hub.setUnit_credits : ∀ (u : Nat) (x : UnitSt), (h.setUnit u x).credits = h.credits := fun _ _ => rfl
@[simp] theorem Hub.setUnit_txq : ∀ (u : Nat) (x : UnitSt), (h.setUnit u x).txq = h.txq := fun _ _ => rfl
@[simp] theorem Hub.setUnit_halves : ∀ (u : Nat) (x : UnitSt), (h.setUnit u x).halves = h.halves := fun _ _ => rfl
@[simp] theorem Hub.setUnit_pathSt : ∀ (u : Nat) (x : UnitSt), (h.setUnit u x).pathSt = h.pathSt := fun _ _ => rfl
@[simp] theorem Hub.setUnit_factors : ∀ (u : Nat) (x : UnitSt), (h.setUnit u x).factors = h.factors := fun _ _ => rfl
@[simp] theorem Hub.setUnit_flows : ∀ (u : Nat) (x : UnitSt), (h.setUnit u x).flows = h.flows := fun _ _ => rfl
@[simp] theorem Hub.setUnit_classes : ∀ (u : Nat) (x : UnitSt), (h.setUnit u x).classes = h.classes := fun _ _ => rfl
@[simp] theorem Hub.setUnit_outlets : ∀ (u : Nat) (x : UnitSt), (h.setUnit u x).outlets = h.outlets := fun _ _ => rfl
@[simp] theorem Hub.setUnit_lossyFullSeen : ∀ (u : Nat) (x : UnitSt), (h.setUnit u x).lossyFullSeen = h.lossyFullSeen := fun _ _ => rfl
@[simp] theorem Hub.setUnit_cellsWritten : ∀ (u : Nat) (x : UnitSt), (h.setUnit u x).cellsWritten = h.cellsWritten := fun _ _ => rfl
@[simp] theorem Hub.setUnit_cellsRead : ∀ (u : Nat) (x : UnitSt), (h.setUnit u x).cellsRead = h.cellsRead := fun _ _ => rfl
@[simp] theorem Hub.setUnit_power : ∀ (u : Nat) (x : UnitSt), (h.setUnit u x).power = h.power := fun _ _ => rfl
@[simp] theorem Hub.setUnit_clock : ∀ (u : Nat) (x : UnitSt), (h.setUnit u x).clock = h.clock := fun _ _ => rfl
@[simp] theorem Hub.setUnit_bindSince : ∀ (u : Nat) (x : UnitSt), (h.setUnit u x).bindSince = h.bindSince := fun _ _ => rfl
@[simp] theorem Hub.setUnit_bindNext : ∀ (u : Nat) (x : UnitSt), (h.setUnit u x).bindNext = h.bindNext := fun _ _ => rfl
@[simp] theorem Hub.setUnit_sinks : ∀ (u : Nat) (x : UnitSt), (h.setUnit u x).sinks = h.sinks := fun _ _ => rfl
@[simp] theorem Hub.setUnit_reports : ∀ (u : Nat) (x : UnitSt), (h.setUnit u x).reports = h.reports := fun _ _ => rfl
@[simp] theorem Hub.setUnit_linkAllow : ∀ (u : Nat) (x : UnitSt), (h.setUnit u x).linkAllow = h.linkAllow := fun _ _ => rfl
@[simp] theorem Hub.setUnit_cmPaths : ∀ (u : Nat) (x : UnitSt), (h.setUnit u x).cmPaths = h.cmPaths := fun _ _ => rfl
@[simp] theorem Hub.setUnit_auxGate : ∀ (u : Nat) (x : UnitSt), (h.setUnit u x).auxGate = h.auxGate := fun _ _ => rfl
@[simp] theorem Hub.setUnit_gates : ∀ (u : Nat) (x : UnitSt), (h.setUnit u x).gates = h.gates := fun _ _ => rfl
@[simp] theorem Hub.setUnit_reelBad : ∀ (u : Nat) (x : UnitSt), (h.setUnit u x).reelBad = h.reelBad := fun _ _ => rfl
@[simp] theorem Hub.setUnit_reelBlocks : ∀ (u : Nat) (x : UnitSt), (h.setUnit u x).reelBlocks = h.reelBlocks := fun _ _ => rfl
@[simp] theorem Hub.setUnit_heads : ∀ (u : Nat) (x : UnitSt), (h.setUnit u x).heads = h.heads := fun _ _ => rfl
@[simp] theorem Hub.setUnit_dpPorts : ∀ (u : Nat) (x : UnitSt), (h.setUnit u x).dpPorts = h.dpPorts := fun _ _ => rfl
@[simp] theorem Hub.setUnit_headRank : ∀ (u : Nat) (x : UnitSt), (h.setUnit u x).headRank = h.headRank := fun _ _ => rfl
@[simp] theorem Hub.setUnit_net : ∀ (u : Nat) (x : UnitSt), (h.setUnit u x).net = h.net := fun _ _ => rfl
@[simp] theorem Hub.setUnit_pen : ∀ (u : Nat) (x : UnitSt), (h.setUnit u x).pen = h.pen := fun _ _ => rfl
@[simp] theorem Hub.setUnit_vault : ∀ (u : Nat) (x : UnitSt), (h.setUnit u x).vault = h.vault := fun _ _ => rfl
@[simp] theorem Hub.setUnit_fabric : ∀ (u : Nat) (x : UnitSt), (h.setUnit u x).fabric = h.fabric := fun _ _ => rfl
@[simp] theorem Hub.setUnit_cue : ∀ (u : Nat) (x : UnitSt), (h.setUnit u x).cue = h.cue := fun _ _ => rfl
@[simp] theorem Hub.setUnit_tally : ∀ (u : Nat) (x : UnitSt), (h.setUnit u x).tally = h.tally := fun _ _ => rfl
@[simp] theorem Hub.setUnit_tunnels : ∀ (u : Nat) (x : UnitSt), (h.setUnit u x).tunnels = h.tunnels := fun _ _ => rfl
@[simp] theorem Hub.setUnit_usb : ∀ (u : Nat) (x : UnitSt), (h.setUnit u x).usb = h.usb := fun _ _ => rfl
@[simp] theorem Hub.setUnit_ports : ∀ (u : Nat) (x : UnitSt), (h.setUnit u x).ports = h.ports := fun _ _ => rfl
@[simp] theorem Hub.setUnit_weirs : ∀ (u : Nat) (x : UnitSt), (h.setUnit u x).weirs = h.weirs := fun _ _ => rfl
@[simp] theorem Hub.setUnit_input : ∀ (u : Nat) (x : UnitSt), (h.setUnit u x).input = h.input := fun _ _ => rfl
@[simp] theorem Hub.setUnit_misc : ∀ (u : Nat) (x : UnitSt), (h.setUnit u x).misc = h.misc := fun _ _ => rfl
@[simp] theorem Hub.setUnit_boot : ∀ (u : Nat) (x : UnitSt), (h.setUnit u x).boot = h.boot := fun _ _ => rfl

@[simp] theorem Hub.setDpPort_otp : ∀ (b : Nat) (x : DpPort), (h.setDpPort b x).otp = h.otp := fun _ _ => rfl
@[simp] theorem Hub.setDpPort_regs : ∀ (b : Nat) (x : DpPort), (h.setDpPort b x).regs = h.regs := fun _ _ => rfl
@[simp] theorem Hub.setDpPort_active : ∀ (b : Nat) (x : DpPort), (h.setDpPort b x).active = h.active := fun _ _ => rfl
@[simp] theorem Hub.setDpPort_snaps : ∀ (b : Nat) (x : DpPort), (h.setDpPort b x).snaps = h.snaps := fun _ _ => rfl
@[simp] theorem Hub.setDpPort_staging : ∀ (b : Nat) (x : DpPort), (h.setDpPort b x).staging = h.staging := fun _ _ => rfl
@[simp] theorem Hub.setDpPort_ownerApplied : ∀ (b : Nat) (x : DpPort), (h.setDpPort b x).ownerApplied = h.ownerApplied := fun _ _ => rfl
@[simp] theorem Hub.setDpPort_domains : ∀ (b : Nat) (x : DpPort), (h.setDpPort b x).domains = h.domains := fun _ _ => rfl
@[simp] theorem Hub.setDpPort_stalled : ∀ (b : Nat) (x : DpPort), (h.setDpPort b x).stalled = h.stalled := fun _ _ => rfl
@[simp] theorem Hub.setDpPort_ftime : ∀ (b : Nat) (x : DpPort), (h.setDpPort b x).ftime = h.ftime := fun _ _ => rfl
@[simp] theorem Hub.setDpPort_epoch : ∀ (b : Nat) (x : DpPort), (h.setDpPort b x).epoch = h.epoch := fun _ _ => rfl
@[simp] theorem Hub.setDpPort_fresh : ∀ (b : Nat) (x : DpPort), (h.setDpPort b x).fresh = h.fresh := fun _ _ => rfl
@[simp] theorem Hub.setDpPort_out : ∀ (b : Nat) (x : DpPort), (h.setDpPort b x).out = h.out := fun _ _ => rfl
@[simp] theorem Hub.setDpPort_turn : ∀ (b : Nat) (x : DpPort), (h.setDpPort b x).turn = h.turn := fun _ _ => rfl
@[simp] theorem Hub.setDpPort_forebays : ∀ (b : Nat) (x : DpPort), (h.setDpPort b x).forebays = h.forebays := fun _ _ => rfl
@[simp] theorem Hub.setDpPort_chains : ∀ (b : Nat) (x : DpPort), (h.setDpPort b x).chains = h.chains := fun _ _ => rfl
@[simp] theorem Hub.setDpPort_nextChain : ∀ (b : Nat) (x : DpPort), (h.setDpPort b x).nextChain = h.nextChain := fun _ _ => rfl
@[simp] theorem Hub.setDpPort_leaked : ∀ (b : Nat) (x : DpPort), (h.setDpPort b x).leaked = h.leaked := fun _ _ => rfl
@[simp] theorem Hub.setDpPort_marked : ∀ (b : Nat) (x : DpPort), (h.setDpPort b x).marked = h.marked := fun _ _ => rfl
@[simp] theorem Hub.setDpPort_cellErr : ∀ (b : Nat) (x : DpPort), (h.setDpPort b x).cellErr = h.cellErr := fun _ _ => rfl
@[simp] theorem Hub.setDpPort_credits : ∀ (b : Nat) (x : DpPort), (h.setDpPort b x).credits = h.credits := fun _ _ => rfl
@[simp] theorem Hub.setDpPort_txq : ∀ (b : Nat) (x : DpPort), (h.setDpPort b x).txq = h.txq := fun _ _ => rfl
@[simp] theorem Hub.setDpPort_halves : ∀ (b : Nat) (x : DpPort), (h.setDpPort b x).halves = h.halves := fun _ _ => rfl
@[simp] theorem Hub.setDpPort_pathSt : ∀ (b : Nat) (x : DpPort), (h.setDpPort b x).pathSt = h.pathSt := fun _ _ => rfl
@[simp] theorem Hub.setDpPort_factors : ∀ (b : Nat) (x : DpPort), (h.setDpPort b x).factors = h.factors := fun _ _ => rfl
@[simp] theorem Hub.setDpPort_flows : ∀ (b : Nat) (x : DpPort), (h.setDpPort b x).flows = h.flows := fun _ _ => rfl
@[simp] theorem Hub.setDpPort_classes : ∀ (b : Nat) (x : DpPort), (h.setDpPort b x).classes = h.classes := fun _ _ => rfl
@[simp] theorem Hub.setDpPort_outlets : ∀ (b : Nat) (x : DpPort), (h.setDpPort b x).outlets = h.outlets := fun _ _ => rfl
@[simp] theorem Hub.setDpPort_lossyFullSeen : ∀ (b : Nat) (x : DpPort), (h.setDpPort b x).lossyFullSeen = h.lossyFullSeen := fun _ _ => rfl
@[simp] theorem Hub.setDpPort_cellsWritten : ∀ (b : Nat) (x : DpPort), (h.setDpPort b x).cellsWritten = h.cellsWritten := fun _ _ => rfl
@[simp] theorem Hub.setDpPort_cellsRead : ∀ (b : Nat) (x : DpPort), (h.setDpPort b x).cellsRead = h.cellsRead := fun _ _ => rfl
@[simp] theorem Hub.setDpPort_power : ∀ (b : Nat) (x : DpPort), (h.setDpPort b x).power = h.power := fun _ _ => rfl
@[simp] theorem Hub.setDpPort_clock : ∀ (b : Nat) (x : DpPort), (h.setDpPort b x).clock = h.clock := fun _ _ => rfl
@[simp] theorem Hub.setDpPort_bindSince : ∀ (b : Nat) (x : DpPort), (h.setDpPort b x).bindSince = h.bindSince := fun _ _ => rfl
@[simp] theorem Hub.setDpPort_bindNext : ∀ (b : Nat) (x : DpPort), (h.setDpPort b x).bindNext = h.bindNext := fun _ _ => rfl
@[simp] theorem Hub.setDpPort_sinks : ∀ (b : Nat) (x : DpPort), (h.setDpPort b x).sinks = h.sinks := fun _ _ => rfl
@[simp] theorem Hub.setDpPort_reports : ∀ (b : Nat) (x : DpPort), (h.setDpPort b x).reports = h.reports := fun _ _ => rfl
@[simp] theorem Hub.setDpPort_linkAllow : ∀ (b : Nat) (x : DpPort), (h.setDpPort b x).linkAllow = h.linkAllow := fun _ _ => rfl
@[simp] theorem Hub.setDpPort_units : ∀ (b : Nat) (x : DpPort), (h.setDpPort b x).units = h.units := fun _ _ => rfl
@[simp] theorem Hub.setDpPort_cmPaths : ∀ (b : Nat) (x : DpPort), (h.setDpPort b x).cmPaths = h.cmPaths := fun _ _ => rfl
@[simp] theorem Hub.setDpPort_auxGate : ∀ (b : Nat) (x : DpPort), (h.setDpPort b x).auxGate = h.auxGate := fun _ _ => rfl
@[simp] theorem Hub.setDpPort_gates : ∀ (b : Nat) (x : DpPort), (h.setDpPort b x).gates = h.gates := fun _ _ => rfl
@[simp] theorem Hub.setDpPort_reelBad : ∀ (b : Nat) (x : DpPort), (h.setDpPort b x).reelBad = h.reelBad := fun _ _ => rfl
@[simp] theorem Hub.setDpPort_reelBlocks : ∀ (b : Nat) (x : DpPort), (h.setDpPort b x).reelBlocks = h.reelBlocks := fun _ _ => rfl
@[simp] theorem Hub.setDpPort_heads : ∀ (b : Nat) (x : DpPort), (h.setDpPort b x).heads = h.heads := fun _ _ => rfl
@[simp] theorem Hub.setDpPort_headRank : ∀ (b : Nat) (x : DpPort), (h.setDpPort b x).headRank = h.headRank := fun _ _ => rfl
@[simp] theorem Hub.setDpPort_net : ∀ (b : Nat) (x : DpPort), (h.setDpPort b x).net = h.net := fun _ _ => rfl
@[simp] theorem Hub.setDpPort_pen : ∀ (b : Nat) (x : DpPort), (h.setDpPort b x).pen = h.pen := fun _ _ => rfl
@[simp] theorem Hub.setDpPort_vault : ∀ (b : Nat) (x : DpPort), (h.setDpPort b x).vault = h.vault := fun _ _ => rfl
@[simp] theorem Hub.setDpPort_fabric : ∀ (b : Nat) (x : DpPort), (h.setDpPort b x).fabric = h.fabric := fun _ _ => rfl
@[simp] theorem Hub.setDpPort_cue : ∀ (b : Nat) (x : DpPort), (h.setDpPort b x).cue = h.cue := fun _ _ => rfl
@[simp] theorem Hub.setDpPort_tally : ∀ (b : Nat) (x : DpPort), (h.setDpPort b x).tally = h.tally := fun _ _ => rfl
@[simp] theorem Hub.setDpPort_tunnels : ∀ (b : Nat) (x : DpPort), (h.setDpPort b x).tunnels = h.tunnels := fun _ _ => rfl
@[simp] theorem Hub.setDpPort_usb : ∀ (b : Nat) (x : DpPort), (h.setDpPort b x).usb = h.usb := fun _ _ => rfl
@[simp] theorem Hub.setDpPort_ports : ∀ (b : Nat) (x : DpPort), (h.setDpPort b x).ports = h.ports := fun _ _ => rfl
@[simp] theorem Hub.setDpPort_weirs : ∀ (b : Nat) (x : DpPort), (h.setDpPort b x).weirs = h.weirs := fun _ _ => rfl
@[simp] theorem Hub.setDpPort_input : ∀ (b : Nat) (x : DpPort), (h.setDpPort b x).input = h.input := fun _ _ => rfl
@[simp] theorem Hub.setDpPort_misc : ∀ (b : Nat) (x : DpPort), (h.setDpPort b x).misc = h.misc := fun _ _ => rfl
@[simp] theorem Hub.setDpPort_boot : ∀ (b : Nat) (x : DpPort), (h.setDpPort b x).boot = h.boot := fun _ _ => rfl

@[simp] theorem Hub.setPen_otp : ∀ (s : Nat) (x : PenSt), (h.setPen s x).otp = h.otp := fun _ _ => rfl
@[simp] theorem Hub.setPen_regs : ∀ (s : Nat) (x : PenSt), (h.setPen s x).regs = h.regs := fun _ _ => rfl
@[simp] theorem Hub.setPen_active : ∀ (s : Nat) (x : PenSt), (h.setPen s x).active = h.active := fun _ _ => rfl
@[simp] theorem Hub.setPen_snaps : ∀ (s : Nat) (x : PenSt), (h.setPen s x).snaps = h.snaps := fun _ _ => rfl
@[simp] theorem Hub.setPen_staging : ∀ (s : Nat) (x : PenSt), (h.setPen s x).staging = h.staging := fun _ _ => rfl
@[simp] theorem Hub.setPen_ownerApplied : ∀ (s : Nat) (x : PenSt), (h.setPen s x).ownerApplied = h.ownerApplied := fun _ _ => rfl
@[simp] theorem Hub.setPen_domains : ∀ (s : Nat) (x : PenSt), (h.setPen s x).domains = h.domains := fun _ _ => rfl
@[simp] theorem Hub.setPen_stalled : ∀ (s : Nat) (x : PenSt), (h.setPen s x).stalled = h.stalled := fun _ _ => rfl
@[simp] theorem Hub.setPen_ftime : ∀ (s : Nat) (x : PenSt), (h.setPen s x).ftime = h.ftime := fun _ _ => rfl
@[simp] theorem Hub.setPen_epoch : ∀ (s : Nat) (x : PenSt), (h.setPen s x).epoch = h.epoch := fun _ _ => rfl
@[simp] theorem Hub.setPen_fresh : ∀ (s : Nat) (x : PenSt), (h.setPen s x).fresh = h.fresh := fun _ _ => rfl
@[simp] theorem Hub.setPen_out : ∀ (s : Nat) (x : PenSt), (h.setPen s x).out = h.out := fun _ _ => rfl
@[simp] theorem Hub.setPen_turn : ∀ (s : Nat) (x : PenSt), (h.setPen s x).turn = h.turn := fun _ _ => rfl
@[simp] theorem Hub.setPen_forebays : ∀ (s : Nat) (x : PenSt), (h.setPen s x).forebays = h.forebays := fun _ _ => rfl
@[simp] theorem Hub.setPen_chains : ∀ (s : Nat) (x : PenSt), (h.setPen s x).chains = h.chains := fun _ _ => rfl
@[simp] theorem Hub.setPen_nextChain : ∀ (s : Nat) (x : PenSt), (h.setPen s x).nextChain = h.nextChain := fun _ _ => rfl
@[simp] theorem Hub.setPen_leaked : ∀ (s : Nat) (x : PenSt), (h.setPen s x).leaked = h.leaked := fun _ _ => rfl
@[simp] theorem Hub.setPen_marked : ∀ (s : Nat) (x : PenSt), (h.setPen s x).marked = h.marked := fun _ _ => rfl
@[simp] theorem Hub.setPen_cellErr : ∀ (s : Nat) (x : PenSt), (h.setPen s x).cellErr = h.cellErr := fun _ _ => rfl
@[simp] theorem Hub.setPen_credits : ∀ (s : Nat) (x : PenSt), (h.setPen s x).credits = h.credits := fun _ _ => rfl
@[simp] theorem Hub.setPen_txq : ∀ (s : Nat) (x : PenSt), (h.setPen s x).txq = h.txq := fun _ _ => rfl
@[simp] theorem Hub.setPen_halves : ∀ (s : Nat) (x : PenSt), (h.setPen s x).halves = h.halves := fun _ _ => rfl
@[simp] theorem Hub.setPen_pathSt : ∀ (s : Nat) (x : PenSt), (h.setPen s x).pathSt = h.pathSt := fun _ _ => rfl
@[simp] theorem Hub.setPen_factors : ∀ (s : Nat) (x : PenSt), (h.setPen s x).factors = h.factors := fun _ _ => rfl
@[simp] theorem Hub.setPen_flows : ∀ (s : Nat) (x : PenSt), (h.setPen s x).flows = h.flows := fun _ _ => rfl
@[simp] theorem Hub.setPen_classes : ∀ (s : Nat) (x : PenSt), (h.setPen s x).classes = h.classes := fun _ _ => rfl
@[simp] theorem Hub.setPen_outlets : ∀ (s : Nat) (x : PenSt), (h.setPen s x).outlets = h.outlets := fun _ _ => rfl
@[simp] theorem Hub.setPen_lossyFullSeen : ∀ (s : Nat) (x : PenSt), (h.setPen s x).lossyFullSeen = h.lossyFullSeen := fun _ _ => rfl
@[simp] theorem Hub.setPen_cellsWritten : ∀ (s : Nat) (x : PenSt), (h.setPen s x).cellsWritten = h.cellsWritten := fun _ _ => rfl
@[simp] theorem Hub.setPen_cellsRead : ∀ (s : Nat) (x : PenSt), (h.setPen s x).cellsRead = h.cellsRead := fun _ _ => rfl
@[simp] theorem Hub.setPen_power : ∀ (s : Nat) (x : PenSt), (h.setPen s x).power = h.power := fun _ _ => rfl
@[simp] theorem Hub.setPen_clock : ∀ (s : Nat) (x : PenSt), (h.setPen s x).clock = h.clock := fun _ _ => rfl
@[simp] theorem Hub.setPen_bindSince : ∀ (s : Nat) (x : PenSt), (h.setPen s x).bindSince = h.bindSince := fun _ _ => rfl
@[simp] theorem Hub.setPen_bindNext : ∀ (s : Nat) (x : PenSt), (h.setPen s x).bindNext = h.bindNext := fun _ _ => rfl
@[simp] theorem Hub.setPen_sinks : ∀ (s : Nat) (x : PenSt), (h.setPen s x).sinks = h.sinks := fun _ _ => rfl
@[simp] theorem Hub.setPen_reports : ∀ (s : Nat) (x : PenSt), (h.setPen s x).reports = h.reports := fun _ _ => rfl
@[simp] theorem Hub.setPen_linkAllow : ∀ (s : Nat) (x : PenSt), (h.setPen s x).linkAllow = h.linkAllow := fun _ _ => rfl
@[simp] theorem Hub.setPen_units : ∀ (s : Nat) (x : PenSt), (h.setPen s x).units = h.units := fun _ _ => rfl
@[simp] theorem Hub.setPen_cmPaths : ∀ (s : Nat) (x : PenSt), (h.setPen s x).cmPaths = h.cmPaths := fun _ _ => rfl
@[simp] theorem Hub.setPen_auxGate : ∀ (s : Nat) (x : PenSt), (h.setPen s x).auxGate = h.auxGate := fun _ _ => rfl
@[simp] theorem Hub.setPen_gates : ∀ (s : Nat) (x : PenSt), (h.setPen s x).gates = h.gates := fun _ _ => rfl
@[simp] theorem Hub.setPen_reelBad : ∀ (s : Nat) (x : PenSt), (h.setPen s x).reelBad = h.reelBad := fun _ _ => rfl
@[simp] theorem Hub.setPen_reelBlocks : ∀ (s : Nat) (x : PenSt), (h.setPen s x).reelBlocks = h.reelBlocks := fun _ _ => rfl
@[simp] theorem Hub.setPen_heads : ∀ (s : Nat) (x : PenSt), (h.setPen s x).heads = h.heads := fun _ _ => rfl
@[simp] theorem Hub.setPen_dpPorts : ∀ (s : Nat) (x : PenSt), (h.setPen s x).dpPorts = h.dpPorts := fun _ _ => rfl
@[simp] theorem Hub.setPen_headRank : ∀ (s : Nat) (x : PenSt), (h.setPen s x).headRank = h.headRank := fun _ _ => rfl
@[simp] theorem Hub.setPen_net : ∀ (s : Nat) (x : PenSt), (h.setPen s x).net = h.net := fun _ _ => rfl
@[simp] theorem Hub.setPen_vault : ∀ (s : Nat) (x : PenSt), (h.setPen s x).vault = h.vault := fun _ _ => rfl
@[simp] theorem Hub.setPen_fabric : ∀ (s : Nat) (x : PenSt), (h.setPen s x).fabric = h.fabric := fun _ _ => rfl
@[simp] theorem Hub.setPen_cue : ∀ (s : Nat) (x : PenSt), (h.setPen s x).cue = h.cue := fun _ _ => rfl
@[simp] theorem Hub.setPen_tally : ∀ (s : Nat) (x : PenSt), (h.setPen s x).tally = h.tally := fun _ _ => rfl
@[simp] theorem Hub.setPen_tunnels : ∀ (s : Nat) (x : PenSt), (h.setPen s x).tunnels = h.tunnels := fun _ _ => rfl
@[simp] theorem Hub.setPen_usb : ∀ (s : Nat) (x : PenSt), (h.setPen s x).usb = h.usb := fun _ _ => rfl
@[simp] theorem Hub.setPen_ports : ∀ (s : Nat) (x : PenSt), (h.setPen s x).ports = h.ports := fun _ _ => rfl
@[simp] theorem Hub.setPen_weirs : ∀ (s : Nat) (x : PenSt), (h.setPen s x).weirs = h.weirs := fun _ _ => rfl
@[simp] theorem Hub.setPen_input : ∀ (s : Nat) (x : PenSt), (h.setPen s x).input = h.input := fun _ _ => rfl
@[simp] theorem Hub.setPen_misc : ∀ (s : Nat) (x : PenSt), (h.setPen s x).misc = h.misc := fun _ _ => rfl
@[simp] theorem Hub.setPen_boot : ∀ (s : Nat) (x : PenSt), (h.setPen s x).boot = h.boot := fun _ _ => rfl

@[simp] theorem Hub.setHead_otp : ∀ (p : Nat) (x : ProjSt), (h.setHead p x).otp = h.otp := fun _ _ => rfl
@[simp] theorem Hub.setHead_regs : ∀ (p : Nat) (x : ProjSt), (h.setHead p x).regs = h.regs := fun _ _ => rfl
@[simp] theorem Hub.setHead_active : ∀ (p : Nat) (x : ProjSt), (h.setHead p x).active = h.active := fun _ _ => rfl
@[simp] theorem Hub.setHead_snaps : ∀ (p : Nat) (x : ProjSt), (h.setHead p x).snaps = h.snaps := fun _ _ => rfl
@[simp] theorem Hub.setHead_staging : ∀ (p : Nat) (x : ProjSt), (h.setHead p x).staging = h.staging := fun _ _ => rfl
@[simp] theorem Hub.setHead_ownerApplied : ∀ (p : Nat) (x : ProjSt), (h.setHead p x).ownerApplied = h.ownerApplied := fun _ _ => rfl
@[simp] theorem Hub.setHead_domains : ∀ (p : Nat) (x : ProjSt), (h.setHead p x).domains = h.domains := fun _ _ => rfl
@[simp] theorem Hub.setHead_stalled : ∀ (p : Nat) (x : ProjSt), (h.setHead p x).stalled = h.stalled := fun _ _ => rfl
@[simp] theorem Hub.setHead_ftime : ∀ (p : Nat) (x : ProjSt), (h.setHead p x).ftime = h.ftime := fun _ _ => rfl
@[simp] theorem Hub.setHead_epoch : ∀ (p : Nat) (x : ProjSt), (h.setHead p x).epoch = h.epoch := fun _ _ => rfl
@[simp] theorem Hub.setHead_fresh : ∀ (p : Nat) (x : ProjSt), (h.setHead p x).fresh = h.fresh := fun _ _ => rfl
@[simp] theorem Hub.setHead_out : ∀ (p : Nat) (x : ProjSt), (h.setHead p x).out = h.out := fun _ _ => rfl
@[simp] theorem Hub.setHead_turn : ∀ (p : Nat) (x : ProjSt), (h.setHead p x).turn = h.turn := fun _ _ => rfl
@[simp] theorem Hub.setHead_forebays : ∀ (p : Nat) (x : ProjSt), (h.setHead p x).forebays = h.forebays := fun _ _ => rfl
@[simp] theorem Hub.setHead_chains : ∀ (p : Nat) (x : ProjSt), (h.setHead p x).chains = h.chains := fun _ _ => rfl
@[simp] theorem Hub.setHead_nextChain : ∀ (p : Nat) (x : ProjSt), (h.setHead p x).nextChain = h.nextChain := fun _ _ => rfl
@[simp] theorem Hub.setHead_leaked : ∀ (p : Nat) (x : ProjSt), (h.setHead p x).leaked = h.leaked := fun _ _ => rfl
@[simp] theorem Hub.setHead_marked : ∀ (p : Nat) (x : ProjSt), (h.setHead p x).marked = h.marked := fun _ _ => rfl
@[simp] theorem Hub.setHead_cellErr : ∀ (p : Nat) (x : ProjSt), (h.setHead p x).cellErr = h.cellErr := fun _ _ => rfl
@[simp] theorem Hub.setHead_credits : ∀ (p : Nat) (x : ProjSt), (h.setHead p x).credits = h.credits := fun _ _ => rfl
@[simp] theorem Hub.setHead_txq : ∀ (p : Nat) (x : ProjSt), (h.setHead p x).txq = h.txq := fun _ _ => rfl
@[simp] theorem Hub.setHead_halves : ∀ (p : Nat) (x : ProjSt), (h.setHead p x).halves = h.halves := fun _ _ => rfl
@[simp] theorem Hub.setHead_pathSt : ∀ (p : Nat) (x : ProjSt), (h.setHead p x).pathSt = h.pathSt := fun _ _ => rfl
@[simp] theorem Hub.setHead_factors : ∀ (p : Nat) (x : ProjSt), (h.setHead p x).factors = h.factors := fun _ _ => rfl
@[simp] theorem Hub.setHead_flows : ∀ (p : Nat) (x : ProjSt), (h.setHead p x).flows = h.flows := fun _ _ => rfl
@[simp] theorem Hub.setHead_classes : ∀ (p : Nat) (x : ProjSt), (h.setHead p x).classes = h.classes := fun _ _ => rfl
@[simp] theorem Hub.setHead_outlets : ∀ (p : Nat) (x : ProjSt), (h.setHead p x).outlets = h.outlets := fun _ _ => rfl
@[simp] theorem Hub.setHead_lossyFullSeen : ∀ (p : Nat) (x : ProjSt), (h.setHead p x).lossyFullSeen = h.lossyFullSeen := fun _ _ => rfl
@[simp] theorem Hub.setHead_cellsWritten : ∀ (p : Nat) (x : ProjSt), (h.setHead p x).cellsWritten = h.cellsWritten := fun _ _ => rfl
@[simp] theorem Hub.setHead_cellsRead : ∀ (p : Nat) (x : ProjSt), (h.setHead p x).cellsRead = h.cellsRead := fun _ _ => rfl
@[simp] theorem Hub.setHead_power : ∀ (p : Nat) (x : ProjSt), (h.setHead p x).power = h.power := fun _ _ => rfl
@[simp] theorem Hub.setHead_clock : ∀ (p : Nat) (x : ProjSt), (h.setHead p x).clock = h.clock := fun _ _ => rfl
@[simp] theorem Hub.setHead_bindSince : ∀ (p : Nat) (x : ProjSt), (h.setHead p x).bindSince = h.bindSince := fun _ _ => rfl
@[simp] theorem Hub.setHead_bindNext : ∀ (p : Nat) (x : ProjSt), (h.setHead p x).bindNext = h.bindNext := fun _ _ => rfl
@[simp] theorem Hub.setHead_sinks : ∀ (p : Nat) (x : ProjSt), (h.setHead p x).sinks = h.sinks := fun _ _ => rfl
@[simp] theorem Hub.setHead_reports : ∀ (p : Nat) (x : ProjSt), (h.setHead p x).reports = h.reports := fun _ _ => rfl
@[simp] theorem Hub.setHead_linkAllow : ∀ (p : Nat) (x : ProjSt), (h.setHead p x).linkAllow = h.linkAllow := fun _ _ => rfl
@[simp] theorem Hub.setHead_units : ∀ (p : Nat) (x : ProjSt), (h.setHead p x).units = h.units := fun _ _ => rfl
@[simp] theorem Hub.setHead_cmPaths : ∀ (p : Nat) (x : ProjSt), (h.setHead p x).cmPaths = h.cmPaths := fun _ _ => rfl
@[simp] theorem Hub.setHead_auxGate : ∀ (p : Nat) (x : ProjSt), (h.setHead p x).auxGate = h.auxGate := fun _ _ => rfl
@[simp] theorem Hub.setHead_gates : ∀ (p : Nat) (x : ProjSt), (h.setHead p x).gates = h.gates := fun _ _ => rfl
@[simp] theorem Hub.setHead_reelBad : ∀ (p : Nat) (x : ProjSt), (h.setHead p x).reelBad = h.reelBad := fun _ _ => rfl
@[simp] theorem Hub.setHead_reelBlocks : ∀ (p : Nat) (x : ProjSt), (h.setHead p x).reelBlocks = h.reelBlocks := fun _ _ => rfl
@[simp] theorem Hub.setHead_dpPorts : ∀ (p : Nat) (x : ProjSt), (h.setHead p x).dpPorts = h.dpPorts := fun _ _ => rfl
@[simp] theorem Hub.setHead_headRank : ∀ (p : Nat) (x : ProjSt), (h.setHead p x).headRank = h.headRank := fun _ _ => rfl
@[simp] theorem Hub.setHead_net : ∀ (p : Nat) (x : ProjSt), (h.setHead p x).net = h.net := fun _ _ => rfl
@[simp] theorem Hub.setHead_pen : ∀ (p : Nat) (x : ProjSt), (h.setHead p x).pen = h.pen := fun _ _ => rfl
@[simp] theorem Hub.setHead_vault : ∀ (p : Nat) (x : ProjSt), (h.setHead p x).vault = h.vault := fun _ _ => rfl
@[simp] theorem Hub.setHead_fabric : ∀ (p : Nat) (x : ProjSt), (h.setHead p x).fabric = h.fabric := fun _ _ => rfl
@[simp] theorem Hub.setHead_cue : ∀ (p : Nat) (x : ProjSt), (h.setHead p x).cue = h.cue := fun _ _ => rfl
@[simp] theorem Hub.setHead_tally : ∀ (p : Nat) (x : ProjSt), (h.setHead p x).tally = h.tally := fun _ _ => rfl
@[simp] theorem Hub.setHead_tunnels : ∀ (p : Nat) (x : ProjSt), (h.setHead p x).tunnels = h.tunnels := fun _ _ => rfl
@[simp] theorem Hub.setHead_usb : ∀ (p : Nat) (x : ProjSt), (h.setHead p x).usb = h.usb := fun _ _ => rfl
@[simp] theorem Hub.setHead_ports : ∀ (p : Nat) (x : ProjSt), (h.setHead p x).ports = h.ports := fun _ _ => rfl
@[simp] theorem Hub.setHead_weirs : ∀ (p : Nat) (x : ProjSt), (h.setHead p x).weirs = h.weirs := fun _ _ => rfl
@[simp] theorem Hub.setHead_input : ∀ (p : Nat) (x : ProjSt), (h.setHead p x).input = h.input := fun _ _ => rfl
@[simp] theorem Hub.setHead_misc : ∀ (p : Nat) (x : ProjSt), (h.setHead p x).misc = h.misc := fun _ _ => rfl
@[simp] theorem Hub.setHead_boot : ∀ (p : Nat) (x : ProjSt), (h.setHead p x).boot = h.boot := fun _ _ => rfl

@[simp] theorem Hub.setCls_otp : ∀ (o c : Nat) (x : ClassSt), (h.setCls o c x).otp = h.otp := fun _ _ _ => rfl
@[simp] theorem Hub.setCls_regs : ∀ (o c : Nat) (x : ClassSt), (h.setCls o c x).regs = h.regs := fun _ _ _ => rfl
@[simp] theorem Hub.setCls_active : ∀ (o c : Nat) (x : ClassSt), (h.setCls o c x).active = h.active := fun _ _ _ => rfl
@[simp] theorem Hub.setCls_snaps : ∀ (o c : Nat) (x : ClassSt), (h.setCls o c x).snaps = h.snaps := fun _ _ _ => rfl
@[simp] theorem Hub.setCls_staging : ∀ (o c : Nat) (x : ClassSt), (h.setCls o c x).staging = h.staging := fun _ _ _ => rfl
@[simp] theorem Hub.setCls_ownerApplied : ∀ (o c : Nat) (x : ClassSt), (h.setCls o c x).ownerApplied = h.ownerApplied := fun _ _ _ => rfl
@[simp] theorem Hub.setCls_domains : ∀ (o c : Nat) (x : ClassSt), (h.setCls o c x).domains = h.domains := fun _ _ _ => rfl
@[simp] theorem Hub.setCls_stalled : ∀ (o c : Nat) (x : ClassSt), (h.setCls o c x).stalled = h.stalled := fun _ _ _ => rfl
@[simp] theorem Hub.setCls_ftime : ∀ (o c : Nat) (x : ClassSt), (h.setCls o c x).ftime = h.ftime := fun _ _ _ => rfl
@[simp] theorem Hub.setCls_epoch : ∀ (o c : Nat) (x : ClassSt), (h.setCls o c x).epoch = h.epoch := fun _ _ _ => rfl
@[simp] theorem Hub.setCls_fresh : ∀ (o c : Nat) (x : ClassSt), (h.setCls o c x).fresh = h.fresh := fun _ _ _ => rfl
@[simp] theorem Hub.setCls_out : ∀ (o c : Nat) (x : ClassSt), (h.setCls o c x).out = h.out := fun _ _ _ => rfl
@[simp] theorem Hub.setCls_turn : ∀ (o c : Nat) (x : ClassSt), (h.setCls o c x).turn = h.turn := fun _ _ _ => rfl
@[simp] theorem Hub.setCls_forebays : ∀ (o c : Nat) (x : ClassSt), (h.setCls o c x).forebays = h.forebays := fun _ _ _ => rfl
@[simp] theorem Hub.setCls_chains : ∀ (o c : Nat) (x : ClassSt), (h.setCls o c x).chains = h.chains := fun _ _ _ => rfl
@[simp] theorem Hub.setCls_nextChain : ∀ (o c : Nat) (x : ClassSt), (h.setCls o c x).nextChain = h.nextChain := fun _ _ _ => rfl
@[simp] theorem Hub.setCls_leaked : ∀ (o c : Nat) (x : ClassSt), (h.setCls o c x).leaked = h.leaked := fun _ _ _ => rfl
@[simp] theorem Hub.setCls_marked : ∀ (o c : Nat) (x : ClassSt), (h.setCls o c x).marked = h.marked := fun _ _ _ => rfl
@[simp] theorem Hub.setCls_cellErr : ∀ (o c : Nat) (x : ClassSt), (h.setCls o c x).cellErr = h.cellErr := fun _ _ _ => rfl
@[simp] theorem Hub.setCls_credits : ∀ (o c : Nat) (x : ClassSt), (h.setCls o c x).credits = h.credits := fun _ _ _ => rfl
@[simp] theorem Hub.setCls_txq : ∀ (o c : Nat) (x : ClassSt), (h.setCls o c x).txq = h.txq := fun _ _ _ => rfl
@[simp] theorem Hub.setCls_halves : ∀ (o c : Nat) (x : ClassSt), (h.setCls o c x).halves = h.halves := fun _ _ _ => rfl
@[simp] theorem Hub.setCls_pathSt : ∀ (o c : Nat) (x : ClassSt), (h.setCls o c x).pathSt = h.pathSt := fun _ _ _ => rfl
@[simp] theorem Hub.setCls_factors : ∀ (o c : Nat) (x : ClassSt), (h.setCls o c x).factors = h.factors := fun _ _ _ => rfl
@[simp] theorem Hub.setCls_flows : ∀ (o c : Nat) (x : ClassSt), (h.setCls o c x).flows = h.flows := fun _ _ _ => rfl
@[simp] theorem Hub.setCls_outlets : ∀ (o c : Nat) (x : ClassSt), (h.setCls o c x).outlets = h.outlets := fun _ _ _ => rfl
@[simp] theorem Hub.setCls_lossyFullSeen : ∀ (o c : Nat) (x : ClassSt), (h.setCls o c x).lossyFullSeen = h.lossyFullSeen := fun _ _ _ => rfl
@[simp] theorem Hub.setCls_cellsWritten : ∀ (o c : Nat) (x : ClassSt), (h.setCls o c x).cellsWritten = h.cellsWritten := fun _ _ _ => rfl
@[simp] theorem Hub.setCls_cellsRead : ∀ (o c : Nat) (x : ClassSt), (h.setCls o c x).cellsRead = h.cellsRead := fun _ _ _ => rfl
@[simp] theorem Hub.setCls_power : ∀ (o c : Nat) (x : ClassSt), (h.setCls o c x).power = h.power := fun _ _ _ => rfl
@[simp] theorem Hub.setCls_clock : ∀ (o c : Nat) (x : ClassSt), (h.setCls o c x).clock = h.clock := fun _ _ _ => rfl
@[simp] theorem Hub.setCls_bindSince : ∀ (o c : Nat) (x : ClassSt), (h.setCls o c x).bindSince = h.bindSince := fun _ _ _ => rfl
@[simp] theorem Hub.setCls_bindNext : ∀ (o c : Nat) (x : ClassSt), (h.setCls o c x).bindNext = h.bindNext := fun _ _ _ => rfl
@[simp] theorem Hub.setCls_sinks : ∀ (o c : Nat) (x : ClassSt), (h.setCls o c x).sinks = h.sinks := fun _ _ _ => rfl
@[simp] theorem Hub.setCls_reports : ∀ (o c : Nat) (x : ClassSt), (h.setCls o c x).reports = h.reports := fun _ _ _ => rfl
@[simp] theorem Hub.setCls_linkAllow : ∀ (o c : Nat) (x : ClassSt), (h.setCls o c x).linkAllow = h.linkAllow := fun _ _ _ => rfl
@[simp] theorem Hub.setCls_units : ∀ (o c : Nat) (x : ClassSt), (h.setCls o c x).units = h.units := fun _ _ _ => rfl
@[simp] theorem Hub.setCls_cmPaths : ∀ (o c : Nat) (x : ClassSt), (h.setCls o c x).cmPaths = h.cmPaths := fun _ _ _ => rfl
@[simp] theorem Hub.setCls_auxGate : ∀ (o c : Nat) (x : ClassSt), (h.setCls o c x).auxGate = h.auxGate := fun _ _ _ => rfl
@[simp] theorem Hub.setCls_gates : ∀ (o c : Nat) (x : ClassSt), (h.setCls o c x).gates = h.gates := fun _ _ _ => rfl
@[simp] theorem Hub.setCls_reelBad : ∀ (o c : Nat) (x : ClassSt), (h.setCls o c x).reelBad = h.reelBad := fun _ _ _ => rfl
@[simp] theorem Hub.setCls_reelBlocks : ∀ (o c : Nat) (x : ClassSt), (h.setCls o c x).reelBlocks = h.reelBlocks := fun _ _ _ => rfl
@[simp] theorem Hub.setCls_heads : ∀ (o c : Nat) (x : ClassSt), (h.setCls o c x).heads = h.heads := fun _ _ _ => rfl
@[simp] theorem Hub.setCls_dpPorts : ∀ (o c : Nat) (x : ClassSt), (h.setCls o c x).dpPorts = h.dpPorts := fun _ _ _ => rfl
@[simp] theorem Hub.setCls_headRank : ∀ (o c : Nat) (x : ClassSt), (h.setCls o c x).headRank = h.headRank := fun _ _ _ => rfl
@[simp] theorem Hub.setCls_net : ∀ (o c : Nat) (x : ClassSt), (h.setCls o c x).net = h.net := fun _ _ _ => rfl
@[simp] theorem Hub.setCls_pen : ∀ (o c : Nat) (x : ClassSt), (h.setCls o c x).pen = h.pen := fun _ _ _ => rfl
@[simp] theorem Hub.setCls_vault : ∀ (o c : Nat) (x : ClassSt), (h.setCls o c x).vault = h.vault := fun _ _ _ => rfl
@[simp] theorem Hub.setCls_fabric : ∀ (o c : Nat) (x : ClassSt), (h.setCls o c x).fabric = h.fabric := fun _ _ _ => rfl
@[simp] theorem Hub.setCls_cue : ∀ (o c : Nat) (x : ClassSt), (h.setCls o c x).cue = h.cue := fun _ _ _ => rfl
@[simp] theorem Hub.setCls_tally : ∀ (o c : Nat) (x : ClassSt), (h.setCls o c x).tally = h.tally := fun _ _ _ => rfl
@[simp] theorem Hub.setCls_tunnels : ∀ (o c : Nat) (x : ClassSt), (h.setCls o c x).tunnels = h.tunnels := fun _ _ _ => rfl
@[simp] theorem Hub.setCls_usb : ∀ (o c : Nat) (x : ClassSt), (h.setCls o c x).usb = h.usb := fun _ _ _ => rfl
@[simp] theorem Hub.setCls_ports : ∀ (o c : Nat) (x : ClassSt), (h.setCls o c x).ports = h.ports := fun _ _ _ => rfl
@[simp] theorem Hub.setCls_weirs : ∀ (o c : Nat) (x : ClassSt), (h.setCls o c x).weirs = h.weirs := fun _ _ _ => rfl
@[simp] theorem Hub.setCls_input : ∀ (o c : Nat) (x : ClassSt), (h.setCls o c x).input = h.input := fun _ _ _ => rfl
@[simp] theorem Hub.setCls_misc : ∀ (o c : Nat) (x : ClassSt), (h.setCls o c x).misc = h.misc := fun _ _ _ => rfl
@[simp] theorem Hub.setCls_boot : ∀ (o c : Nat) (x : ClassSt), (h.setCls o c x).boot = h.boot := fun _ _ _ => rfl

@[simp] theorem Hub.setOutlet_otp : ∀ (o : Nat) (x : OutletSt), (h.setOutlet o x).otp = h.otp := fun _ _ => rfl
@[simp] theorem Hub.setOutlet_regs : ∀ (o : Nat) (x : OutletSt), (h.setOutlet o x).regs = h.regs := fun _ _ => rfl
@[simp] theorem Hub.setOutlet_active : ∀ (o : Nat) (x : OutletSt), (h.setOutlet o x).active = h.active := fun _ _ => rfl
@[simp] theorem Hub.setOutlet_snaps : ∀ (o : Nat) (x : OutletSt), (h.setOutlet o x).snaps = h.snaps := fun _ _ => rfl
@[simp] theorem Hub.setOutlet_staging : ∀ (o : Nat) (x : OutletSt), (h.setOutlet o x).staging = h.staging := fun _ _ => rfl
@[simp] theorem Hub.setOutlet_ownerApplied : ∀ (o : Nat) (x : OutletSt), (h.setOutlet o x).ownerApplied = h.ownerApplied := fun _ _ => rfl
@[simp] theorem Hub.setOutlet_domains : ∀ (o : Nat) (x : OutletSt), (h.setOutlet o x).domains = h.domains := fun _ _ => rfl
@[simp] theorem Hub.setOutlet_stalled : ∀ (o : Nat) (x : OutletSt), (h.setOutlet o x).stalled = h.stalled := fun _ _ => rfl
@[simp] theorem Hub.setOutlet_ftime : ∀ (o : Nat) (x : OutletSt), (h.setOutlet o x).ftime = h.ftime := fun _ _ => rfl
@[simp] theorem Hub.setOutlet_epoch : ∀ (o : Nat) (x : OutletSt), (h.setOutlet o x).epoch = h.epoch := fun _ _ => rfl
@[simp] theorem Hub.setOutlet_fresh : ∀ (o : Nat) (x : OutletSt), (h.setOutlet o x).fresh = h.fresh := fun _ _ => rfl
@[simp] theorem Hub.setOutlet_out : ∀ (o : Nat) (x : OutletSt), (h.setOutlet o x).out = h.out := fun _ _ => rfl
@[simp] theorem Hub.setOutlet_turn : ∀ (o : Nat) (x : OutletSt), (h.setOutlet o x).turn = h.turn := fun _ _ => rfl
@[simp] theorem Hub.setOutlet_forebays : ∀ (o : Nat) (x : OutletSt), (h.setOutlet o x).forebays = h.forebays := fun _ _ => rfl
@[simp] theorem Hub.setOutlet_chains : ∀ (o : Nat) (x : OutletSt), (h.setOutlet o x).chains = h.chains := fun _ _ => rfl
@[simp] theorem Hub.setOutlet_nextChain : ∀ (o : Nat) (x : OutletSt), (h.setOutlet o x).nextChain = h.nextChain := fun _ _ => rfl
@[simp] theorem Hub.setOutlet_leaked : ∀ (o : Nat) (x : OutletSt), (h.setOutlet o x).leaked = h.leaked := fun _ _ => rfl
@[simp] theorem Hub.setOutlet_marked : ∀ (o : Nat) (x : OutletSt), (h.setOutlet o x).marked = h.marked := fun _ _ => rfl
@[simp] theorem Hub.setOutlet_cellErr : ∀ (o : Nat) (x : OutletSt), (h.setOutlet o x).cellErr = h.cellErr := fun _ _ => rfl
@[simp] theorem Hub.setOutlet_credits : ∀ (o : Nat) (x : OutletSt), (h.setOutlet o x).credits = h.credits := fun _ _ => rfl
@[simp] theorem Hub.setOutlet_txq : ∀ (o : Nat) (x : OutletSt), (h.setOutlet o x).txq = h.txq := fun _ _ => rfl
@[simp] theorem Hub.setOutlet_halves : ∀ (o : Nat) (x : OutletSt), (h.setOutlet o x).halves = h.halves := fun _ _ => rfl
@[simp] theorem Hub.setOutlet_pathSt : ∀ (o : Nat) (x : OutletSt), (h.setOutlet o x).pathSt = h.pathSt := fun _ _ => rfl
@[simp] theorem Hub.setOutlet_factors : ∀ (o : Nat) (x : OutletSt), (h.setOutlet o x).factors = h.factors := fun _ _ => rfl
@[simp] theorem Hub.setOutlet_flows : ∀ (o : Nat) (x : OutletSt), (h.setOutlet o x).flows = h.flows := fun _ _ => rfl
@[simp] theorem Hub.setOutlet_classes : ∀ (o : Nat) (x : OutletSt), (h.setOutlet o x).classes = h.classes := fun _ _ => rfl
@[simp] theorem Hub.setOutlet_lossyFullSeen : ∀ (o : Nat) (x : OutletSt), (h.setOutlet o x).lossyFullSeen = h.lossyFullSeen := fun _ _ => rfl
@[simp] theorem Hub.setOutlet_cellsWritten : ∀ (o : Nat) (x : OutletSt), (h.setOutlet o x).cellsWritten = h.cellsWritten := fun _ _ => rfl
@[simp] theorem Hub.setOutlet_cellsRead : ∀ (o : Nat) (x : OutletSt), (h.setOutlet o x).cellsRead = h.cellsRead := fun _ _ => rfl
@[simp] theorem Hub.setOutlet_power : ∀ (o : Nat) (x : OutletSt), (h.setOutlet o x).power = h.power := fun _ _ => rfl
@[simp] theorem Hub.setOutlet_clock : ∀ (o : Nat) (x : OutletSt), (h.setOutlet o x).clock = h.clock := fun _ _ => rfl
@[simp] theorem Hub.setOutlet_bindSince : ∀ (o : Nat) (x : OutletSt), (h.setOutlet o x).bindSince = h.bindSince := fun _ _ => rfl
@[simp] theorem Hub.setOutlet_bindNext : ∀ (o : Nat) (x : OutletSt), (h.setOutlet o x).bindNext = h.bindNext := fun _ _ => rfl
@[simp] theorem Hub.setOutlet_sinks : ∀ (o : Nat) (x : OutletSt), (h.setOutlet o x).sinks = h.sinks := fun _ _ => rfl
@[simp] theorem Hub.setOutlet_reports : ∀ (o : Nat) (x : OutletSt), (h.setOutlet o x).reports = h.reports := fun _ _ => rfl
@[simp] theorem Hub.setOutlet_linkAllow : ∀ (o : Nat) (x : OutletSt), (h.setOutlet o x).linkAllow = h.linkAllow := fun _ _ => rfl
@[simp] theorem Hub.setOutlet_units : ∀ (o : Nat) (x : OutletSt), (h.setOutlet o x).units = h.units := fun _ _ => rfl
@[simp] theorem Hub.setOutlet_cmPaths : ∀ (o : Nat) (x : OutletSt), (h.setOutlet o x).cmPaths = h.cmPaths := fun _ _ => rfl
@[simp] theorem Hub.setOutlet_auxGate : ∀ (o : Nat) (x : OutletSt), (h.setOutlet o x).auxGate = h.auxGate := fun _ _ => rfl
@[simp] theorem Hub.setOutlet_gates : ∀ (o : Nat) (x : OutletSt), (h.setOutlet o x).gates = h.gates := fun _ _ => rfl
@[simp] theorem Hub.setOutlet_reelBad : ∀ (o : Nat) (x : OutletSt), (h.setOutlet o x).reelBad = h.reelBad := fun _ _ => rfl
@[simp] theorem Hub.setOutlet_reelBlocks : ∀ (o : Nat) (x : OutletSt), (h.setOutlet o x).reelBlocks = h.reelBlocks := fun _ _ => rfl
@[simp] theorem Hub.setOutlet_heads : ∀ (o : Nat) (x : OutletSt), (h.setOutlet o x).heads = h.heads := fun _ _ => rfl
@[simp] theorem Hub.setOutlet_dpPorts : ∀ (o : Nat) (x : OutletSt), (h.setOutlet o x).dpPorts = h.dpPorts := fun _ _ => rfl
@[simp] theorem Hub.setOutlet_headRank : ∀ (o : Nat) (x : OutletSt), (h.setOutlet o x).headRank = h.headRank := fun _ _ => rfl
@[simp] theorem Hub.setOutlet_net : ∀ (o : Nat) (x : OutletSt), (h.setOutlet o x).net = h.net := fun _ _ => rfl
@[simp] theorem Hub.setOutlet_pen : ∀ (o : Nat) (x : OutletSt), (h.setOutlet o x).pen = h.pen := fun _ _ => rfl
@[simp] theorem Hub.setOutlet_vault : ∀ (o : Nat) (x : OutletSt), (h.setOutlet o x).vault = h.vault := fun _ _ => rfl
@[simp] theorem Hub.setOutlet_fabric : ∀ (o : Nat) (x : OutletSt), (h.setOutlet o x).fabric = h.fabric := fun _ _ => rfl
@[simp] theorem Hub.setOutlet_cue : ∀ (o : Nat) (x : OutletSt), (h.setOutlet o x).cue = h.cue := fun _ _ => rfl
@[simp] theorem Hub.setOutlet_tally : ∀ (o : Nat) (x : OutletSt), (h.setOutlet o x).tally = h.tally := fun _ _ => rfl
@[simp] theorem Hub.setOutlet_tunnels : ∀ (o : Nat) (x : OutletSt), (h.setOutlet o x).tunnels = h.tunnels := fun _ _ => rfl
@[simp] theorem Hub.setOutlet_usb : ∀ (o : Nat) (x : OutletSt), (h.setOutlet o x).usb = h.usb := fun _ _ => rfl
@[simp] theorem Hub.setOutlet_ports : ∀ (o : Nat) (x : OutletSt), (h.setOutlet o x).ports = h.ports := fun _ _ => rfl
@[simp] theorem Hub.setOutlet_weirs : ∀ (o : Nat) (x : OutletSt), (h.setOutlet o x).weirs = h.weirs := fun _ _ => rfl
@[simp] theorem Hub.setOutlet_input : ∀ (o : Nat) (x : OutletSt), (h.setOutlet o x).input = h.input := fun _ _ => rfl
@[simp] theorem Hub.setOutlet_misc : ∀ (o : Nat) (x : OutletSt), (h.setOutlet o x).misc = h.misc := fun _ _ => rfl
@[simp] theorem Hub.setOutlet_boot : ∀ (o : Nat) (x : OutletSt), (h.setOutlet o x).boot = h.boot := fun _ _ => rfl

@[simp] theorem Hub.setTx_otp : ∀ (o : Nat) (l : List XEntry), (h.setTx o l).otp = h.otp := fun _ _ => rfl
@[simp] theorem Hub.setTx_regs : ∀ (o : Nat) (l : List XEntry), (h.setTx o l).regs = h.regs := fun _ _ => rfl
@[simp] theorem Hub.setTx_active : ∀ (o : Nat) (l : List XEntry), (h.setTx o l).active = h.active := fun _ _ => rfl
@[simp] theorem Hub.setTx_snaps : ∀ (o : Nat) (l : List XEntry), (h.setTx o l).snaps = h.snaps := fun _ _ => rfl
@[simp] theorem Hub.setTx_staging : ∀ (o : Nat) (l : List XEntry), (h.setTx o l).staging = h.staging := fun _ _ => rfl
@[simp] theorem Hub.setTx_ownerApplied : ∀ (o : Nat) (l : List XEntry), (h.setTx o l).ownerApplied = h.ownerApplied := fun _ _ => rfl
@[simp] theorem Hub.setTx_domains : ∀ (o : Nat) (l : List XEntry), (h.setTx o l).domains = h.domains := fun _ _ => rfl
@[simp] theorem Hub.setTx_stalled : ∀ (o : Nat) (l : List XEntry), (h.setTx o l).stalled = h.stalled := fun _ _ => rfl
@[simp] theorem Hub.setTx_ftime : ∀ (o : Nat) (l : List XEntry), (h.setTx o l).ftime = h.ftime := fun _ _ => rfl
@[simp] theorem Hub.setTx_epoch : ∀ (o : Nat) (l : List XEntry), (h.setTx o l).epoch = h.epoch := fun _ _ => rfl
@[simp] theorem Hub.setTx_fresh : ∀ (o : Nat) (l : List XEntry), (h.setTx o l).fresh = h.fresh := fun _ _ => rfl
@[simp] theorem Hub.setTx_out : ∀ (o : Nat) (l : List XEntry), (h.setTx o l).out = h.out := fun _ _ => rfl
@[simp] theorem Hub.setTx_turn : ∀ (o : Nat) (l : List XEntry), (h.setTx o l).turn = h.turn := fun _ _ => rfl
@[simp] theorem Hub.setTx_forebays : ∀ (o : Nat) (l : List XEntry), (h.setTx o l).forebays = h.forebays := fun _ _ => rfl
@[simp] theorem Hub.setTx_chains : ∀ (o : Nat) (l : List XEntry), (h.setTx o l).chains = h.chains := fun _ _ => rfl
@[simp] theorem Hub.setTx_nextChain : ∀ (o : Nat) (l : List XEntry), (h.setTx o l).nextChain = h.nextChain := fun _ _ => rfl
@[simp] theorem Hub.setTx_leaked : ∀ (o : Nat) (l : List XEntry), (h.setTx o l).leaked = h.leaked := fun _ _ => rfl
@[simp] theorem Hub.setTx_marked : ∀ (o : Nat) (l : List XEntry), (h.setTx o l).marked = h.marked := fun _ _ => rfl
@[simp] theorem Hub.setTx_cellErr : ∀ (o : Nat) (l : List XEntry), (h.setTx o l).cellErr = h.cellErr := fun _ _ => rfl
@[simp] theorem Hub.setTx_credits : ∀ (o : Nat) (l : List XEntry), (h.setTx o l).credits = h.credits := fun _ _ => rfl
@[simp] theorem Hub.setTx_halves : ∀ (o : Nat) (l : List XEntry), (h.setTx o l).halves = h.halves := fun _ _ => rfl
@[simp] theorem Hub.setTx_pathSt : ∀ (o : Nat) (l : List XEntry), (h.setTx o l).pathSt = h.pathSt := fun _ _ => rfl
@[simp] theorem Hub.setTx_factors : ∀ (o : Nat) (l : List XEntry), (h.setTx o l).factors = h.factors := fun _ _ => rfl
@[simp] theorem Hub.setTx_flows : ∀ (o : Nat) (l : List XEntry), (h.setTx o l).flows = h.flows := fun _ _ => rfl
@[simp] theorem Hub.setTx_classes : ∀ (o : Nat) (l : List XEntry), (h.setTx o l).classes = h.classes := fun _ _ => rfl
@[simp] theorem Hub.setTx_outlets : ∀ (o : Nat) (l : List XEntry), (h.setTx o l).outlets = h.outlets := fun _ _ => rfl
@[simp] theorem Hub.setTx_lossyFullSeen : ∀ (o : Nat) (l : List XEntry), (h.setTx o l).lossyFullSeen = h.lossyFullSeen := fun _ _ => rfl
@[simp] theorem Hub.setTx_cellsWritten : ∀ (o : Nat) (l : List XEntry), (h.setTx o l).cellsWritten = h.cellsWritten := fun _ _ => rfl
@[simp] theorem Hub.setTx_cellsRead : ∀ (o : Nat) (l : List XEntry), (h.setTx o l).cellsRead = h.cellsRead := fun _ _ => rfl
@[simp] theorem Hub.setTx_power : ∀ (o : Nat) (l : List XEntry), (h.setTx o l).power = h.power := fun _ _ => rfl
@[simp] theorem Hub.setTx_clock : ∀ (o : Nat) (l : List XEntry), (h.setTx o l).clock = h.clock := fun _ _ => rfl
@[simp] theorem Hub.setTx_bindSince : ∀ (o : Nat) (l : List XEntry), (h.setTx o l).bindSince = h.bindSince := fun _ _ => rfl
@[simp] theorem Hub.setTx_bindNext : ∀ (o : Nat) (l : List XEntry), (h.setTx o l).bindNext = h.bindNext := fun _ _ => rfl
@[simp] theorem Hub.setTx_sinks : ∀ (o : Nat) (l : List XEntry), (h.setTx o l).sinks = h.sinks := fun _ _ => rfl
@[simp] theorem Hub.setTx_reports : ∀ (o : Nat) (l : List XEntry), (h.setTx o l).reports = h.reports := fun _ _ => rfl
@[simp] theorem Hub.setTx_linkAllow : ∀ (o : Nat) (l : List XEntry), (h.setTx o l).linkAllow = h.linkAllow := fun _ _ => rfl
@[simp] theorem Hub.setTx_units : ∀ (o : Nat) (l : List XEntry), (h.setTx o l).units = h.units := fun _ _ => rfl
@[simp] theorem Hub.setTx_cmPaths : ∀ (o : Nat) (l : List XEntry), (h.setTx o l).cmPaths = h.cmPaths := fun _ _ => rfl
@[simp] theorem Hub.setTx_auxGate : ∀ (o : Nat) (l : List XEntry), (h.setTx o l).auxGate = h.auxGate := fun _ _ => rfl
@[simp] theorem Hub.setTx_gates : ∀ (o : Nat) (l : List XEntry), (h.setTx o l).gates = h.gates := fun _ _ => rfl
@[simp] theorem Hub.setTx_reelBad : ∀ (o : Nat) (l : List XEntry), (h.setTx o l).reelBad = h.reelBad := fun _ _ => rfl
@[simp] theorem Hub.setTx_reelBlocks : ∀ (o : Nat) (l : List XEntry), (h.setTx o l).reelBlocks = h.reelBlocks := fun _ _ => rfl
@[simp] theorem Hub.setTx_heads : ∀ (o : Nat) (l : List XEntry), (h.setTx o l).heads = h.heads := fun _ _ => rfl
@[simp] theorem Hub.setTx_dpPorts : ∀ (o : Nat) (l : List XEntry), (h.setTx o l).dpPorts = h.dpPorts := fun _ _ => rfl
@[simp] theorem Hub.setTx_headRank : ∀ (o : Nat) (l : List XEntry), (h.setTx o l).headRank = h.headRank := fun _ _ => rfl
@[simp] theorem Hub.setTx_net : ∀ (o : Nat) (l : List XEntry), (h.setTx o l).net = h.net := fun _ _ => rfl
@[simp] theorem Hub.setTx_pen : ∀ (o : Nat) (l : List XEntry), (h.setTx o l).pen = h.pen := fun _ _ => rfl
@[simp] theorem Hub.setTx_vault : ∀ (o : Nat) (l : List XEntry), (h.setTx o l).vault = h.vault := fun _ _ => rfl
@[simp] theorem Hub.setTx_fabric : ∀ (o : Nat) (l : List XEntry), (h.setTx o l).fabric = h.fabric := fun _ _ => rfl
@[simp] theorem Hub.setTx_cue : ∀ (o : Nat) (l : List XEntry), (h.setTx o l).cue = h.cue := fun _ _ => rfl
@[simp] theorem Hub.setTx_tally : ∀ (o : Nat) (l : List XEntry), (h.setTx o l).tally = h.tally := fun _ _ => rfl
@[simp] theorem Hub.setTx_tunnels : ∀ (o : Nat) (l : List XEntry), (h.setTx o l).tunnels = h.tunnels := fun _ _ => rfl
@[simp] theorem Hub.setTx_usb : ∀ (o : Nat) (l : List XEntry), (h.setTx o l).usb = h.usb := fun _ _ => rfl
@[simp] theorem Hub.setTx_ports : ∀ (o : Nat) (l : List XEntry), (h.setTx o l).ports = h.ports := fun _ _ => rfl
@[simp] theorem Hub.setTx_weirs : ∀ (o : Nat) (l : List XEntry), (h.setTx o l).weirs = h.weirs := fun _ _ => rfl
@[simp] theorem Hub.setTx_input : ∀ (o : Nat) (l : List XEntry), (h.setTx o l).input = h.input := fun _ _ => rfl
@[simp] theorem Hub.setTx_misc : ∀ (o : Nat) (l : List XEntry), (h.setTx o l).misc = h.misc := fun _ _ => rfl
@[simp] theorem Hub.setTx_boot : ∀ (o : Nat) (l : List XEntry), (h.setTx o l).boot = h.boot := fun _ _ => rfl

@[simp] theorem Hub.setPort_otp : ∀ (p : Nat) (x : PortSt), (h.setPort p x).otp = h.otp := fun _ _ => rfl
@[simp] theorem Hub.setPort_regs : ∀ (p : Nat) (x : PortSt), (h.setPort p x).regs = h.regs := fun _ _ => rfl
@[simp] theorem Hub.setPort_active : ∀ (p : Nat) (x : PortSt), (h.setPort p x).active = h.active := fun _ _ => rfl
@[simp] theorem Hub.setPort_snaps : ∀ (p : Nat) (x : PortSt), (h.setPort p x).snaps = h.snaps := fun _ _ => rfl
@[simp] theorem Hub.setPort_staging : ∀ (p : Nat) (x : PortSt), (h.setPort p x).staging = h.staging := fun _ _ => rfl
@[simp] theorem Hub.setPort_ownerApplied : ∀ (p : Nat) (x : PortSt), (h.setPort p x).ownerApplied = h.ownerApplied := fun _ _ => rfl
@[simp] theorem Hub.setPort_domains : ∀ (p : Nat) (x : PortSt), (h.setPort p x).domains = h.domains := fun _ _ => rfl
@[simp] theorem Hub.setPort_stalled : ∀ (p : Nat) (x : PortSt), (h.setPort p x).stalled = h.stalled := fun _ _ => rfl
@[simp] theorem Hub.setPort_ftime : ∀ (p : Nat) (x : PortSt), (h.setPort p x).ftime = h.ftime := fun _ _ => rfl
@[simp] theorem Hub.setPort_epoch : ∀ (p : Nat) (x : PortSt), (h.setPort p x).epoch = h.epoch := fun _ _ => rfl
@[simp] theorem Hub.setPort_fresh : ∀ (p : Nat) (x : PortSt), (h.setPort p x).fresh = h.fresh := fun _ _ => rfl
@[simp] theorem Hub.setPort_out : ∀ (p : Nat) (x : PortSt), (h.setPort p x).out = h.out := fun _ _ => rfl
@[simp] theorem Hub.setPort_turn : ∀ (p : Nat) (x : PortSt), (h.setPort p x).turn = h.turn := fun _ _ => rfl
@[simp] theorem Hub.setPort_forebays : ∀ (p : Nat) (x : PortSt), (h.setPort p x).forebays = h.forebays := fun _ _ => rfl
@[simp] theorem Hub.setPort_chains : ∀ (p : Nat) (x : PortSt), (h.setPort p x).chains = h.chains := fun _ _ => rfl
@[simp] theorem Hub.setPort_nextChain : ∀ (p : Nat) (x : PortSt), (h.setPort p x).nextChain = h.nextChain := fun _ _ => rfl
@[simp] theorem Hub.setPort_leaked : ∀ (p : Nat) (x : PortSt), (h.setPort p x).leaked = h.leaked := fun _ _ => rfl
@[simp] theorem Hub.setPort_marked : ∀ (p : Nat) (x : PortSt), (h.setPort p x).marked = h.marked := fun _ _ => rfl
@[simp] theorem Hub.setPort_cellErr : ∀ (p : Nat) (x : PortSt), (h.setPort p x).cellErr = h.cellErr := fun _ _ => rfl
@[simp] theorem Hub.setPort_credits : ∀ (p : Nat) (x : PortSt), (h.setPort p x).credits = h.credits := fun _ _ => rfl
@[simp] theorem Hub.setPort_txq : ∀ (p : Nat) (x : PortSt), (h.setPort p x).txq = h.txq := fun _ _ => rfl
@[simp] theorem Hub.setPort_halves : ∀ (p : Nat) (x : PortSt), (h.setPort p x).halves = h.halves := fun _ _ => rfl
@[simp] theorem Hub.setPort_pathSt : ∀ (p : Nat) (x : PortSt), (h.setPort p x).pathSt = h.pathSt := fun _ _ => rfl
@[simp] theorem Hub.setPort_factors : ∀ (p : Nat) (x : PortSt), (h.setPort p x).factors = h.factors := fun _ _ => rfl
@[simp] theorem Hub.setPort_flows : ∀ (p : Nat) (x : PortSt), (h.setPort p x).flows = h.flows := fun _ _ => rfl
@[simp] theorem Hub.setPort_classes : ∀ (p : Nat) (x : PortSt), (h.setPort p x).classes = h.classes := fun _ _ => rfl
@[simp] theorem Hub.setPort_outlets : ∀ (p : Nat) (x : PortSt), (h.setPort p x).outlets = h.outlets := fun _ _ => rfl
@[simp] theorem Hub.setPort_lossyFullSeen : ∀ (p : Nat) (x : PortSt), (h.setPort p x).lossyFullSeen = h.lossyFullSeen := fun _ _ => rfl
@[simp] theorem Hub.setPort_cellsWritten : ∀ (p : Nat) (x : PortSt), (h.setPort p x).cellsWritten = h.cellsWritten := fun _ _ => rfl
@[simp] theorem Hub.setPort_cellsRead : ∀ (p : Nat) (x : PortSt), (h.setPort p x).cellsRead = h.cellsRead := fun _ _ => rfl
@[simp] theorem Hub.setPort_power : ∀ (p : Nat) (x : PortSt), (h.setPort p x).power = h.power := fun _ _ => rfl
@[simp] theorem Hub.setPort_clock : ∀ (p : Nat) (x : PortSt), (h.setPort p x).clock = h.clock := fun _ _ => rfl
@[simp] theorem Hub.setPort_bindSince : ∀ (p : Nat) (x : PortSt), (h.setPort p x).bindSince = h.bindSince := fun _ _ => rfl
@[simp] theorem Hub.setPort_bindNext : ∀ (p : Nat) (x : PortSt), (h.setPort p x).bindNext = h.bindNext := fun _ _ => rfl
@[simp] theorem Hub.setPort_sinks : ∀ (p : Nat) (x : PortSt), (h.setPort p x).sinks = h.sinks := fun _ _ => rfl
@[simp] theorem Hub.setPort_reports : ∀ (p : Nat) (x : PortSt), (h.setPort p x).reports = h.reports := fun _ _ => rfl
@[simp] theorem Hub.setPort_linkAllow : ∀ (p : Nat) (x : PortSt), (h.setPort p x).linkAllow = h.linkAllow := fun _ _ => rfl
@[simp] theorem Hub.setPort_units : ∀ (p : Nat) (x : PortSt), (h.setPort p x).units = h.units := fun _ _ => rfl
@[simp] theorem Hub.setPort_cmPaths : ∀ (p : Nat) (x : PortSt), (h.setPort p x).cmPaths = h.cmPaths := fun _ _ => rfl
@[simp] theorem Hub.setPort_auxGate : ∀ (p : Nat) (x : PortSt), (h.setPort p x).auxGate = h.auxGate := fun _ _ => rfl
@[simp] theorem Hub.setPort_gates : ∀ (p : Nat) (x : PortSt), (h.setPort p x).gates = h.gates := fun _ _ => rfl
@[simp] theorem Hub.setPort_reelBad : ∀ (p : Nat) (x : PortSt), (h.setPort p x).reelBad = h.reelBad := fun _ _ => rfl
@[simp] theorem Hub.setPort_reelBlocks : ∀ (p : Nat) (x : PortSt), (h.setPort p x).reelBlocks = h.reelBlocks := fun _ _ => rfl
@[simp] theorem Hub.setPort_heads : ∀ (p : Nat) (x : PortSt), (h.setPort p x).heads = h.heads := fun _ _ => rfl
@[simp] theorem Hub.setPort_dpPorts : ∀ (p : Nat) (x : PortSt), (h.setPort p x).dpPorts = h.dpPorts := fun _ _ => rfl
@[simp] theorem Hub.setPort_headRank : ∀ (p : Nat) (x : PortSt), (h.setPort p x).headRank = h.headRank := fun _ _ => rfl
@[simp] theorem Hub.setPort_net : ∀ (p : Nat) (x : PortSt), (h.setPort p x).net = h.net := fun _ _ => rfl
@[simp] theorem Hub.setPort_pen : ∀ (p : Nat) (x : PortSt), (h.setPort p x).pen = h.pen := fun _ _ => rfl
@[simp] theorem Hub.setPort_vault : ∀ (p : Nat) (x : PortSt), (h.setPort p x).vault = h.vault := fun _ _ => rfl
@[simp] theorem Hub.setPort_fabric : ∀ (p : Nat) (x : PortSt), (h.setPort p x).fabric = h.fabric := fun _ _ => rfl
@[simp] theorem Hub.setPort_cue : ∀ (p : Nat) (x : PortSt), (h.setPort p x).cue = h.cue := fun _ _ => rfl
@[simp] theorem Hub.setPort_tally : ∀ (p : Nat) (x : PortSt), (h.setPort p x).tally = h.tally := fun _ _ => rfl
@[simp] theorem Hub.setPort_tunnels : ∀ (p : Nat) (x : PortSt), (h.setPort p x).tunnels = h.tunnels := fun _ _ => rfl
@[simp] theorem Hub.setPort_usb : ∀ (p : Nat) (x : PortSt), (h.setPort p x).usb = h.usb := fun _ _ => rfl
@[simp] theorem Hub.setPort_weirs : ∀ (p : Nat) (x : PortSt), (h.setPort p x).weirs = h.weirs := fun _ _ => rfl
@[simp] theorem Hub.setPort_input : ∀ (p : Nat) (x : PortSt), (h.setPort p x).input = h.input := fun _ _ => rfl
@[simp] theorem Hub.setPort_misc : ∀ (p : Nat) (x : PortSt), (h.setPort p x).misc = h.misc := fun _ _ => rfl
@[simp] theorem Hub.setPort_boot : ∀ (p : Nat) (x : PortSt), (h.setPort p x).boot = h.boot := fun _ _ => rfl

@[simp] theorem Hub.setWeir_otp : ∀ (c : Nat) (x : WeirSt), (h.setWeir c x).otp = h.otp := fun _ _ => rfl
@[simp] theorem Hub.setWeir_regs : ∀ (c : Nat) (x : WeirSt), (h.setWeir c x).regs = h.regs := fun _ _ => rfl
@[simp] theorem Hub.setWeir_active : ∀ (c : Nat) (x : WeirSt), (h.setWeir c x).active = h.active := fun _ _ => rfl
@[simp] theorem Hub.setWeir_snaps : ∀ (c : Nat) (x : WeirSt), (h.setWeir c x).snaps = h.snaps := fun _ _ => rfl
@[simp] theorem Hub.setWeir_staging : ∀ (c : Nat) (x : WeirSt), (h.setWeir c x).staging = h.staging := fun _ _ => rfl
@[simp] theorem Hub.setWeir_ownerApplied : ∀ (c : Nat) (x : WeirSt), (h.setWeir c x).ownerApplied = h.ownerApplied := fun _ _ => rfl
@[simp] theorem Hub.setWeir_domains : ∀ (c : Nat) (x : WeirSt), (h.setWeir c x).domains = h.domains := fun _ _ => rfl
@[simp] theorem Hub.setWeir_stalled : ∀ (c : Nat) (x : WeirSt), (h.setWeir c x).stalled = h.stalled := fun _ _ => rfl
@[simp] theorem Hub.setWeir_ftime : ∀ (c : Nat) (x : WeirSt), (h.setWeir c x).ftime = h.ftime := fun _ _ => rfl
@[simp] theorem Hub.setWeir_epoch : ∀ (c : Nat) (x : WeirSt), (h.setWeir c x).epoch = h.epoch := fun _ _ => rfl
@[simp] theorem Hub.setWeir_fresh : ∀ (c : Nat) (x : WeirSt), (h.setWeir c x).fresh = h.fresh := fun _ _ => rfl
@[simp] theorem Hub.setWeir_out : ∀ (c : Nat) (x : WeirSt), (h.setWeir c x).out = h.out := fun _ _ => rfl
@[simp] theorem Hub.setWeir_turn : ∀ (c : Nat) (x : WeirSt), (h.setWeir c x).turn = h.turn := fun _ _ => rfl
@[simp] theorem Hub.setWeir_forebays : ∀ (c : Nat) (x : WeirSt), (h.setWeir c x).forebays = h.forebays := fun _ _ => rfl
@[simp] theorem Hub.setWeir_chains : ∀ (c : Nat) (x : WeirSt), (h.setWeir c x).chains = h.chains := fun _ _ => rfl
@[simp] theorem Hub.setWeir_nextChain : ∀ (c : Nat) (x : WeirSt), (h.setWeir c x).nextChain = h.nextChain := fun _ _ => rfl
@[simp] theorem Hub.setWeir_leaked : ∀ (c : Nat) (x : WeirSt), (h.setWeir c x).leaked = h.leaked := fun _ _ => rfl
@[simp] theorem Hub.setWeir_marked : ∀ (c : Nat) (x : WeirSt), (h.setWeir c x).marked = h.marked := fun _ _ => rfl
@[simp] theorem Hub.setWeir_cellErr : ∀ (c : Nat) (x : WeirSt), (h.setWeir c x).cellErr = h.cellErr := fun _ _ => rfl
@[simp] theorem Hub.setWeir_credits : ∀ (c : Nat) (x : WeirSt), (h.setWeir c x).credits = h.credits := fun _ _ => rfl
@[simp] theorem Hub.setWeir_txq : ∀ (c : Nat) (x : WeirSt), (h.setWeir c x).txq = h.txq := fun _ _ => rfl
@[simp] theorem Hub.setWeir_halves : ∀ (c : Nat) (x : WeirSt), (h.setWeir c x).halves = h.halves := fun _ _ => rfl
@[simp] theorem Hub.setWeir_pathSt : ∀ (c : Nat) (x : WeirSt), (h.setWeir c x).pathSt = h.pathSt := fun _ _ => rfl
@[simp] theorem Hub.setWeir_factors : ∀ (c : Nat) (x : WeirSt), (h.setWeir c x).factors = h.factors := fun _ _ => rfl
@[simp] theorem Hub.setWeir_flows : ∀ (c : Nat) (x : WeirSt), (h.setWeir c x).flows = h.flows := fun _ _ => rfl
@[simp] theorem Hub.setWeir_classes : ∀ (c : Nat) (x : WeirSt), (h.setWeir c x).classes = h.classes := fun _ _ => rfl
@[simp] theorem Hub.setWeir_outlets : ∀ (c : Nat) (x : WeirSt), (h.setWeir c x).outlets = h.outlets := fun _ _ => rfl
@[simp] theorem Hub.setWeir_lossyFullSeen : ∀ (c : Nat) (x : WeirSt), (h.setWeir c x).lossyFullSeen = h.lossyFullSeen := fun _ _ => rfl
@[simp] theorem Hub.setWeir_cellsWritten : ∀ (c : Nat) (x : WeirSt), (h.setWeir c x).cellsWritten = h.cellsWritten := fun _ _ => rfl
@[simp] theorem Hub.setWeir_cellsRead : ∀ (c : Nat) (x : WeirSt), (h.setWeir c x).cellsRead = h.cellsRead := fun _ _ => rfl
@[simp] theorem Hub.setWeir_power : ∀ (c : Nat) (x : WeirSt), (h.setWeir c x).power = h.power := fun _ _ => rfl
@[simp] theorem Hub.setWeir_clock : ∀ (c : Nat) (x : WeirSt), (h.setWeir c x).clock = h.clock := fun _ _ => rfl
@[simp] theorem Hub.setWeir_bindSince : ∀ (c : Nat) (x : WeirSt), (h.setWeir c x).bindSince = h.bindSince := fun _ _ => rfl
@[simp] theorem Hub.setWeir_bindNext : ∀ (c : Nat) (x : WeirSt), (h.setWeir c x).bindNext = h.bindNext := fun _ _ => rfl
@[simp] theorem Hub.setWeir_sinks : ∀ (c : Nat) (x : WeirSt), (h.setWeir c x).sinks = h.sinks := fun _ _ => rfl
@[simp] theorem Hub.setWeir_reports : ∀ (c : Nat) (x : WeirSt), (h.setWeir c x).reports = h.reports := fun _ _ => rfl
@[simp] theorem Hub.setWeir_linkAllow : ∀ (c : Nat) (x : WeirSt), (h.setWeir c x).linkAllow = h.linkAllow := fun _ _ => rfl
@[simp] theorem Hub.setWeir_units : ∀ (c : Nat) (x : WeirSt), (h.setWeir c x).units = h.units := fun _ _ => rfl
@[simp] theorem Hub.setWeir_cmPaths : ∀ (c : Nat) (x : WeirSt), (h.setWeir c x).cmPaths = h.cmPaths := fun _ _ => rfl
@[simp] theorem Hub.setWeir_auxGate : ∀ (c : Nat) (x : WeirSt), (h.setWeir c x).auxGate = h.auxGate := fun _ _ => rfl
@[simp] theorem Hub.setWeir_gates : ∀ (c : Nat) (x : WeirSt), (h.setWeir c x).gates = h.gates := fun _ _ => rfl
@[simp] theorem Hub.setWeir_reelBad : ∀ (c : Nat) (x : WeirSt), (h.setWeir c x).reelBad = h.reelBad := fun _ _ => rfl
@[simp] theorem Hub.setWeir_reelBlocks : ∀ (c : Nat) (x : WeirSt), (h.setWeir c x).reelBlocks = h.reelBlocks := fun _ _ => rfl
@[simp] theorem Hub.setWeir_heads : ∀ (c : Nat) (x : WeirSt), (h.setWeir c x).heads = h.heads := fun _ _ => rfl
@[simp] theorem Hub.setWeir_dpPorts : ∀ (c : Nat) (x : WeirSt), (h.setWeir c x).dpPorts = h.dpPorts := fun _ _ => rfl
@[simp] theorem Hub.setWeir_headRank : ∀ (c : Nat) (x : WeirSt), (h.setWeir c x).headRank = h.headRank := fun _ _ => rfl
@[simp] theorem Hub.setWeir_net : ∀ (c : Nat) (x : WeirSt), (h.setWeir c x).net = h.net := fun _ _ => rfl
@[simp] theorem Hub.setWeir_pen : ∀ (c : Nat) (x : WeirSt), (h.setWeir c x).pen = h.pen := fun _ _ => rfl
@[simp] theorem Hub.setWeir_vault : ∀ (c : Nat) (x : WeirSt), (h.setWeir c x).vault = h.vault := fun _ _ => rfl
@[simp] theorem Hub.setWeir_fabric : ∀ (c : Nat) (x : WeirSt), (h.setWeir c x).fabric = h.fabric := fun _ _ => rfl
@[simp] theorem Hub.setWeir_cue : ∀ (c : Nat) (x : WeirSt), (h.setWeir c x).cue = h.cue := fun _ _ => rfl
@[simp] theorem Hub.setWeir_tally : ∀ (c : Nat) (x : WeirSt), (h.setWeir c x).tally = h.tally := fun _ _ => rfl
@[simp] theorem Hub.setWeir_tunnels : ∀ (c : Nat) (x : WeirSt), (h.setWeir c x).tunnels = h.tunnels := fun _ _ => rfl
@[simp] theorem Hub.setWeir_usb : ∀ (c : Nat) (x : WeirSt), (h.setWeir c x).usb = h.usb := fun _ _ => rfl
@[simp] theorem Hub.setWeir_ports : ∀ (c : Nat) (x : WeirSt), (h.setWeir c x).ports = h.ports := fun _ _ => rfl
@[simp] theorem Hub.setWeir_input : ∀ (c : Nat) (x : WeirSt), (h.setWeir c x).input = h.input := fun _ _ => rfl
@[simp] theorem Hub.setWeir_misc : ∀ (c : Nat) (x : WeirSt), (h.setWeir c x).misc = h.misc := fun _ _ => rfl
@[simp] theorem Hub.setWeir_boot : ∀ (c : Nat) (x : WeirSt), (h.setWeir c x).boot = h.boot := fun _ _ => rfl

end Sys2Proof.Machine
end

