-- ==== Sys2Proof/Laws/Table.lean ====
section
/-! SUPPORT. The laws of finite maps: what a read gives after a write, and that writes keep the canonical form. -/

namespace Sys2Proof.Machine

theorem Tbl.get_del {α : Type} (d : Nat → α) (t : Tbl α) (k k' : Nat) :
    Tbl.get d (Tbl.del t k) k' = if k' = k then d k else Tbl.get d t k' := by
  induction t with
  | nil => by_cases h : k' = k <;> simp [Tbl.del, Tbl.get, h]
  | cons e t ih =>
    obtain ⟨a, v⟩ := e
    by_cases h1 : a = k
    · subst h1
      simp only [Tbl.del, if_true, ih, Tbl.get]
      by_cases h2 : k' = a
      · simp [h2]
      · simp [h2, Ne.symm h2]
    · simp only [Tbl.del, h1, if_false, Tbl.get, ih]
      by_cases h2 : k' = k
      · subst h2; simp [h1]
      · simp [h2]

theorem Tbl.get_ins {α : Type} (d : Nat → α) (t : Tbl α) (k k' : Nat) (v : α) :
    Tbl.get d (Tbl.ins t k v) k' = if k' = k then v else Tbl.get d t k' := by
  have flip : ∀ x y : α, (if k = k' then x else y) = if k' = k then x else y := by
    intro x y
    by_cases h : k' = k
    · simp [h]
    · simp [h, Ne.symm h]
  induction t with
  | nil => simp only [Tbl.ins, Tbl.get, flip]
  | cons e t ih =>
    obtain ⟨a, w⟩ := e
    simp only [Tbl.ins]
    split
    · simp only [Tbl.get, flip]
    · split
      · next h =>
        subst h
        simp only [Tbl.get]
        by_cases h : k = k' <;> simp [h, eq_comm]
      · simp only [Tbl.get, ih]
        by_cases h1 : a = k' <;> by_cases h2 : k' = k <;> simp_all

/-- A read after a write. -/
theorem Tbl.get_put {α : Type} [DecidableEq α] (d : Nat → α) (t : Tbl α) (k k' : Nat) (v : α) :
    Tbl.get d (Tbl.put d t k v) k' = if k' = k then v else Tbl.get d t k' := by
  unfold Tbl.put
  split
  · next h => rw [Tbl.get_del, ← h]
  · rw [Tbl.get_ins]

theorem Tbl.get_put_same {α : Type} [DecidableEq α] (d : Nat → α) (t : Tbl α) (k : Nat) (v : α) :
    Tbl.get d (Tbl.put d t k v) k = v := by simp [Tbl.get_put]

theorem Tbl.get_put_other {α : Type} [DecidableEq α] (d : Nat → α) (t : Tbl α) {k k' : Nat} (v : α) (h : k' ≠ k) :
    Tbl.get d (Tbl.put d t k v) k' = Tbl.get d t k' := by simp [Tbl.get_put, h]

theorem Tbl.get_upd {α : Type} [DecidableEq α] (d : Nat → α) (t : Tbl α) (k k' : Nat) (f : α → α) :
    Tbl.get d (Tbl.upd d t k f) k' = if k' = k then f (Tbl.get d t k) else Tbl.get d t k' := Tbl.get_put ..

theorem Tbl.okFrom_mono {α : Type} [DecidableEq α] (d : Nat → α) {b c : Nat} (h : b ≤ c) {t : Tbl α}
    (w : Tbl.okFrom d c t = true) : Tbl.okFrom d b t = true := by
  cases t with
  | nil => rfl
  | cons e t =>
    simp only [Tbl.okFrom, Bool.and_eq_true, decide_eq_true_eq] at w ⊢
    exact ⟨⟨by omega, w.1.2⟩, w.2⟩

theorem Tbl.okFrom_del {α : Type} [DecidableEq α] (d : Nat → α) (k : Nat) {t : Tbl α} :
    ∀ {b : Nat}, Tbl.okFrom d b t = true → Tbl.okFrom d b (Tbl.del t k) = true := by
  induction t with
  | nil => intro b _; rfl
  | cons e t ih =>
    obtain ⟨a, v⟩ := e
    intro b w
    simp only [Tbl.okFrom, Bool.and_eq_true, decide_eq_true_eq] at w
    simp only [Tbl.del]
    split
    · exact Tbl.okFrom_mono d (by omega) (ih w.2)
    · simp only [Tbl.okFrom, Bool.and_eq_true, decide_eq_true_eq]
      exact ⟨w.1, ih w.2⟩

theorem Tbl.okFrom_ins {α : Type} [DecidableEq α] (d : Nat → α) (k : Nat) (v : α) (hv : v ≠ d k) {t : Tbl α} :
    ∀ {b : Nat}, b ≤ k → Tbl.okFrom d b t = true → Tbl.okFrom d b (Tbl.ins t k v) = true := by
  induction t with
  | nil => intro b hb _; simp [Tbl.ins, Tbl.okFrom, hb, hv]
  | cons e t ih =>
    obtain ⟨a, w⟩ := e
    intro b hb ok
    simp only [Tbl.okFrom, Bool.and_eq_true, decide_eq_true_eq] at ok
    simp only [Tbl.ins]
    split
    · next h =>
      simp only [Tbl.okFrom, Bool.and_eq_true, decide_eq_true_eq]
      exact ⟨⟨hb, hv⟩, ⟨⟨by omega, ok.1.2⟩, ok.2⟩⟩
    · split
      · next h =>
        subst h
        simp only [Tbl.okFrom, Bool.and_eq_true, decide_eq_true_eq]
        exact ⟨⟨hb, hv⟩, ok.2⟩
      · simp only [Tbl.okFrom, Bool.and_eq_true, decide_eq_true_eq]
        exact ⟨ok.1, ih (by omega) ok.2⟩

/-- Every write keeps the canonical form. -/
theorem Tbl.wf_put {α : Type} [DecidableEq α] (d : Nat → α) {t : Tbl α} (k : Nat) (v : α) (w : Tbl.wf d t = true) :
    Tbl.wf d (Tbl.put d t k v) = true := by
  unfold Tbl.put
  split
  · exact Tbl.okFrom_del d k w
  · next h => exact Tbl.okFrom_ins d k v h (Nat.zero_le _) w

theorem Tbl.wf_del {α : Type} [DecidableEq α] (d : Nat → α) {t : Tbl α} (k : Nat) (w : Tbl.wf d t = true) :
    Tbl.wf d (Tbl.del t k) = true := Tbl.okFrom_del d k w

end Sys2Proof.Machine
end

