-- ==== Sys2Proof/Laws/Fields.lean ====
section
/-! SUPPORT. What a field, an active copy and a table entry read after an update. -/

namespace Sys2Proof.Machine

@[simp] theorem Fld.key_mk (a l w : Nat) : (Fld.mk a l w).key = a * 32 + l := rfl

/-- A field after a write of a field. -/
theorem Hub.fget_fset (h : Hub) (f g : Fld) (v : Nat) :
    (h.fset f v).fget g = if g.key = f.key then v % 2 ^ f.w else h.fget g := Tbl.get_put ..

@[simp] theorem Hub.fget_fset_same (h : Hub) (f : Fld) (v : Nat) : (h.fset f v).fget f = v % 2 ^ f.w := by
  simp [Hub.fget_fset]

theorem Hub.fget_fset_other (h : Hub) {f g : Fld} (v : Nat) (n : g.key ≠ f.key) : (h.fset f v).fget g = h.fget g := by
  simp [Hub.fget_fset, n]

/-- Fields hang on the registers and the fuses alone. -/
theorem Hub.fget_congr {h h' : Hub} (r : h'.regs = h.regs) (o : h'.otp = h.otp) (f : Fld) : h'.fget f = h.fget f := by
  simp [Hub.fget, r, o]

theorem Hub.fget_flag (h : Hub) (f g : Fld) (b : Bool) :
    (h.flag f b).fget g = if g.key = f.key then (if b then 1 else 0) % 2 ^ f.w else h.fget g := Tbl.get_put ..

theorem Hub.fget_bump (h : Hub) (f g : Fld) (n : Nat) :
    (h.bump f n).fget g = if g.key = f.key then min (h.fget f + n) (2 ^ f.w - 1) else h.fget g := by
  rw [Hub.bump, Hub.fget_fset]
  have : min (h.fget f + n) (2 ^ f.w - 1) < 2 ^ f.w := by
    have := Nat.two_pow_pos f.w
    omega
  rw [Nat.mod_eq_of_lt this]

theorem Hub.fget_putBit (h : Hub) (f g : Fld) (n : Nat) (b : Bool) :
    (h.putBit f n b).fget g = if g.key = f.key then withBit (h.fget f) n b % 2 ^ f.w else h.fget g := Tbl.get_put ..

theorem Hub.fget_event (h : Hub) (p b : Nat) (g : Fld) :
    (h.event p b).fget g = if g.key = (F.hdr_INT_STAT_EVENT p).key then withBit (h.fget (F.hdr_INT_STAT_EVENT p)) b true % 2 ^ 32
      else h.fget g := Tbl.get_put ..

theorem Hub.fget_event_other (h : Hub) (p b : Nat) {g : Fld} (n : g.key ≠ (F.hdr_INT_STAT_EVENT p).key) :
    (h.event p b).fget g = h.fget g := by simp [Hub.fget_event, n]

/-- A bit of an event register after an event. -/
theorem Hub.bit_event (h : Hub) (p b c : Nat) (hc : c < 32) :
    (h.event p b).bit (F.hdr_INT_STAT_EVENT p) c = (h.bit (F.hdr_INT_STAT_EVENT p) c || decide (b = c)) := by
  rw [Hub.bit, Hub.bit, Hub.fget_event, if_pos rfl, withBit, if_pos rfl, Nat.testBit_mod_two_pow, Nat.testBit_or, Nat.testBit_two_pow]
  simp [hc]

/-- The event bit is set. -/
theorem Hub.event_set (h : Hub) (p b : Nat) (hb : b < 32) : (h.event p b).bit (F.hdr_INT_STAT_EVENT p) b = true := by
  rw [Hub.bit_event h p b b hb]; simp

/-- An event keeps every event bit that is set. -/
theorem Hub.event_keeps (h : Hub) (p b q c : Nat) (hc : c < 32) (hq : h.bit (F.hdr_INT_STAT_EVENT q) c = true) :
    (h.event p b).bit (F.hdr_INT_STAT_EVENT q) c = true := by
  by_cases e : (F.hdr_INT_STAT_EVENT q).key = (F.hdr_INT_STAT_EVENT p).key
  · have e' : F.hdr_INT_STAT_EVENT q = F.hdr_INT_STAT_EVENT p := by
      simp only [F.hdr_INT_STAT_EVENT, Fld.key] at e ⊢
      congr 1; omega
    rw [e'] at hq ⊢
    rw [Hub.bit_event h p b c hc, hq]; rfl
  · rw [Hub.bit, Hub.fget_event_other h p b e]; exact hq

/-- A page's other event bits stand as they were. -/
theorem Hub.event_other_bit (h : Hub) (p b c : Nat) (hc : c < 32) (n : c ≠ b) :
    (h.event p b).bit (F.hdr_INT_STAT_EVENT p) c = h.bit (F.hdr_INT_STAT_EVENT p) c := by
  rw [Hub.bit_event h p b c hc]; simp [n.symm]

theorem Hub.is_flag (h : Hub) (f : Fld) (b : Bool) (w : 0 < f.w) : (h.flag f b).is f = b := by
  rw [Hub.is, Hub.fget_flag, if_pos rfl]
  have : 1 < 2 ^ f.w := Nat.one_lt_two_pow (by omega)
  cases b
  · simp
  · rw [if_pos rfl, Nat.mod_eq_of_lt this]; rfl

theorem Hub.is_fset (h : Hub) (f g : Fld) (v : Nat) :
    (h.fset f v).is g = if g.key = f.key then v % 2 ^ f.w != 0 else h.is g := by
  rw [Hub.is, Hub.fget_fset]; split <;> rfl

theorem Hub.is_flag_other (h : Hub) {f g : Fld} (b : Bool) (n : g.key ≠ f.key) : (h.flag f b).is g = h.is g := by
  rw [Hub.is, Hub.fget_flag, if_neg n]; rfl

@[simp] theorem Hub.aset_fget (h : Hub) (f : Fld) (v : Nat) (fl : Fld) : (h.aset f v).fget fl = h.fget fl := rfl
@[simp] theorem Hub.aset_is (h : Hub) (f : Fld) (v : Nat) (fl : Fld) : (h.aset f v).is fl = h.is fl := rfl
@[simp] theorem Hub.emit_fget (h : Hub) (e : Emission) (fl : Fld) : (h.emit e).fget fl = h.fget fl := rfl
@[simp] theorem Hub.emit_is (h : Hub) (e : Emission) (fl : Fld) : (h.emit e).is fl = h.is fl := rfl
@[simp] theorem Hub.draw_fget (h : Hub) (fl : Fld) : (h.draw).fget fl = h.fget fl := rfl
@[simp] theorem Hub.draw_is (h : Hub) (fl : Fld) : (h.draw).is fl = h.is fl := rfl
@[simp] theorem Hub.setDom_fget (h : Hub) (d : Nat) (x : DomSt) (fl : Fld) : (h.setDom d x).fget fl = h.fget fl := rfl
@[simp] theorem Hub.setDom_is (h : Hub) (d : Nat) (x : DomSt) (fl : Fld) : (h.setDom d x).is fl = h.is fl := rfl
@[simp] theorem Hub.setLeat_fget (h : Hub) (l : Nat) (x : LeatSt) (fl : Fld) : (h.setLeat l x).fget fl = h.fget fl := rfl
@[simp] theorem Hub.setLeat_is (h : Hub) (l : Nat) (x : LeatSt) (fl : Fld) : (h.setLeat l x).is fl = h.is fl := rfl
@[simp] theorem Hub.setGate_fget (h : Hub) (g : Nat) (x : GateSt) (fl : Fld) : (h.setGate g x).fget fl = h.fget fl := rfl
@[simp] theorem Hub.setGate_is (h : Hub) (g : Nat) (x : GateSt) (fl : Fld) : (h.setGate g x).is fl = h.is fl := rfl
@[simp] theorem Hub.setChain_fget (h : Hub) (c : Chain) (fl : Fld) : (h.setChain c).fget fl = h.fget fl := rfl
@[simp] theorem Hub.setChain_is (h : Hub) (c : Chain) (fl : Fld) : (h.setChain c).is fl = h.is fl := rfl
@[simp] theorem Hub.setFlow_fget (h : Hub) (p o : Nat) (f : Flow) (fl : Fld) : (h.setFlow p o f).fget fl = h.fget fl := rfl
@[simp] theorem Hub.setFlow_is (h : Hub) (p o : Nat) (f : Flow) (fl : Fld) : (h.setFlow p o f).is fl = h.is fl := rfl
@[simp] theorem Hub.setPst_fget (h : Hub) (p : Nat) (x : PathSt) (fl : Fld) : (h.setPst p x).fget fl = h.fget fl := rfl
@[simp] theorem Hub.setPst_is (h : Hub) (p : Nat) (x : PathSt) (fl : Fld) : (h.setPst p x).is fl = h.is fl := rfl
@[simp] theorem Hub.setForebay_fget (h : Hub) (i : Nat) (f : Forebay) (fl : Fld) : (h.setForebay i f).fget fl = h.fget fl := rfl
@[simp] theorem Hub.setForebay_is (h : Hub) (i : Nat) (f : Forebay) (fl : Fld) : (h.setForebay i f).is fl = h.is fl := rfl
@[simp] theorem Hub.setHalf_fget (h : Hub) (k : Nat) (x : Half) (fl : Fld) : (h.setHalf k x).fget fl = h.fget fl := rfl
@[simp] theorem Hub.setHalf_is (h : Hub) (k : Nat) (x : Half) (fl : Fld) : (h.setHalf k x).is fl = h.is fl := rfl
@[simp] theorem Hub.setUnit_fget (h : Hub) (u : Nat) (x : UnitSt) (fl : Fld) : (h.setUnit u x).fget fl = h.fget fl := rfl
@[simp] theorem Hub.setUnit_is (h : Hub) (u : Nat) (x : UnitSt) (fl : Fld) : (h.setUnit u x).is fl = h.is fl := rfl
@[simp] theorem Hub.setPen_fget (h : Hub) (s : Nat) (x : PenSt) (fl : Fld) : (h.setPen s x).fget fl = h.fget fl := rfl
@[simp] theorem Hub.setPen_is (h : Hub) (s : Nat) (x : PenSt) (fl : Fld) : (h.setPen s x).is fl = h.is fl := rfl
@[simp] theorem Hub.setHead_fget (h : Hub) (p : Nat) (x : ProjSt) (fl : Fld) : (h.setHead p x).fget fl = h.fget fl := rfl
@[simp] theorem Hub.setHead_is (h : Hub) (p : Nat) (x : ProjSt) (fl : Fld) : (h.setHead p x).is fl = h.is fl := rfl
@[simp] theorem Hub.setDpPort_fget (h : Hub) (b : Nat) (x : DpPort) (fl : Fld) : (h.setDpPort b x).fget fl = h.fget fl := rfl
@[simp] theorem Hub.setDpPort_is (h : Hub) (b : Nat) (x : DpPort) (fl : Fld) : (h.setDpPort b x).is fl = h.is fl := rfl
@[simp] theorem Hub.setCls_fget (h : Hub) (o c : Nat) (x : ClassSt) (fl : Fld) : (h.setCls o c x).fget fl = h.fget fl := rfl
@[simp] theorem Hub.setCls_is (h : Hub) (o c : Nat) (x : ClassSt) (fl : Fld) : (h.setCls o c x).is fl = h.is fl := rfl
@[simp] theorem Hub.setOutlet_fget (h : Hub) (o : Nat) (x : OutletSt) (fl : Fld) : (h.setOutlet o x).fget fl = h.fget fl := rfl
@[simp] theorem Hub.setOutlet_is (h : Hub) (o : Nat) (x : OutletSt) (fl : Fld) : (h.setOutlet o x).is fl = h.is fl := rfl
@[simp] theorem Hub.setTx_fget (h : Hub) (o : Nat) (l : List XEntry) (fl : Fld) : (h.setTx o l).fget fl = h.fget fl := rfl
@[simp] theorem Hub.setTx_is (h : Hub) (o : Nat) (l : List XEntry) (fl : Fld) : (h.setTx o l).is fl = h.is fl := rfl
@[simp] theorem Hub.setPort_fget (h : Hub) (p : Nat) (x : PortSt) (fl : Fld) : (h.setPort p x).fget fl = h.fget fl := rfl
@[simp] theorem Hub.setPort_is (h : Hub) (p : Nat) (x : PortSt) (fl : Fld) : (h.setPort p x).is fl = h.is fl := rfl
@[simp] theorem Hub.setWeir_fget (h : Hub) (c : Nat) (x : WeirSt) (fl : Fld) : (h.setWeir c x).fget fl = h.fget fl := rfl
@[simp] theorem Hub.setWeir_is (h : Hub) (c : Nat) (x : WeirSt) (fl : Fld) : (h.setWeir c x).is fl = h.is fl := rfl

theorem Hub.aget_aset (h : Hub) (f g : Fld) (v : Nat) :
    (h.aset f v).aget g = if g.key = f.key then v % 2 ^ f.w else h.aget g := Tbl.get_put ..

theorem Hub.dom_setDom (h : Hub) (d j : Nat) (x : DomSt) : (h.setDom d x).dom j = if j = d then x else h.dom j := Tbl.get_put ..

theorem Hub.leatSt_setLeat (h : Hub) (l j : Nat) (x : LeatSt) : (h.setLeat l x).leatSt j = if j = l then x else h.leatSt j := Tbl.get_put ..

theorem Hub.gateSt_setGate (h : Hub) (g j : Nat) (x : GateSt) : (h.setGate g x).gateSt j = if j = g then x else h.gateSt j := Tbl.get_put ..

theorem Hub.pst_setPst (h : Hub) (p j : Nat) (x : PathSt) : (h.setPst p x).pst j = if j = p then x else h.pst j := Tbl.get_put ..

theorem Hub.forebay_setForebay (h : Hub) (i j : Nat) (x : Forebay) : (h.setForebay i x).forebay j = if j = i then x else h.forebay j := Tbl.get_put ..

theorem Hub.half_setHalf (h : Hub) (k j : Nat) (x : Half) : (h.setHalf k x).half j = if j = k then x else h.half j := Tbl.get_put ..

theorem Hub.unitSt_setUnit (h : Hub) (u j : Nat) (x : UnitSt) : (h.setUnit u x).unitSt j = if j = u then x else h.unitSt j := Tbl.get_put ..

theorem Hub.penSt_setPen (h : Hub) (s j : Nat) (x : PenSt) : (h.setPen s x).penSt j = if j = s then x else h.penSt j := Tbl.get_put ..

theorem Hub.head_setHead (h : Hub) (p j : Nat) (x : ProjSt) : (h.setHead p x).head j = if j = p then x else h.head j := Tbl.get_put ..

theorem Hub.dpPort_setDpPort (h : Hub) (b j : Nat) (x : DpPort) : (h.setDpPort b x).dpPort j = if j = b then x else h.dpPort j := Tbl.get_put ..

theorem Hub.outlet_setOutlet (h : Hub) (o j : Nat) (x : OutletSt) : (h.setOutlet o x).outlet j = if j = o then x else h.outlet j := Tbl.get_put ..

theorem Hub.txEntries_setTx (h : Hub) (o j : Nat) (x : List XEntry) : (h.setTx o x).txEntries j = if j = o then x else h.txEntries j := Tbl.get_put ..

theorem Hub.port_setPort (h : Hub) (p j : Nat) (x : PortSt) : (h.setPort p x).port j = if j = p then x else h.port j := Tbl.get_put ..

theorem Hub.weir_setWeir (h : Hub) (c j : Nat) (x : WeirSt) : (h.setWeir c x).weir j = if j = c then x else h.weir j := Tbl.get_put ..

end Sys2Proof.Machine
end

