-- ==== Sys2Proof/Laws/Access.lean ====
section
/-! SUPPORT. Accesses that nothing holds back: a write is the write of its word, a read answers with the word's value. -/

namespace Sys2Proof.Machine

/-- An invalidation of prefetched bytes changes the prefetch buffers alone. -/
theorem invalidate_eq (h : Hub) (reel : Bool) (a n : Nat) : ∃ p, invalidate h reel a n = { h with pen := p } := by
  have step : ∀ (l : List Nat) (f : Hub → Nat → Hub), (∀ x s, ∃ p, f x s = { x with pen := p }) →
      ∀ x : Hub, ∃ p, l.foldl f x = { x with pen := p } := by
    intro l f hf
    induction l with
    | nil => intro x; exact ⟨x.pen, rfl⟩
    | cons s t ih =>
      intro x
      obtain ⟨p, hp⟩ := hf x s
      obtain ⟨q, hq⟩ := ih (f x s)
      refine ⟨q, ?_⟩
      rw [List.foldl_cons, hq, hp]
  refine step _ _ ?_ h
  intro x s
  dsimp only
  split
  · exact ⟨x.pen, rfl⟩
  · exact ⟨_, rfl⟩

@[simp] theorem invalidate_fget (h : Hub) (reel : Bool) (a n : Nat) (f : Fld) : (invalidate h reel a n).fget f = h.fget f := by
  obtain ⟨p, hp⟩ := invalidate_eq h reel a n
  rw [hp]; rfl

/-- With no prefetch buffer in use, nothing is invalidated. -/
theorem invalidate_idle (h : Hub) (reel : Bool) (a n : Nat) (e : h.pen = []) : invalidate h reel a n = h := by
  have each : ∀ (l : List Nat) (f : Hub → Nat → Hub), (∀ x s, x.pen = [] → f x s = x) → h.pen = [] → l.foldl f h = h := by
    intro l f hf e
    induction l with
    | nil => rfl
    | cons s t ih => rw [List.foldl_cons, hf h s e]; exact ih
  refine each _ _ ?_ e
  intro x s e
  simp [Hub.penSt, e, Tbl.get, pen0]

theorem bufferHit_write (h : Hub) (a : Access) (w : a.write = true) : bufferHit h a = none := by
  unfold bufferHit
  split
  · simp [w]
  · rfl

theorem narrow_window (req : Req) (a : Nat) (w : Bool) (v : BitVec 64) :
    (narrow req && ((windowAccess req a 4 w v).reel || (windowAccess req a 4 w v).size != 4)) = false := by
  cases narrow req <;> rfl

/-- A write is posted: no room for an answer holds it back (R367). -/
theorem mayAnswer_write (h : Hub) (req : Req) (a n : Nat) (v : BitVec 64) : mayAnswer h (windowAccess req a n true v) = true := by
  unfold mayAnswer completionRoom
  split
  · simp [windowAccess]
  · rfl

/-- A write that passes is the write of its word (R53); a write to the BIST page may let stalled accesses go on. -/
theorem busWrite_passes (s : State) (req : Req) (a v : Nat) (p : Passes s req a true) (hv : v < 2 ^ 32) (nb : endsBist (windowAccess req a 4 true 0) = false) :
    busWrite s req a v = .next { s with hub := writeWord (invalidate s.hub false a 4) req a v } := by
  obtain ⟨h1, h2, h3⟩ := p
  have hv' : (BitVec.ofNat 64 v).toNat % 2 ^ 32 = v := by
    rw [BitVec.toNat_ofNat]; omega
  have nb' : ∀ x, endsBist (windowAccess req a 4 true x) = endsBist (windowAccess req a 4 true 0) := fun _ => rfl
  simp only [busWrite, access, onBoth, busAccess, nb', nb]
  rw [if_neg (by simp [windowAccess]), if_neg (by simp [windowAccess])]
  have ha : arrive s.hub s.reel (windowAccess req a 4 true (BitVec.ofNat 64 v)) =
      (writeWord (invalidate s.hub false a 4) req a v, s.reel) := by
    rw [arrive, if_neg h1, if_neg (by simp [h2, mayAnswer_write]), startAccess]
    have hj : judgeAccess s.hub (windowAccess req a 4 true (BitVec.ofNat 64 v)) = .go := by
      simp [judgeAccess, windowAccess, h3]
    rw [hj]
    dsimp only
    rw [bufferHit_write _ _ rfl]
    simp only [performAccess, writeWindow, windowAccess]
    rw [hv']
    simp
  rw [ha]
  simp

/-- A write that may end a self-test, and passes: what waited may go on. -/
theorem busWrite_bist (s : State) (req : Req) (a v : Nat) (p : Passes s req a true) (hv : v < 2 ^ 32) (nb : endsBist (windowAccess req a 4 true 0) = true) :
    busWrite s req a v = .next { s with
      hub := (goOn (writeWord (invalidate s.hub false a 4) req a v) s.reel).1
      reel := (goOn (writeWord (invalidate s.hub false a 4) req a v) s.reel).2 } := by
  obtain ⟨h1, h2, h3⟩ := p
  have hv' : (BitVec.ofNat 64 v).toNat % 2 ^ 32 = v := by
    rw [BitVec.toNat_ofNat]; omega
  have nb' : ∀ x, endsBist (windowAccess req a 4 true x) = endsBist (windowAccess req a 4 true 0) := fun _ => rfl
  simp only [busWrite, access, onBoth, busAccess, nb', nb]
  rw [if_neg (by simp [windowAccess]), if_neg (by simp [windowAccess])]
  have ha : arrive s.hub s.reel (windowAccess req a 4 true (BitVec.ofNat 64 v)) =
      (writeWord (invalidate s.hub false a 4) req a v, s.reel) := by
    rw [arrive, if_neg h1, if_neg (by simp [h2, mayAnswer_write]), startAccess]
    have hj : judgeAccess s.hub (windowAccess req a 4 true (BitVec.ofNat 64 v)) = .go := by
      simp [judgeAccess, windowAccess, h3]
    rw [hj]
    dsimp only
    rw [bufferHit_write _ _ rfl]
    simp only [performAccess, writeWindow, windowAccess]
    rw [hv']
    simp
  rw [ha]
  simp

/-- The completion of a host's read waits for its turn outbound (R372); nothing but the prefetch and outbound queues changes. -/
theorem queueCompletion_eq (h : Hub) (a : Access) (parts : List (Nat × Bytes × Bool)) : ∃ p, queueCompletion h a parts = { h with pen := p } := by
  unfold queueCompletion
  split
  · split
    · exact ⟨h.pen, rfl⟩
    · exact ⟨_, rfl⟩
  · exact ⟨h.pen, rfl⟩

/-- A read that passes answers with the value that the read of the word gives (R53, R58, R59). -/
theorem busRead_passes (s : State) (req : Req) (a : Nat) (p : Reads s req a) :
    busRead s req a = .next { s with
      hub := readAhead (answerWord (readWord s.hub req a).1 (windowAccess req a 4 false 0) (readWord s.hub req a).2) s.reel
        (windowAccess req a 4 false 0) } := by
  obtain ⟨⟨h1, h2, h3⟩, hr, h4⟩ := p
  have hb : bufferHit s.hub (windowAccess req a 4 false 0) = none := by
    unfold bufferHit
    cases req with
    | slice k => simp [windowAccess, h4 k rfl]
    | _ => rfl
  have hm : mayAnswer s.hub (windowAccess req a 4 false 0) = true := hr
  simp only [busRead, access, onBoth, busAccess]
  rw [if_neg (by simp [windowAccess]), if_neg (by simp [windowAccess])]
  have ha : arrive s.hub s.reel (windowAccess req a 4 false 0) =
      (readAhead (answerWord (readWord s.hub req a).1 (windowAccess req a 4 false 0) (readWord s.hub req a).2) s.reel
        (windowAccess req a 4 false 0), s.reel) := by
    rw [arrive, if_neg h1, if_neg (by simp [h2]; exact hm), startAccess]
    have hj : judgeAccess s.hub (windowAccess req a 4 false 0) = .go := by
      simp [judgeAccess, windowAccess, h3]
    rw [hj]
    dsimp only
    rw [hb]
    simp [performAccess, readWindow, windowAccess]
  rw [ha]
  simp [windowAccess, endsBist]

/-- The answer to a register read goes out, and nothing but the queues of Penstock changes. -/
theorem answerWord_eq (h : Hub) (req : Req) (a n v : Nat) : ∃ p, answerWord h (windowAccess req a n false 0) v =
    { h with pen := p, out := h.out ++ [.readDone req a (BitVec.ofNat 64 v)] } := by
  obtain ⟨p, hp⟩ := queueCompletion_eq h (windowAccess req a n false 0) [(a, leBytes n v, false)]
  refine ⟨p, ?_⟩
  have e : answerWord h (windowAccess req a n false 0) v =
      (queueCompletion h (windowAccess req a n false 0) [(a, leBytes n v, false)]).emit (.readDone req a (BitVec.ofNat 64 v)) := rfl
  rw [e, hp]
  rfl

/-- The read ahead of a register read changes the prefetch buffers alone (R359, R360). -/
theorem readAhead_eq (h : Hub) (m : Memory) (a : Access) (r : a.reel = false) : ∃ p, readAhead h m a = { h with pen := p } := by
  unfold readAhead
  split
  · split
    · exact ⟨h.pen, rfl⟩
    · split
      · exact ⟨h.pen, rfl⟩
      · dsimp only
        split
        · exact ⟨h.pen, rfl⟩
        · simp only [r, Bool.false_eq_true, if_false]
          exact ⟨_, rfl⟩
  · exact ⟨h.pen, rfl⟩

/-- A read that passes: the answer goes out, and the fields are those that the read of the word leaves. -/
theorem busRead_answers (s : State) (req : Req) (a : Nat) (p : Reads s req a) :
    ∃ t, busRead s req a = .next t ∧
      t.hub.out = (readWord s.hub req a).1.out ++ [.readDone req a (BitVec.ofNat 64 (readWord s.hub req a).2)] ∧
      (∀ f, t.hub.fget f = (readWord s.hub req a).1.fget f) ∧ t.reel = s.reel ∧ t.pending = s.pending := by
  refine ⟨_, busRead_passes s req a p, ?_⟩
  obtain ⟨p', hp⟩ := answerWord_eq (readWord s.hub req a).1 req a 4 (readWord s.hub req a).2
  obtain ⟨q, hq⟩ := readAhead_eq (answerWord (readWord s.hub req a).1 (windowAccess req a 4 false 0) (readWord s.hub req a).2) s.reel
    (windowAccess req a 4 false 0) rfl
  rw [hq, hp]
  exact ⟨rfl, fun _ => rfl, rfl, rfl⟩

end Sys2Proof.Machine
end

