-- ==== Sys2Proof/Laws/Exec.lean ====
section
/-! SUPPORT. One equation per command: what exec of it is. -/

namespace Sys2Proof.Machine

theorem exec_registerWrite (req : Req) (addr : Word) (size : Nat) (value : BitVec 64) (s : State) :
    exec (.registerWrite req addr size value) s = execRegisterWrite req addr size value s := rfl

theorem exec_wakeTimeout (k : Nat) (s : State) :
    exec (.wakeTimeout k) s = execWakeTimeout k s := rfl

theorem exec_intForce (req : Req) (page : Fin 216) (bits : Word) (s : State) :
    exec (.intForce req page bits) s = execIntForce req page bits s := rfl

theorem exec_commitGo (req : Req) (page : Fin 216) (hold : Bool) (s : State) :
    exec (.commitGo req page hold) s = execCommitGo req page hold s := rfl

theorem exec_blockReset (req : Req) (page : Fin 216) (s : State) :
    exec (.blockReset req page) s = execBlockReset req page s := rfl

theorem exec_blockResetComplete (page : Fin 216) (s : State) :
    exec (.blockResetComplete page) s = execBlockResetComplete page s := rfl

theorem exec_ownerWrite (req : Req) (page : Fin 216) (value : Word) (s : State) :
    exec (.ownerWrite req page value) s = execOwnerWrite req page value s := rfl

theorem exec_padRelease (req : Req) (page : Fin 216) (hold : Bool) (s : State) :
    exec (.padRelease req page hold) s = execPadRelease req page hold s := rfl

theorem exec_pairLoRead (req : Req) (span : Span) (s : State) :
    exec (.pairLoRead req span) s = execPairLoRead req span s := rfl

theorem exec_pairHiWrite (req : Req) (addr : Word) (value : Word) (s : State) :
    exec (.pairHiWrite req addr value) s = execPairHiWrite req addr value s := rfl

theorem exec_pairLoWrite (req : Req) (addr : Word) (value : Word) (s : State) :
    exec (.pairLoWrite req addr value) s = execPairLoWrite req addr value s := rfl

theorem exec_pathSetValid (q : PathReq) (s : State) :
    exec (.pathSetValid q) s = execPathSetValid q s := rfl

theorem exec_weightChange (slice : Fin 4) (ingress : Nat) (hop : Nat) (weight : Nat) (s : State) :
    exec (.weightChange slice ingress hop weight) s = execWeightChange slice ingress hop weight s := rfl

theorem exec_asymmetricTransitionRequest (n : Fin 12) (tx3 : Bool) (s : State) :
    exec (.asymmetricTransitionRequest n tx3) s = execAsymmetricTransitionRequest n tx3 s := rfl

theorem exec_retrain (by_ : Option Req) (n : Fin 12) (ctl : Word) (s : State) :
    exec (.retrain by_ n ctl) s = execRetrain by_ n ctl s := rfl

theorem exec_linkUp (n : Fin 12) (mode : LinkReport) (ms : Nat) (s : State) :
    exec (.linkUp n mode ms) s = execLinkUp n mode ms s := rfl

theorem exec_linkDown (n : Fin 12) (s : State) :
    exec (.linkDown n) s = execLinkDown n s := rfl

theorem exec_release (req : Req) (slice : Fin 4) (units : BitVec 16) (s : State) :
    exec (.release req slice units) s = execRelease req slice units s := rfl

theorem exec_releaseDone (slice : Fin 4) (u : Fin 16) (s : State) :
    exec (.releaseDone slice u) s = execReleaseDone slice u s := rfl

theorem exec_attach (req : Req) (slice : Fin 4) (units : BitVec 16) (s : State) :
    exec (.attach req slice units) s = execAttach req slice units s := rfl

theorem exec_discHoldEnd (u : Fin 16) (s : State) :
    exec (.discHoldEnd u) s = execDiscHoldEnd u s := rfl

theorem exec_attachTimeout (u : Fin 16) (s : State) :
    exec (.attachTimeout u) s = execAttachTimeout u s := rfl

theorem exec_dpOutBind (req : Req) (slice : Fin 4) (value : Word) (s : State) :
    exec (.dpOutBind req slice value) s = execDpOutBind req slice value s := rfl

theorem exec_dpInSrc (req : Req) (slice : Fin 4) (value : Word) (s : State) :
    exec (.dpInSrc req slice value) s = execDpInSrc req slice value s := rfl

theorem exec_routerReset (slice : Fin 4) (s : State) :
    exec (.routerReset slice) s = execRouterReset slice s := rfl

theorem exec_sliceReset (req : Req) (slice : Fin 4) (s : State) :
    exec (.sliceReset req slice) s = execSliceReset req slice s := rfl

theorem exec_sliceResetComplete (slice : Fin 4) (s : State) :
    exec (.sliceResetComplete slice) s = execSliceResetComplete slice s := rfl

theorem exec_profileReentry (s : State) :
    exec (.profileReentry) s = execProfileReentry s := rfl

theorem exec_chainArrival (ingress : Fin 24) (hop : Nat) (packets : List Bytes) (closed : Bool) (bad : Bool) (colour : Nat) (credit : Option Nat) (s : State) :
    exec (.chainArrival ingress hop packets closed bad colour credit) s = execChainArrival ingress hop packets closed bad colour credit s := rfl

theorem exec_admitIngress (ingress : Fin 24) (s : State) :
    exec (.admitIngress ingress) s = execAdmit ingress s := rfl

theorem exec_creditGrant (path : Fin 1024) (s : State) :
    exec (.creditGrant path) s = execCreditGrant path s := rfl

theorem exec_outletSelect (outlet : Fin 24) (s : State) :
    exec (.outletSelect outlet) s = execOutletSelect outlet s := rfl

theorem exec_departure (outlet : Fin 24) (tag : Option Nat) (data : GateData) (s : State) :
    exec (.departure outlet tag data) s = execDeparture outlet tag data s := rfl

theorem exec_cutThroughTimeout (outlet : Fin 24) (s : State) :
    exec (.cutThroughTimeout outlet) s = execCutThroughTimeout outlet s := rfl

theorem exec_patrolScrub (cell : Nat) (row : Nat) (s : State) :
    exec (.patrolScrub cell row) s = execPatrolScrub cell row s := rfl

theorem exec_auditGo (req : Req) (auto : Bool) (s : State) :
    exec (.auditGo req auto) s = execAuditGo req auto s := rfl

theorem exec_auditDone (s : State) :
    exec (.auditDone) s = execAuditDone s := rfl

theorem exec_injectSingle (req : Req) (s : State) :
    exec (.injectSingle req) s = execInjectSingle req s := rfl

theorem exec_injectDouble (req : Req) (s : State) :
    exec (.injectDouble req) s = execInjectDouble req s := rfl

theorem exec_injectLink (req : Req) (s : State) :
    exec (.injectLink req) s = execInjectLink req s := rfl

theorem exec_pathEntryWrite (req : Req) (path : Fin 1024) (word : Fin 16) (long : Bool) (value : BitVec 64) (s : State) :
    exec (.pathEntryWrite req path word long value) s = execPathEntryWrite req path word long value s := rfl

theorem exec_mcastWrite (req : Req) (group : Fin 256) (word : Fin 4) (long : Bool) (value : BitVec 64) (s : State) :
    exec (.mcastWrite req group word long value) s = execMcastWrite req group word long value s := rfl

theorem exec_profileWrite (req : Req) (addr : Word) (long : Bool) (value : BitVec 64) (s : State) :
    exec (.profileWrite req addr long value) s = execProfileWrite req addr long value s := rfl

theorem exec_counterWrite (req : Req) (addr : Word) (long : Bool) (value : BitVec 64) (s : State) :
    exec (.counterWrite req addr long value) s = execCounterWrite req addr long value s := rfl

theorem exec_groupsActiveWrite (req : Req) (groups : Byte) (s : State) :
    exec (.groupsActiveWrite req groups) s = execGroupsActiveWrite req groups s := rfl

theorem exec_forebayHwm (req : Req) (s : State) :
    exec (.forebayHwm req) s = execForebayHwm req s := rfl

theorem exec_freeLwm (req : Req) (s : State) :
    exec (.freeLwm req) s = execFreeLwm req s := rfl

theorem exec_turnBoundary (s : State) :
    exec (.turnBoundary) s = execTurnBoundary s := rfl

theorem exec_allotmentComputed (ns : Nat) (s : State) :
    exec (.allotmentComputed ns) s = execAllotmentComputed ns s := rfl

theorem exec_refillPoint (s : State) :
    exec (.refillPoint) s = execRefillPoint s := rfl

theorem exec_turnPhaseWrite (req : Req) (ticks : Word) (s : State) :
    exec (.turnPhaseWrite req ticks) s = execTurnPhaseWrite req ticks s := rfl

theorem exec_computeMax (req : Req) (s : State) :
    exec (.computeMax req) s = execComputeMax req s := rfl

theorem exec_tokenEarned (shaper : Shaper) (s : State) :
    exec (.tokenEarned shaper) s = execTokenEarned shaper s := rfl

theorem exec_depthHwm (req : Req) (outlet : Fin 24) (s : State) :
    exec (.depthHwm req outlet) s = execDepthHwm req outlet s := rfl

theorem exec_pauseReceived (mac : Fin 2) (pfc : Bool) (xoff : Byte) (xon : Byte) (s : State) :
    exec (.pauseReceived mac pfc xoff xon) s = execPauseReceived mac pfc xoff xon s := rfl

theorem exec_pauseExpiry (mac : Fin 2) (prio : Option (Fin 8)) (s : State) :
    exec (.pauseExpiry mac prio) s = execPauseExpiry mac prio s := rfl

theorem exec_gateEnable (req : Req) (gate : Fin 4) (ctl : Word) (s : State) :
    exec (.gateEnable req gate ctl) s = execGateEnable req gate ctl s := rfl

theorem exec_edidValid (req : Req) (gate : Fin 4) (ctl : Word) (s : State) :
    exec (.edidValid req gate ctl) s = execEdidValid req gate ctl s := rfl

theorem exec_hpdPulseEnd (gate : Fin 4) (s : State) :
    exec (.hpdPulseEnd gate) s = execHpdPulseEnd gate s := rfl

theorem exec_auxRequest (gate : Fin 4) (q : AuxReq) (s : State) :
    exec (.auxRequest gate q) s = execAuxRequest gate q s := rfl

theorem exec_linkTraining (gate : Fin 4) (rate : Nat) (lanes : Nat) (s : State) :
    exec (.linkTraining gate rate lanes) s = execLinkTraining gate rate lanes s := rfl

theorem exec_streamUp (gate : Fin 4) (msa : Msa) (s : State) :
    exec (.streamUp gate msa) s = execStreamUp gate msa s := rfl

theorem exec_streamDown (gate : Fin 4) (why : StreamEnd) (s : State) :
    exec (.streamDown gate why) s = execStreamDown gate why s := rfl

theorem exec_frameStart (gate : Fin 4) (su : Bool) (regions : List Region) (s : State) :
    exec (.frameStart gate su regions) s = execFrameStart gate su regions s := rfl

theorem exec_clapper (gate : Fin 4) (s : State) :
    exec (.clapper gate) s = execClapper gate s := rfl

theorem exec_prEnter (gate : Fin 4) (s : State) :
    exec (.prEnter gate) s = execPrEnter gate s := rfl

theorem exec_prExit (gate : Fin 4) (s : State) :
    exec (.prExit gate) s = execPrExit gate s := rfl

theorem exec_catchUpBand (gate : Fin 4) (s : State) :
    exec (.catchUpBand gate) s = execCatchUpBand gate s := rfl

theorem exec_bwIdleDecrease (gate : Fin 4) (s : State) :
    exec (.bwIdleDecrease gate) s = execBwIdleDecrease gate s := rfl

theorem exec_bwGrant (gate : Fin 4) (mbps : Nat) (s : State) :
    exec (.bwGrant gate mbps) s = execBwGrant gate mbps s := rfl

theorem exec_reelPatrol (block : Nat) (s : State) :
    exec (.reelPatrol block) s = execReelPatrol block s := rfl

theorem exec_reelInjectSingle (req : Req) (s : State) :
    exec (.reelInjectSingle req) s = execReelInjectSingle req s := rfl

theorem exec_reelInjectDouble (req : Req) (s : State) :
    exec (.reelInjectDouble req) s = execReelInjectDouble req s := rfl

theorem exec_utilHwm (req : Req) (s : State) :
    exec (.utilHwm req) s = execUtilHwm req s := rfl

theorem exec_vblank (head : Fin 4) (s : State) :
    exec (.vblank head) s = execVblank head s := rfl

theorem exec_projEnable (req : Req) (head : Fin 4) (ctl : Word) (s : State) :
    exec (.projEnable req head ctl) s = execProjEnable req head ctl s := rfl

theorem exec_projDisable (req : Req) (head : Fin 4) (ctl : Word) (s : State) :
    exec (.projDisable req head ctl) s = execProjDisable req head ctl s := rfl

theorem exec_vTotalMaxReached (head : Fin 4) (s : State) :
    exec (.vTotalMaxReached head) s = execVTotalMaxReached head s := rfl

theorem exec_underrun (head : Fin 4) (line : Nat) (pixel : Nat) (s : State) :
    exec (.underrun head line pixel) s = execUnderrun head line pixel s := rfl

theorem exec_outputStall (head : Fin 4) (line : Nat) (pixel : Nat) (s : State) :
    exec (.outputStall head line pixel) s = execOutputStall head line pixel s := rfl

theorem exec_frameEnd (head : Fin 4) (s : State) :
    exec (.frameEnd head) s = execFrameEnd head s := rfl

theorem exec_dpTrainingComplete (port : Fin 10) (ok : Bool) (rate : Nat) (lanes : Nat) (caps : SinkCaps) (ms : Nat) (s : State) :
    exec (.dpTrainingComplete port ok rate lanes caps ms) s = execDpTrainingComplete port ok rate lanes caps ms s := rfl

theorem exec_hpdIrq (port : Fin 10) (lost : Bool) (s : State) :
    exec (.hpdIrq port lost) s = execHpdIrq port lost s := rfl

theorem exec_projRetrain (req : Req) (head : Fin 4) (ctl : Word) (s : State) :
    exec (.projRetrain req head ctl) s = execProjRetrain req head ctl s := rfl

theorem exec_dpoRetrain (req : Req) (dpo : Fin 2) (ctl : Word) (s : State) :
    exec (.dpoRetrain req dpo ctl) s = execDpoRetrain req dpo ctl s := rfl

theorem exec_dpoHpdChange (dpo : Fin 2) (high : Bool) (s : State) :
    exec (.dpoHpdChange dpo high) s = execDpoHpdChange dpo high s := rfl

theorem exec_sigPop (req : Req) (head : Fin 4) (s : State) :
    exec (.sigPop req head) s = execSigPop req head s := rfl

theorem exec_ethFrameReceive (mac : Fin 2) (frame : Bytes) (late : Bool) (s : State) :
    exec (.ethFrameReceive mac frame late) s = execEthFrameReceive mac frame late s := rfl

theorem exec_ethLinkUp (mac : Fin 2) (speed : Nat) (s : State) :
    exec (.ethLinkUp mac speed) s = execEthLinkUp mac speed s := rfl

theorem exec_ethLinkDown (mac : Fin 2) (s : State) :
    exec (.ethLinkDown mac) s = execEthLinkDown mac s := rfl

theorem exec_switchForward (s : State) :
    exec (.switchForward) s = execSwitchForward s := rfl

theorem exec_ageOut (index : Fin 4096) (s : State) :
    exec (.ageOut index) s = execAgeOut index s := rfl

theorem exec_fdbRead (req : Req) (index : Fin 4096) (s : State) :
    exec (.fdbRead req index) s = execFdbRead req index s := rfl

theorem exec_fdbWrite (req : Req) (index : Fin 4096) (fixed : Bool) (s : State) :
    exec (.fdbWrite req index fixed) s = execFdbWrite req index fixed s := rfl

theorem exec_fdbDelete (req : Req) (index : Fin 4096) (s : State) :
    exec (.fdbDelete req index) s = execFdbDelete req index s := rfl

theorem exec_fdbFlushDynamic (req : Req) (s : State) :
    exec (.fdbFlushDynamic req) s = execFdbFlushDynamic req s := rfl

theorem exec_nicTransmit (slice : Fin 4) (ring : Fin 4) (addr : Nat) (len : Nat) (s : State) :
    exec (.nicTransmit slice ring addr len) s = execNicTransmit slice ring addr len s := rfl

theorem exec_nicReceive (slice : Fin 4) (buffers : List Nat) (s : State) :
    exec (.nicReceive slice buffers) s = execNicReceive slice buffers s := rfl

theorem exec_itrExpiry (slice : Fin 4) (ring : Fin 8) (s : State) :
    exec (.itrExpiry slice ring) s = execItrExpiry slice ring s := rfl

theorem exec_xoffRepeat (mac : Fin 2) (s : State) :
    exec (.xoffRepeat mac) s = execXoffRepeat mac s := rfl

theorem exec_pcieTlpReceive (port : Fin 2) (kind : Fin 3) (tag : Nat) (packets : List Bytes) (credit : Option Nat) (s : State) :
    exec (.pcieTlpReceive port kind tag packets credit) s = execPcieTlpReceive port kind tag packets credit s := rfl

theorem exec_pciePresenceChange (port : Fin 2) (present : Bool) (s : State) :
    exec (.pciePresenceChange port present) s = execPciePresenceChange port present s := rfl

theorem exec_pcieLinkUp (port : Fin 2) (gen : Nat) (width : Nat) (ms : Nat) (s : State) :
    exec (.pcieLinkUp port gen width ms) s = execPcieLinkUp port gen width ms s := rfl

theorem exec_pcieLinkDown (port : Fin 2) (s : State) :
    exec (.pcieLinkDown port) s = execPcieLinkDown port s := rfl

theorem exec_perstRelease (port : Fin 2) (s : State) :
    exec (.perstRelease port) s = execPerstRelease port s := rfl

theorem exec_reelWindowRead (req : Req) (addr : Nat) (len : Nat) (s : State) :
    exec (.reelWindowRead req addr len) s = execReelWindowRead req addr len s := rfl

theorem exec_reelWindowWrite (req : Req) (addr : Nat) (data : List (Option Byte)) (s : State) :
    exec (.reelWindowWrite req addr data) s = execReelWindowWrite req addr data s := rfl

theorem exec_atomicop (slice : Fin 4) (s : State) :
    exec (.atomicop slice) s = execAtomicop slice s := rfl

theorem exec_flrFunction0 (slice : Fin 4) (s : State) :
    exec (.flrFunction0 slice) s = execFlrFunction0 slice s := rfl

theorem exec_flrFunction1 (slice : Fin 4) (s : State) :
    exec (.flrFunction1 slice) s = execFlrFunction1 slice s := rfl

theorem exec_internalTimeout (k : Nat) (s : State) :
    exec (.internalTimeout k) s = execInternalTimeout k s := rfl

theorem exec_outboundCompletion (slice : Fin 4) (k : Nat) (data : Bytes) (s : State) :
    exec (.outboundCompletion slice k data) s = execOutboundCompletion slice k data s := rfl

theorem exec_outboundReadTimeout (slice : Fin 4) (k : Nat) (s : State) :
    exec (.outboundReadTimeout slice k) s = execOutboundReadTimeout slice k s := rfl

theorem exec_logClear (req : Req) (s : State) :
    exec (.logClear req) s = execLogClear req s := rfl

theorem exec_wordSample (w : Fin 256) (s : State) :
    exec (.wordSample w) s = execWordSample w s := rfl

theorem exec_wordWrite (req : Req) (w : Fin 256) (value : Word) (s : State) :
    exec (.wordWrite req w value) s = execWordWrite req w value s := rfl

theorem exec_wordSend (w : Fin 256) (s : State) :
    exec (.wordSend w) s = execWordSend w s := rfl

theorem exec_slotReceive (slot : Fin 256) (value : Word) (word : Fin 256) (hub : Fin 4) (reader : Nat) (s : State) :
    exec (.slotReceive slot value word hub reader) s = execSlotReceive slot value word hub reader s := rfl

theorem exec_eventRaise (by_ : Option Req) (id : BitVec 12) (arg : BitVec 16) (s : State) :
    exec (.eventRaise by_ id arg) s = execEventRaise by_ id arg s := rfl

theorem exec_eventArrival (target : Fin 6) (id : BitVec 12) (arg : BitVec 16) (hub : Fin 4) (kind : Fin 4) (s : State) :
    exec (.eventArrival target id arg hub kind) s = execEventArrival target id arg hub kind s := rfl

theorem exec_inboxRead (req : Req) (target : Fin 6) (s : State) :
    exec (.inboxRead req target) s = execInboxRead req target s := rfl

theorem exec_connect (req : Req) (slice : Fin 4) (ctl : Word) (s : State) :
    exec (.connect req slice ctl) s = execConnect req slice ctl s := rfl

theorem exec_disconnect (req : Req) (slice : Fin 4) (ctl : Word) (s : State) :
    exec (.disconnect req slice ctl) s = execDisconnect req slice ctl s := rfl

theorem exec_standardRequest (slice : Fin 4) (q : StdReq) (s : State) :
    exec (.standardRequest slice q) s = execStandardRequest slice q s := rfl

theorem exec_getInfo (slice : Fin 4) (len : Nat) (s : State) :
    exec (.getInfo slice len) s = execGetInfo slice len s := rfl

theorem exec_regRead (slice : Fin 4) (offset : BitVec 25) (len : Nat) (s : State) :
    exec (.regRead slice offset len) s = execRegRead slice offset len s := rfl

theorem exec_regWrite (slice : Fin 4) (offset : BitVec 25) (len : Nat) (value : Word) (complete : Bool) (s : State) :
    exec (.regWrite slice offset len value complete) s = execRegWrite slice offset len value complete s := rfl

theorem exec_mailboxOut (slice : Fin 4) (data : Bytes) (complete : Bool) (s : State) :
    exec (.mailboxOut slice data complete) s = execMailboxOut slice data complete s := rfl

theorem exec_mailboxIn (slice : Fin 4) (len : Nat) (complete : Bool) (s : State) :
    exec (.mailboxIn slice len complete) s = execMailboxIn slice len complete s := rfl

theorem exec_vreqTimeout (slice : Fin 4) (s : State) :
    exec (.vreqTimeout slice) s = execVreqTimeout slice s := rfl

theorem exec_suspend (slice : Fin 4) (unit : UsbUnit) (s : State) :
    exec (.suspend slice unit) s = execSuspend slice unit s := rfl

theorem exec_remoteWake (req : Req) (slice : Fin 4) (s : State) :
    exec (.remoteWake req slice) s = execRemoteWake req slice s := rfl

theorem exec_resumeKEnd (slice : Fin 4) (s : State) :
    exec (.resumeKEnd slice) s = execResumeKEnd slice s := rfl

theorem exec_hostResume (slice : Fin 4) (unit : UsbUnit) (s : State) :
    exec (.hostResume slice unit) s = execHostResume slice unit s := rfl

theorem exec_busReset (slice : Fin 4) (s : State) :
    exec (.busReset slice) s = execBusReset slice s := rfl

theorem exec_hidSend (by_ : Option Req) (slice : Fin 4) (report : BitVec 16) (s : State) :
    exec (.hidSend by_ slice report) s = execHidSend by_ slice report s := rfl

theorem exec_notify (by_ : Option Req) (slice : Fin 4) (value : Word) (s : State) :
    exec (.notify by_ slice value) s = execNotify by_ slice value s := rfl

theorem exec_feedback (slice : Fin 4) (clocks : Word) (s : State) :
    exec (.feedback slice clocks) s = execFeedback slice clocks s := rfl

theorem exec_audioBlock (delivered : Nat) (input : List (List Nat)) (s : State) :
    exec (.audioBlock delivered input) s = execAudioBlock delivered input s := rfl

theorem exec_audLock (s : State) :
    exec (.audLock) s = execAudLock s := rfl

theorem exec_ccAttachSeen (port : Fin 12) (seen : CcSeen) (pin2 : Bool) (ra : Bool) (s : State) :
    exec (.ccAttachSeen port seen pin2 ra) s = execCcAttachSeen port seen pin2 ra s := rfl

theorem exec_terminationLost (port : Fin 12) (s : State) :
    exec (.terminationLost port) s = execTerminationLost port s := rfl

theorem exec_ccDebounce (port : Fin 12) (vbus : Bool) (s : State) :
    exec (.ccDebounce port vbus) s = execCcDebounce port vbus s := rfl

theorem exec_drpToggle (port : Fin 12) (s : State) :
    exec (.drpToggle port) s = execDrpToggle port s := rfl

theorem exec_tryDebounce (port : Fin 12) (s : State) :
    exec (.tryDebounce port) s = execTryDebounce port s := rfl

theorem exec_tryPeriodEnd (port : Fin 12) (s : State) :
    exec (.tryPeriodEnd port) s = execTryPeriodEnd port s := rfl

theorem exec_ccOpen (port : Fin 12) (s : State) :
    exec (.ccOpen port) s = execCcOpen port s := rfl

theorem exec_vbusDischarged (port : Fin 12) (s : State) :
    exec (.vbusDischarged port) s = execVbusDischarged port s := rfl

theorem exec_dischargeSlow (port : Fin 12) (s : State) :
    exec (.dischargeSlow port) s = execDischargeSlow port s := rfl

theorem exec_errorRecoveryEnd (port : Fin 12) (s : State) :
    exec (.errorRecoveryEnd port) s = execErrorRecoveryEnd port s := rfl

theorem exec_vbusLost (port : Fin 12) (s : State) :
    exec (.vbusLost port) s = execVbusLost port s := rfl

theorem exec_sourceCapabilities (port : Fin 12) (pdos : List Word) (s : State) :
    exec (.sourceCapabilities port pdos) s = execSourceCapabilities port pdos s := rfl

theorem exec_request (port : Fin 12) (rdo : Word) (s : State) :
    exec (.request port rdo) s = execRequest port rdo s := rfl

theorem exec_amsAnswer (port : Fin 12) (answer : AmsAnswer) (s : State) :
    exec (.amsAnswer port answer) s = execAmsAnswer port answer s := rfl

theorem exec_getSourceCap (port : Fin 12) (s : State) :
    exec (.getSourceCap port) s = execGetSourceCap port s := rfl

theorem exec_getSinkCapMessage (port : Fin 12) (s : State) :
    exec (.getSinkCapMessage port) s = execGetSinkCapMessage port s := rfl

theorem exec_sinkCapabilities (port : Fin 12) (pdos : List Word) (s : State) :
    exec (.sinkCapabilities port pdos) s = execSinkCapabilities port pdos s := rfl

theorem exec_prSwap (port : Fin 12) (s : State) :
    exec (.prSwap port) s = execPrSwap port s := rfl

theorem exec_drSwap (port : Fin 12) (s : State) :
    exec (.drSwap port) s = execDrSwap port s := rfl

theorem exec_vconnSwapMessage (port : Fin 12) (s : State) :
    exec (.vconnSwapMessage port) s = execVconnSwapMessage port s := rfl

theorem exec_frSwap (port : Fin 12) (s : State) :
    exec (.frSwap port) s = execFrSwap port s := rfl

theorem exec_softResetMessage (port : Fin 12) (s : State) :
    exec (.softResetMessage port) s = execSoftResetMessage port s := rfl

theorem exec_hardResetReceived (port : Fin 12) (s : State) :
    exec (.hardResetReceived port) s = execHardResetReceived port s := rfl

theorem exec_eprMode (port : Fin 12) (enter : Bool) (s : State) :
    exec (.eprMode port enter) s = execEprMode port enter s := rfl

theorem exec_eprKeepalive (port : Fin 12) (s : State) :
    exec (.eprKeepalive port) s = execEprKeepalive port s := rfl

theorem exec_enterUsb (port : Fin 12) (s : State) :
    exec (.enterUsb port) s = execEnterUsb port s := rfl

theorem exec_structuredVdm (port : Fin 12) (v : Vdm) (s : State) :
    exec (.structuredVdm port v) s = execStructuredVdm port v s := rfl

theorem exec_getRevision (port : Fin 12) (s : State) :
    exec (.getRevision port) s = execGetRevision port s := rfl

theorem exec_notSupported (port : Fin 12) (s : State) :
    exec (.notSupported port) s = execNotSupported port s := rfl

theorem exec_sendSrcCap (req : Req) (port : Fin 12) (s : State) :
    exec (.sendSrcCap req port) s = execSendSrcCap req port s := rfl

theorem exec_psRdy (req : Req) (port : Fin 12) (s : State) :
    exec (.psRdy req port) s = execPsRdy req port s := rfl

theorem exec_getSinkCap (req : Req) (port : Fin 12) (s : State) :
    exec (.getSinkCap req port) s = execGetSinkCap req port s := rfl

theorem exec_vconnSwap (req : Req) (port : Fin 12) (s : State) :
    exec (.vconnSwap req port) s = execVconnSwap req port s := rfl

theorem exec_softReset (req : Req) (port : Fin 12) (s : State) :
    exec (.softReset req port) s = execSoftReset req port s := rfl

theorem exec_hardReset (req : Req) (port : Fin 12) (s : State) :
    exec (.hardReset req port) s = execHardReset req port s := rfl

theorem exec_discover (req : Req) (port : Fin 12) (s : State) :
    exec (.discover req port) s = execDiscover req port s := rfl

theorem exec_exitMode (req : Req) (port : Fin 12) (s : State) :
    exec (.exitMode req port) s = execExitMode req port s := rfl

theorem exec_errorRecovery (req : Req) (port : Fin 12) (s : State) :
    exec (.errorRecovery req port) s = execErrorRecovery req port s := rfl

theorem exec_transitionTimeout (port : Fin 12) (s : State) :
    exec (.transitionTimeout port) s = execTransitionTimeout port s := rfl

theorem exec_eprSinkTimeout (port : Fin 12) (s : State) :
    exec (.eprSinkTimeout port) s = execEprSinkTimeout port s := rfl

theorem exec_sourceCapabilitiesRepeat (port : Fin 12) (s : State) :
    exec (.sourceCapabilitiesRepeat port) s = execSourceCapabilitiesRepeat port s := rfl

theorem exec_responseTimeout (port : Fin 12) (s : State) :
    exec (.responseTimeout port) s = execResponseTimeout port s := rfl

theorem exec_earlyWarning (cause : EwCause) (s : State) :
    exec (.earlyWarning cause) s = execEarlyWarning cause s := rfl

theorem exec_frsReturn (port : Fin 12) (s : State) :
    exec (.frsReturn port) s = execFrsReturn port s := rfl

theorem exec_sample (frame : SarFrame) (s : State) :
    exec (.sample frame) s = execSample frame s := rfl

theorem exec_fastTrip (ch : Fin 14) (s : State) :
    exec (.fastTrip ch) s = execFastTrip ch s := rfl

theorem exec_forceTrip (req : Req) (ch : Fin 14) (ctl : Word) (s : State) :
    exec (.forceTrip req ch ctl) s = execForceTrip req ch ctl s := rfl

theorem exec_chEn (req : Req) (ch : Fin 14) (ctl : Word) (s : State) :
    exec (.chEn req ch ctl) s = execChEn req ch ctl s := rfl

theorem exec_offMet (ch : Fin 14) (s : State) :
    exec (.offMet ch) s = execOffMet ch s := rfl

theorem exec_rampEnd (ch : Fin 14) (s : State) :
    exec (.rampEnd ch) s = execRampEnd ch s := rfl

theorem exec_rampTimeout (ch : Fin 14) (s : State) :
    exec (.rampTimeout ch) s = execRampTimeout ch s := rfl

theorem exec_energyClr (req : Req) (ch : Fin 14) (ctl : Word) (s : State) :
    exec (.energyClr req ch ctl) s = execEnergyClr req ch ctl s := rfl

theorem exec_deadBatterySinkClose (ports : List Nat) (s : State) :
    exec (.deadBatterySinkClose ports) s = execDeadBatterySinkClose ports s := rfl

theorem exec_inputSwitchover (s : State) :
    exec (.inputSwitchover) s = execInputSwitchover s := rfl

theorem exec_pfwRelease (s : State) :
    exec (.pfwRelease) s = execPfwRelease s := rfl

theorem exec_extremes (req : Req) (ch : Fin 14) (s : State) :
    exec (.extremes req ch) s = execExtremes req ch s := rfl

theorem exec_dozeEntry (domain : Fin 43) (s : State) :
    exec (.dozeEntry domain) s = execDozeEntry domain s := rfl

theorem exec_idleTimeout (domain : Fin 43) (s : State) :
    exec (.idleTimeout domain) s = execIdleTimeout domain s := rfl

theorem exec_lowPowerEntryComplete (domain : Fin 43) (s : State) :
    exec (.lowPowerEntryComplete domain) s = execLowPowerEntryComplete domain s := rfl

theorem exec_domainReady (domain : Fin 43) (s : State) :
    exec (.domainReady domain) s = execDomainReady domain s := rfl

theorem exec_wakeFail (domain : Fin 43) (s : State) :
    exec (.wakeFail domain) s = execWakeFail domain s := rfl

theorem exec_pwrPolicyWrite (req : Req) (group : Option (Fin 8)) (page : Fin 216) (value : Word) (s : State) :
    exec (.pwrPolicyWrite req group page value) s = execPwrPolicyWrite req group page value s := rfl

theorem exec_dvfsTargetWrite (req : Req) (targets : Word) (s : State) :
    exec (.dvfsTargetWrite req targets) s = execDvfsTargetWrite req targets s := rfl

theorem exec_dvfsDone (island : Fin 4) (s : State) :
    exec (.dvfsDone island) s = execDvfsDone island s := rfl

theorem exec_shelfEnter (req : Req) (sources : List WakeSource) (s : State) :
    exec (.shelfEnter req sources) s = execShelfEnter req sources s := rfl

theorem exec_bmcShelf (req : Req) (key : BitVec 16) (s : State) :
    exec (.bmcShelf req key) s = execBmcShelf req key s := rfl

theorem exec_shelfEntryComplete (s : State) :
    exec (.shelfEntryComplete) s = execShelfEntryComplete s := rfl

theorem exec_shelfWake (source : WakeSource) (s : State) :
    exec (.shelfWake source) s = execShelfWake source s := rfl

theorem exec_monExt (req : Req) (s : State) :
    exec (.monExt req) s = execMonExt req s := rfl

theorem exec_refSelect (req : Req) (ctl : Word) (s : State) :
    exec (.refSelect req ctl) s = execRefSelect req ctl s := rfl

theorem exec_distLock (s : State) :
    exec (.distLock) s = execDistLock s := rfl

theorem exec_distHold (s : State) :
    exec (.distHold) s = execDistHold s := rfl

theorem exec_holdoverExpiry (s : State) :
    exec (.holdoverExpiry) s = execHoldoverExpiry s := rfl

theorem exec_refFallback (leat : Fin 2) (s : State) :
    exec (.refFallback leat) s = execRefFallback leat s := rfl

theorem exec_pllLock (s : State) :
    exec (.pllLock) s = execPllLock s := rfl

theorem exec_lockLoss (s : State) :
    exec (.lockLoss) s = execLockLoss s := rfl

theorem exec_muxSwitchComplete (mux : Fin 10) (s : State) :
    exec (.muxSwitchComplete mux) s = execMuxSwitchComplete mux s := rfl

theorem exec_muxRescue (mux : Fin 10) (s : State) :
    exec (.muxRescue mux) s = execMuxRescue mux s := rfl

theorem exec_domsrcWrite (req : Req) (shaft : Byte) (s : State) :
    exec (.domsrcWrite req shaft) s = execDomsrcWrite req shaft s := rfl

theorem exec_meterGo (req : Req) (src : Fin 32) (s : State) :
    exec (.meterGo req src) s = execMeterGo req src s := rfl

theorem exec_meterDone (edges : Nat) (s : State) :
    exec (.meterDone edges) s = execMeterDone edges s := rfl

theorem exec_xingResync (xing : Fin 21) (tx : Bool) (s : State) :
    exec (.xingResync xing tx) s = execXingResync xing tx s := rfl

theorem exec_forcedGate (domain : Fin 43) (s : State) :
    exec (.forcedGate domain) s = execForcedGate domain s := rfl

theorem exec_ftimeWrap (s : State) :
    exec (.ftimeWrap) s = execFtimeWrap s := rfl

theorem exec_filter (id : Fin 512) (s : State) :
    exec (.filter id) s = execFilter id s := rfl

theorem exec_arbitrate (s : State) :
    exec (.arbitrate) s = execArbitrate s := rfl

theorem exec_claim (req : Req) (target : Fin 8) (s : State) :
    exec (.claim req target) s = execClaim req target s := rfl

theorem exec_complete (req : Req) (target : Fin 8) (id : Fin 512) (s : State) :
    exec (.complete req target id) s = execComplete req target id s := rfl

theorem exec_stackReset (req : Req) (target : Fin 8) (ctl : Word) (s : State) :
    exec (.stackReset req target ctl) s = execStackReset req target ctl s := rfl

theorem exec_dbSet (req : Req) (w : Fin 7) (bells : Word) (s : State) :
    exec (.dbSet req w bells) s = execDbSet req w bells s := rfl

theorem exec_dbClr (req : Req) (w : Fin 7) (bells : Word) (s : State) :
    exec (.dbClr req w bells) s = execDbClr req w bells s := rfl

theorem exec_extend (req : Req) (m : Fin 4) (s : State) :
    exec (.extend req m) s = execExtend req m s := rfl

theorem exec_derive (req : Req) (slot : Fin 32) (msel : Fin 16) (ecdsa : Bool) (s : State) :
    exec (.derive req slot msel ecdsa) s = execDerive req slot msel ecdsa s := rfl

theorem exec_generate (req : Req) (slot : Fin 32) (ecdsa : Bool) (s : State) :
    exec (.generate req slot ecdsa) s = execGenerate req slot ecdsa s := rfl

theorem exec_gcmEnc (req : Req) (slot : Fin 32) (s : State) :
    exec (.gcmEnc req slot) s = execGcmEnc req slot s := rfl

theorem exec_gcmDec (req : Req) (slot : Fin 32) (s : State) :
    exec (.gcmDec req slot) s = execGcmDec req slot s := rfl

theorem exec_sign (req : Req) (slot : Fin 32) (s : State) :
    exec (.sign req slot) s = execSign req slot s := rfl

theorem exec_quote (req : Req) (slot : Fin 32) (s : State) :
    exec (.quote req slot) s = execQuote req slot s := rfl

theorem exec_pubkey (req : Req) (slot : Fin 32) (s : State) :
    exec (.pubkey req slot) s = execPubkey req slot s := rfl

theorem exec_ecdh (req : Req) (slot : Fin 32) (tslot : Fin 32) (s : State) :
    exec (.ecdh req slot tslot) s = execEcdh req slot tslot s := rfl

theorem exec_random (req : Req) (s : State) :
    exec (.random req) s = execRandom req s := rfl

theorem exec_clear (req : Req) (slot : Fin 32) (s : State) :
    exec (.clear req slot) s = execClear req slot s := rfl

theorem exec_provision (req : Req) (s : State) :
    exec (.provision req) s = execProvision req s := rfl

theorem exec_endorse (req : Req) (s : State) :
    exec (.endorse req) s = execEndorse req s := rfl

theorem exec_cmdDone (s : State) :
    exec (.cmdDone) s = execCmdDone s := rfl

theorem exec_measLock (req : Req) (bits : Fin 16) (s : State) :
    exec (.measLock req bits) s = execMeasLock req bits s := rfl

theorem exec_maskRewrite (s : State) :
    exec (.maskRewrite) s = execMaskRewrite s := rfl

theorem exec_tamper (sources : BitVec 6) (s : State) :
    exec (.tamper sources) s = execTamper sources s := rfl

theorem exec_entropyFail (s : State) :
    exec (.entropyFail) s = execEntropyFail s := rfl

theorem exec_reseed (s : State) :
    exec (.reseed) s = execReseed s := rfl

theorem exec_tamperLock (req : Req) (modes : Fin 16) (s : State) :
    exec (.tamperLock req modes) s = execTamperLock req modes s := rfl

theorem exec_tlogClear (req : Req) (s : State) :
    exec (.tlogClear req) s = execTlogClear req s := rfl

theorem exec_syncWord (leat : Fin 2) (dt : Nat) (w : SyncWord) (s : State) :
    exec (.syncWord leat dt w) s = execSyncWord leat dt w s := rfl

theorem exec_roundTrip (leat : Fin 2) (sixteenths : Nat) (status : LeatStatus) (s : State) :
    exec (.roundTrip leat sixteenths status) s = execRoundTrip leat sixteenths status s := rfl

theorem exec_leatLinkUp (leat : Fin 2) (peer : LeatPeer) (status : LeatStatus) (s : State) :
    exec (.leatLinkUp leat peer status) s = execLeatLinkUp leat peer status s := rfl

theorem exec_leatLinkDown (leat : Fin 2) (s : State) :
    exec (.leatLinkDown leat) s = execLeatLinkDown leat s := rfl

theorem exec_cfgHashWrite (req : Req) (lo : Word) (s : State) :
    exec (.cfgHashWrite req lo) s = execCfgHashWrite req lo s := rfl

theorem exec_hashGraceExpiry (s : State) :
    exec (.hashGraceExpiry) s = execHashGraceExpiry s := rfl

theorem exec_keySlotWrite (req : Req) (leat : Fin 2) (slot : Fin 32) (next_ : Fin 32) (s : State) :
    exec (.keySlotWrite req leat slot next_) s = execKeySlotWrite req leat slot next_ s := rfl

theorem exec_roll (req : Req) (leat : Fin 2) (slot : Fin 32) (next_ : Fin 32) (s : State) :
    exec (.roll req leat slot next_) s = execRoll req leat slot next_ s := rfl

theorem exec_frameCounterLimit (leat : Fin 2) (s : State) :
    exec (.frameCounterLimit leat) s = execFrameCounterLimit leat s := rfl

theorem exec_leatFrameReceive (leat : Fin 2) (tagOk : Option Bytes) (pieces : List LeatPiece) (s : State) :
    exec (.leatFrameReceive leat tagOk pieces) s = execLeatFrameReceive leat tagOk pieces s := rfl

theorem exec_txGo (req : Req) (leat : Fin 2) (len : Nat) (s : State) :
    exec (.txGo req leat len) s = execTxGo req leat len s := rfl

theorem exec_msgRx (leat : Fin 2) (message : Bytes) (s : State) :
    exec (.msgRx leat message) s = execMsgRx leat message s := rfl

theorem exec_por (vkeepLost : Bool) (s : State) :
    exec (.por vkeepLost) s = execPor vkeepLost s := rfl

theorem exec_bor (vkeepLost : Bool) (s : State) :
    exec (.bor vkeepLost) s = execBor vkeepLost s := rfl

theorem exec_resetN (s : State) :
    exec (.resetN) s = execResetN s := rfl

theorem exec_wdtWarn (s : State) :
    exec (.wdtWarn) s = execWdtWarn s := rfl

theorem exec_wdt (s : State) :
    exec (.wdt) s = execWdt s := rfl

theorem exec_wdtKick (req : Req) (key : BitVec 16) (s : State) :
    exec (.wdtKick req key) s = execWdtKick req key s := rfl

theorem exec_wdtCtlWrite (req : Req) (en : Bool) (ms : BitVec 16) (s : State) :
    exec (.wdtCtlWrite req en ms) s = execWdtCtlWrite req en ms s := rfl

theorem exec_soft (req : Req) (key : BitVec 16) (s : State) :
    exec (.soft req key) s = execSoft req key s := rfl

theorem exec_coreReset (req : Req) (core : Fin 4) (run : Bool) (s : State) :
    exec (.coreReset req core run) s = execCoreReset req core run s := rfl

theorem exec_run (req : Req) (core : Fin 4) (run : Bool) (s : State) :
    exec (.run req core run) s = execRun req core run s := rfl

theorem exec_boot (imageA : Bytes) (imageB : Bytes) (readA : Bool) (readB : Bool) (s : State) :
    exec (.boot imageA imageB readA readB) s = execBoot imageA imageB readA readB s := rfl

theorem exec_loadStart (req : Req) (s : State) :
    exec (.loadStart req) s = execLoadStart req s := rfl

theorem exec_loadData (req : Req) (value : Word) (s : State) :
    exec (.loadData req value) s = execLoadData req value s := rfl

theorem exec_loadDone (req : Req) (s : State) :
    exec (.loadDone req) s = execLoadDone req s := rfl

theorem exec_recoveryImage (image : Bytes) (s : State) :
    exec (.recoveryImage image) s = execRecoveryImage image s := rfl

theorem exec_bistGo (req : Req) (kind : Fin 4) (s : State) :
    exec (.bistGo req kind) s = execBistGo req kind s := rfl

theorem exec_abort (req : Req) (kind : Fin 4) (s : State) :
    exec (.abort req kind) s = execAbort req kind s := rfl

theorem exec_bistDone (ms : Nat) (signatures : List (Nat × Nat)) (s : State) :
    exec (.bistDone ms signatures) s = execBistDone ms signatures s := rfl

theorem exec_gpioEdge (gpio : Fin 32) (high : Bool) (s : State) :
    exec (.gpioEdge gpio high) s = execGpioEdge gpio high s := rfl

theorem exec_busGo (req : Req) (bus : Fin 2) (cmd : Word) (s : State) :
    exec (.busGo req bus cmd) s = execBusGo req bus cmd s := rfl

theorem exec_busDone (bus : Fin 2) (nack : Bool) (data : Bytes) (s : State) :
    exec (.busDone bus nack data) s = execBusDone bus nack data s := rfl

theorem exec_spiGo (req : Req) (cmd : Word) (s : State) :
    exec (.spiGo req cmd) s = execSpiGo req cmd s := rfl

theorem exec_spiDone (data : Bytes) (s : State) :
    exec (.spiDone data) s = execSpiDone data s := rfl

theorem exec_uartTx (req : Req) (byte : Byte) (sent : Nat) (s : State) :
    exec (.uartTx req byte sent) s = execUartTx req byte sent s := rfl

theorem exec_uartReceive (byte : Byte) (s : State) :
    exec (.uartReceive byte) s = execUartReceive byte s := rfl

theorem exec_busRx (req : Req) (bus : Fin 2) (s : State) :
    exec (.busRx req bus) s = execBusRx req bus s := rfl

theorem exec_spiRx (req : Req) (s : State) :
    exec (.spiRx req) s = execSpiRx req s := rfl

theorem exec_uartRx (req : Req) (s : State) :
    exec (.uartRx req) s = execUartRx req s := rfl

theorem exec_bmcAccess (bytes : Bytes) (readBytes : Nat) (s : State) :
    exec (.bmcAccess bytes readBytes) s = execBmcAccess bytes readBytes s := rfl

theorem exec_attention (port : Fin 12) (hpd : Bool) (s : State) :
    exec (.attention port hpd) s = execAttention port hpd s := rfl

theorem exec_discoveryResponse (port : Fin 12) (answer : DiscAnswer) (s : State) :
    exec (.discoveryResponse port answer) s = execDiscoveryResponse port answer s := rfl

theorem exec_connectChange (port : Fin 8) (speed : Nat) (s : State) :
    exec (.connectChange port speed) s = execConnectChange port speed s := rfl

theorem exec_classRequest (slice : Fin 4) (q : ClassReq) (s : State) :
    exec (.classRequest slice q) s = execClassRequest slice q s := rfl

theorem exec_isochronousPacket (slice : Fin 4) (p : IsoPacket) (s : State) :
    exec (.isochronousPacket slice p) s = execIsochronousPacket slice p s := rfl

theorem exec_audLockLoss (s : State) :
    exec (.audLockLoss) s = execAudLockLoss s := rfl

theorem exec_entropyRecovery (s : State) :
    exec (.entropyRecovery) s = execEntropyRecovery s := rfl

theorem exec_distResume (s : State) :
    exec (.distResume) s = execDistResume s := rfl

theorem exec_pathSetInvalid (slice : Fin 4) (ingress : Nat) (hop : Nat) (s : State) :
    exec (.pathSetInvalid slice ingress hop) s = execPathSetInvalid slice ingress hop s := rfl

theorem exec_enumerated (slice : Fin 4) (s : State) :
    exec (.enumerated slice) s = execEnumerated slice s := rfl

theorem exec_sinkTxOk (port : Fin 12) (s : State) :
    exec (.sinkTxOk port) s = execSinkTxOk port s := rfl

end Sys2Proof.Machine
end

