-- ==== Sys2Proof/Laws/Hopper.lean ====
section
/-! SUPPORT. The link words of the Hopper (R128). -/

namespace Sys2Proof.Machine

/-- CHECK fails in just the cells whose link word was corrupted (R128, R150, R152). -/
theorem linkFails_stored (h : Hub) (c : Chain) (n : Nat) (x : HCell) : linkFails (storedLink h c n x) = x.badLink := by
  have key : ∀ b : BitVec 35, linkFails ((linkCheck b ++ b : BitVec 40)) = false ∧ linkFails ((linkCheck b ++ b : BitVec 40) ^^^ 1) = true := by
    intro b
    have e1 : (linkCheck b ++ b : BitVec 40).extractLsb' 35 5 = linkCheck b := BitVec.extractLsb'_append_eq_left
    have e2 : (linkCheck b ++ b : BitVec 40).extractLsb' 0 35 = b := BitVec.extractLsb'_append_eq_right
    have f1 : ((1 : BitVec 40)).extractLsb' 35 5 = 0 := by decide
    have f2 : ((1 : BitVec 40)).extractLsb' 0 35 = 1 := by decide
    constructor
    · simp [linkFails, e1, e2]
    · have flip : linkCheck (b ^^^ 1) = linkCheck b ^^^ 1 := by
        simp only [linkCheck, BitVec.extractLsb'_xor]
        have : (1 : BitVec 35).extractLsb' 0 5 = 1 ∧ (1 : BitVec 35).extractLsb' 5 5 = 0 ∧ (1 : BitVec 35).extractLsb' 10 5 = 0 ∧
          (1 : BitVec 35).extractLsb' 15 5 = 0 ∧ (1 : BitVec 35).extractLsb' 20 5 = 0 ∧ (1 : BitVec 35).extractLsb' 25 5 = 0 ∧
          (1 : BitVec 35).extractLsb' 30 5 = 0 := by decide
        obtain ⟨a0, a1, a2, a3, a4, a5, a6⟩ := this
        simp only [a0, a1, a2, a3, a4, a5, a6]
        ac_rfl
      simp only [linkFails, BitVec.extractLsb'_xor, e1, e2, f1, f2, flip]
      generalize linkCheck b = y
      revert y
      decide
  unfold storedLink linkWord
  cases x.badLink
  · simpa using (key _).1
  · simpa using (key _).2

end Sys2Proof.Machine
end

