-- ==== Sys2Proof/Laws/Pages.lean ====
section
/-! SUPPORT. Where each page of the register window stands (R35): what an address in it decodes to. -/

namespace Sys2Proof.Machine

theorem pageAt_typec {i off : Nat} (hi : i < 12) (ho : off < 0x1000) :
    pageAt (Page.typec i + off) = some (.typec, i, Page.typec i) := by
  have e : (Page.typec i + off) / 0x1000 = 0x10 + i := by unfold Page.typec; omega
  simp only [pageAt, e]
  repeat rw [if_neg (by omega)]
  rw [if_pos (by omega)]
  have e1 : 0x10 + i - 0x10 = i := by omega
  have e2 : (0x10 + i) * 0x1000 = Page.typec i := by unfold Page.typec; omega
  rw [e1, e2]

theorem pageAt_link {i off : Nat} (hi : i < 12) (ho : off < 0x1000) :
    pageAt (Page.link i + off) = some (.link, i, Page.link i) := by
  have e : (Page.link i + off) / 0x1000 = 0x20 + i := by unfold Page.link; omega
  simp only [pageAt, e]
  repeat rw [if_neg (by omega)]
  rw [if_pos (by omega)]
  have e1 : 0x20 + i - 0x20 = i := by omega
  have e2 : (0x20 + i) * 0x1000 = Page.link i := by unfold Page.link; omega
  rw [e1, e2]

theorem pageAt_weir {i off : Nat} (hi : i < 14) (ho : off < 0x1000) :
    pageAt (Page.weir i + off) = some (.weir, i, Page.weir i) := by
  have e : (Page.weir i + off) / 0x1000 = 0x30 + i := by unfold Page.weir; omega
  simp only [pageAt, e]
  repeat rw [if_neg (by omega)]
  rw [if_pos (by omega)]
  have e1 : 0x30 + i - 0x30 = i := by omega
  have e2 : (0x30 + i) * 0x1000 = Page.weir i := by unfold Page.weir; omega
  rw [e1, e2]

theorem pageAt_gate {i off : Nat} (hi : i < 4) (ho : off < 0x1000) :
    pageAt (Page.gate i + off) = some (.gate, i, Page.gate i) := by
  have e : (Page.gate i + off) / 0x1000 = 0x60 + i := by unfold Page.gate; omega
  simp only [pageAt, e]
  repeat rw [if_neg (by omega)]
  rw [if_pos (by omega)]
  have e1 : 0x60 + i - 0x60 = i := by omega
  have e2 : (0x60 + i) * 0x1000 = Page.gate i := by unfold Page.gate; omega
  rw [e1, e2]

theorem pageAt_proj {i off : Nat} (hi : i < 4) (ho : off < 0x1000) :
    pageAt (Page.proj i + off) = some (.proj, i, Page.proj i) := by
  have e : (Page.proj i + off) / 0x1000 = 0x68 + i := by unfold Page.proj; omega
  simp only [pageAt, e]
  repeat rw [if_neg (by omega)]
  rw [if_pos (by omega)]
  have e1 : 0x68 + i - 0x68 = i := by omega
  have e2 : (0x68 + i) * 0x1000 = Page.proj i := by unfold Page.proj; omega
  rw [e1, e2]

theorem pageAt_dpo {i off : Nat} (hi : i < 2) (ho : off < 0x1000) :
    pageAt (Page.dpo i + off) = some (.dpo, i, Page.dpo i) := by
  have e : (Page.dpo i + off) / 0x1000 = 0x6c + i := by unfold Page.dpo; omega
  simp only [pageAt, e]
  repeat rw [if_neg (by omega)]
  rw [if_pos (by omega)]
  have e1 : 0x6c + i - 0x6c = i := by omega
  have e2 : (0x6c + i) * 0x1000 = Page.dpo i := by unfold Page.dpo; omega
  rw [e1, e2]

theorem pageAt_slice {i off : Nat} (hi : i < 4) (ho : off < 0x1000) :
    pageAt (Page.slice i + off) = some (.slice, i, Page.slice i) := by
  have e : (Page.slice i + off) / 0x1000 = 0x80 + i := by unfold Page.slice; omega
  simp only [pageAt, e]
  repeat rw [if_neg (by omega)]
  rw [if_pos (by omega)]
  have e1 : 0x80 + i - 0x80 = i := by omega
  have e2 : (0x80 + i) * 0x1000 = Page.slice i := by unfold Page.slice; omega
  rw [e1, e2]

theorem pageAt_usbhub {i off : Nat} (hi : i < 4) (ho : off < 0x1000) :
    pageAt (Page.usbhub i + off) = some (.usbhub, i, Page.usbhub i) := by
  have e : (Page.usbhub i + off) / 0x1000 = 0x88 + i := by unfold Page.usbhub; omega
  simp only [pageAt, e]
  repeat rw [if_neg (by omega)]
  rw [if_pos (by omega)]
  have e1 : 0x88 + i - 0x88 = i := by omega
  have e2 : (0x88 + i) * 0x1000 = Page.usbhub i := by unfold Page.usbhub; omega
  rw [e1, e2]

theorem pageAt_dockfn {i off : Nat} (hi : i < 4) (ho : off < 0x1000) :
    pageAt (Page.dockfn i + off) = some (.dockfn, i, Page.dockfn i) := by
  have e : (Page.dockfn i + off) / 0x1000 = 0x8c + i := by unfold Page.dockfn; omega
  simp only [pageAt, e]
  repeat rw [if_neg (by omega)]
  rw [if_pos (by omega)]
  have e1 : 0x8c + i - 0x8c = i := by omega
  have e2 : (0x8c + i) * 0x1000 = Page.dockfn i := by unfold Page.dockfn; omega
  rw [e1, e2]

theorem pageAt_ethmac {i off : Nat} (hi : i < 2) (ho : off < 0x1000) :
    pageAt (Page.ethmac i + off) = some (.ethmac, i, Page.ethmac i) := by
  have e : (Page.ethmac i + off) / 0x1000 = 0x91 + i := by unfold Page.ethmac; omega
  simp only [pageAt, e]
  repeat rw [if_neg (by omega)]
  rw [if_pos (by omega)]
  have e1 : 0x91 + i - 0x91 = i := by omega
  have e2 : (0x91 + i) * 0x1000 = Page.ethmac i := by unfold Page.ethmac; omega
  rw [e1, e2]

theorem pageAt_pciedn {i off : Nat} (hi : i < 2) (ho : off < 0x1000) :
    pageAt (Page.pciedn i + off) = some (.pciedn, i, Page.pciedn i) := by
  have e : (Page.pciedn i + off) / 0x1000 = 0x98 + i := by unfold Page.pciedn; omega
  simp only [pageAt, e]
  repeat rw [if_neg (by omega)]
  rw [if_pos (by omega)]
  have e1 : 0x98 + i - 0x98 = i := by omega
  have e2 : (0x98 + i) * 0x1000 = Page.pciedn i := by unfold Page.pciedn; omega
  rw [e1, e2]

theorem pageAt_leat {i off : Nat} (hi : i < 2) (ho : off < 0x1000) :
    pageAt (Page.leat i + off) = some (.leat, i, Page.leat i) := by
  have e : (Page.leat i + off) / 0x1000 = 0xa0 + i := by unfold Page.leat; omega
  simp only [pageAt, e]
  repeat rw [if_neg (by omega)]
  rw [if_pos (by omega)]
  have e1 : 0xa0 + i - 0xa0 = i := by omega
  have e2 : (0xa0 + i) * 0x1000 = Page.leat i := by unfold Page.leat; omega
  rw [e1, e2]

theorem pageAt_sluiceOut {i off : Nat} (hi : i < 24) (ho : off < 0x1000) :
    pageAt (Page.sluiceOut i + off) = some (.sluiceOut, i, Page.sluiceOut i) := by
  have e : (Page.sluiceOut i + off) / 0x1000 = 0xc0 + i := by unfold Page.sluiceOut; omega
  simp only [pageAt, e]
  repeat rw [if_neg (by omega)]
  rw [if_pos (by omega)]
  have e1 : 0xc0 + i - 0xc0 = i := by omega
  have e2 : (0xc0 + i) * 0x1000 = Page.sluiceOut i := by unfold Page.sluiceOut; omega
  rw [e1, e2]

theorem pageAt_nic {i off : Nat} (hi : i < 4) (ho : off < 0x1000) :
    pageAt (Page.nic i + off) = some (.nic, i, Page.nic i) := by
  have e : (Page.nic i + off) / 0x1000 = 0x2000 + i := by unfold Page.nic; omega
  simp only [pageAt, e]
  repeat rw [if_neg (by omega)]
  rw [if_pos (by omega)]
  have e1 : 0x2000 + i - 0x2000 = i := by omega
  have e2 : (0x2000 + i) * 0x1000 = Page.nic i := by unfold Page.nic; omega
  rw [e1, e2]

theorem pageAt_chip {off : Nat} (ho : off < 0x1000) : pageAt (Page.chip + off) = some (.chip, 0, Page.chip) := by
  have e : (Page.chip + off) / 0x1000 = 0x0 := by unfold Page.chip; omega
  simp only [pageAt, e]
  rfl

theorem pageAt_pwr {off : Nat} (ho : off < 0x1000) : pageAt (Page.pwr + off) = some (.pwr, 0, Page.pwr) := by
  have e : (Page.pwr + off) / 0x1000 = 0x1 := by unfold Page.pwr; omega
  simp only [pageAt, e]
  rfl

theorem pageAt_clk {off : Nat} (ho : off < 0x1000) : pageAt (Page.clk + off) = some (.clk, 0, Page.clk) := by
  have e : (Page.clk + off) / 0x1000 = 0x2 := by unfold Page.clk; omega
  simp only [pageAt, e]
  rfl

theorem pageAt_cue0 {off : Nat} (ho : off < 0x1000) : pageAt (Page.cue0 + off) = some (.cue0, 0, Page.cue0) := by
  have e : (Page.cue0 + off) / 0x1000 = 0x3 := by unfold Page.cue0; omega
  simp only [pageAt, e]
  rfl

theorem pageAt_pstk {off : Nat} (ho : off < 0x1000) : pageAt (Page.pstk + off) = some (.pstk, 0, Page.pstk) := by
  have e : (Page.pstk + off) / 0x1000 = 0x8 := by unfold Page.pstk; omega
  simp only [pageAt, e]
  rfl

theorem pageAt_tally {off : Nat} (ho : off < 0x1000) : pageAt (Page.tally + off) = some (.tally, 0, Page.tally) := by
  have e : (Page.tally + off) / 0x1000 = 0x9 := by unfold Page.tally; omega
  simp only [pageAt, e]
  rfl

theorem pageAt_vault {off : Nat} (ho : off < 0x1000) : pageAt (Page.vault + off) = some (.vault, 0, Page.vault) := by
  have e : (Page.vault + off) / 0x1000 = 0xa := by unfold Page.vault; omega
  simp only [pageAt, e]
  rfl

theorem pageAt_bist {off : Nat} (ho : off < 0x1000) : pageAt (Page.bist + off) = some (.bist, 0, Page.bist) := by
  have e : (Page.bist + off) / 0x1000 = 0xb := by unfold Page.bist; omega
  simp only [pageAt, e]
  rfl

theorem pageAt_miller {off : Nat} (ho : off < 0x1000) : pageAt (Page.miller + off) = some (.miller, 0, Page.miller) := by
  have e : (Page.miller + off) / 0x1000 = 0xc := by unfold Page.miller; omega
  simp only [pageAt, e]
  rfl

theorem pageAt_mill {off : Nat} (ho : off < 0x1000) : pageAt (Page.mill + off) = some (.mill, 0, Page.mill) := by
  have e : (Page.mill + off) / 0x1000 = 0x40 := by unfold Page.mill; omega
  simp only [pageAt, e]
  rfl

theorem pageAt_hopper {off : Nat} (ho : off < 0x1000) : pageAt (Page.hopper + off) = some (.hopper, 0, Page.hopper) := by
  have e : (Page.hopper + off) / 0x1000 = 0x41 := by unfold Page.hopper; omega
  simp only [pageAt, e]
  rfl

theorem pageAt_sluice {off : Nat} (ho : off < 0x1000) : pageAt (Page.sluice + off) = some (.sluice, 0, Page.sluice) := by
  have e : (Page.sluice + off) / 0x1000 = 0x50 := by unfold Page.sluice; omega
  simp only [pageAt, e]
  rfl

theorem pageAt_reel {off : Nat} (ho : off < 0x1000) : pageAt (Page.reel + off) = some (.reel, 0, Page.reel) := by
  have e : (Page.reel + off) / 0x1000 = 0x70 := by unfold Page.reel; omega
  simp only [pageAt, e]
  rfl

theorem pageAt_tailrace {off : Nat} (ho : off < 0x1000) : pageAt (Page.tailrace + off) = some (.tailrace, 0, Page.tailrace) := by
  have e : (Page.tailrace + off) / 0x1000 = 0x90 := by unfold Page.tailrace; omega
  simp only [pageAt, e]
  rfl

theorem pageAt_fabric {off : Nat} (ho : off < 0x1000) : pageAt (Page.fabric + off) = some (.fabric, 0, Page.fabric) := by
  have e : (Page.fabric + off) / 0x1000 = 0xa4 := by unfold Page.fabric; omega
  simp only [pageAt, e]
  rfl

theorem pageAt_aud {off : Nat} (ho : off < 0x1000) : pageAt (Page.aud + off) = some (.aud, 0, Page.aud) := by
  have e : (Page.aud + off) / 0x1000 = 0xa8 := by unfold Page.aud; omega
  simp only [pageAt, e]
  rfl

theorem pageAt_misc {off : Nat} (ho : off < 0x1000) : pageAt (Page.misc + off) = some (.misc, 0, Page.misc) := by
  have e : (Page.misc + off) / 0x1000 = 0xb0 := by unfold Page.misc; omega
  simp only [pageAt, e]
  rfl

theorem pageAt_path {off : Nat} (ho : off < 0x10000) : pageAt (Page.path + off) = some (.path, 0, Page.path) := by
  have e : 0x100 ≤ (Page.path + off) / 0x1000 ∧ (Page.path + off) / 0x1000 < 0x110 := by unfold Page.path; omega
  simp only [pageAt]
  repeat rw [if_neg (by omega)]
  rw [if_pos (by omega)]
  rfl

theorem pageAt_stats {off : Nat} (ho : off < 0x10000) : pageAt (Page.stats + off) = some (.stats, 0, Page.stats) := by
  have e : 0x110 ≤ (Page.stats + off) / 0x1000 ∧ (Page.stats + off) / 0x1000 < 0x120 := by unfold Page.stats; omega
  simp only [pageAt]
  repeat rw [if_neg (by omega)]
  rw [if_pos (by omega)]
  rfl

theorem pageAt_mcast {off : Nat} (ho : off < 0x1000) : pageAt (Page.mcast + off) = some (.mcast, 0, Page.mcast) := by
  have e : 0x120 ≤ (Page.mcast + off) / 0x1000 ∧ (Page.mcast + off) / 0x1000 < 0x121 := by unfold Page.mcast; omega
  simp only [pageAt]
  repeat rw [if_neg (by omega)]
  rw [if_pos (by omega)]
  rfl

theorem pageAt_wred {off : Nat} (ho : off < 0x1000) : pageAt (Page.wred + off) = some (.wred, 0, Page.wred) := by
  have e : 0x121 ≤ (Page.wred + off) / 0x1000 ∧ (Page.wred + off) / 0x1000 < 0x122 := by unfold Page.wred; omega
  simp only [pageAt]
  repeat rw [if_neg (by omega)]
  rw [if_pos (by omega)]
  rfl

theorem pageAt_policer {off : Nat} (ho : off < 0x1000) : pageAt (Page.policer + off) = some (.policer, 0, Page.policer) := by
  have e : 0x122 ≤ (Page.policer + off) / 0x1000 ∧ (Page.policer + off) / 0x1000 < 0x123 := by unfold Page.policer; omega
  simp only [pageAt]
  repeat rw [if_neg (by omega)]
  rw [if_pos (by omega)]
  rfl

theorem pageAt_tallyTab {off : Nat} (ho : off < 0x2000) : pageAt (Page.tallyTab + off) = some (.tallyTab, 0, Page.tallyTab) := by
  have e : 0x130 ≤ (Page.tallyTab + off) / 0x1000 ∧ (Page.tallyTab + off) / 0x1000 < 0x132 := by unfold Page.tallyTab; omega
  simp only [pageAt]
  repeat rw [if_neg (by omega)]
  rw [if_pos (by omega)]
  rfl

theorem pageAt_cue1 {off : Nat} (ho : off < 0x1000) : pageAt (Page.cue1 + off) = some (.cue1, 1, Page.cue1) := by
  have e : (Page.cue1 + off) / 0x1000 = 0x4 := by unfold Page.cue1; omega
  simp only [pageAt, e]
  rfl

theorem pageAt_cue2 {off : Nat} (ho : off < 0x1000) : pageAt (Page.cue2 + off) = some (.cue2, 2, Page.cue2) := by
  have e : (Page.cue2 + off) / 0x1000 = 0x5 := by unfold Page.cue2; omega
  simp only [pageAt, e]
  rfl

theorem pageAt_cue3 {off : Nat} (ho : off < 0x1000) : pageAt (Page.cue3 + off) = some (.cue3, 3, Page.cue3) := by
  have e : (Page.cue3 + off) / 0x1000 = 0x6 := by unfold Page.cue3; omega
  simp only [pageAt, e]
  rfl

end Sys2Proof.Machine
end

