-- ==== Sys2Proof/Laws/Reel.lean ====
section
/-! SUPPORT. Reel memory: what a byte reads after a write, and that every operation over it keeps its canonical form. -/

namespace Sys2Proof.Machine

/-! ## Reads after writes -/

theorem Memory.read_write (m : Memory) (a x : Nat) (b : Byte) :
    Memory.read (Memory.write m a b) x = if x = a ∧ a < reelSize then b else Memory.read m x := by
  unfold Memory.read Memory.write
  by_cases h : a < reelSize
  · simp [h, Tbl.get_put]
  · simp [h]

/-- A byte that no cell of a store names reads as before. -/
theorem Memory.read_store_other (cells : List (Nat × Byte)) : ∀ (m : Memory) (x : Nat),
    (∀ c ∈ cells, c.1 ≠ x) → Memory.read (Memory.store m cells) x = Memory.read m x := by
  induction cells with
  | nil => intro m x _; rfl
  | cons c t ih =>
    intro m x hx
    have h1 := ih (Memory.write m c.1 c.2) x fun d hd => hx d (List.mem_cons_of_mem _ hd)
    have h2 : Memory.read (Memory.store (Memory.write m c.1 c.2) t) x = Memory.read (Memory.store m (c :: t)) x := rfl
    rw [← h2, h1, Memory.read_write]
    have : ¬(x = c.1 ∧ c.1 < reelSize) := fun h => hx c (List.mem_cons_self ..) h.1.symm
    rw [if_neg this]

/-! ## The canonical form -/

theorem Memory.wf_nil : Memory.wf [] = true := rfl

theorem all_del (f : Nat → Bool) (k : Nat) : ∀ t : Memory, t.all (fun c => f c.1) = true →
    (Tbl.del t k).all (fun c => f c.1) = true := by
  intro t
  induction t with
  | nil => intro _; rfl
  | cons e t ih =>
    obtain ⟨a, v⟩ := e
    intro h
    simp only [List.all_cons, Bool.and_eq_true] at h
    simp only [Tbl.del]
    split
    · exact ih h.2
    · simp only [List.all_cons, Bool.and_eq_true]
      exact ⟨h.1, ih h.2⟩

theorem all_ins (f : Nat → Bool) (k : Nat) (v : Byte) (hk : f k = true) : ∀ t : Memory, t.all (fun c => f c.1) = true →
    (Tbl.ins t k v).all (fun c => f c.1) = true := by
  intro t
  induction t with
  | nil => intro _; simp [Tbl.ins, hk]
  | cons e t ih =>
    obtain ⟨a, w⟩ := e
    intro h
    simp only [List.all_cons, Bool.and_eq_true] at h
    simp only [Tbl.ins]
    split
    · simp only [List.all_cons, Bool.and_eq_true]; exact ⟨hk, h.1, h.2⟩
    · split
      · simp only [List.all_cons, Bool.and_eq_true]; exact ⟨hk, h.2⟩
      · simp only [List.all_cons, Bool.and_eq_true]; exact ⟨h.1, ih h.2⟩

theorem Memory.wf_write {m : Memory} (w : Memory.wf m = true) (a : Nat) (b : Byte) : Memory.wf (Memory.write m a b) = true := by
  unfold Memory.write
  split
  · next h =>
    simp only [Memory.wf, Bool.and_eq_true] at w ⊢
    refine ⟨Tbl.wf_put _ _ _ w.1, ?_⟩
    unfold Tbl.put
    split
    · exact all_del (fun k => decide (k < reelSize)) _ _ w.2
    · exact all_ins (fun k => decide (k < reelSize)) _ _ (by simpa using h) _ w.2
  · exact w

theorem Memory.wf_store (cells : List (Nat × Byte)) : ∀ {m : Memory}, Memory.wf m = true → Memory.wf (Memory.store m cells) = true := by
  induction cells with
  | nil => intro m w; exact w
  | cons c t ih => intro m w; exact ih (Memory.wf_write w c.1 c.2)

theorem reelWrite_wf (h : Hub) {m : Memory} (cells : List (Nat × Byte)) (w : Memory.wf m = true) :
    Memory.wf (reelWrite h m cells).2 = true := by
  unfold reelWrite
  dsimp only
  split
  · split
    · exact Memory.wf_write (Memory.wf_store _ w) _ _
    · exact Memory.wf_store _ w
  · exact Memory.wf_store _ w

/-- A fold whose step keeps the canonical form keeps it. -/
theorem foldl_wf {α : Type} (f : Hub × Memory → α → Hub × Memory)
    (hf : ∀ x a, Memory.wf x.2 = true → Memory.wf (f x a).2 = true) :
    ∀ (l : List α) (x : Hub × Memory), Memory.wf x.2 = true → Memory.wf (l.foldl f x).2 = true := by
  intro l
  induction l with
  | nil => intro x w; exact w
  | cons a t ih => intro x w; exact ih _ (hf x a w)

/-! ## Accesses -/

theorem writeReel_wf (h : Hub) {m : Memory} (a : Access) (w : Memory.wf m = true) : Memory.wf (writeReel h m a).2 = true := by
  refine foldl_wf _ ?_ _ _ w
  intro x p wx
  unfold writePart
  dsimp only
  split
  · exact wx
  · exact reelWrite_wf _ _ wx

theorem performAccess_wf (h : Hub) {m : Memory} (a : Access) (w : Memory.wf m = true) :
    Memory.wf (performAccess h m a).2 = true := by
  unfold performAccess
  split
  · split
    · exact writeReel_wf h a w
    · exact w
  · exact w

theorem conclude_wf (h : Hub) {m : Memory} (a : Access) (v : Verdict) (w : Memory.wf m = true) :
    Memory.wf (conclude h m a v).2 = true := by
  unfold conclude
  split
  · exact performAccess_wf h a w
  · exact performAccess_wf h a w
  · exact w

theorem startAccess_wf (h : Hub) {m : Memory} (a : Access) (w : Memory.wf m = true) : Memory.wf (startAccess h m a).2 = true := by
  unfold startAccess
  split
  · split
    · exact w
    · exact performAccess_wf h a w
  · split <;> exact w
  · exact w

theorem arrive_wf (h : Hub) {m : Memory} (a : Access) (w : Memory.wf m = true) : Memory.wf (arrive h m a).2 = true := by
  unfold arrive
  split
  · exact w
  · split
    · exact w
    · exact startAccess_wf h a w

theorem pumpFor_wf (n : Nat) : ∀ (h : Hub) {m : Memory}, Memory.wf m = true → Memory.wf (pumpFor n h m).2 = true := by
  induction n with
  | zero => intro h m w; exact w
  | succ n ih =>
    intro h m w
    unfold pumpFor
    split
    · exact w
    · split
      · exact ih _ w
      · exact ih _ (conclude_wf _ _ _ w)

theorem pump_wf (h : Hub) {m : Memory} (w : Memory.wf m = true) : Memory.wf (pump h m).2 = true := pumpFor_wf _ h w

theorem goOn_wf (h : Hub) {m : Memory} (w : Memory.wf m = true) : Memory.wf (goOn h m).2 = true := by
  unfold goOn
  dsimp only
  exact pump_wf h w

theorem busAccess_wf (h : Hub) {m : Memory} (a : Access) (w : Memory.wf m = true) : Memory.wf (busAccess h m a).2 = true := by
  unfold busAccess
  split
  · exact w
  · split
    · exact w
    · dsimp only
      split
      · exact goOn_wf _ (arrive_wf h a w)
      · exact arrive_wf h a w

theorem endStalled_wf (h : Hub) {m : Memory} (k c : Nat) (w : Memory.wf m = true) : Memory.wf (endStalled h m k c).2 = true := by
  unfold endStalled
  split
  · exact w
  · exact pump_wf _ w

theorem wakeTimeout_wf (h : Hub) {m : Memory} (k : Nat) (w : Memory.wf m = true) : Memory.wf (wakeTimeout h m k).2 = true := by
  unfold wakeTimeout
  split
  · split
    · exact endStalled_wf h k _ w
    · exact w
  · exact w

theorem internalTimeout_wf (h : Hub) {m : Memory} (k : Nat) (w : Memory.wf m = true) :
    Memory.wf (internalTimeout h m k).2 = true := by
  unfold internalTimeout
  split
  · split
    · split
      · exact endStalled_wf h k _ w
      · exact w
    · exact w
  · exact w

theorem forcedGate_wf (h : Hub) {m : Memory} (d : Nat) (w : Memory.wf m = true) : Memory.wf (forcedGate h m d).2 = true :=
  pump_wf _ w

/-! ## Gates, the switch, power -/

theorem copyBand_wf (h : Hub) {m : Memory} (g t b : Nat) (w : Memory.wf m = true) : Memory.wf (copyBand h m g t b).2 = true := by
  unfold copyBand
  dsimp only
  generalize reelRead h m Client.catchUp _ _ = r
  have k := reelWrite_wf r.1 (cellsAt (takeBase h g t * 65536 + b * (16 * takePitch h g)) r.2) w
  revert k
  generalize reelWrite _ _ _ = q
  exact id

theorem landStalled_wf (h : Hub) {m : Memory} (g : Nat) (w : Memory.wf m = true) : Memory.wf (landStalled h m g).2 = true := by
  unfold landStalled
  dsimp only
  split
  · split
    · exact w
    · exact reelWrite_wf _ _ w
  · exact w

theorem landAll_wf (h : Hub) {m : Memory} (w : Memory.wf m = true) : Memory.wf (landAll h m).2 = true :=
  foldl_wf (fun r g => landStalled r.1 r.2 g) (fun x g wx => landStalled_wf x.1 g wx) _ (h, m) w

theorem catchUp_wf (h : Hub) {m : Memory} (g : Nat) (w : Memory.wf m = true) : Memory.wf (catchUp h m g).2 = true := by
  unfold catchUp
  split
  · exact w
  · dsimp only
    split
    · exact landStalled_wf _ _ (copyBand_wf _ _ _ _ w)
    · split
      · exact w
      · split
        · exact w
        · split
          · exact w
          · exact copyBand_wf _ _ _ _ w

theorem landPixels_wf (h : Hub) {m : Memory} (g : Nat) (d : GateData) (w : Memory.wf m = true) :
    Memory.wf (landPixels h m g d).2 = true := by
  unfold landPixels
  dsimp only
  split
  · split
    · exact w
    · exact landStalled_wf _ _ w
  · exact w

theorem gateDeliver_wf (h : Hub) {m : Memory} (p : Nat) (b : Bool) (d : GateData) (w : Memory.wf m = true) :
    Memory.wf (gateDeliver h m p b d).2 = true := by
  unfold gateDeliver
  split
  · exact w
  · split
    · exact w
    · split
      · exact w
      · exact landPixels_wf _ _ _ w

theorem reaches_wf (h : Hub) {m : Memory} (o : Nat) (e : XEntry) (c : Option Chain) (tag : Option Nat) (d : GateData)
    (w : Memory.wf m = true) : Memory.wf (reaches h m o e c tag d).2 = true := by
  unfold reaches
  split
  · exact w
  · split
    · exact w
    · split
      · exact gateDeliver_wf _ _ _ _ w
      · split
        · exact w
        · split <;> exact w

theorem departs_wf (h : Hub) {m : Memory} (o : Nat) (tag : Option Nat) (d : GateData) (w : Memory.wf m = true) :
    Memory.wf (departs h m o tag d).2 = true := by
  unfold departs
  split
  · exact w
  · exact reaches_wf _ _ _ _ _ _ w

theorem turnBoundary_wf (h : Hub) {m : Memory} (w : Memory.wf m = true) : Memory.wf (turnBoundary h m).2 = true := by
  unfold turnBoundary
  split
  · exact w
  · exact goOn_wf _ w

theorem sliceResetEnds_wf (h : Hub) {m : Memory} (s : Nat) (w : Memory.wf m = true) : Memory.wf (sliceResetEnds h m s).2 = true := by
  unfold sliceResetEnds
  split
  · exact w
  · exact goOn_wf _ w

theorem entryComplete_wf (h : Hub) {m : Memory} (d : Nat) (w : Memory.wf m = true) : Memory.wf (entryComplete h m d).2 = true := by
  unfold entryComplete
  dsimp only
  split
  · exact w
  · dsimp only
    split
    · rfl
    · exact w

theorem domainReady_wf (h : Hub) {m : Memory} (d : Nat) (w : Memory.wf m = true) : Memory.wf (domainReady h m d).2 = true := by
  unfold domainReady
  generalize h.dom d = x
  dsimp only
  split
  · exact w
  · split
    · exact w
    · exact goOn_wf _ (landAll_wf _ w)

theorem dockRead_wf (h : Hub) {m : Memory} (s : Fin 4) (a n : Nat) (w : Memory.wf m = true) : Memory.wf (dockRead h m s a n).2 = true := by
  unfold dockRead
  split
  · exact w
  · split
    · exact w
    · exact busAccess_wf _ _ w

theorem dockWrite_wf (h : Hub) {m : Memory} (s : Fin 4) (a n v : Nat) (c : Bool) (w : Memory.wf m = true) :
    Memory.wf (dockWrite h m s a n v c).2 = true := by
  unfold dockWrite
  split
  · exact w
  · split
    · exact w
    · split
      · exact w
      · exact busAccess_wf _ _ w

end Sys2Proof.Machine
end

