-- ==== Sys2Proof/Laws/Writes.lean ====
section
/-! SUPPORT. What the store of a word does (R12), and which operation a write that passes is: a header register's, a pair's or
a block register's. -/

namespace Sys2Proof.Machine

/-- Every field stands within its word. -/
theorem rowsOf_lo (k : Kind) : ∀ r ∈ rowsOf k, r.lo < 32 := by
  cases k <;> decide

theorem rowsHdr_lo : ∀ r ∈ rowsHdr, r.lo < 32 := by decide

theorem wordRows_lo {a : Nat} {r : Row} (hr : r ∈ wordRows a) : r.lo < 32 := by
  unfold wordRows at hr
  split at hr
  · cases hr
  · dsimp only at hr
    split at hr
    · exact rowsOf_lo _ r ((List.mem_filter.mp hr).1)
    · exact rowsHdr_lo r ((List.mem_filter.mp hr).1)

/-- The store of one field changes the register table alone. -/
theorem storeField_eq (h : Hub) (k : Kind) (i base a v : Nat) (r : Row) :
    ∃ m, storeField h k i base a v r = { h with regs := m } := by
  unfold storeField
  dsimp only
  split
  · exact ⟨h.regs, rfl⟩
  · cases r.acc with
    | rw => exact ⟨_, rfl⟩
    | rwf => exact ⟨_, rfl⟩
    | w1c => exact ⟨_, rfl⟩
    | w1s => dsimp only; split <;> exact ⟨_, rfl⟩
    | ro => exact ⟨h.regs, rfl⟩
    | wo => exact ⟨h.regs, rfl⟩
    | rc => exact ⟨h.regs, rfl⟩

theorem storeField_other (h : Hub) (k : Kind) (i base a v : Nat) (r : Row) {g : Fld} (n : g.key ≠ a * 32 + r.lo) :
    (storeField h k i base a v r).fget g = h.fget g := by
  have keep : ∀ x, (h.fset ⟨a, r.lo, r.w⟩ x).fget g = h.fget g := fun x => Hub.fget_fset_other h x n
  unfold storeField
  dsimp only
  split
  · rfl
  · cases r.acc with
    | rw => exact keep _
    | rwf => exact keep _
    | w1c => exact keep _
    | w1s => dsimp only; split <;> first | exact keep _ | rfl
    | ro => rfl
    | wo => rfl
    | rc => rfl

/-- The store of a word changes the register table alone. -/
theorem storeWord_eq (h : Hub) (a v : Nat) : ∃ m, storeWord h a v = { h with regs := m } := by
  unfold storeWord
  split
  · exact ⟨h.regs, rfl⟩
  · rename_i k i base _
    generalize wordRows a = l
    induction l generalizing h with
    | nil => exact ⟨h.regs, rfl⟩
    | cons r l ih =>
      obtain ⟨m, hm⟩ := storeField_eq h k i base a v r
      obtain ⟨m', hm'⟩ := ih { h with regs := m }
      exact ⟨m', by rw [List.foldl_cons, hm, hm']⟩

/-- The store of a word keeps every field of every other word. -/
theorem storeWord_others (h : Hub) (a v : Nat) : OthersKept a h (storeWord h a v) := by
  intro g hg
  unfold storeWord
  split
  · rfl
  · rename_i k i base _
    have hl : ∀ r ∈ wordRows a, r.lo < 32 := fun r hr => wordRows_lo hr
    generalize wordRows a = l at hl
    induction l generalizing h with
    | nil => rfl
    | cons r l ih =>
      rw [List.foldl_cons, ih _ fun r' hr' => hl r' (List.mem_cons_of_mem _ hr')]
      have := hl r (List.mem_cons_self ..)
      exact storeField_other h k i base a v r (by omega)

theorem othersKept_refl (a : Nat) (h : Hub) : OthersKept a h h := fun _ _ => rfl

theorem OthersKept.trans {a : Nat} {h h' h'' : Hub} (p : OthersKept a h h') (q : OthersKept a h' h'') : OthersKept a h h'' :=
  fun g hg => (q g hg).trans (p g hg)

theorem othersKept_invalidate (a : Nat) (h : Hub) (reel : Bool) (b n : Nat) : OthersKept a h (invalidate h reel b n) :=
  fun g _ => invalidate_fget h reel b n g

/-- A write of a field of the word keeps the others. -/
theorem othersKept_fset {a : Nat} (h : Hub) (f : Fld) (v : Nat) (e : f.key / 32 = a) : OthersKept a h (h.fset f v) :=
  fun _ hg => Hub.fget_fset_other h v fun c => hg (c ▸ e)

theorem othersKept_flag {a : Nat} (h : Hub) (f : Fld) (b : Bool) (e : f.key / 32 = a) : OthersKept a h (h.flag f b) :=
  othersKept_fset h f _ e

/-- A write that passes is one that its requester may make. -/
theorem writeWord_passes {s : State} {req : Req} {a : Nat} (p : Writes s req a) (h : Hub) (v : Nat) :
    writeWord h req a v = writeAllowed h req a v := by
  have hr : (hasRwf a && !(mayRwf req)) = false := by
    cases h : hasRwf a with
    | false => rfl
    | true => rw [p.2 h]; rfl
  rw [writeWord, if_neg (by simp [hr])]

/-- A write of a block register that passes. -/
theorem write_block {s : State} {req : Req} {a v : Nat} {k : Kind} {i base : Nat} (p : Writes s req a) (hv : v < 2 ^ 32)
    (hp : pageAt a = some (k, i, base)) (ho : (k.hasHeader && decide (a - base < 0x40)) = false)
    (hl : (!k.isTable && isPairLo k (a - base)) = false) (hh : (!k.isTable && isPairHi k (a - base)) = false)
    (nb : endsBist (windowAccess req a 4 true 0) = false) :
    busWrite s req a v = .next { s with hub := writeBlock (invalidate s.hub false a 4) req k i (a - base) a v } := by
  rw [busWrite_passes s req a v p.1 hv nb, writeWord_passes p, writeAllowed, hp]
  dsimp only
  rw [if_neg (by simp [ho]), if_neg (by simp [hl]), if_neg (by simp [hh])]

/-- A write of a header register that passes. -/
theorem write_header {s : State} {req : Req} {a v : Nat} {k : Kind} {i base : Nat} (p : Writes s req a) (hv : v < 2 ^ 32)
    (hp : pageAt a = some (k, i, base)) (hk : k.hasHeader = true) (ho : a - base < 0x40) (nb : endsBist (windowAccess req a 4 true 0) = false) :
    busWrite s req a v = .next { s with hub := writeHeader (invalidate s.hub false a 4) req k i base (a - base) v } := by
  rw [busWrite_passes s req a v p.1 hv nb, writeWord_passes p, writeAllowed, hp]
  dsimp only
  rw [if_pos (by simp [hk, ho])]

end Sys2Proof.Machine
end

