-- ==== Sys2Proof/Machine/Balls.lean ====
section
/-! DEFINITION. The ball map and what each ball does from POR (R667–R671). Balls that a register drives or reads are in State; this file
says where they lie. -/

namespace Sys2Proof.Machine

/-- A block of balls (R667). -/
inductive BallBlock where
  | port (n : Nat)
  | leat (l : Nat)
  | pcie (p : Nat)
  | dpo (o : Nat)
  | eth (e : Nat)
  | weir (w : Nat)
  | management
  | supply
  | reserved
  deriving DecidableEq, Repr

/-- The rows of the grid, from A on. -/
def ballRows : List String :=
  ["A", "B", "C", "D", "E", "F", "G", "H", "J", "K", "L", "M", "N", "P", "T", "U", "V", "W", "Y"] ++
  ["AA", "AB", "AC", "AD", "AE", "AF", "AG", "AH", "AJ", "AK", "AL", "AM", "AN", "AP", "AT", "AU", "AV", "AW"]

/-- The block of a ball and its place in the block's list, by the row counted from A = 0 and the column from 1; none: GND (R667, R668). -/
def ballAt (row col : Nat) : Option (BallBlock × Nat) :=
  let left (first : Nat) : Nat := 4 * (row - first) + (col - 1)
  if row < 4 ∧ 1 ≤ col ∧ col ≤ 32 then some (.port ((col - 1) / 4), 4 * row + (col - 1) % 4)
  else if 33 ≤ row ∧ row ≤ 36 ∧ 1 ≤ col ∧ col ≤ 16 then some (.port (8 + (col - 1) / 4), 4 * (36 - row) + (col - 1) % 4)
  else if 33 ≤ row ∧ row ≤ 36 ∧ 17 ≤ col ∧ col ≤ 32 then some (.leat ((col - 17) / 8), 8 * (36 - row) + (col - 17) % 8)
  else if row < 4 ∨ 32 < row then none
  else if 1 ≤ col ∧ col ≤ 4 then
    if row < 10 then some (.pcie 0, left 4)
    else if row < 16 then some (.pcie 1, left 10)
    else if row < 19 then some (.dpo 0, left 16)
    else if row < 22 then some (.dpo 1, left 19)
    else if row < 24 then some (.eth 0, left 22)
    else if row < 26 then some (.eth 1, left 24)
    else none
  else if 34 ≤ col ∧ col ≤ 37 ∧ row < 32 then some (.weir ((row - 4) / 2), 4 * ((row - 4) % 2) + (37 - col))
  else if 5 ≤ col ∧ col ≤ 8 ∧ 4 * (row - 4) + (col - 5) < 85 then some (.management, 4 * (row - 4) + (col - 5))
  else if 30 ≤ col ∧ col ≤ 33 ∧ row ≤ 22 then some (.supply, 4 * (row - 4) + (col - 30))
  else if 9 ≤ col ∧ (row = 4 ∧ col ≤ 29 ∨ row = 5 ∧ col ≤ 14) then some (.reserved, 21 * (row - 4) + (col - 9))
  else none

/-- Names with a number. -/
def numbered (s : String) (n : Nat) : List String := (List.range n).map fun k => s ++ toString k

/-- The entries of a Type-C port, a Leat, a PCIe port, a DPO and an ETH block (R669). -/
def portBalls : List String :=
  ["TX0P", "TX0N", "TX1P", "TX1N", "GND", "RX0P", "RX0N", "GND"] ++ ["RX1P", "RX1N", "USB2P", "USB2N", "CC1", "CC2", "SBU1", "SBU2"]

def lanePairs (s : String) : List String := (List.range 4).flatMap fun k => [s ++ toString k ++ "P", s ++ toString k ++ "N"]

def leatBalls : List String := lanePairs "TX" ++ List.replicate 8 "GND" ++ lanePairs "RX" ++ List.replicate 8 "GND"

def pcieBalls : List String :=
  ((List.range 4).flatMap fun k => ["TX" ++ toString k ++ "P", "TX" ++ toString k ++ "N", "RX" ++ toString k ++ "P", "RX" ++ toString k ++ "N"]) ++
  ["REFCLKP", "REFCLKN", "GND", "GND", "PERST_N", "CLKREQ_N", "PRSNT_N", "GND"]

def dpoBalls : List String := lanePairs "L" ++ ["AUXP", "AUXN", "HPD", "GND"]

def ethBalls : List String := ["TXP", "TXN", "RXP", "RXN", "GND", "GND", "GND", "GND"]

/-- The entries of a Weir: W0–W3 have a source and a sink path (R669). -/
def weirBalls (w : Nat) : List String :=
  (if w < 4 then ["GATES", "GATEK", "SRC", "GND"] else ["GATE", "SRC", "GND", "GND"]) ++ ["VS", "SNSP", "SNSN", "GND"]

def managementBalls : List String :=
  ["FL_SCK", "FL_CS_N", "FL_DQS", "FL_RST_N"] ++ numbered "FL_DQ" 8 ++ ["I3C_SCL", "I3C_SDA", "PWR_SCL", "PWR_SDA", "BMC_SCL", "BMC_SDA"] ++
  ["UART_TX", "UART_RX", "TCK", "TMS", "TDI", "TDO", "TRST_N"] ++ numbered "GPIO" 32 ++ ["AUD_MCLK", "AUD_BCLK", "AUD_FS"] ++
  numbered "AUD_SDO" 4 ++ numbered "AUD_SDI" 4 ++ ["RESET_N", "INT_N", "PFW_N", "WAKE_N"] ++ numbered "TAMPER" 4 ++
  ["CASC_ROLE0", "CASC_ROLE1", "CASC_ID0", "CASC_ID1", "BOOT_MODE0", "BOOT_MODE1", "CLKOUT", "XTAL_IN", "XTAL_OUT"]

def blockBalls (b : BallBlock) : List String :=
  match b with
  | .port _ => portBalls
  | .leat _ => leatBalls
  | .pcie _ => pcieBalls
  | .dpo _ => dpoBalls
  | .eth _ => ethBalls
  | .weir w => weirBalls w
  | .management => managementBalls
  | .supply => List.replicate 72 "VIN" ++ ["VKEEP", "VKEEP", "VIO33_OUT", "VIO33_OUT"]
  | .reserved => List.replicate 27 "NC_TEST"

/-- What stands before the entry in a ball's name (R668). -/
def blockPrefix (b : BallBlock) : String :=
  match b with
  | .port n => if n < 4 then "H" ++ toString n ++ "_" else "D" ++ toString (n - 4) ++ "_"
  | .leat l => "LEAT" ++ toString l ++ "_"
  | .pcie p => "PCIE" ++ toString p ++ "_"
  | .dpo o => "DPO" ++ toString o ++ "_"
  | .eth e => "ETH" ++ toString e ++ "_"
  | .weir w => "W" ++ toString w
  | .management | .supply | .reserved => ""

/-- The entry of a ball; GND where no region assigns it. -/
def ballEntry (row col : Nat) : String :=
  match ballAt row col with
  | some (b, k) => (blockBalls b).getD k "GND"
  | none => "GND"

/-- The name of a ball (R668). -/
def ballName (row col : Nat) : String :=
  let e := ballEntry row col
  match ballAt row col with
  | some (b, _) => if e = "GND" then e else blockPrefix b ++ e
  | none => e

/-- A ball of a unit that the variant lacks is high-impedance without pulls (R670). -/
def ballAbsent (variant : Nat) (b : BallBlock) : Bool :=
  match b with
  | .port n => !(pagePresent variant .typec n)
  | .leat l => !(pagePresent variant .leat l)
  | .pcie p => !(pagePresent variant .pciedn p)
  | .dpo o => !(pagePresent variant .dpo o)
  | .eth e => !(pagePresent variant .ethmac e)
  | .weir w => !(pagePresent variant .weir w)
  | .management | .supply | .reserved => false

/-- What a ball does from POR until software changes it (R671). -/
inductive BallState where
  | electricalIdle
  | passiveRd
  | isOpen
  | highZ
  | low
  | high
  | input
  | pullUp50k
  | pullDown50k
  | pullDown100k
  | idleBias
  | toSource
  | released
  | unconnected
  | rail
  deriving DecidableEq, Repr

/-- The same for an entry of a block. -/
def ballDefault (variant : Nat) (b : BallBlock) (e : String) : BallState :=
  let oneOf (l : List String) : Bool := l.contains e
  if e = "GND" then .rail
  else if ballAbsent variant b then .highZ
  else match b with
  | .port n =>
    if oneOf ["CC1", "CC2"] then (if n < 4 then .passiveRd else .isOpen)
    else if oneOf ["SBU1", "SBU2"] then .isOpen
    else if oneOf ["USB2P", "USB2N"] then .highZ else .electricalIdle
  | .leat _ | .eth _ => .electricalIdle
  | .pcie _ =>
    if e = "PERST_N" then .low else if e = "CLKREQ_N" then .input else if e = "PRSNT_N" then .pullUp50k else .electricalIdle
  | .dpo _ => if e = "HPD" then .pullDown100k else if oneOf ["AUXP", "AUXN"] then .idleBias else .electricalIdle
  | .weir _ => if oneOf ["GATE", "GATES", "GATEK"] then .toSource else .input
  | .management =>
    if oneOf ["FL_CS_N", "UART_TX"] then .high
    else if oneOf (["FL_RST_N", "CLKOUT", "AUD_MCLK", "AUD_BCLK", "AUD_FS"] ++ numbered "AUD_SDO" 4) then .low
    else if oneOf (["FL_SCK", "FL_DQS", "TDO"] ++ numbered "FL_DQ" 8 ++ numbered "TAMPER" 4) then .highZ
    else if oneOf (["TCK", "TRST_N", "CASC_ROLE0", "CASC_ROLE1", "CASC_ID0", "CASC_ID1", "BOOT_MODE0", "BOOT_MODE1"] ++ numbered "GPIO" 32) then
      .pullDown50k
    else if oneOf ["TMS", "TDI", "RESET_N", "WAKE_N"] then .pullUp50k
    else if oneOf ["INT_N", "PFW_N"] then .released else .input
  | .supply => .rail
  | .reserved => .unconnected

end Sys2Proof.Machine
end

