-- ==== Sys2Proof/WellFormed.lean ====
section
/-! DEFINITION. Well-formed commands: operands that the hardware can carry. The checks that the spec makes an effect (a size
fault, an owner fault, a command turned away) are no part of it. -/

namespace Sys2Proof

open Sys2Proof.Machine

/-- A header's page (R35, R36). -/
def pageHere (p : Fin 216) : Bool := (pageAt (4096 * p)).isSome

/-- The _LO register and the _HI register of a 40-bit pair (R58). -/
def pairLoHere (a : Nat) : Bool := match pageAt a with | some (k, _, base) => isPairLo k (a - base) | none => false

def pairHiHere (a : Nat) : Bool := match pageAt a with | some (k, _, base) => isPairHi k (a - base) | none => false

/-- A hop number at an ingress point (R113). -/
def hopOk (ingress hop : Nat) : Bool := decide (ingress < 24) && decide (hop < 2048)

/-- The hop numbers of an ingress point (R316, R318, R332, R369, R401): HopIDs at the links. -/
def arrivalHopOk (i hop : Nat) : Bool :=
  if i = 14 ∨ i = 15 then decide (hop < 8)
  else if i = 16 ∨ i = 17 then decide (hop < 3)
  else if i = 20 ∨ i = 22 then decide (hop < 4)
  else if i = 23 then decide (hop < 64) && decide (hop % 16 ≤ 8)
  else decide (hop < 2048)

/-- What a connection manager can ask for (R79, R80). -/
def pathOk (q : PathReq) : Bool :=
  hopOk q.ingress q.hop && hopOk q.outlet q.outHop && decide (q.adapter < 4) && decide (q.prio < 8) && decide (1 ≤ q.weight)
    && decide (q.weight ≤ 255)

/-- Packets of 1 to 256 bytes (R111). -/
def packetsOk (ps : List Bytes) : Bool := ps.all fun p => decide (1 ≤ p.length) && decide (p.length ≤ 256)

/-- The path of a credit (R131). -/
def creditOk (c : Option Nat) : Bool := match c with | some p => decide (p < 1024) | none => true

/-- A tag of a PCIe request. -/
def tagOk (t : Option Nat) : Bool := match t with | some n => decide (n < 1024) | none => true

/-- An 8-byte write starts at an even word (R62, R348). -/
def longOk (long : Bool) (word : Nat) : Bool := !long || decide (word % 2 = 0)

/-- An AUX request moves at most 16 bytes. -/
def auxOk (q : AuxReq) : Bool :=
  match q with
  | .dpcdRead _ n | .edidRead _ n => decide (n ≤ 16)
  | .dpcdWrite _ bs => decide (bs.length ≤ 16)

/-- A rate and a lane count of DisplayPort (R75, R235). -/
def dpLinkOk (rate lanes : Nat) : Bool := decide (rate ≤ 6) && [1, 2, 4].contains lanes

/-- The fields of a USB request. -/
def stdOk (q : StdReq) : Bool :=
  match q with
  | .setAddress a => decide (a < 128)
  | .setConfiguration v => decide (v < 256)
  | .setInterface n a => decide (n < 256) && decide (a < 256)
  | .remoteWake _ => true
  | .get k n => decide (k < 256) && decide (n < 2 ^ 16)
  | .getStatus e => match e with | none => true | some e => decide (e < 32)
  | .getConfiguration | .functionSuspend .. | .linkFeature .. => true
  | .getInterface n => decide (n < 256)
  | .endpointHalt e _ | .synchFrame e => decide (e < 32)
  | .setSel bs => decide (bs.length = 6)
  | .isochDelay d => decide (d < 2 ^ 16)
  | .vendor r => decide (r < 256)
  | .ping => true

def classOkReq (q : ClassReq) : Bool :=
  match q with
  | .configure _ | .getRate | .hubDescriptor _ | .linkPower _ | .rateRange => true
  | .portStatus _ p | .portPower _ p _ | .portSuspend _ p _ | .clearConnection _ p | .clearOverCurrent _ p => decide (1 ≤ p) && decide (p ≤ 9)
  | .setRate c => decide (c < 8)

/-- A message of PDOs (R442). -/
def pdosOk (ps : List Word) : Bool := !ps.isEmpty && decide (ps.length ≤ 11)

/-- A frame of the SAR (R476). -/
def frameOk (f : SarFrame) : Bool :=
  decide (f.channels.length = 14) && f.channels.all (fun c => decide (c.1 < 4096) && decide (-2048 ≤ c.2) && decide (c.2 < 2048))
    && decide (f.vin < 2 ^ 16) && decide (f.vkeep < 2 ^ 16) && decide (f.vio33 < 2 ^ 16) && decide (f.temp < 2 ^ 16)

/-- The fields of a sync word (R619). -/
def syncOk (w : SyncWord) : Bool :=
  decide (w.ftime < 2 ^ 40) && decide (w.epoch < 2 ^ 32) && decide (w.phase < 8000) && decide (w.headId < 4)
    && decide (w.cfgHash < 2 ^ 64) && decide (w.hops ≤ 3)

/-- A report of a Type-C link: a mode that a training ends in (R74), which a host port reaches without DP Alt Mode; a host router at
a device port (R73); a CL state. -/
def LinkReport.wf (r : LinkReport) (n : Nat) : Bool :=
  match r with
  | .trained m => decide (1 ≤ m) && decide (m ≤ (if n < 4 then 0xB else 0xD))
  | .hostRouter => decide (4 ≤ n)
  | .idle cl => decide (cl ≤ 3)
  | .errors _ _ => true

/-- The hardware can carry the command's operands. -/
def Instr.wf (i : Instr) : Bool :=
  match i with
  | .registerWrite _ _ size _ => decide (size ≤ 8)
  | .wakeTimeout .. => true
  | .intForce _ page _ => pageHere page
  | .commitGo _ page _ => pageHere page
  | .blockReset _ page => pageHere page
  | .blockResetComplete page => pageHere page
  | .ownerWrite _ page _ => pageHere page
  | .padRelease _ page _ => pageHere page
  | .pairLoRead _ span => decide (span.size ≤ 8)
  | .pairHiWrite _ addr _ => pairHiHere addr.toNat
  | .pairLoWrite _ addr _ => pairLoHere addr.toNat
  | .pathSetValid q => pathOk q
  | .weightChange _ ingress hop weight => hopOk ingress hop && decide (1 ≤ weight) && decide (weight ≤ 255)
  | .asymmetricTransitionRequest .. | .retrain .. => true
  | .linkUp n mode _ => mode.wf n.val
  | .linkDown .. | .release .. | .releaseDone .. | .attach .. | .discHoldEnd .. => true
  | .attachTimeout .. | .dpOutBind .. | .dpInSrc .. | .routerReset .. | .sliceReset .. => true
  | .sliceResetComplete .. => true
  | .profileReentry => true
  | .chainArrival ingress hop packets _ _ colour credit => arrivalHopOk ingress.val hop && packetsOk packets && decide (colour ≤ 2) && creditOk credit
  | .admitIngress .. | .creditGrant .. | .outletSelect .. => true
  | .departure _ tag _ => tagOk tag
  | .cutThroughTimeout .. => true
  | .patrolScrub cell row => decide (cell < 98304) && decide (row < 4)
  | .auditGo .. => true
  | .auditDone => true
  | .injectSingle .. | .injectDouble .. | .injectLink .. => true
  | .pathEntryWrite _ _ word long _ => longOk long word.val
  | .mcastWrite _ _ word long _ => longOk long word.val
  | .profileWrite _ addr long _ => longOk long (addr.toNat / 4) && decide (addr.toNat % 4 = 0) && decide (0x121000 ≤ addr.toNat) && decide (addr.toNat < 0x123000)
  | .counterWrite _ addr long _ => longOk long (addr.toNat / 4) && decide (addr.toNat % 4 = 0) && decide (0x110000 ≤ addr.toNat) && decide (addr.toNat < 0x123000)
  | .groupsActiveWrite .. | .forebayHwm .. | .freeLwm .. => true
  | .turnBoundary => true
  | .allotmentComputed .. => true
  | .refillPoint => true
  | .turnPhaseWrite _ ticks => decide (ticks.toNat < 8000)
  | .computeMax .. | .tokenEarned .. | .depthHwm .. | .pauseReceived .. | .pauseExpiry .. => true
  | .gateEnable .. | .edidValid .. | .hpdPulseEnd .. => true
  | .auxRequest _ q => auxOk q
  | .linkTraining _ rate lanes => dpLinkOk rate lanes
  | .streamUp _ msa => decide (1 ≤ msa.h) && decide (1 ≤ msa.v) && decide (msa.colour ≤ 3)
  | .streamDown .. => true
  | .frameStart _ su regions => su || regions.isEmpty
  | .clapper .. | .prEnter .. | .prExit .. | .catchUpBand .. | .bwIdleDecrease .. => true
  | .bwGrant .. => true
  | .reelPatrol block => decide (block < 2 ^ 26)
  | .reelInjectSingle .. | .reelInjectDouble .. | .utilHwm .. | .vblank .. | .projEnable .. => true
  | .projDisable .. | .vTotalMaxReached .. => true
  | .underrun _ line pixel => decide (line < 2 ^ 14) && decide (pixel < 2 ^ 14)
  | .outputStall _ line pixel => decide (line < 2 ^ 14) && decide (pixel < 2 ^ 14)
  | .frameEnd .. => true
  | .dpTrainingComplete _ ok rate lanes _ _ => !ok || dpLinkOk rate lanes
  | .hpdIrq .. | .projRetrain .. | .dpoRetrain .. | .dpoHpdChange .. | .sigPop .. => true
  | .ethFrameReceive .. => true
  | .ethLinkUp _ speed => decide (1 ≤ speed) && decide (speed ≤ 6)
  | .ethLinkDown .. => true
  | .switchForward => true
  | .ageOut .. | .fdbRead .. | .fdbWrite .. | .fdbDelete .. | .fdbFlushDynamic .. => true
  | .nicTransmit _ _ addr len => decide (addr < 2 ^ 64) && decide (len < 2 ^ 16)
  | .nicReceive _ buffers => buffers.all fun b => decide (b < 2 ^ 64)
  | .itrExpiry .. | .xoffRepeat .. => true
  | .pcieTlpReceive _ _ tag packets credit => decide (tag < 1024) && packetsOk packets && creditOk credit
  | .pciePresenceChange .. => true
  | .pcieLinkUp _ gen width _ => decide (1 ≤ gen) && decide (gen ≤ 5) && [1, 2, 4].contains width
  | .pcieLinkDown .. | .perstRelease .. => true
  | .reelWindowRead _ addr len => decide (addr + len ≤ 2 ^ 32)
  | .reelWindowWrite _ addr data => decide (addr + data.length ≤ 2 ^ 32)
  | .atomicop .. | .flrFunction0 .. | .flrFunction1 .. | .internalTimeout .. | .outboundCompletion .. => true
  | .outboundReadTimeout .. | .logClear .. | .wordSample .. | .wordWrite .. | .wordSend .. => true
  | .slotReceive _ _ _ _ reader => decide (reader ≤ 5)
  | .eventRaise .. | .eventArrival .. | .inboxRead .. | .connect .. | .disconnect .. => true
  | .standardRequest _ q => stdOk q
  | .getInfo _ len => decide (len < 2 ^ 16)
  | .regRead _ _ len => decide (len < 2 ^ 16)
  | .regWrite _ _ len _ _ => decide (len < 2 ^ 16)
  | .mailboxOut _ data _ => decide (data.length < 2 ^ 16)
  | .mailboxIn _ len _ => decide (len < 2 ^ 16)
  | .vreqTimeout .. | .suspend .. | .remoteWake .. | .resumeKEnd .. | .hostResume .. => true
  | .busReset .. | .hidSend .. | .notify .. | .feedback .. | .audioBlock .. => true
  | .audLock => true
  | .ccAttachSeen .. | .terminationLost .. | .ccDebounce .. | .drpToggle .. | .tryDebounce .. => true
  | .tryPeriodEnd .. | .ccOpen .. | .vbusDischarged .. | .dischargeSlow .. | .errorRecoveryEnd .. => true
  | .vbusLost .. => true
  | .sourceCapabilities _ pdos => pdosOk pdos
  | .request .. | .amsAnswer .. | .getSourceCap .. | .getSinkCapMessage .. => true
  | .sinkCapabilities _ pdos => pdosOk pdos
  | .prSwap .. | .drSwap .. | .vconnSwapMessage .. | .frSwap .. | .softResetMessage .. => true
  | .hardResetReceived .. | .eprMode .. | .eprKeepalive .. | .enterUsb .. | .structuredVdm .. => true
  | .getRevision .. | .notSupported .. | .sendSrcCap .. | .psRdy .. | .getSinkCap .. => true
  | .vconnSwap .. | .softReset .. | .hardReset .. | .discover .. | .exitMode .. => true
  | .errorRecovery .. | .transitionTimeout .. | .eprSinkTimeout .. | .sourceCapabilitiesRepeat .. | .responseTimeout .. => true
  | .earlyWarning .. | .frsReturn .. => true
  | .sample frame => frameOk frame
  | .fastTrip .. | .forceTrip .. | .chEn .. | .offMet .. | .rampEnd .. => true
  | .rampTimeout .. | .energyClr .. => true
  | .deadBatterySinkClose ports => !ports.isEmpty && ports.all fun p => decide (p < 4)
  | .inputSwitchover => true
  | .pfwRelease => true
  | .extremes .. | .dozeEntry .. | .idleTimeout .. | .lowPowerEntryComplete .. | .domainReady .. => true
  | .wakeFail .. => true
  | .pwrPolicyWrite _ _ page _ => pageHere page
  | .dvfsTargetWrite .. | .dvfsDone .. | .shelfEnter .. | .bmcShelf .. => true
  | .shelfEntryComplete => true
  | .shelfWake .. | .monExt .. | .refSelect .. => true
  | .distLock => true
  | .distHold => true
  | .holdoverExpiry => true
  | .refFallback .. => true
  | .pllLock => true
  | .lockLoss => true
  | .muxSwitchComplete .. | .muxRescue .. | .domsrcWrite .. | .meterGo .. | .meterDone .. => true
  | .xingResync .. | .forcedGate .. => true
  | .ftimeWrap => true
  | .filter .. => true
  | .arbitrate => true
  | .claim .. | .complete .. | .stackReset .. | .dbSet .. | .dbClr .. => true
  | .extend .. | .derive .. | .generate .. | .gcmEnc .. | .gcmDec .. => true
  | .sign .. | .quote .. | .pubkey .. | .ecdh .. | .random .. => true
  | .clear .. | .provision .. | .endorse .. => true
  | .cmdDone => true
  | .measLock .. => true
  | .maskRewrite => true
  | .tamper .. => true
  | .entropyFail => true
  | .reseed => true
  | .tamperLock .. | .tlogClear .. => true
  | .syncWord _ _ w => syncOk w
  | .roundTrip .. => true
  | .leatLinkUp _ peer _ => decide (peer.id ≤ 3) && decide (peer.leat ≤ 1) && decide (peer.role ≤ 3)
  | .leatLinkDown .. | .cfgHashWrite .. => true
  | .hashGraceExpiry => true
  | .keySlotWrite .. | .roll .. | .frameCounterLimit .. => true
  | .leatFrameReceive _ _ pieces => pieces.all fun p => decide (p.hop < 2048) && packetsOk p.packets && decide (p.colour ≤ 2) && creditOk p.credit
  | .txGo _ _ len => decide (len < 1024)
  | .msgRx _ message => decide (message.length < 1024)
  | .por .. | .bor .. => true
  | .resetN => true
  | .wdtWarn => true
  | .wdt => true
  | .wdtKick .. | .wdtCtlWrite .. | .soft .. | .coreReset .. | .run .. => true
  | .boot .. | .loadStart .. | .loadData .. | .loadDone .. | .recoveryImage .. => true
  | .bistGo .. | .abort .. => true
  | .bistDone _ signatures => signatures.all fun e => decide (e.1 < 43) && decide (e.2 < 2 ^ 64)
  | .gpioEdge .. | .busGo .. | .busDone .. | .spiGo .. | .spiDone .. => true
  | .uartTx _ _ sent => decide (sent ≤ 16)
  | .uartReceive .. | .busRx .. | .spiRx .. | .uartRx .. | .bmcAccess .. => true
  | .attention .. | .discoveryResponse .. => true
  | .connectChange _ speed => decide (speed ≤ 3)
  | .classRequest _ q => classOkReq q
  | .isochronousPacket .. => true
  | .audLockLoss => true
  | .entropyRecovery => true
  | .distResume => true
  | .pathSetInvalid _ ingress hop => hopOk ingress hop
  | .enumerated .. | .sinkTxOk .. => true

end Sys2Proof
end

