-- ==== Sys2Proof/Tests/Slice0.lean ====
section
/-! SUPPORT. The smoke test of well-formedness, a witness for the hypotheses of every statement, and tests of one command each from
worked examples of the specification. -/

namespace Sys2Proof.Tests

open Sys2Proof Sys2Proof.Machine

set_option maxRecDepth 4000
set_option Elab.async false

/-- The machine after reset with some register fields at other values. -/
def withF (l : List (Fld × Nat)) : State :=
  { State.reset with hub := l.foldl (fun h e => h.fset e.1 e.2) Hub.reset }

/-- A state with its hub changed. -/
def onHubOf (s : State) (f : Hub → Hub) : State := { s with hub := f s.hub }

def m0 : Req := .miller 0

/-- Fields set in the live or staged copy and in the active copy alike. -/
def withA (l : List (Fld × Nat)) : State :=
  { State.reset with hub := l.foldl (fun h e => (h.fset e.1 e.2).aset e.1 e.2) Hub.reset }

/-! ## Witnesses: accesses, headers and slices -/

theorem witness_StepRunsFront : ∃ (c : Instr) (rest : List Instr) (s : State), s.pending = c :: rest :=
  ⟨.turnBoundary, [], { State.reset with pending := [.turnBoundary] }, rfl⟩

theorem witness_IdleTicks : ∃ s s' : State, (s.pending = [] ∧ timeRuns s.hub = true ∧ s.hub.power.shelf ≠ 2) ∧
    (s'.pending = [] ∧ timeRuns s'.hub = false) :=
  ⟨onHubOf State.reset fun h => { h with clock := { h.clock with shaft := 0xFF } }, State.reset, by decide +kernel⟩

theorem witness_StepKeepsInv : ∃ s t : State, Inv s ∧ step s = .next t :=
  ⟨State.reset, State.reset, rfl, rfl⟩

theorem witness_CommandsKeepQueueAndReel : ∃ (c : Instr) (s t : State), exec c s = .next t ∧ s.hub.stalled = [] ∧ c = .reseed :=
  ⟨.reseed, State.reset, _, rfl, rfl, rfl⟩

/-- For RegisterWriteStores, IntForceSetsEvents, CommitGoArms, OwnerWritePends and BlockResets: pages they speak of, with a write of each header word; no stalled access, no reset. -/
theorem witness_header_writes : pageAt (4096 * 0x50 + 0x14) = some (.sluice, 0, 4096 * 0x50) ∧
    (∀ off ∈ [0x14, 0x18, 0x20, 0x24, 0x28, 0x2C], Writes State.reset m0 (4096 * 0x50 + off)) ∧
    Kind.sluice.hasHeader = true ∧ Kind.sluice.shadowed = true := by
  unfold Writes Passes; decide +kernel

/-- COMMIT_GO on a page without shadow registers and on a PROJ page, armed and not; OWNER values that are allowed and not; a page that is
not reset yet, and one whose reset ends. -/
theorem witness_header_cases : pageAt (4096 * 0x0C + 0x20) = some (.miller, 0, 4096 * 0x0C) ∧ Kind.miller.shadowed = false ∧
    Writes State.reset m0 (4096 * 0x0C + 0x20) ∧
    pageAt (Page.proj 1 + 0x20) = some (.proj, 1, Page.proj 1) ∧ Writes State.reset m0 (Page.proj 1 + 0x20) ∧
    State.reset.hub.is (F.hdr_COMMIT_GO (Page.proj 1)) = false ∧
    (withF [(F.hdr_COMMIT_GO (Page.proj 1), 1)]).hub.is (F.hdr_COMMIT_GO (Page.proj 1)) = true ∧
    ownerWriteOk State.reset.hub (Page.link 4) 0x11 = true ∧ ownerWriteOk State.reset.hub (Page.link 4) 0x13 = false ∧
    Writes State.reset m0 (Page.link 4 + 0x28) ∧
    State.reset.hub.is (F.hdr_RESET_CTL_BLOCK_RESET (4096 * 0x50)) = false ∧ (State.reset.hub.dom (Kind.sluice.domain 0)).resetting = false ∧
    (withF [(F.hdr_RESET_CTL_BLOCK_RESET (Page.link 7), 1)]).hub.is (F.hdr_RESET_CTL_BLOCK_RESET (Page.link 7)) = true ∧
    State.reset.hub.ready (Kind.link.domain 7) = true ∧ (State.reset.hub.dom 28).state ≤ 1 ∧ (State.reset.hub.dom 28).entering = 0 ∧
    pageAt (Page.link 7) = some (.link, 7, Page.link 7) ∧ Kind.link.domain 7 = 28 ∧ Kind.hasHeader .link = true ∧
    Writes State.reset m0 (Page.link 7 + 0x2C) ∧ Writes State.reset m0 (Page.bist + 0x24) ∧
    State.reset.hub.is (F.hdr_RESET_CTL_BLOCK_RESET Page.bist) = false := by
  unfold Writes Passes; decide +kernel

theorem witness_PairsAreWhole : isPairLo .mill 0x100 = true ∧ pageAt (Page.mill + 0x100) = some (.mill, 0, Page.mill) ∧
    Reads State.reset m0 (Page.mill + 0x100) ∧ Writes State.reset m0 (Page.stats + 64 * 1023 + 8 * 6 + 4) ∧
    Writes State.reset m0 (Page.stats + 64 * 1023 + 8 * 6) ∧
    staged (setStaged State.reset.hub (Page.stats + 64 * 1023 + 8 * 6) m0 (some 255)) (Page.stats + 64 * 1023 + 8 * 6) m0 = some 255 ∧
    isPairHi .mill 0x104 = true ∧ pageAt (Page.mill + 0x104) = some (.mill, 0, Page.mill) ∧ Reads State.reset m0 (Page.mill + 0x104) ∧
    staged State.reset.hub (Page.stats + 64 * 1023 + 8 * 6) m0 = none := by
  unfold Reads Writes Passes; decide +kernel

/-- Accesses that wait for the domain of LINK7: a read and a write. -/
def waitFor28 (write : Bool) : Access := { windowAccess m0 (Page.link 7 + 0x40) 4 write 0 with await := .ready 28 }

/-- A read and a write that wait for the domain of LINK7, a read of the Reel window and one of the dock function that wait for theirs, and
one that only stands behind them. -/
def twoWait : State :=
  onHubOf State.reset fun h => { h with stalled := [waitFor28 false, waitFor28 true,
    { windowAccess m0 64 8 false 0 with reel := true, await := .ready 12 },
    { windowAccess (.slice 1) (Page.link 7 + 0x40) 4 false 0 with dock := true, await := .ready 28 }, windowAccess m0 (Page.link 7 + 0x40) 4 false 0] }

theorem witness_WakeTimeoutEnds : (∀ k ∈ [0, 1], ∃ a : Access, twoWait.hub.stalled[k]? = some a ∧ a.await = .ready 28 ∧
      a.write = decide (k = 1) ∧ a.reel = false ∧ a.dock = false ∧ a.size = 4) ∧
    (∃ a : Access, twoWait.hub.stalled[2]? = some a ∧ a.await = .ready 12 ∧ a.write = false ∧ a.reel = true) ∧
    (∃ a : Access, twoWait.hub.stalled[3]? = some a ∧ a.await = .ready 28 ∧ a.write = false ∧ a.reel = false ∧ a.dock = true ∧
      a.req = .slice 1 ∧ a.size = 4) ∧
    (∃ a : Access, twoWait.hub.stalled[4]? = some a ∧ ∀ d, a.await ≠ .ready d) ∧
    twoWait.hub.fget F.pstk_LOG_CTL_COUNT < 16 ∧
    16 ≤ (onHubOf twoWait fun h => h.fset F.pstk_LOG_CTL_COUNT 16).hub.fget F.pstk_LOG_CTL_COUNT :=
  ⟨fun k hk => by
      obtain rfl | rfl : k = 0 ∨ k = 1 := by simpa using hk
      · exact ⟨waitFor28 false, rfl, rfl, rfl, rfl, rfl, rfl⟩
      · exact ⟨waitFor28 true, rfl, rfl, rfl, rfl, rfl, rfl⟩,
    ⟨_, rfl, rfl, rfl, rfl⟩, ⟨_, rfl, rfl, rfl, rfl, rfl, rfl, rfl⟩, ⟨_, rfl, fun _ h => nomatch h⟩, by decide +kernel, by decide +kernel⟩

/-- A path from a slice's own host link to its Penstock. -/
def aPath : PathReq :=
  { slice := 0, ingress := 0, hop := 8, outlet := 22, outHop := 8, kind := .pcie, adapter := 0, prio := 3, weight := 16, mbps := 0 }

theorem witness_PathSetStagesEntry : tunnelKey aPath = none ∧ State.reset.hub.present .slice 0 = true ∧
    pointOfSlice State.reset.hub 0 0 = true ∧ pointOfSlice State.reset.hub 0 22 = true ∧
    ((aPath.kind = .dpOut ∨ aPath.kind = .dpAux) → aPath.outlet = 20 → (boundGate State.reset.hub 0 0).isSome = true) ∧
    quotaFull State.reset.hub 0 = false ∧ (freeEntry State.reset.hub).isSome = true ∧
    quotaFull (withF [(F.slice_PATH_QUOTA_QUOTA 0, 0)]).hub 0 = true := by decide +kernel

/-- Path 1 of slice 0 from ingress 0, hop 8. -/
def onePath : State :=
  onHubOf (withF [(F.path_CTL_IN_OUTLET 1, 0), (F.path_CTL_IN_HOP 1, 8), (F.path_CTL_VALID 1, 1)]) fun h =>
    { h with cmPaths := [(1, some ⟨0, .pcie, 0, true⟩)] }

/-- The PCIe and the USB3 tunnel of slice 0 at hop 8. -/
def tunnelled : State :=
  onHubOf State.reset fun h => setTunnel (setTunnel h 0 (some (8, 9, 16))) 1 (some (8, 9, 16))

theorem witness_PathWeightAndRemoval : cmPathAt onePath.hub 0 8 = some 1 ∧ cmPath onePath.hub 1 = some ⟨0, .pcie, 0, true⟩ ∧
    tunnelKey { aPath with ingress := 22, outlet := 0 } = some 0 ∧ State.reset.hub.present .slice 0 = true ∧
    tunnelKey { aPath with kind := .usb3, ingress := 23, outlet := 0 } = some 1 ∧
    (∀ k ∈ [0, 1], (tunnel tunnelled.hub k).map (·.1) = some 8) ∧ tunnel tunnelled.hub 0 = some (8, 9, 16) ∧
    (tunnel tunnelled.hub 0).map (·.1) ≠ some 9 ∧ cmPathAt onePath.hub 0 8 = some 1 ∧ (1 : Nat) < 1024 := by decide +kernel

theorem witness_AsymmetricOnlyWhenAllowed :
    (withF [(F.link_LINK_CTL_ALLOW_ASYM 4, 0)]).hub.is (F.link_LINK_CTL_ALLOW_ASYM 4) = false ∧
    (withF [(F.link_LINK_CTL_MAX_GEN 4, 1)]).hub.fget (F.link_LINK_CTL_MAX_GEN 4) < 2 ∧
    ∃ h, h = (withF [(F.link_LINK_STATUS_MODE 4, 1), (F.link_LINK_STATUS_LSTATE 4, 2)]).hub ∧ h.is (F.link_LINK_CTL_ALLOW_ASYM 4) = true ∧
      2 ≤ h.fget (F.link_LINK_CTL_MAX_GEN 4) ∧ busPowered h = false ∧ h.present .link 4 = true ∧ linkUp h 4 = true ∧
      1 ≤ h.fget (F.link_LINK_STATUS_MODE 4) ∧ h.fget (F.link_LINK_STATUS_MODE 4) ≤ 3 := by
  refine ⟨by decide +kernel, by decide +kernel, _, rfl, ?_⟩; decide +kernel

/-- Slice 2 owns LINK7, D3 (unit 3) and its drive; its host link is up in USB4 mode. -/
def owned : State :=
  withF [(F.hdr_OWNER_SLICES (Page.slice 2), 4), (F.hdr_OWNER_SLICES (Page.link 7), 4), (F.hdr_OWNER_SLICES (Page.pciedn 0), 4), (F.link_LINK_STATUS_MODE 2, 1),
    (F.link_LINK_STATUS_LSTATE 2, 2), (F.link_LINK_STATUS_MODE 7, 1), (F.link_LINK_STATUS_LSTATE 7, 2)]

theorem witness_LinkStates : Writes State.reset m0 (A.link_LINK_CTL 7) ∧ State.reset.hub.present .link 7 = true ∧
    State.reset.hub.fget (F.link_LINK_STATUS_LSTATE 7) ≠ 6 ∧ dpMode (State.reset.hub.fget (F.link_LINK_STATUS_MODE 7)) = false ∧
    State.reset.hub.is (F.link_LINK_CTL_RETRAIN 7) = false ∧ linkUp owned.hub 7 = true ∧
    (4 ≤ 7 → unitParked owned.hub 3 = false ∧ lstate owned.hub 7 ≠ 6 ∧ (owned.hub.unitSt 3).hold = false) ∧
    [1, 2, 3, 4, 5, 8].contains (clampMode owned.hub 7 6) = false ∧ owned.hub.listens (21 + 7) = true ∧
    (onHubOf owned fun h => h.setDom 28 ⟨2, false, 0, 0, 0, 0, false⟩).hub.listens (21 + 7) = false ∧
    lstate owned.hub 7 ≠ 0 ∧ dpMode (owned.hub.fget (F.link_LINK_STATUS_MODE 7)) = false ∧
    lstate owned.hub 2 ≠ 0 ∧ lstate owned.hub 2 ≠ 6 ∧ usb4Mode (owned.hub.fget (F.link_LINK_STATUS_MODE 2)) = true := by
  unfold Writes Passes; decide +kernel

/-- LINK7 as its last training allowed CL1. -/
def idling : State := onHubOf owned fun h => { h with linkAllow := [(7, 2)] }

theorem witness_LinkReports : idling.hub.present .link 7 = true ∧ linkUp idling.hub 7 = true ∧
    usb4Mode (idling.hub.fget (F.link_LINK_STATUS_MODE 7)) = true ∧ (Tbl.get (fun _ => 0) idling.hub.linkAllow 7).testBit 1 = true ∧
    [1, 2, 3, 4, 5, 8].contains (clampMode idling.hub 7 1) = true ∧ lowNow idling.hub 3 = false ∧
    dpMode (idling.hub.fget (F.link_LINK_STATUS_MODE 7)) = false := by decide +kernel

theorem witness_UnitsReleaseAndAttach : Writes owned m0 (A.slice_RELEASE 2) ∧ Writes owned m0 (A.slice_ATTACH 2) ∧
    unitPresent owned.hub 3 = true ∧ unitOwned owned.hub 3 2 = true ∧ unitOwned owned.hub 4 2 = false ∧
    unitPresent (onHubOf owned fun h => { h with otp := { h.otp with variant := 3 } }).hub 6 = false ∧
    owned.hub.bit (F.slice_RELEASE_UNITS 2) 3 = false ∧ owned.hub.bit (F.slice_RELEASED_UNITS 2) 3 = false ∧
    (withF [(F.slice_RELEASE_UNITS 2, 8)]).hub.bit (F.slice_RELEASE_UNITS 2) 3 = true ∧
    owned.hub.is (F.hdr_OWNER_PENDING (unitPage 3)) = false ∧
    (withF [(F.hdr_OWNER_PENDING (unitPage 3), 1)]).hub.is (F.hdr_OWNER_PENDING (unitPage 3)) = true ∧
    unitOwner owned.hub 3 = some 2 := by
  unfold Writes Passes; decide +kernel

/-- D3 in its disconnect hold, with an attach that waits for its end. -/
def inHold : State := onHubOf owned fun h => h.setUnit 3 { hold := true, train := true, relAt := 0, attaching := true }

theorem witness_HoldEnds : (inHold.hub.unitSt 3).hold = true ∧ (inHold.hub.unitSt 3).attaching = true ∧
    unitOwner inHold.hub 3 = some 2 := by decide +kernel

theorem witness_SliceResets : State.reset.hub.present .slice 3 = true ∧ Writes State.reset m0 (A.slice_SLICE_CTL 3) ∧
    State.reset.hub.is (F.slice_SLICE_CTL_SLICE_RESET 3) = false ∧ State.reset.hub.boot.phase ≠ 4 ∧
    (withF [(F.slice_STATUS_ROUTER 3, 6)]).hub.fget (F.slice_STATUS_ROUTER 3) = 6 := by
  unfold Writes Passes; decide +kernel

/-- The bus-powered profile is wanted: the sink Weir of H0 is closed and no contract holds. -/
def sinkOnly : State := onHubOf (withF [(F.typec_STATUS_TC_STATE 0, 3), (F.weir_STATUS_PATH 0, 2), (F.weir_STATUS_STATE 0, 2)]) id

theorem witness_BindingsRouterAndProfile : Writes State.reset m0 (A.slice_DP_OUT_BIND 1) ∧ Writes State.reset m0 (A.slice_DP_IN_SRC 1) ∧
    (withF [(F.slice_STATUS_ROUTER 1, 2)]).hub.fget (F.slice_STATUS_ROUTER 1) = 2 ∧ State.reset.hub.fget (F.slice_STATUS_ROUTER 1) ≠ 2 ∧
    profileWanted sinkOnly.hub = true ∧ busPowered sinkOnly.hub = false := by
  unfold Writes Passes; decide +kernel

/-! ## Witnesses: Millrace, queue service and turns -/

/-- Path 1 from LINK4 (ingress 4, hop 8) to outlet 5, CREDITED, and path 2 from ingress 5 to outlet 4, LOSSY. -/
def twoPaths : State :=
  withA [(F.path_CTL_VALID 1, 1), (F.path_CTL_IN_OUTLET 1, 4), (F.path_CTL_IN_HOP 1, 8), (F.path_CTL_MODE 1, 1), (F.path_CTL_CLASS 1, 2),
    (F.path_ROUTE_OUT_OUTLET 1, 5), (F.path_SHAPE_WEIGHT 1, 16), (F.path_CTL_VALID 2, 1), (F.path_CTL_IN_OUTLET 2, 5), (F.path_CTL_IN_HOP 2, 9),
    (F.path_CTL_CLASS 2, 2), (F.path_ROUTE_OUT_OUTLET 2, 4), (F.path_SHAPE_WEIGHT 2, 16), (F.link_CAP_CAP_TX 5, 1200)]

def aChain (hop : Nat) (credit : Option Nat) (closed : Bool) : FbChain :=
  { hop := hop, packets := [[1]], closed := closed, bad := false, colour := 0, credit := credit, entryPort := 8, taken := 0
    fate := .waiting }

/-- Chains wait at a Forebay. -/
def atForebay (s : State) (i : Nat) (l : List FbChain) : State := onHubOf s fun h => h.setForebay i { h.forebay i with chains := l }

/-- The Forebay of ingress 5 holds a chain of 221 packets of a LOSSY path: no 9,216 bytes are free. -/
def fullForebay : State := atForebay twoPaths 5 [{ aChain 9 none true with packets := List.replicate 221 (List.replicate 256 1) }]

/-- Head 0 is on. -/
def headRuns : State := withA [(F.proj_CTL_EN 0, 1)]

theorem witness_ChainArrivals : ingressOk twoPaths.hub 4 = true ∧ (wakeIngress twoPaths.hub 4).forebay 4 = ⟨[], 0, 0⟩ ∧
    ((wakeIngress twoPaths.hub 4).half 8).flush = false ∧ keyLossy (wakeIngress twoPaths.hub 5) 5 9 = true ∧
    fbRoom (wakeIngress twoPaths.hub 5) 5 = true ∧ ((none : Option Nat).filter fun p => decide (1 ≤ twoPaths.hub.credOn p 5)) = none ∧
    (wakeIngress (atForebay twoPaths 4 [aChain 8 none false]).hub 4).forebay 4 = ⟨[aChain 8 none false], 0, 0⟩ ∧
    (aChain 8 none false).fate ≠ .refused ∧ ((wakeIngress fullForebay.hub 5).forebay 5).chains.all (·.closed) = true ∧
    ((wakeIngress fullForebay.hub 5).half 10).flush = false ∧ fbRoom (wakeIngress fullForebay.hub 5) 5 = false ∧
    ingressOk headRuns.hub 20 = true ∧ headSends headRuns.hub 0 = true ∧ headSends headRuns.hub 1 = false := by and_intros <;> decide +kernel

/-- Gate 1 is bound to path 1, and DISABLED. -/
def gatePath : State := withA [(F.path_CTL_VALID 1, 1), (F.gate_BIND_BOUND 1, 1), (F.gate_BIND_PATH 1, 1)]

theorem witness_AdmissionAndCredits : (atForebay twoPaths 4 [aChain 8 (some 1) true]).hub.ready 3 = true ∧
    ((atForebay twoPaths 4 [aChain 8 (some 1) true]).hub.forebay 4).chains = [aChain 8 (some 1) true] ∧
    lookup (atForebay twoPaths 4 [aChain 8 (some 1) true]).hub 4 8 = some 1 ∧ lookup twoPaths.hub 4 7 = none ∧
    (aChain 8 (some 1) true).packets ≠ [] ∧ (allocCell (atForebay twoPaths 4 [aChain 8 (some 1) true]).hub).isSome = true ∧ (atForebay twoPaths 4 [aChain 8 (some 1) true]).hub.chain twoPaths.hub.nextChain = none ∧
    releasingPath twoPaths.hub 1 = false ∧ pathTargets twoPaths.hub 1 8 ≠ [] ∧ runLossy twoPaths.hub 1 = false ∧
    twoPaths.hub.aget (F.path_ROUTE_POLICE_PROFILE 1) = 0 ∧
    releasingPath (onHubOf twoPaths fun h => h.fset (F.slice_RELEASE_UNITS 0) 1).hub 1 = true ∧
    twoPaths.hub.ais (F.path_CTL_VALID 1) = true ∧ gateWithholds twoPaths.hub 1 = false ∧ creditWithheld twoPaths.hub 1 = false ∧
    gateWithholds gatePath.hub 1 = true ∧ twoPaths.hub.ais (F.path_CTL_VALID 3) = false ∧
    twoPaths.hub.fget (F.path_QUEUE_QUEUED 1) + twoPaths.hub.fget (F.path_CREDIT_CRED_OUT 1) < credWindow twoPaths.hub 1 ∧
    fbOcc (twoPaths.hub.forebay (twoPaths.hub.aget (F.path_CTL_IN_OUTLET 1))) + 9216 +
      256 * (creditsOn twoPaths.hub (twoPaths.hub.aget (F.path_CTL_IN_OUTLET 1)) + 1) ≤ 65536 ∧
    (twoPaths.hub.half (2 * twoPaths.hub.aget (F.path_CTL_IN_OUTLET 1))).flush = false ∧ freeCells twoPaths.hub ≠ 0 ∧
    freeCells (onHubOf twoPaths fun h => (List.range 8).foldl (fun h g => h.setDom (4 + g) ⟨2, false, 0, 0, 0, 0, false⟩) h).hub = 0 := by and_intros <;> decide +kernel

def aCell : HCell := ⟨0, [1], false, false, false⟩

/-- A copy toward outlet 5, not yet started. -/
def aCopy : Copy :=
  { outlet := 5, hop := 3, sent := 0, departed := 0, cut := false, held := false, endNext := false, whole := true, closed := false, done := false
    ended := false }

/-- A chain of path 1 in the Hopper. -/
def aStored : Chain :=
  { id := 0, path := 1, ingress := 4, hop := 8, entryPort := 8, lossy := false, colour := 0, profile := 0, buckets := 0, cells := [aCell]
    complete := true, tailmark := false, room := 0, wred := 0, lost := [], copies := [aCopy] }

/-- It is queued for outlet 5. -/
def queued : State :=
  onHubOf twoPaths fun h => { h with chains := [aStored], nextChain := 1 }.setFlow 1 5 { flow0 with live := true, queue := [0], tokens := 10 }

def queuedEntry : XEntry :=
  { chain := 0, path := 1, hop := 3, ingress := 4, inHop := 8, lossy := false, bytes := [1], last := true, marked := true }

/-- A packet of a head's stream. -/
def headEntry (head : Nat) : XEntry := { queuedEntry with ingress := 20, inHop := head }

/-- What an outlet selects from. -/
def selecting (s : State) (o : Nat) : Hub := (refreshOutlet s.hub o).setOutlet o { (refreshOutlet s.hub o).outlet o with dead := false }

/-- The link of outlet 5 is in NAP. -/
def asleep : State := onHubOf queued fun h => h.setDom 26 { h.dom 26 with state := 2 }

theorem witness_OutletSelectReadsCell : (queued.hub.half 11).flush = false ∧ ((refreshOutlet queued.hub 5).half 11).flush = false ∧
    (refreshOutlet queued.hub 5).outletOk 5 = true ∧ (unitCap (refreshOutlet queued.hub 5) 5).1 ≠ 0 ∧
    ((selecting queued 5).outlet 5).busy = none ∧ select (selecting queued 5) 5 = some 1 ∧ ((selecting queued 5).flow 1 5).queue = [0] ∧
    copyAsleep (selecting queued 5) 1 5 = false ∧ (selecting queued 5).chain 0 = some aStored ∧
    aStored.copies.find? (fun k => k.outlet == 5 && !k.closed) = some aCopy ∧ aStored.cells[aCopy.sent]? = some aCell ∧
    linkFails (storedLink (selecting queued 5) aStored aCopy.sent aCell) = false ∧
    select (selecting asleep 5) 5 = some 1 ∧ copyAsleep (selecting asleep 5) 1 5 = true := by
  rw [linkFails_stored]; and_intros <;> decide +kernel

/-- The same chain toward ETH0. -/
def toEth : Chain := { aStored with copies := [{ aCopy with outlet := 14 }] }

theorem witness_DeparturesAndCuts :
    (onHubOf queued fun h => { h with txq := Tbl.put (fun _ => []) h.txq 5 [queuedEntry] }).hub.txEntries 5 = [queuedEntry] ∧
    shortPort queued.hub queuedEntry 5 = none ∧ portSilent queued.hub queuedEntry 5 = false ∧
    shortPort (withF [(F.proj_PORT_STAT_SHORT 2, 2)]).hub (headEntry 2) 5 = some 2 ∧
    portSilent (withF [(F.proj_OUT_PORTS 2, 2)]).hub { headEntry 2 with lossy := true } 5 = true ∧
    queuedEntry.path < 1024 ∧ queued.hub.chain queuedEntry.chain = some aStored ∧ aStored.path = queuedEntry.path ∧
    { queuedEntry with marked := false }.marked = false ∧ { aStored with complete := false }.complete = false ∧
    ((onHubOf queued fun h => h.setOutlet 14 { h.outlet 14 with busy := some 0 }).hub.outlet 14).busy = some 0 ∧
    ((onHubOf queued fun h => { h with chains := [toEth] }).hub.chain 0).map (·.id) = some 0 ∧
    toEth.copies.find? (fun k => k.outlet == 14 && !k.closed) = some { aCopy with outlet := 14 } ∧ toEth.path < 1024 ∧
    0 < toEth.cells.length ∧ { toEth with cells := [] }.cells.length ≤ 0 := by and_intros <;> decide +kernel

theorem witness_HopperUpkeep : queued.hub.fget F.hopper_SCRUB_PERIOD_MS ≠ 0 ∧
    queued.hub.chains.find? (fun c => c.cells.any (·.num == 0)) = some aStored ∧ aStored.cells.find? (·.num == 0) = some aCell ∧
    (∀ single ∈ [false, true], { aCell with single := single }.single = single ∧ { aCell with double := single }.double = single) ∧ (activeGroups queued.hub).testBit (0 / 12288) = true ∧
    (activeGroups (withF [(F.hopper_GROUPS_ACTIVE, 1)]).hub).testBit (12288 / 12288) = false ∧
    (∀ a ∈ [A.hopper_AUDIT, A.hopper_INJECT, A.hopper_GROUPS], Writes State.reset m0 a) ∧
    (withF [(F.hopper_AUDIT_BUSY, 1)]).hub.is F.hopper_AUDIT_BUSY = true := by
  unfold Writes Passes; and_intros <;> decide +kernel

theorem witness_TableWritesAreStaged :
    (∀ a ∈ [Page.path, Page.path + 64 * 1023 + 60, Page.mcast, Page.mcast + 16 * 255 + 12, Page.wred, Page.wred + 256 * 15, Page.policer,
      Page.policer + 64 * 63], Writes State.reset m0 a) ∧
    WritesLong State.reset m0 Page.stats ∧ WritesLong State.reset m0 (Page.stats + 64 * 1023 + 48) := by
  unfold WritesLong Writes Passes; and_intros <;> decide +kernel

theorem witness_MarksRestartOnRead : ∀ a ∈ [A.mill_FOREBAY_HWM, A.hopper_FREE_LWM, A.sluice_COMPUTE_MAX, A.sluiceOut_DEPTH_HWM 0,
    A.sluiceOut_DEPTH_HWM 23], Reads State.reset m0 a := by
  unfold Reads Passes; decide +kernel

/-- A turn is open: its refill point is due, and the computation runs or has ended. -/
def openTurn (computed run : Bool) : State :=
  onHubOf (withF [(F.sluice_CTL_RUN, if run then 1 else 0)]) fun h => { h with turn := ⟨some 0, true, !computed, computed, true, 640, false⟩ }

theorem witness_TurnsGoOn : State.reset.hub.power.shelf ≠ 2 ∧ (State.reset.hub.dom 3).state ≤ 1 ∧
    2 ≤ ((applyOwners (advanceTo (State.reset.hub.setDom 3 ⟨2, false, 0, 0, 0, 0, false⟩) 8000)).dom 3).state ∧
    (openTurn false true).hub.turn.computing = true ∧ (openTurn false true).hub.turn.computed = false ∧
    (openTurn false true).hub.turn.refillPending = true ∧
    ((openTurn false true).hub.dom 3).state ≤ 1 ∧ (openTurn false true).hub.is F.sluice_CTL_RUN = true ∧
    (openTurn false true).hub.turn.began = true ∧ State.reset.hub.turn.began = false ∧ (openTurn true true).hub.turn.computed = true ∧ (openTurn true false).hub.is F.sluice_CTL_RUN = false := by
  and_intros <;> decide +kernel

theorem witness_PhaseTokensAndPauses : Writes State.reset m0 A.sluice_TURN_PHASE ∧
    State.reset.hub.fget F.fabric_STATE_ROLE_NOW ≠ 2 ∧ 7999 % 8192 < 8000 ∧ 8000 ≤ 8000 % 8192 ∧
    (withF [(F.fabric_STATE_ROLE_NOW, 2)]).hub.fget F.fabric_STATE_ROLE_NOW = 2 ∧
    ((onHubOf State.reset fun h => h.setFlow 1 5 { flow0 with live := true, acc := 2048000 }).hub.flow 1 5).live = true ∧
    2048000 ≤ ((onHubOf State.reset fun h => h.setFlow 1 5 { flow0 with live := true, acc := 2048000 }).hub.flow 1 5).acc ∧
    2048000 ≤ ((onHubOf State.reset fun h => h.setCls 23 1 { h.cls 23 1 with acc := 2048000 }).hub.cls 23 1).acc ∧
    (withF [(F.ethmac_PFC_CTL_HONOUR 1, 0)]).hub.is (F.ethmac_PFC_CTL_HONOUR 1) = false ∧
    State.reset.hub.is (F.ethmac_PFC_CTL_HONOUR 1) = true ∧
    (onHubOf State.reset fun h => { h with net := { h.net with pauseAll := 2 } }).hub.net.pauseAll.testBit 1 = true ∧
    State.reset.hub.net.pauseAll.testBit 1 = false := by
  unfold Writes Passes; and_intros <;> decide +kernel

/-! ## Witnesses: Gates, Reel memory, Penstock and Tally -/

/-- Gate 1 in a state of its machine, with its HPD high, and an active image of 1920 by 1080. -/
def gateIn (n : Nat) : State :=
  onHubOf (withF [(F.gate_CTL_EN 1, 1), (F.gate_STATUS_STATE 1, n)]) fun h => h.setGate 1 { gate0 with hpd := true }

def anMsa (w : Nat) : Msa :=
  { h := w, v := 1080, colour := 0, bpc := 1, dscBpp := 0, slices := 1, kpps := 148500, mbps := 3600, matrix := 0 }

theorem witness_GateEnableAndHpd : Writes State.reset m0 (A.gate_CTL 1) ∧ Writes State.reset m0 (A.gate_EDID_CTL 1) ∧
    State.reset.hub.is (F.gate_CTL_EN 1) = false ∧ (gateIn 1).hub.is (F.gate_CTL_EN 1) = true ∧
    takesOk State.reset.hub 1 = false ∧
    takesOk (withF [(F.gate_TAKE_BASE_PAGE 1 1, 10000), (F.gate_TAKE_BASE_PAGE 1 2, 20000)]).hub 1 = true ∧
    State.reset.hub.is (F.gate_EDID_CTL_VALID 1) = false ∧ ((gateIn 1).hub.gateSt 1).hpd = true ∧
    ((onHubOf State.reset fun h => h.setGate 1 { gate0 with pulse := true }).hub.gateSt 1).pulse = true := by
  unfold Writes Passes; and_intros <;> decide +kernel

theorem witness_GateAuxAndTraining : gateState (gateIn 1).hub 1 ≠ 0 ∧ gateState (gateIn 1).hub 1 ≤ 2 ∧ ((gateIn 1).hub.gateSt 1).hpd = true ∧
    6 ≤ gateMaxRate (gateIn 1).hub 1 ∧ 4 ≤ lanesOf ((gateIn 1).hub.fget (F.gate_DP_CAP_LANES 1)) := by and_intros <;> decide +kernel

theorem witness_GateStreams : gateState (gateIn 2).hub 1 = 2 ∧ streamFits (gateIn 2).hub 1 (anMsa 1920) = true ∧
    streamFits (gateIn 2).hub 1 (anMsa 639) = false ∧ (gateIn 2).hub.is (F.gate_CTL_BW_AUTO 1) = true ∧
    (withF [(F.gate_CTL_BW_AUTO 1, 0)]).hub.is (F.gate_CTL_BW_AUTO 1) = false ∧ 3 ≤ gateState (gateIn 5).hub 1 ∧
    gateState (gateIn 3).hub 1 = 3 ∧ (gateIn 3).hub.is (F.gate_CTL_PR_CAP 1) = true ∧ gateState (gateIn 4).hub 1 = 4 ∧
    (withF [(F.gate_BW_IDLE_MS 1, 100)]).hub.fget (F.gate_BW_IDLE_MS 1) ≠ 0 ∧
    (withF [(F.gate_BIND_BOUND 1, 1)]).hub.is (F.gate_BIND_BOUND 1) = true ∧ State.reset.hub.is (F.gate_BIND_BOUND 1) = false := by
  and_intros <;> decide +kernel

/-- Two Projectors hold the two takes of Gate 1 that are not the newest: no take is free. -/
def noTake : State :=
  onHubOf (withA [(F.proj_PSRC_KIND 0 0, 2), (F.proj_PSRC_KIND 1 0, 2)]) fun h =>
    [(F.gate_STATUS_STATE 1, 3), (F.gate_STATUS_NEWEST_VALID 1, 1), (F.gate_STATUS_NEWEST 1, 0), (F.proj_LATCHED_VALID 0 0, 1),
      (F.proj_LATCHED_TAKE 0 0, 1), (F.proj_LATCHED_VALID 1 0, 1), (F.proj_LATCHED_TAKE 1 0, 2)].foldl (fun h e => h.fset e.1 e.2) h

/-- Gate 1 STATIC, with bands of take 0 dirty, and pixels of band 0 that wait for the catch-up. -/
def dirtyGate (wait : Bool) : State :=
  onHubOf (withF [(F.gate_STATUS_STATE 1, 4), (F.gate_STATUS_NEWEST_VALID 1, 1), (F.gate_STATUS_NEWEST 1, 1), (F.gate_FRAME_SIZE_H 1, 64),
    (F.gate_FRAME_SIZE_V 1, 64)]) fun h => h.setGate 1 { gate0 with
      dirty := [1, 0, 0, 0], frame := some ⟨true, 1, crcStart, []⟩, stalled := if wait then [⟨0, 0, 1, [2], [3]⟩] else [] }

theorem witness_FramesAndTakes : frameFits (gateIn 3).hub 1 false = true ∧ ((gateIn 3).hub.gateSt 1).frame = none ∧
    ((gateIn 3).hub.gateSt 1).stalled = [] ∧
    frameFits (onHubOf (gateIn 4) fun h => h.fset (F.gate_CTL_SU_CAP 1) 1).hub 1 true = true ∧
    chooseTake (gateIn 3).hub 1 (allowedTakes (gateIn 3).hub 1) = some 0 ∧ frameFits noTake.hub 1 false = true ∧ allowedTakes noTake.hub 1 = [] ∧
    (bandsDue (dirtyGate true).hub 1 ((dirtyGate true).hub.gateSt 1).stalled).isEmpty = false ∧ (dirtyGate true).hub.domOn 12 = true ∧
    bandsDue (dirtyGate false).hub 1 ((dirtyGate false).hub.gateSt 1).stalled = [] ∧
    chooseTake (dirtyGate false).hub 1 (catchUpTakes (dirtyGate false).hub 1) = some 0 ∧
    firstDirty (dirtyOf ((dirtyGate false).hub.gateSt 1) 0) = some 0 ∧
    ((onHubOf (gateIn 3) fun h => h.setGate 1 { gate0 with frame := some ⟨false, 0, crcStart, []⟩ }).hub.gateSt 1).frame.isSome = true ∧
    gateState (gateIn 4).hub 1 = 4 ∧ (withF [(F.gate_STATUS_NEWEST_VALID 1, 1)]).hub.is (F.gate_STATUS_NEWEST_VALID 1) = true ∧
    firstDirty (dirtyOf { gate0 with dirty := [0, 0, 8, 0] } 2) = some 3 := by and_intros <;> decide +kernel

theorem witness_ReelUpkeep : State.reset.hub.fget F.reel_SCRUB_PERIOD_S ≠ 0 ∧ Writes State.reset m0 A.reel_INJECT ∧
    Reads State.reset m0 A.reel_UTIL_HWM := by
  unfold Reads Writes Passes; and_intros <;> decide +kernel

theorem witness_ChecksEndAccesses : State.reset.hub.power.shelf ≠ 2 ∧ State.reset.hub.stalled = [] ∧ pageAt 0xFFFFF000 = none ∧
    endsBist (windowAccess (.slice 1) 0xFFFFF000 4 true 0) = false ∧ completionRoom State.reset.hub (windowAccess (.slice 1) 0xFFFFF000 4 false 0) 1 = true ∧
    pageAt (A.misc_SPI_CMD) = some (.misc, 0, Page.misc) ∧ nicForeign (.slice 1) .misc 0 = false ∧ State.reset.hub.present .misc 0 = true ∧
    ownerOk State.reset.hub (.slice 1) .misc Page.misc (A.misc_SPI_CMD - Page.misc) true = false ∧
    ownerOk State.reset.hub (.slice 1) .misc Page.misc (A.misc_SPI_CMD - Page.misc) false = false ∧
    (onHubOf State.reset fun h => { h with otp := { h.otp with variant := 3 } }).hub.present .gate 2 = false ∧
    pageAt (A.gate_CTL 2) = some (.gate, 2, Page.gate 2) := by and_intros <;> decide +kernel

theorem witness_ReelWindowMovesBytes : narrow (.slice 1) = false ∧ State.reset.hub.present .reel 0 = true ∧ State.reset.hub.ready 12 = true ∧
    State.reset.hub.reelBad = [] ∧ (State.reset.hub.penSt 1).streams = [] ∧ (2 ^ 32 - 4) + 4 ≤ 2 ^ 32 ∧ 2 ^ 32 < (2 ^ 32 - 3) + 4 ∧
    State.reset.hub.is F.reel_INJECT_DOUBLE = false ∧
    mayAnswer State.reset.hub { windowAccess (.slice 1) (2 ^ 32 - 4) 4 false 0 with reel := true } = true := by and_intros <;> decide +kernel

theorem witness_FunctionResetsAndLog : twoWait.hub.domOn 28 = true ∧ twoWait.hub.stalled[0]? = some (waitFor28 false) ∧
    twoWait.hub.stalled[1]? = some (waitFor28 true) ∧ Writes State.reset m0 A.pstk_LOG_CTL := by
  unfold Writes Passes; and_intros <;> decide +kernel

/-- A descriptor fetch of ring 1 of slice 2's NIC waits for 8 bytes. -/
def reading (len : Nat) : State :=
  onHubOf State.reset fun h => { h.setPen 2 ⟨[], [], [⟨1, 0, 8, []⟩], []⟩ with
    net := { h.net with fetch := Tbl.put (fun _ => none) h.net.fetch 9 (some ⟨0x1000, len, len, []⟩) } }

theorem witness_OutboundReads : ((reading 8).hub.penSt 2).reads[0]? = some ⟨1, 0, 8, []⟩ ∧
    ([] ++ [(1 : Byte)]).length < 8 ∧ fetchOf (reading 8).hub 2 1 = some ⟨0x1000, 8, 8, []⟩ ∧
    fetchOf (onHubOf State.reset fun h => h.setPen 2 ⟨[], [], [⟨1, 0, 8, []⟩], []⟩).hub 2 1 = none ∧
    readSent ((reading 8).hub.penSt 2) 0 = true ∧ readSent { (reading 8).hub.penSt 2 with outq := [.read 1 0 8] } 0 = false ∧
    8 ≤ ((Tbl.ins ([] : Tbl Bytes) 0 (([] ++ List.replicate 8 (1 : Byte)).take 8)).flatMap (·.2)).length := by
  and_intros <;> decide +kernel

/-- Tally word 7 samples CHIP.WDT_CTL, word 8 is written by the Millers, and word 9 follows event 5; each goes to slot 3 of this hub. -/
def words : State :=
  withF [(F.tallyTab_MAP_CTL_KIND 7, 1), (F.tallyTab_MAP_SRC_ADDR 7, A.chip_WDT_CTL), (F.tallyTab_MAP_CTL_SLOT 7, 3),
    (F.tallyTab_MAP_CTL_KIND 8, 2), (F.tallyTab_MAP_RATE_WRITERS 8, 16), (F.tallyTab_MAP_VALUE_VALUE 8, 5), (F.tallyTab_MAP_CTL_KIND 9, 3),
    (F.tallyTab_MAP_CTL_EVENT_ID 9, 5), (F.tallyTab_ROUTE_KEY_EN 4, 1), (F.tallyTab_ROUTE_KEY_MASK 4, 0xFFF), (F.tallyTab_ROUTE_KEY_MATCH 4, 6)]

/-- Hub 1 of a fabric reaches hub 2 over LEAT1. -/
def inFabric : State :=
  withF [(F.fabric_STRAP_ROLE, 1), (F.fabric_STRAP_ID, 1), (F.fabric_ROUTE_NEXT 2, 2), (F.leat_STATUS_LSTATE 1, 3), (F.leat_STATUS_LSTATE 0, 3),
    (F.tallyTab_MAP_CTL_KIND 8, 2), (F.tallyTab_MAP_VALUE_VALUE 8, 5), (F.tallyTab_MAP_CTL_HUB 8, 2)]

def anEvent : TEvent := ⟨6, 1, 0, 0⟩

theorem witness_TallyWordsAndEvents : words.hub.is F.tally_CTL_EN = true ∧ wordOn words.hub 7 = true ∧
    words.hub.fget (F.tallyTab_MAP_CTL_KIND 7) = 1 ∧ sampleOk words.hub 7 = some (.chip, 0, A.chip_WDT_CTL) ∧ words.hub.present .chip 0 = true ∧
    ownerPasses words.hub (.miller 0) (A.chip_WDT_CTL / 0x1000 * 0x1000) = true ∧ words.hub.domOn (Kind.chip.domain 0) = true ∧
    (words.hub.dom (Kind.chip.domain 0)).resetting = false ∧
    sampleOk (withF [(F.tallyTab_MAP_CTL_KIND 7, 1), (F.tallyTab_MAP_SRC_ADDR 7, 0)]).hub 7 = none ∧
    Writes words m0 (A.tally_WORD 8) ∧ wordWriter words.hub m0 8 = true ∧ wordWriter words.hub m0 7 = false ∧
    Writes words m0 (A.tally_WORD 7) ∧ wordOn words.hub 8 = true ∧
    words.hub.fget (F.tallyTab_MAP_VALUE_VALUE 8) ≠ lastSent words.hub 8 ∧ words.hub.fget (F.tallyTab_MAP_CTL_HUB 8) = hubNumber words.hub ∧
    inFabric.hub.fget (F.tallyTab_MAP_CTL_HUB 8) ≠ hubNumber inFabric.hub ∧ routeTo inFabric.hub 2 = some 1 ∧
    eventWords words.hub 6 = [] ∧ eventWords words.hub 5 = [9] ∧ Writes words m0 A.tally_EVENT_RAISE ∧ routeEntry words.hub 7 = none ∧
    routeEntry words.hub 6 = some 4 ∧ (inbox State.reset.hub 5).length < 16 ∧
    16 ≤ (inbox (setInbox State.reset.hub 5 (List.replicate 16 anEvent)) 5).length ∧ Reads State.reset m0 (A.tally_INBOX 0) ∧
    Reads State.reset m0 (A.tally_INBOX 5) ∧ readerOf m0 = 0 ∧ readerOf m0 ≠ 5 ∧ inbox (setInbox State.reset.hub 0 [anEvent]) 0 = [anEvent] := by
  unfold Reads Writes Passes; and_intros <;> decide +kernel

/-! ## Witnesses: Projectors, ports of display, network -/

/-- Projector 1 with a sound set of 1920 by 1080 and no plate, in the staged and the active copy. -/
def head1 : State :=
  withA [(F.proj_TIMING_H_ACTIVE 1, 1920), (F.proj_TIMING_H_TOTAL 1, 2200), (F.proj_HSYNC_START 1, 2008), (F.proj_HSYNC_WIDTH 1, 44),
    (F.proj_TIMING_V_ACTIVE 1, 1080), (F.proj_TIMING_V_TOTAL 1, 1125), (F.proj_VSYNC_START 1, 1084), (F.proj_VSYNC_WIDTH 1, 5),
    (F.proj_SPROCKET_NUM_NUM 1, 1), (F.proj_SPROCKET_DEN_DEN 1, 4), (F.proj_CTL_ADAPTIVE 1, 1), (F.proj_V_TOTAL_MAX_LINES 1, 1200)]

def head1On : State := onHubOf head1 fun h => h.fset (F.proj_CTL_EN 1) 1

theorem witness_HeadEnableAndDisable : Writes head1 m0 (A.proj_CTL 1) ∧ head1.hub.is (F.proj_CTL_EN 1) = false ∧
    projCheck head1.hub.aget 1 = 0 ∧ projCheck State.reset.hub.aget 1 ≠ 0 ∧ head1On.hub.is (F.proj_CTL_EN 1) = true := by
  unfold Writes Passes; and_intros <;> decide +kernel

/-- Plate 0 shows Gate 0 and is the one the head follows. -/
def headFollows : State :=
  onHubOf head1On fun h => [(F.proj_PSRC_KIND 1 0, 1), (F.proj_SRC_SIZE_W 1 0, 64), (F.proj_SRC_SIZE_H 1 0, 64), (F.proj_DST_SIZE_W 1 0, 64),
    (F.proj_DST_SIZE_H 1 0, 64)].foldl (fun h e => h.aset e.1 e.2) h

theorem witness_HeadFrames : headOn head1On.hub 1 = true ∧ head1On.hub.domOn 18 = true ∧ mayExtend headFollows.hub 1 = true ∧ head1On.hub.is (F.proj_STATUS_DARK 1) = false ∧ (head1On.hub.head 1).under = [] ∧
    Reads State.reset m0 (A.proj_SIG_POP 1) ∧ (State.reset.hub.head 1).queue = [] ∧
    ((onHubOf head1On fun h => h.setHead 1 { h.head 1 with queue := [7] }).hub.head 1).queue = [7] := by
  unfold Reads Passes; and_intros <;> decide +kernel

/-- DPO1 is enabled with its HPD high, and head 1 names it; D3 is in a DP Alt mode. -/
def dpUp : State :=
  withF [(F.dpo_CTL_EN 1, 1), (F.dpo_STATUS_HPD 1, 1), (F.dpo_STATUS_MODE 1, 2), (F.link_LINK_STATUS_MODE 7, 0xC), (F.proj_CTL_EN 1, 1),
    (F.proj_OUT_PORTS 1, 2 ^ 9)]

/-- Its ball is high, and it stands trained or trains. -/
def dpLit (training : Bool) : State :=
  onHubOf dpUp fun h => h.setDpPort 9 { dpPort0 with hpd := true, trained := !training, before := true, training := training }

theorem witness_DisplayPorts : dpTrainable (dpLit true).hub 9 = true ∧ dpTrainable dpUp.hub 3 = true ∧ dpWanted (dpLit true).hub 9 = true ∧
    dpUp.hub.listens (33 + (9 - 8)) = true ∧ (onHubOf dpUp fun h => h.setDom 34 ⟨2, false, 0, 0, 0, 0, false⟩).hub.listens (33 + (9 - 8)) = false ∧
    ((dpLit false).hub.dpPort 9).trained = true ∧ ((dpLit true).hub.dpPort 9).before = true ∧ (dpUp.hub.dpPort 9).training = false ∧
    (∀ c, c < 8 → linkMaster dpUp.hub c = some 1 → (dpUp.hub.dpPort c).training = false) ∧ ((dpLit false).hub.dpPort 9).hpd = true ∧
    (dpUp.hub.dpPort 9).hpd = false ∧ (withF [(F.dpo_CTL_EN 1, 0)]).hub.is (F.dpo_CTL_EN 1) = false ∧
 dpUp.hub.is (F.dpo_CTL_EN 1) = true ∧
    Writes State.reset m0 (A.proj_LINK_CTL 1) ∧ State.reset.hub.is (F.proj_LINK_CTL_RETRAIN 1) = false ∧ Writes State.reset m0 (A.dpo_CTL 1) := by
  unfold Writes Passes; and_intros <;> decide +kernel

/-- A frame of 60 bytes with its FCS. -/
def goodFrame (n : Nat) : Bytes := List.replicate n 1 ++ fcs (List.replicate n 1)

/-- MAC 1 is on with its link up. -/
def macUp : State := withF [(F.ethmac_CTL_EN 1, 1), (F.ethmac_STATUS_LINK_UP 1, 1), (F.ethmac_STATUS_XOFF_HELD 1, 8)]

/-- The switch holds one learned address of port 1 in VLAN 1, and a frame from port 1 waits. -/
def switchBusy : State :=
  onHubOf (withF [(F.tailrace_CTL_INGRESS_FILTER, 1)]) fun h => { h with net := { h.net with
    fdb := Tbl.put (fun _ => none) h.net.fdb 7 (some ⟨0x010101010101, 1, 1, false⟩), queue := [⟨1, 0, List.replicate 60 1⟩] } }

theorem witness_SwitchAndMacs : Writes State.reset m0 A.tailrace_FDB_CMD ∧ portPresent State.reset.hub 7 = true ∧ portPresent State.reset.hub 8 = false ∧
    (fdbAt switchBusy.hub 7).isSome = true ∧ State.reset.hub.fget F.tailrace_AGE_SECONDS ≠ 0 ∧
    (withF [(F.tailrace_AGE_SECONDS, 0)]).hub.fget F.tailrace_AGE_SECONDS = 0 ∧ switchBusy.hub.net.queue = [⟨1, 0, List.replicate 60 1⟩] ∧
    switchBusy.hub.is F.tailrace_CTL_INGRESS_FILTER = true ∧ vlanValid switchBusy.hub 0 = false ∧ vlanValid switchBusy.hub 1 = true ∧
    1 ∈ vlanMembers switchBusy.hub 1 ∧ macUp.hub.present .ethmac 1 = true ∧ macUp.hub.is (F.ethmac_CTL_EN 1) = true ∧
    macUp.hub.is (F.ethmac_STATUS_LINK_UP 1) = true ∧ (goodFrame 55).length + 4 < 64 ∧ 64 ≤ (goodFrame 56).length + 4 ∧
    tagged (goodFrame 56) = false ∧ (goodFrame 56).length + 4 ≤ maxFrame macUp.hub 1 ∧ fcsOk (goodFrame 56) = true ∧
    fcsOk (List.replicate 60 1) = false ∧ macUp.hub.fget (F.ethmac_STATUS_XOFF_HELD 1) ≠ 0 ∧
    macUp.hub.fget (F.ethmac_CTL_MODE 1) ≠ 0 ∧ (withF [(F.ethmac_CTL_MODE 1, 0)]).hub.fget (F.ethmac_CTL_MODE 1) = 0 ∧
    busPowered State.reset.hub = false := by
  unfold Writes Passes; and_intros <;> decide +kernel

/-- Slice 2's NIC with every ring on, 8 descriptors posted, and a frame for its host; the ITR of ring 5 runs with an interrupt due. -/
def nicUp : State :=
  onHubOf (withF ((List.range 8).flatMap fun r => [(F.nic_RING_CTL_EN 2 r, 1), (F.nic_PTR_TAIL 2 r, 8)] ++ [(F.nic_NIC_CTL_EN 2, 1)])) fun h =>
    { h with net := { h.net with rx := Tbl.put (fun _ => []) h.net.rx 2 [⟨0, List.replicate 60 1, 0⟩], itrRuns := 2 ^ 21, itrDue := 2 ^ 21
                                 outstanding := Tbl.put (fun _ => []) h.net.outstanding 1 [4] } }

def pcieUp : State := withF [(F.pciedn_STATUS_PRESENT 1, 1), (F.pciedn_STATUS_PERST 1, 0), (F.pciedn_STATUS_DLL_UP 1, 1), (F.hdr_OWNER_SLICES (Page.pciedn 1), 4)]

/-- Slice 2 releases the drive of port 1, which has a path. -/
def releasedDrive : State :=
  onHubOf (withA [(F.path_CTL_VALID 1, 1), (F.path_CTL_IN_OUTLET 1, 17), (F.path_CTL_IN_HOP 1, 0)]) fun h => h.fset (F.slice_RELEASE_UNITS 2) 0x200

theorem witness_NicsAndPcieStorage : ringPosted nicUp.hub 2 1 ≠ 0 ∧ fetchOf nicUp.hub 2 1 = none ∧ hostReadWaits nicUp.hub 2 = false ∧
    0 < 1518 ∧ 1518 ≤ nicMax nicUp.hub ∧ nicMax nicUp.hub < 9213 ∧
    nicHeld nicUp.hub 2 (nicUp.hub.fget (F.nic_RING_CTL_PCP 2 1)) < max 1 (nicUp.hub.fget F.tailrace_NIC_TX_LIMIT_CELLS) ∧
    max 1 ((onHubOf nicUp fun h => h.fset F.tailrace_NIC_TX_LIMIT_CELLS 0).hub.fget F.tailrace_NIC_TX_LIMIT_CELLS) ≤
      nicHeld (onHubOf nicUp fun h => { h with net := { h.net with queue := [⟨6, 0, List.replicate 60 0⟩] } }).hub 2 0 ∧
    Tbl.get (fun _ => []) nicUp.hub.net.rx 2 = [⟨0, List.replicate 60 1, 0⟩] ∧ ringPosted nicUp.hub 2 4 = 8 ∧
    ringPosted State.reset.hub 2 4 = 0 ∧ nicUp.hub.net.itrRuns.testBit (8 * 2 + 5) = true ∧ nicUp.hub.net.itrDue.testBit (8 * 2 + 5) = true ∧
    State.reset.hub.net.itrDue.testBit (8 * 2 + 5) = false ∧ perstHeld State.reset.hub 1 = true ∧ perstHeld pcieUp.hub 1 = false ∧
    State.reset.hub.is (F.pciedn_STATUS_PRESENT 1) ≠ true ∧ pcieUp.hub.is (F.pciedn_STATUS_PRESENT 1) = true ∧
    pcieUp.hub.is (F.pciedn_STATUS_PERST 1) = false ∧ lowNow pcieUp.hub 3 = false ∧ pcieUp.hub.is (F.pciedn_STATUS_DLL_UP 1) = true ∧
    outstandingAt nicUp.hub 1 = [4] ∧ State.reset.hub.listens (36 + 1) = true ∧
    (onHubOf State.reset fun h => h.setDom 37 ⟨2, false, 0, 0, 0, 0, false⟩).hub.listens (36 + 1) = false ∧
    State.reset.hub.listens 35 = true ∧ (onHubOf State.reset fun h => h.setDom 35 ⟨2, false, 0, 0, 0, 0, false⟩).hub.listens 35 = false ∧
    unitReleased pcieUp.hub (8 + 1) = false ∧ ringBuf nicUp.hub 2 4 = 2048 ∧ nicUp.hub.fget (F.nic_RX_MAP_RING 2 0) = 0 ∧
    0 < min (max 1 ((60 + 2048 - 1) / 2048)) (min (ringPosted nicUp.hub 2 4) [(0 : Nat)].length) ∧ State.reset.hub.is (F.pciedn_STATUS_DLL_UP 1) = false ∧
    releasedDrive.hub.bit (F.slice_RELEASE_UNITS 2) (8 + 1) = true ∧ lookup releasedDrive.hub (16 + 1) 0 = some 1 ∧
    releasedDrive.hub.is (F.pciedn_STATUS_DLL_UP 1) = false ∧ [4].contains 4 = true ∧ [4].contains 5 = false := by and_intros <;> decide +kernel

/-! ## Witnesses: USB, audio, Type-C and PD -/

/-- The dock function of slice 2 in a state, with the AUD port and what a case sets. -/
def dock (n : Nat) (l : List (Fld × Nat)) : State :=
  withF ([(F.dockfn_STATUS_STATE 2, n), (F.hdr_OWNER_SLICES (Page.slice 2), 4)] ++ l)

theorem witness_DockConnectsAndMailbox : Writes State.reset m0 (A.dockfn_CTL 2) ∧ dockAnswers (dock 3 []).hub 2 = true ∧
    (dock 3 []).hub.is (F.dockfn_MBOX_OUT_FULL 2) = false ∧ (dock 3 [(F.dockfn_MBOX_OUT_FULL 2, 1)]).hub.is (F.dockfn_MBOX_OUT_FULL 2) = true ∧
    (dock 3 []).hub.is (F.dockfn_MBOX_IN_READY 2) = false ∧ (dock 3 [(F.dockfn_MBOX_IN_READY 2, 1)]).hub.is (F.dockfn_MBOX_IN_READY 2) = true ∧
    Tbl.get (fun _ => 0) (onHubOf (dock 3 []) fun h => { h with usb := { h.usb with waiting := Tbl.put (fun _ => 0) h.usb.waiting 2 1 } }).hub.usb.waiting 2 ≠ 0 := by
  unfold Writes Passes; and_intros <;> decide +kernel

theorem witness_DockRequests : dockAnswers (dock 2 []).hub 2 = true ∧ dockState (dock 2 []).hub 2 ≠ 3 ∧
    dockState (dock 2 []).hub 2 ≠ 1 ∧ dockState (dock 3 []).hub 2 = 3 ∧ dockState (dock 1 []).hub 2 = 1 ∧ dockAnswers (dock 1 []).hub 2 = true ∧
    dockAnswers (dock 3 []).hub 2 = true ∧ (dock 3 []).hub.is (F.dockfn_CTL_AUDIO_EN 2) = true ∧
    Reads (dock 3 []) (.slice 2) (A.slice_STATUS 2) ∧ Passes (dock 3 []) (.slice 2) (A.slice_STATUS 2) true ∧
    endsBist (windowAccess (.slice 2) (A.slice_STATUS 2) 4 true 0) = false ∧
    (dock 3 [(F.dockfn_STATUS_SPEED 2, 1)]).hub.fget (F.dockfn_STATUS_SPEED 2) = 1 ∧
    (dock 3 [(F.dockfn_STATUS_SPEED 2, 2)]).hub.fget (F.dockfn_STATUS_SPEED 2) ≠ 1 ∧ dockHasEp (dock 3 []).hub 2 0 = true ∧
    dockHasEp (dock 3 []).hub 2 17 = true ∧ dockHalts (dock 3 []).hub 2 17 = true ∧ dockHalts (dock 3 []).hub 2 0 = false := by
  unfold Reads Passes; and_intros <;> decide +kernel

theorem witness_HubClassRequests : State.reset.hub.present .usbhub 2 = true ∧ dockAnswers (dock 3 []).hub 2 = true ∧
    (dock 3 []).hub.is (F.dockfn_CTL_AUDIO_EN 2) = true ∧ rateOffered (dock 3 []).hub (portRateCode (dock 3 []).hub) = true := by
  and_intros <;> decide +kernel

/-- The dock function of slice 2 is suspended, and drives K. -/
def suspended (l : List (Fld × Nat)) : State :=
  onHubOf (dock 4 l) fun h => { h with usb := { h.usb with driving := 4, notify := 4 } }

/-- Endpoints 17 and 20 of slice 2's dock function are halted. -/
def halts : State :=
  onHubOf (dock 3 []) fun h => { h with usb := { h.usb with halts := Tbl.put (fun _ => 0) h.usb.halts 2 (2 ^ 17 + 2 ^ 20) } }

theorem witness_SuspendReportsAndAudio : (∀ e ∈ [17, 20], halted halts.hub 2 e = true ∧ halted (dock 3 []).hub 2 e = false) ∧
    (suspended [(F.dockfn_STATUS_SPEED 2, 1)]).hub.usb.driving.testBit 2 = true ∧
    (suspended [(F.dockfn_STATUS_SPEED 2, 1)]).hub.fget (F.dockfn_STATUS_SPEED 2) = 1 ∧
    (suspended [(F.dockfn_WAKE_REQ 2, 1)]).hub.is (F.dockfn_WAKE_REQ 2) = true ∧
    dockState (dock 3 [(F.dockfn_STATUS_PLAY_ALT 2, 1)]).hub 2 = 3 ∧ State.reset.hub.usb.audOut = [] ∧ [[(1 : Nat)]] ≠ [] ∧
    (onHubOf State.reset fun h => { h with usb := { h.usb with audOut := [[[1]]] } }).hub.usb.audOut = [[1]] :: [] ∧
    dockAnswers (dock 3 []).hub 2 = true ∧ (dock 3 []).hub.is (F.dockfn_WAKE_REQ 2) = false ∧
    (dock 3 []).hub.is (F.dockfn_HID_SEND 2) = false ∧ dockState (dock 3 []).hub 2 = 3 ∧ (dock 3 [(F.usbhub_STATUS_UP3 2, 1)]).hub.is (F.usbhub_STATUS_UP3 2) = true ∧
    dockState (suspended []).hub 2 = 4 ∧ Writes (suspended []) m0 (A.dockfn_WAKE 2) ∧ (suspended []).hub.is (F.dockfn_WAKE_REQ 2) = false ∧
    (suspended []).hub.is (F.dockfn_STATUS_RWAKE_EN 2) = false ∧
    (suspended [(F.dockfn_STATUS_RWAKE_EN 2, 1), (F.dockfn_STATUS_SPEED 2, 1)]).hub.is (F.dockfn_STATUS_RWAKE_EN 2) = true ∧
    (suspended [(F.dockfn_STATUS_RWAKE_EN 2, 1), (F.dockfn_STATUS_SPEED 2, 1)]).hub.fget (F.dockfn_STATUS_SPEED 2) = 1 ∧
    (suspended []).hub.fget (F.dockfn_STATUS_SPEED 2) ≠ 1 ∧ (suspended []).hub.usb.driving.testBit 2 = true ∧
    Writes (suspended []) m0 (A.dockfn_HID 2) ∧ (dock 3 [(F.dockfn_HID_SEND 2, 1)]).hub.is (F.dockfn_HID_SEND 2) = true ∧
    (dock 3 [(F.dockfn_HID_SEND 2, 1)]).hub.is (F.dockfn_CTL_HID_EN 2) = true ∧ Writes (suspended []) m0 (A.dockfn_NOTIFY 2) ∧
    (dock 3 []).hub.usb.notify.testBit 2 = false ∧ (suspended []).hub.usb.notify.testBit 2 = true ∧
    (dock 3 [(F.dockfn_STATUS_PLAY_ALT 2, 1)]).hub.fget (F.dockfn_STATUS_PLAY_ALT 2) ≠ 0 ∧
    captures (dock 3 [(F.dockfn_STATUS_CAP_ALT 2, 1)]).hub 2 = true ∧ converted (dock 3 [(F.dockfn_STATUS_CAP_ALT 2, 1)]).hub 2 = false ∧
    (withF [(F.aud_CTL_EN, 1)]).hub.is F.aud_CTL_EN = true ∧ State.reset.hub.is F.aud_STATUS_LOCK = false ∧
    (withF [(F.aud_STATUS_LOCK, 1)]).hub.is F.aud_STATUS_LOCK = true := by
  unfold Writes Passes; and_intros <;> decide +kernel

/-- Port p in a state of its machine, with fields of its registers and of its own. -/
def portIn (p n : Nat) (l : List (Fld × Nat)) (f : PortSt → PortSt) : State :=
  onHubOf (withF ([(F.typec_STATUS_TC_STATE p, n)] ++ l)) fun h => h.setPort p (f (h.port p))

theorem witness_PortStates : (∀ n ∈ [1, 2, 3, 4, 5, 6, 7, 8, 9, 10, 11], tcState (portIn 5 n [] id).hub 5 = n) ∧
    (withF [(F.typec_CFG_TRY_SRC 0, 1)]).hub.is (F.typec_CFG_TRY_SRC 0) = true ∧ roleOf State.reset.hub 0 = 0 ∧ roleOf State.reset.hub 4 ≠ 0 ∧
    inputGood (withF [(F.weir_STATUS_PG 12, 1)]).hub = true ∧ inputGood State.reset.hub = false ∧
    ((portIn 5 7 [] fun x => { x with seen := 1 }).hub.port 5).seen = 1 ∧
    floorFits (onHubOf State.reset fun h => { h with otp := { h.otp with ledgerMw := 100000 } }).hub 5 = true ∧
    floorFits State.reset.hub 5 = false ∧ State.reset.hub.is (F.typec_STATUS_CONV_UNSAFE 5) = false ∧
    ((portIn 5 6 [] fun x => { x with hardReset := true }).hub.port 5).hardReset = true ∧ ((portIn 5 3 [] id).hub.port 5).await ≠ 5 ∧
    2 ≤ (portIn 5 6 [(F.typec_STATUS_ALT 5, 2), (F.link_LINK_STATUS_MODE 5, 0xC)] id).hub.fget (F.typec_STATUS_ALT 5) ∧
    dpMode ((portIn 5 6 [(F.typec_STATUS_ALT 5, 2), (F.link_LINK_STATUS_MODE 5, 0xC)] id).hub.fget (F.link_LINK_STATUS_MODE 5)) = true := by
  and_intros <;> decide +kernel

/-- D1 is an attached source that has offered 5 V 3 A and 9 V 3 A. -/
def offering : State := portIn 5 6 [] fun x => { x with sent := [(1, fixedPdo 5000 3000), (2, fixedPdo 9000 3000)] }

/-- D1 as a source of an explicit contract with an EPR cable and EPR PDOs. -/
def eprReady : State :=
  portIn 5 6 [(F.typec_STATUS_CABLE 5, 3), (F.typec_STATUS_CONTRACT 5, 2), (F.typec_SRC_CAP_CTL_EPR_COUNT 5, 1)] id

theorem witness_PdMessages : attached offering.hub 5 = true ∧ ownAms offering.hub 5 = false ∧
    offering.hub.is (F.typec_STATUS_EPR_MODE 5) = false ∧ vconnWindow offering.hub 5 = false ∧
    vconnWindow (portIn 5 6 [] fun x => { x with window := true }).hub 5 = true ∧ offering.hub.is (F.typec_STATUS_VCONN_ON 5) = false ∧
    (offering.hub.port 5).frs ≠ 1 ∧ attached (portIn 0 3 [] id).hub 0 = true ∧ attached (portIn 6 6 [] id).hub 6 = true ∧
    (offering.hub.port 5).held = [] ∧ amsRuns offering.hub 5 = false ∧ eprReady.hub.is (F.typec_CFG_EPR_EN 5) = true ∧
    tcState eprReady.hub 5 = 6 ∧ eprReady.hub.fget (F.typec_STATUS_CABLE 5) = 3 ∧ eprReady.hub.fget (F.typec_STATUS_CONTRACT 5) = 2 ∧
    eprReady.hub.is (F.typec_STATUS_EPR_MODE 5) = false ∧ eprReady.hub.fget (F.typec_SRC_CAP_CTL_EPR_COUNT 5) ≠ 0 ∧
    (portIn 5 6 [(F.typec_STATUS_EPR_MODE 5, 1)] id).hub.is (F.typec_STATUS_EPR_MODE 5) = true ∧ tcState offering.hub 5 = 6 ∧
    (offering.hub.port 5).sent.find? (fun e => e.1 == 0x2004B12C / 2 ^ 28) = some (2, fixedPdo 9000 3000) ∧
    judgeRequest (fixedPdo 9000 3000) 0x2004B12C = some (9000, 3000) ∧ 9000 ≠ voltageNow offering.hub 5 ∧ (offering.hub.port 5).fwWait = false ∧
    judgeRequest (fixedPdo 5000 3000) 0x1004B12C = some (5000, 3000) ∧ 5000 = voltageNow offering.hub 5 ∧
    judgeRequest (fixedPdo 9000 3000) 0x2004B52D = none ∧ judgeRequest (fixedPdo 20000 5000) 0x3007D1F4 = some (20000, 5000) ∧
    fiveAmp offering.hub 5 = false ∧ fiveAmp eprReady.hub 5 = true ∧ tcState (portIn 0 3 [(F.typec_SNK_CTL_MAX_MW 0, 100000)] id).hub 0 = 3 ∧
    bestPdo (sinkMax (portIn 0 3 [(F.typec_SNK_CTL_MAX_MW 0, 100000)] id).hub 0) 1 [fixedPdo 5000 3000, fixedPdo 20000 5000] none =
      some (2, fixedPdo 20000 5000) ∧
    bestPdo (sinkMax (portIn 0 3 [] id).hub 0) 1 [] none = none ∧
    ((portIn 0 3 [] fun x => { x with await := 7, asked := some (20000, 5000, 0x2007D1F4) }).hub.port 0).await = 7 ∧
    ((portIn 0 3 [] fun x => { x with await := 7, asked := some (20000, 5000, 0x2007D1F4) }).hub.port 0).asked = some (20000, 5000, 0x2007D1F4) ∧
    ((portIn 0 3 [] fun x => { x with await := 6 }).hub.port 0).await = 6 ∧ tcState (portIn 0 6 [] fun x => { x with frs := 1 }).hub 0 = 6 ∧
    ((portIn 0 6 [] fun x => { x with frs := 1 }).hub.port 0).frs = 1 ∧ safeFive (portIn 0 6 [] fun x => { x with frs := 1 }).hub 0 = true ∧
    safeFive (portIn 0 6 [(F.weir_MEAS_MV 0, 9000)] fun x => { x with frs := 1 }).hub 0 = false ∧ (offering.hub.port 5).disc = 0 := by
  and_intros <;> decide +kernel

/-- A ledger with room, and the PDO of 5 V 3 A offered by port 5. -/
def capsState (budget reserves : Nat) : State :=
  onHubOf (portIn 5 6 [(F.typec_SRC_PDO_PDO 5 0, fixedPdo 5000 3000), (F.typec_STATUS_FY9_MODE 5, 1)]
    fun x => { x with reserves := reserves = 1 }) fun h => { h with otp := { h.otp with ledgerMw := budget } }

/-- H0 is a sink after a Fast Role Swap, with a command that waits. -/
def frsReady : State := portIn 0 3 [(F.typec_CMD_OP 0, 3), (F.weir_STATUS_PG 12, 1)] fun x => { x with cmdWaits := true, frs := 2 }

theorem witness_PdCommandsAndTimers : Writes offering m0 (A.typec_CMD 5) ∧ offering.hub.is (F.typec_CMD_BUSY 5) = false ∧
    (portIn 5 6 [(F.typec_CMD_BUSY 5, 1)] id).hub.is (F.typec_CMD_BUSY 5) = true ∧ (offering.hub.port 5).unsafeNext = false ∧
    ((portIn 5 6 [] fun x => { x with unsafeNext := true }).hub.port 5).unsafeNext = true ∧
    pdoValid 5 (fixedPdo 5000 3000) false = true ∧ pdoValid 5 (fixedPdo 9000 6000) false = false ∧
    (capsState 100000 1).hub.fget (F.typec_SRC_PDO_PDO 5 0) = fixedPdo 5000 3000 ∧ (capsState 100000 1).hub.fget (F.typec_SRC_CAP_CTL_SPR_COUNT 5) = 1 ∧
    max (floorMw (capsState 100000 1).hub 5) 15000 ≤ (capsState 100000 1).hub.fget (F.typec_PORT_MAX_MW 5) ∧
    ledgerUsed (capsState 100000 1).hub - reservation (capsState 100000 1).hub 5 + max (floorMw (capsState 100000 1).hub 5) 15000 ≤
      budget (capsState 100000 1).hub ∧
    budget (capsState 10 1).hub < ledgerUsed (capsState 10 1).hub - reservation (capsState 10 1).hub 5 + 15000 ∧
    ((capsState 10 1).hub.port 5).reserves = true ∧ ((capsState 10 0).hub.port 5).reserves = false ∧
    ((portIn 5 6 [] fun x => { x with trans := true }).hub.port 5).trans = true ∧ vbusInRange (portIn 5 6 [(F.typec_CONTRACT_MV 5, 9000)] id).hub 5 = false ∧
    vbusInRange (portIn 5 6 [(F.typec_CONTRACT_MV 5, 9000), (F.weir_MEAS_MV 5, 9000)] id).hub 5 = true ∧
    attached offering.hub 5 = true ∧ ownAms offering.hub 5 = false ∧ vconnWindow offering.hub 5 = false ∧
    vconnWindow (portIn 5 6 [] fun x => { x with window := true }).hub 5 = true ∧ (offering.hub.port 5).disc = 0 ∧ (offering.hub.port 5).held = [] ∧
    offering.hub.is (F.typec_CFG_EN 5) = true ∧ offering.hub.fget (F.typec_STATUS_ALT 5) < 2 ∧
    (capsState 10 0).hub.is (F.typec_STATUS_FY9_MODE 5) = true ∧ attached State.reset.hub 5 = false ∧ tcState State.reset.hub 5 = 0 ∧
    attached (portIn 5 4 [] id).hub 5 = false ∧ tcState (portIn 5 4 [] id).hub 5 ≠ 0 ∧
    (portIn 5 6 [(F.typec_STATUS_EPR_MODE 5, 1)] id).hub.is (F.typec_STATUS_EPR_MODE 5) = true ∧
    (∀ n ∈ [1, 2, 3, 4, 6, 7, 8], ((portIn 5 6 [] fun x => { x with await := n }).hub.port 5).await = n) ∧ ((portIn 5 6 [] id).hub.port 5).tries < 50 ∧
    50 ≤ ((portIn 5 6 [] fun x => { x with tries := 50 }).hub.port 5).tries ∧ (offering.hub.port 5).held = [] ∧ (offering.hub.port 5).await ≠ 4 ∧
    (∀ b ∈ [false, true], let s := portIn 0 3 [(F.typec_CMD_OP 0, 4)] fun x => { x with prWaits := b, cmdWaits := true, txOk := b }
      tcState s.hub 0 = 3 ∧ (s.hub.port 0).await = 0 ∧ (s.hub.port 0).prWaits = b ∧ (s.hub.port 0).cmdWaits = true ∧ (s.hub.port 0).txOk = b ∧
      s.hub.fget (F.typec_CMD_OP 0) = 4 ∧ vconnWindow s.hub 0 = false) ∧ (frsReady.hub.port 0).prWaits = false ∧
    (∀ n ∈ [2, 3], ((portIn 5 6 [] fun x => { x with disc := n }).hub.port 5).disc = n) ∧
    tcState frsReady.hub 0 = 3 ∧ (frsReady.hub.port 0).await = 0 ∧ (frsReady.hub.port 0).cmdWaits = true ∧ frsReady.hub.fget (F.typec_CMD_OP 0) = 3 ∧
    (frsReady.hub.port 0).frs = 2 ∧ (frsReady.hub.port 0).frsFails < 3 ∧ frsReady.hub.is (F.typec_CFG_FRS_RETURN 0) = true ∧
    inputGood frsReady.hub = true ∧ ownAms frsReady.hub 0 = false ∧
    (∀ f ∈ [F.weir_EW_CTL_UV_EN 12, F.weir_EW_CTL_SLOPE_EN 12, F.weir_EW_CTL_REV_EN 12], State.reset.hub.is f = true) := by
  unfold Writes Passes
  and_intros <;> decide +kernel


def frame0 : SarFrame := ⟨[(20000, 300)], 19500, 5000, 750, 3300⟩

/-- Channel 4 in a state of its switch. -/
def weir4 (l : List (Fld × Nat)) : State := withF ((F.weir_SETUP_SHUNT_UOHM 4, 100) :: l)

/-- For the cases of PowerPath in which nothing happens, and for the refusals of CH_EN. -/
theorem witness_power_path_idle : chClosed State.reset.hub 4 = false ∧ (withF [(F.weir_LIMITS_FAST_MA 4, 0)]).hub.fget (F.weir_LIMITS_FAST_MA 4) = 0 ∧
    chState State.reset.hub 4 ≠ 1 ∧ inputGood State.reset.hub = false ∧ anySinkClosed (withF [(F.weir_STATUS_PATH 0, 2), (F.weir_STATUS_STATE 0, 2)]).hub = true ∧
    (List.range 4).find? (fun p => [7].contains p && State.reset.hub.present .weir p) = none ∧
    (onHubOf State.reset fun h => { h with input := { h.input with rev := true } }).hub.input.rev = true ∧
    State.reset.hub.is (F.weir_EW_STAT_PFW 12) = false ∧
    chEnHeld (onHubOf State.reset fun h => { h with boot := { h.boot with phase := 5 } }).hub 4 = true ∧ chEnHeld State.reset.hub 4 = false ∧
    (weir4 [(F.weir_STATUS_LATCHED 4, 1), (F.weir_CTL_CH_EN 4, 1)]).hub.is (F.weir_STATUS_LATCHED 4) = true ∧
    (weir4 [(F.weir_STATUS_LATCHED 4, 1), (F.weir_CTL_CH_EN 4, 1)]).hub.is (F.weir_CTL_CH_EN 4) = true ∧
    (weir4 [(F.weir_STATUS_LATCHED 4, 1), (F.weir_STATUS_OFF_MET 4, 1)]).hub.is (F.weir_STATUS_OFF_MET 4) = true ∧
    State.reset.hub.present .weir 4 = true ∧ (onHubOf State.reset fun h => { h with otp := { h.otp with variant := 3 } }).hub.present .weir 11 = false ∧
    isHot State.reset.hub = false ∧ isHot (withF [(F.pwr_MON1_TEMP, 4 * 90)]).hub = true ∧
    basePoint (withF [(F.pwr_DVFS_TARGET_TARGET 3, 1)]).hub 3 = 1 ∧ State.reset.hub.power.hotIslands.testBit 4 = false ∧
    (4 * (withF [(F.pwr_MON1_TEMP, 4 * 115)]).hub.fget F.pwr_THERM_CRIT_C : Int) ≤ dieTemp (withF [(F.pwr_MON1_TEMP, 4 * 115)]).hub ∧
    State.reset.hub.power.critical = false ∧ dieTemp State.reset.hub < 4 * coolC State.reset.hub := by and_intros <;> decide +kernel

theorem witness_PowerPath : (onHubOf State.reset fun h => h.setDom 42 ⟨0, true, 0, 0, 0, 0, true⟩).hub.ready 42 = false ∧
    State.reset.hub.ready 42 = true ∧ frame0.channels = [(20000, 300)] ∧ State.reset.hub.present .weir 0 = true ∧
    (∀ c ∈ [0, 13], State.reset.hub.present .weir c = true ∧ chClosed (withF [(F.weir_STATUS_STATE c, 2)]).hub c = true ∧
      (withF [(F.weir_LIMITS_FAST_MA c, 6000)]).hub.fget (F.weir_LIMITS_FAST_MA c) ≠ 0 ∧
      chClosed (withF [(F.weir_STATUS_STATE c, 2), (F.weir_LIMITS_FAST_MA c, 6000)]).hub c = true ∧
      chState (withF [(F.weir_STATUS_STATE c, 1)]).hub c = 1 ∧ Writes State.reset m0 (A.weir_CTL c) ∧ chEnHeld State.reset.hub c = false ∧
      Reads State.reset m0 (A.weir_EXTREMES c)) ∧
    State.reset.hub.is (F.weir_CTL_CH_EN 4) = false ∧ (withF [(F.weir_CTL_CH_EN 4, 1)]).hub.is (F.weir_CTL_CH_EN 4) = true ∧
    (1 : Word).toNat / 4 % 4 = 0 ∧ (1 : Word).getLsbD 0 = true ∧ (0 : Word).getLsbD 0 = false ∧
    (withF [(F.weir_SETUP_SHUNT_UOHM 4, 99)]).hub.fget (F.weir_SETUP_SHUNT_UOHM 4) < 100 ∧
    100 ≤ (withF [(F.weir_SETUP_SHUNT_UOHM 4, 100)]).hub.fget (F.weir_SETUP_SHUNT_UOHM 4) ∧
    (withF [(F.weir_SETUP_SHUNT_UOHM 4, 100)]).hub.is (F.weir_STATUS_LATCHED 4) = false ∧
    (∀ met ∈ [0, 1], let w := (withF [(F.weir_SETUP_SHUNT_UOHM 4, 100), (F.weir_STATUS_LATCHED 4, 1), (F.weir_STATUS_STATE 4, 3),
        (F.weir_STATUS_OFF_MET 4, met)]).hub
      w.is (F.weir_STATUS_LATCHED 4) = true ∧ w.is (F.weir_CTL_CH_EN 4) = false ∧
      w.is (F.weir_STATUS_OFF_MET 4) = (met == 1)) ∧
    inputGood State.reset.hub = false ∧ anySinkClosed State.reset.hub = false ∧
    (List.range 4).find? (fun p => [2].contains p && State.reset.hub.present .weir p) = some 2 ∧
    inputGood (withF [(F.weir_STATUS_PG 12, 1), (F.weir_EW_STAT_PFW 12, 1)]).hub = true ∧ State.reset.hub.input.rev = false ∧
    (withF [(F.weir_STATUS_PG 12, 1), (F.weir_EW_STAT_PFW 12, 1)]).hub.is (F.weir_EW_STAT_PFW 12) = true := by
  unfold Writes Reads Passes; and_intros <;> decide +kernel

/-- A domain with its own bookkeeping. -/
def domIn (d : Nat) (x : DomSt) (l : List (Fld × Nat)) : State := onHubOf (withF l) fun h => h.setDom d x

/-- The bus-powered profile holds the display domains, of which one is in a state of its own. -/
def heldIn (d : Nat) (x : DomSt) : State :=
  onHubOf (domIn d x []) fun h => { h with input := { h.input with profile := true } }

/-- For the cases of DomainsAndShelf in which nothing happens, and for those of a domain that the profile holds. -/
theorem witness_domains_idle : Tbl.get (fun _ => 0) State.reset.hub.power.dvfsTo 2 = 0 ∧
    (State.reset.hub.dom 21).waking = false ∧ (State.reset.hub.dom 21).entering = 0 ∧ (State.reset.hub.dom 21).state < 3 ∧
    ((domIn 21 ⟨1, false, 0, 0, 0, 0, false⟩ []).hub.dom 21).state ≠ 0 ∧ (policyOf (withF [(F.hdr_PWR_POLICY_ALLOW_DOZE (Page.typec 0), 0)]).hub 21).1 = false ∧
    (policyOf State.reset.hub 0).2.1 = false ∧ (policyOf State.reset.hub 0).2.2.1 = false ∧ floorOf State.reset.hub 0 = 0 ∧
    workInHand (withF [(F.link_LINK_STATUS_LSTATE 0, 1)]).hub 21 = true ∧
    (policyOf (withF [(F.hdr_PWR_POLICY_IDLE (Page.typec 0), 0)]).hub 21).2.2.2 = 0 ∧
    (let h := (heldIn 12 ⟨3, true, 0, 0, 0, 0, false⟩).hub
     profileHeld h 12 = true ∧ (h.dom 12).state = 3 ∧ (h.dom 12).waking = true ∧ (h.dom 12).entering = 0 ∧ (h.dom 12).resetting = false) ∧
    (let h := (heldIn 13 ⟨3, true, 0, 0, 0, 0, false⟩).hub
     profileHeld h 13 = true ∧ (h.dom 13).waking = true ∧ (h.dom 13).entering = 0 ∧ (h.dom 13).resetting = false) ∧
    (domIn 12 ⟨0, true, 0, 0, 0, 0, true⟩ []).hub.dom 12 = ⟨0, true, 0, 0, 0, 0, true⟩ ∧ State.reset.hub.power.shelf ≠ 1 ∧
    (∀ i ∈ [2, 3], lowNow State.reset.hub i = false ∧
      lowNow (onHubOf State.reset fun h => { h with power := { h.power with dvfsTo := [(i, 3)] } }).hub i = true) ∧
    (onHubOf State.reset fun h => { h with power := { h.power with shelf := 1, shelfWake := some .pin } }).hub.power.shelfWake = some .pin ∧
    hasPads 21 = true ∧ domainPages 21 ≠ [] := by and_intros <;> decide +kernel

theorem witness_DomainsAndShelf :
    (let h := (withF [(F.hdr_PWR_POLICY_ALLOW_DOZE (Page.typec 0), 1), (F.hdr_PWR_POLICY_IDLE (Page.typec 0), 1)]).hub
     (h.dom 21).state = 0 ∧ (h.dom 21).waking = false ∧ (h.dom 21).entering = 0 ∧ workInHand h 21 = false ∧ (policyOf h 21).1 = true ∧ (policyOf h 21).2.2.2 ≠ 0 ∧
       1 ≤ floorOf h 21 ∧ (h.dom 21).state < deepest h 21) ∧
    (let h := (withF [(F.hdr_PWR_POLICY_ALLOW_DOZE (Page.typec 0), 1), (F.hdr_PWR_POLICY_ALLOW_NAP (Page.typec 0), 1)]).hub
     (policyOf h 21).1 = true ∧ (policyOf h 21).2.1 = true ∧ 1 ≤ floorOf h 21) ∧
    ((domIn 12 ⟨0, false, 0, 3, 0, 0, false⟩ []).hub.dom 12).entering = 3 ∧ ((domIn 12 ⟨0, false, 0, 2, 0, 0, false⟩ []).hub.dom 12).entering ≠ 3 ∧
    ((domIn 12 ⟨2, true, 0, 0, 0, 0, false⟩ []).hub.dom 12).waking = true ∧ ((domIn 12 ⟨2, true, 0, 0, 0, 0, false⟩ []).hub.dom 12).entering = 0 ∧
    ((domIn 12 ⟨2, true, 0, 0, 0, 0, false⟩ []).hub.dom 12).resetting = false ∧ profileHeld (domIn 12 ⟨2, true, 0, 0, 0, 0, false⟩ []).hub 12 = false ∧
    pageAt (4096 * 215 + 8) = some (.sluiceOut, 23, 4096 * 215) ∧ pageAt (4096 * 1 + 8) = some (.pwr, 0, 4096) ∧ Kind.hasHeader .pwr = true ∧
    Writes State.reset m0 (4096 * 1 + 8) ∧ Writes State.reset m0 (A.pwr_GROUP_POLICY 0) ∧ Writes State.reset m0 (A.pwr_GROUP_POLICY 7) ∧
    Writes State.reset m0 A.pwr_DVFS_TARGET ∧
    (∀ n ∈ [0, 2, 3], (List.range 4).any (fun i => targetOf (withF [(F.pwr_DVFS_TARGET_TARGET 3, n), (F.link_LINK_STATUS_MODE 0, 8)]).hub i == 2 &&
      lowBlocked (withF [(F.pwr_DVFS_TARGET_TARGET 3, n), (F.link_LINK_STATUS_MODE 0, 8)]).hub i) = (n == 2)) ∧
    (∀ i ∈ [0, 1, 2, 3], Tbl.get (fun _ => 0) (onHubOf State.reset fun h => { h with power := { h.power with dvfsTo := [(i, 3)] } }).hub.power.dvfsTo i =
      2 + 1) ∧
    Writes State.reset m0 A.pwr_SHELF ∧ mayRwf m0 = true ∧ State.reset.hub.power.shelf = 0 ∧ shelfRefusal (withF [(F.weir_CTL_CH_EN 12, 0)]).hub = 0 ∧
    shelfRefusal State.reset.hub = 2 ∧ Writes (withF [(F.hdr_OWNER_BMC Page.pwr, 1)]) .bmc A.pwr_BMC_SHELF ∧
    (∀ n ∈ [1, 2], (onHubOf State.reset fun h => { h with power := { h.power with shelf := n } }).hub.power.shelf = n) ∧
    State.reset.hub.power.shelfWake = none ∧ wakeEnabled (withF [(F.pwr_SHELF_CFG_WAKE_N_EN, 1)]).hub .pin = true ∧
    wakeEnabled (withF [(F.pwr_SHELF_CFG_WAKE_N_EN, 0)]).hub .pin = false ∧
    wakeEnabled (onHubOf (withF [(F.pwr_SHELF_CFG_WAKE_N_EN, 1)]) fun h => { h with power := { h.power with shelf := 2 } }).hub .pin = true ∧ Reads State.reset m0 A.pwr_MON_EXT := by
  unfold Reads Writes Passes; and_intros <;> decide +kernel

theorem witness_ClocksAndCrossings : Writes State.reset m0 A.clk_REF_CTL ∧
    (∀ n ∈ [0, 1], (withF [(F.clk_REF_STAT_LOCK, n)]).hub.is F.clk_REF_STAT_LOCK = (n == 1)) ∧
    recovOk ((withF [(F.clk_REF_CTL_RECOV, 12)]).hub.fget F.clk_REF_CTL_RECOV) = false ∧ recovOk 11 = true ∧ recovOk 14 = true ∧
    recovOk 13 = false ∧ recovOk 17 = true ∧ recovOk 18 = false ∧ recovOk (State.reset.hub.fget F.clk_REF_CTL_RECOV) = true ∧
    wantedRef State.reset.hub = State.reset.hub.fget F.clk_REF_STAT_ACTIVE ∧
    wantedRef (withF [(F.clk_REF_CTL_SEL, 2)]).hub ≠ (withF [(F.clk_REF_CTL_SEL, 2)]).hub.fget F.clk_REF_STAT_ACTIVE ∧
    (let h := (withF [(F.clk_REF_STAT_DIST_HOLD, 1), (F.clk_REF_CTL_AUTO_FALLBACK, 1), (F.clk_REF_STAT_ACTIVE, 1)]).hub
     h.is F.clk_REF_STAT_DIST_HOLD = true ∧ h.is F.clk_REF_CTL_AUTO_FALLBACK = true ∧ h.fget F.clk_REF_STAT_ACTIVE = 1) ∧
    (∀ l ∈ [0, 1], let h := (withF [(F.clk_REF_CTL_SEL, 2), (F.clk_REF_CTL_LEAT, l), (F.clk_REF_CTL_AUTO_FALLBACK, 1)]).hub
     effectiveSel h = 2 ∧ h.fget F.clk_REF_CTL_LEAT = l ∧ h.is F.clk_REF_CTL_AUTO_FALLBACK = true ∧ h.clock.fellBack = false) ∧
    (∀ m ∈ [0, 1, 8, 9], (onHubOf State.reset fun h => { h with clock := { h.clock with muxBusy := 1023 } }).hub.clock.muxBusy.testBit m = true) ∧
    (∃ c : Fin 8, (clockFeeds c.val).contains 2 = true) ∧ (∃ c : Fin 8, (clockFeeds c.val).contains 2 = false) ∧
    Writes State.reset m0 A.clk_DOMSRC ∧ Writes State.reset m0 A.clk_METER_CTL ∧ State.reset.hub.is F.clk_METER_CTL_BUSY = false ∧
    (withF [(F.clk_METER_CTL_BUSY, 1)]).hub.is F.clk_METER_CTL_BUSY = true ∧
    (∀ k ∈ [0, 41], ((onHubOf State.reset fun h => { h with halves := [(k, ⟨true, 0, 0⟩)] }).hub.half k).flush = true) ∧
    (∀ x ∈ [0, 13, 15, 17, 19, 20], sideInReset State.reset.hub x = false) ∧
    (∀ x ∈ [0, 20], sideInReset (withF [(F.hdr_RESET_CTL_BLOCK_RESET Page.mill, 1)]).hub x = true) ∧
    State.reset.hub.ftime < 2 ^ 40 := by
  unfold Writes Passes; and_intros <;> decide +kernel

/-- Target k of Cue with a pending source that beats it, or with one entry on its stack. -/
def cueReady (k : Nat) : State :=
  withF [(F.cue0_CTL_EN, 1), (F.cue0_TSTAT_LINE k, 1), (F.cue0_BEST_ID k, 256)]

def cueHeld (k : Nat) : State :=
  withF [(F.cue0_TSTAT_DEPTH k, 1), (F.cue0_STACK_ID k 0, 256), (F.cue0_STACK_VALID k 0, 1)]

theorem witness_CueDelivers : (∀ k ∈ [0, 7], targetPresent State.reset.hub k = true ∧ Reads (cueReady k) m0 (A.cue0_CLAIM k) ∧
      targetPresent (cueReady k).hub k = true ∧ (cueReady k).hub.is (F.cue0_TSTAT_LINE k) = true ∧
      (cueReady k).hub.fget (F.cue0_BEST_ID k) ≠ 0 ∧ (cueReady k).hub.is (F.cue0_TSTAT_FROZEN k) = false ∧ cueDepth (cueReady k).hub k < 16 ∧
      State.reset.hub.is (F.cue0_TSTAT_LINE k) = false ∧ Writes (cueHeld k) m0 (A.cue0_COMPLETE k) ∧
      (cueHeld k).hub.is (F.cue0_TSTAT_FROZEN k) = false ∧ 0 < cueDepth (cueHeld k).hub k ∧ cueDepth (cueHeld k).hub k ≤ 16 ∧
      cueTop (cueHeld k).hub k = 256 ∧ cueDepth State.reset.hub k = 0 ∧ Writes State.reset m0 (A.cue0_TCTL k)) ∧
    ∀ w ∈ [0, 6], Writes State.reset m0 (A.cue3_DB_SET w) ∧ Writes State.reset m0 (A.cue3_DB_CLR w) := by
  unfold Reads Writes Passes; and_intros <;> decide +kernel

/-- The hub with a Vault of its own: its slots, its root and a command under way. -/
def vaultIn (l : List (Fld × Nat)) (root : Option Bytes) (slots : Tbl (Option VSlot)) (run : Option VRun) : State :=
  onHubOf (withF l) fun h => { h with vault := { h.vault with masked := root, slots := slots, run := run } }

/-- A command of the Vault from service firmware. -/
def run0 (op slot tslot : Nat) (input : Bytes) : VRun := ⟨op, slot, tslot, 0, false, input, 0, 4, 0x10, false⟩

/-- A key that any requester may use. -/
def key0 (ecdsa derived : Bool) : VSlot := ⟨ecdsa, derived, 0, 0x3F, []⟩

/-- Bytes of zeros. -/
def zeros (n : Nat) : Bytes := List.replicate n 0

theorem witness_VaultCommands : Writes State.reset m0 A.vault_CMD ∧ State.reset.hub.is F.vault_STATUS_BUSY = false ∧
    (withF [(F.vault_STATUS_BUSY, 1)]).hub.is F.vault_STATUS_BUSY = true ∧ Writes (withF [(F.vault_STATUS_BUSY, 1)]) m0 A.vault_CMD ∧
    (vaultIn [] none [] (some (run0 1 2 0 (zeros 48)))).hub.vault.run = some (run0 1 2 0 (zeros 48)) ∧ (run0 1 2 0 (zeros 47)).input.length ≠ 48 ∧
    (run0 1 2 0 (zeros 48)).input.length = 48 ∧ { run0 1 2 0 (zeros 48) with locked := true }.locked = true ∧
    1 ≤ (run0 2 31 0 (zeros 64)).input.length ∧ (run0 2 31 0 (zeros 64)).input.length ≤ 64 ∧ 2 ≤ (run0 2 31 0 (zeros 64)).slot ∧
    vaultRoot State.reset.hub = none ∧ vaultRoot (vaultIn [] (some []) [] none).hub = some [] ∧ (run0 3 1 0 []).slot < 2 ∧ 2 ≤ (run0 3 2 0 []).slot ∧
    (withF [(F.vault_STATUS_ENTROPY_OK, 1)]).hub.is F.vault_STATUS_ENTROPY_OK = true ∧ 1008 < (run0 4 2 0 (zeros 1009)).input.length ∧
    (run0 5 2 0 (zeros 28)).aad ≤ 512 ∧ 28 + (run0 5 2 0 (zeros 28)).aad ≤ (run0 5 2 0 (zeros 28)).input.length ∧
    (run0 6 2 0 (zeros 48)).input.length = 48 ∧ (run0 6 2 0 (zeros 48)).slot ≠ 0 ∧
    16 ≤ (run0 7 2 0 (zeros 16)).input.length ∧ (vaultRoot (vaultIn [] (some []) [] none).hub).isSome = true ∧ 97 ≤ (run0 9 2 3 (zeros 97)).input.length ∧ (run0 9 2 3 (zeros 160)).input.length ≤ 160 ∧
    2 ≤ (run0 9 2 2 (zeros 97)).tslot ∧ (run0 10 0 0 (zeros 1024)).input.length ≤ 1024 ∧
    (withF [(F.vault_STATUS_ENTROPY_OK, 0)]).hub.is F.vault_STATUS_ENTROPY_OK = false ∧ 2 ≤ (run0 11 2 0 []).slot ∧
    { run0 12 0 0 [] with user := 5 }.user ≠ 4 ∧ (run0 12 0 0 []).user = 4 ∧ provState (withF [(F.vault_STATUS_ENROL, 1)]).hub = 0 := by
  unfold Writes Passes; and_intros <;> decide +kernel

theorem witness_keys :
    (∀ e, slotFor (vaultIn [] none [(2, some (key0 e true))] none).hub (run0 5 2 0 (zeros 28)) 2 (some e) = .ok (key0 e true)) ∧
    slotFor (vaultIn [] none [(1, some (key0 true true)), (2, some (key0 false true))] none).hub (run0 7 2 0 (zeros 16)) 1 (some true) =
      .ok (key0 true true) ∧
    slotFor (vaultIn [] none [(1, some (key0 true true)), (2, some (key0 false true))] none).hub (run0 7 2 0 (zeros 16)) 2 none =
      .ok (key0 false true) ∧
    slotFor (vaultIn [] none [(0, some (key0 true true)), (1, some (key0 true true))] none).hub (run0 13 0 0 []) 0 (some true) =
      .ok (key0 true true) ∧
    slotFor (vaultIn [] none [(0, some (key0 true true)), (1, some (key0 true true))] none).hub (run0 13 0 0 []) 1 (some true) =
      .ok (key0 true true) :=
  ⟨fun e => by cases e <;> rfl, rfl, rfl, rfl, rfl⟩

/-- An input of GCM_DEC, without AAD and text, whose tag is the right one, and one whose tag is not: whatever the cipher computes, one of
two tags differs from it. The point of ECDH is on the curve or it is not; the curve is a free function (assumption log 61). -/
theorem witness_tags : (∃ input : Bytes, input.length = 28 ∧
      input.drop 12 = bytesOf 16 (Config.gcmTag [] (input.take 12) ((input.drop 12).take 0) ((input.drop 12).take 0))) ∧
    (∃ input : Bytes, input.length = 28 ∧
      input.drop 12 ≠ bytesOf 16 (Config.gcmTag [] (input.take 12) ((input.drop 12).take 0) ((input.drop 12).take 0))) := by
  refine ⟨⟨zeros 12 ++ bytesOf 16 (Config.gcmTag [] (zeros 12) [] []), rfl, rfl⟩, ?_⟩
  by_cases h : zeros 16 = bytesOf 16 (Config.gcmTag [] (zeros 12) [] [])
  · exact ⟨zeros 12 ++ List.replicate 16 1, rfl, fun e => absurd (h.trans (e.symm : _ = List.replicate 16 (1 : Byte))) (by decide)⟩
  · exact ⟨zeros 12 ++ zeros 16, rfl, h⟩

theorem witness_VaultProtects : Writes State.reset m0 A.vault_MEAS_LOCK ∧ State.reset.hub.bit F.vault_MEAS_LOCK_LOCK 0 = false ∧
    State.reset.hub.bit F.vault_MEAS_LOCK_LOCK 2 = false ∧ (15 : Fin 16).val.testBit 0 = true ∧ (15 : Fin 16).val.testBit 2 = true ∧
    vaultRoot State.reset.hub = none ∧ vaultRoot (vaultIn [] (some []) [] none).hub = some [] ∧ State.reset.hub.vault.ms < 999 ∧
    (onHubOf State.reset fun h => { h with vault := { h.vault with ms := 999 } }).hub.vault.ms = 999 ∧
    armed State.reset.hub 0 = 0 ∧ armed State.reset.hub 8 ≠ 0 ∧ armed (withF [(F.vault_TAMPER_CTL_MODE01, 1)]).hub 1 ≠ 0 ∧
    (vaultIn [] (some []) [] (some (run0 1 0 0 []))).hub.vault.run ≠ none ∧ State.reset.hub.fget F.vault_TLOG_CTL_COUNT < 4 ∧
    4 ≤ (withF [(F.vault_TLOG_CTL_COUNT, 4)]).hub.fget F.vault_TLOG_CTL_COUNT ∧ Writes State.reset m0 A.vault_TAMPER_CTL ∧
    State.reset.hub.is F.vault_TAMPER_CTL_LOCK = false ∧ (withF [(F.vault_TAMPER_CTL_LOCK, 1)]).hub.is F.vault_TAMPER_CTL_LOCK = true ∧
    Writes (withF [(F.vault_TAMPER_CTL_LOCK, 1)]) m0 A.vault_TAMPER_CTL ∧ Writes State.reset m0 A.vault_TLOG_CTL := by
  unfold Writes Passes; and_intros <;> decide +kernel

/-- Hub 1 of a fabric with both of its Leat links up, in a role now, and fields beside. -/
def fabricAs (role : Nat) (l : List (Fld × Nat)) (f : LeatSt → LeatSt) : State :=
  onHubOf (withF ([(F.fabric_STRAP_ROLE, 1), (F.fabric_STRAP_ID, 1), (F.fabric_CTL_EN, 1), (F.fabric_STATE_ROLE_NOW, role), (F.fabric_STATE_HEAD_ID, 2),
      (F.leat_STATUS_LSTATE 0, 3), (F.leat_STATUS_LSTATE 1, 2)] ++ l))
    fun h => (h.setLeat 0 (f { h.leatSt 0 with trained := true })).setLeat 1 (f { h.leatSt 1 with trained := true, peer := ⟨3, 0, 0⟩ })

/-- A sync word of hub 2. -/
def sync2 (ftime : Nat) : SyncWord := ⟨ftime, 0, 0, 0, 2, 0, 0, 0, 0, 0, 0, 0, 0, 0⟩

theorem witness_LeatLinks :
    (let h := (fabricAs 2 [] id).hub
     standalone h = false ∧ leatTalks h 0 = true ∧ leatTalks h 1 = true ∧ (sync2 0).headId ≠ hubNumber h ∧ h.fget F.fabric_STATE_ROLE_NOW = 2 ∧
       h.fget F.fabric_STATE_ROLE_NOW ≠ 1 ∧ h.fget F.fabric_STATE_HEAD_ID = (sync2 0).headId ∧ h.epoch = (sync2 0).epoch ∧
       syncLink { h.setLeat 0 { h.leatSt 0 with syncHops := some 0 } with ftime := 5 } = some 0 ∧
       syncLink ((h.setLeat 0 { h.leatSt 0 with syncHops := some 0 }).setLeat 1 { h.leatSt 1 with syncHops := some 0 }) ≠ some 1 ∧
       (∀ t ∈ [0, 2, 3, 65], (syncOffset h (sync2 t)).natAbs = t) ∧ (h.leatSt 0).trained = true ∧ (h.leatSt 1).trained = true ∧
       leatHold h 0 = 0 ∧ leatHold h 1 = 0 ∧ tagChecked h 0 = false ∧ h.fget (F.leat_STATUS_LSTATE 0) = 3 ∧ h.fget (F.leat_STATUS_LSTATE 1) ≠ 3 ∧
       h.is (F.leat_MSG_CTL_TX_GO 0) = false ∧ (h.leatSt 0).status.rxFull = false ∧ h.is (F.leat_MSG_CTL_RX_FULL 0) = false ∧ quarantined h = false ∧
       h.present .leat 0 = true ∧ h.present .leat 1 = true ∧ (∀ l ∈ [0, 1], h.listens (38 + l) = true) ∧ lowNow h 3 = false ∧ ingressOk h 18 = true ∧ ingressOk h 19 = true) ∧
    (fabricAs 0 [] id).hub.fget F.fabric_STATE_ROLE_NOW ≠ 2 ∧
    (∀ l ∈ [0, 1], (onHubOf State.reset fun h => h.setDom (38 + l) ⟨2, false, 0, 0, 0, 0, false⟩).hub.listens (38 + l) = false) ∧
    (∀ k ∈ [none, some 2], ((fabricAs 2 [] fun x => { x with key := k }).hub.leatSt 0).key = k) ∧
    (let h := (fabricAs 2 [] fun x => { x with trained := false }).hub
     (h.leatSt 0).trained = false ∧ leatHold h 0 = 0 ∧ leatHold h 1 = 0) ∧
    (let h := (fabricAs 2 [(F.leat_CTL_SEC_MODE 0, 1)] fun x => { x with key := some 2 }).hub
     tagChecked h 0 = true ∧ (h.leatSt 0).sent + 1 ≠ 2 ^ 40 ∧ (h.leatSt 0).fails < 15 ∧ leatTagOk h 0 [] none = false ∧
       (zeros 4).length < 16) ∧
    (onHubOf (fabricAs 2 [] id) fun h => { h with fabric := { h.fabric with differs := true } }).hub.fabric.differs = true ∧
    quarantined (fabricAs 2 [(F.fabric_STATE_QUARANTINE, 1)] id).hub = true ∧ Writes State.reset m0 A.fabric_CFG_HASH_LO ∧
    Writes State.reset m0 (A.leat_SEC 0) ∧ Writes State.reset m0 (A.leat_SEC 1) ∧ Writes State.reset m0 (A.leat_MSG_CTL 0) ∧
    linkKeyOk (vaultIn [] none [(2, some (key0 false true))] none).hub 2 = true ∧ linkKeyOk (vaultIn [] none [(2, some (key0 false true))] none).hub 31 = false ∧
    State.reset.hub.is (F.leat_SEC_ROLL 0) = false ∧
    (((fabricAs 2 [] id).hub.setForebay 18 { fb0 with chains := [⟨8, [], false, false, 0, none, 0, 0, .waiting⟩] }).forebay 18).chains.getLast? =
      some ⟨8, [], false, false, 0, none, 0, 0, .waiting⟩ ∧ Fate.waiting ≠ Fate.refused ∧ 0 + (0 + 1) ≤ 36 ∧
    0 < 1023 % 1024 ∧ leatTalks State.reset.hub 0 = false ∧ (withF [(F.leat_MSG_CTL_RX_FULL 0, 1)]).hub.is (F.leat_MSG_CTL_RX_FULL 0) = true := by
  unfold Writes Passes; and_intros <;> decide +kernel

/-- A frame whose tag the receiver finds right, whatever the cipher computes. -/
theorem witness_seal (h : Hub) (l : Nat) (bs : Bytes) : ∃ tag, leatTagOk h l bs tag = true :=
  ⟨some (leatSeal h l (peerNonce h l) bs).2, by simp [leatTagOk]⟩

theorem witness_ResetsAndWatchdog : State.reset.hub.power.shelf ≠ 2 ∧ wdtRuns State.reset.hub = true ∧
    State.reset.hub.is F.chip_WDT_LEFT_WARNED = false ∧ (withF [(F.chip_WDT_LEFT_WARNED, 1)]).hub.is F.chip_WDT_LEFT_WARNED = true ∧
    wdtRuns (withF [(F.chip_WDT_LEFT_WARNED, 1)]).hub = true ∧ Writes State.reset m0 A.chip_WDT_KICK ∧ mayRwf m0 = true ∧
    Writes State.reset m0 A.chip_WDT_CTL ∧ State.reset.hub.is F.chip_WDT_CTL_EN = true ∧
    (withF [(F.chip_WDT_CTL_EN, 0)]).hub.is F.chip_WDT_CTL_EN = false ∧ Writes State.reset m0 A.chip_SOFT_RESET ∧
    (∀ c ∈ [0, 3], Writes State.reset m0 (A.miller_CTL c) ∧ targetPresent State.reset.hub c = true ∧
      (withF [(F.miller_CTL_RUN c, 1)]).hub.is (F.miller_CTL_RUN c) = true) ∧
    2 ≤ (onHubOf State.reset fun h => { h with boot := { h.boot with phase := 5 } }).hub.boot.phase := by
  unfold Writes Passes; and_intros <;> decide +kernel

/-- The hub at a point of its boot, with what OTP holds for it. -/
def booting (phase : Nat) (f : Otp → Otp) : State :=
  onHubOf State.reset fun h => { h with boot := { h.boot with phase := phase }, otp := f h.otp }

/-- An image whose loader and firmware are one page and one byte: magic, key 0, sizes and offsets, then the digests of the two parts. The
public key and the signature are zeros. -/
def image0 : Bytes :=
  [0x46, 0x59, 0x39, 0x49, 1, 0, 0, 0] ++ zeros 8 ++ [0x48, 1, 0, 0, 2, 0, 0, 0, 0x4A, 1, 0, 0, 1, 0, 0, 0] ++ zeros 8 ++
    hash384 (zeros 2) ++ hash384 (zeros 1) ++ zeros 96 ++ zeros 96 ++ zeros 3

/-- Whether a signature verifies is a free function (assumption log 61), so an image that is accepted is one for which it answers yes. -/
theorem witness_image (o : Otp) (hd : o.vendorDigest = hash384 (zeros 96)) (hl : o.ownerLock = false) (hm : o.minSvn = 0)
    (hv : Config.p384Verify (zeros 96) (hash384 (image0.take 0xE8)) (zeros 96) = true) : imageCheck o image0 true = 0 := by
  have h1 : (image0.drop 0x88).take 96 = zeros 96 := rfl
  have h2 : (image0.drop 0xE8).take 96 = zeros 96 := rfl
  have h3 : imageLoader image0 = zeros 2 := rfl
  have h4 : imageFw image0 = zeros 1 := rfl
  have h5 : (image0.drop 0x28).take 48 = hash384 (zeros 2) := rfl
  have h6 : (image0.drop 0x58).take 48 = hash384 (zeros 1) := rfl
  have h7 : leAt image0 6 1 = 0 ∧ leAt image0 0 4 = 0x49395946 ∧ leAt image0 4 2 = 1 ∧ leAt image0 8 4 = 0 ∧ leAt image0 0x14 4 = 2 ∧
    leAt image0 0x1C 4 = 1 ∧ leAt image0 0x20 4 = 0 ∧ leAt image0 0x10 4 = 0x148 ∧ leAt image0 0x18 4 = 0x14A ∧ image0.length = 0x14B :=
    ⟨rfl, rfl, rfl, rfl, rfl, rfl, rfl, rfl, rfl, rfl⟩
  unfold imageCheck
  simp only [h1, h2, h3, h4, h5, h6, h7]
  simp [hd, hl, hm, hv, alignPage]

theorem witness_BootAndBist : (∀ p ∈ [0, 1, 2, 3], (booting p id).hub.boot.phase = p) ∧ State.reset.hub.power.shelf = 0 ∧
    (∀ m ∈ [0, 1, 2, 3], (booting 1 fun o => { o with bootMode := m }).hub.otp.bootMode % 4 = m) ∧
    imageCheck State.reset.hub.otp [] true ≠ 0 ∧ (booting 1 fun o => { o with recoveryEn := true }).hub.otp.recoveryEn = true ∧
    (booting 1 fun o => { o with recoveryEn := false }).hub.otp.recoveryEn = false ∧ Writes State.reset m0 A.miller_LOAD_CTL ∧
    Writes State.reset m0 A.miller_LOAD_DATA ∧ Writes State.reset m0 A.bist_CMD ∧ (withF [(F.bist_CMD_BUSY, 1)]).hub.is F.bist_CMD_BUSY = true ∧
    State.reset.hub.is F.bist_CMD_BUSY = false ∧ bistSelected State.reset.hub = [] ∧
    (bistSelected (withF [(F.bist_DOMAINS_LO_SEL, 2)]).hub).find? (fun d => bistRefusal (withF [(F.bist_DOMAINS_LO_SEL, 2)]).hub m0 1 d != 0) = some 1 ∧
    bistSelected (withF [(F.bist_DOMAINS_HI_SEL, 1)]).hub ≠ [] ∧
    (∀ d ∈ bistSelected (withF [(F.bist_DOMAINS_HI_SEL, 1)]).hub, bistRefusal (withF [(F.bist_DOMAINS_HI_SEL, 1)]).hub m0 1 d = 0) ∧
    (∀ ty ∈ [1, 3], (onHubOf State.reset fun h => { h with boot := { h.boot with bist := some ([12], ty) } }).hub.boot.bist = some ([12], ty)) := by
  unfold Writes Passes; and_intros <;> decide +kernel

/-- Bus n with a transfer, or with a CONV_SAFE write, under way. -/
def busOn (n run : Nat) (conv : List Nat) : State :=
  onHubOf (withF [(F.misc_BUS_CTL_EN n, 1)]) fun h => { h with misc := { h.misc with busRun := [(n, run)], busCmd := [(n, 0x180)], conv := conv } }

theorem witness_BoardInterfaces : (∀ n ∈ [0, 1], Writes State.reset m0 (A.misc_BUS_CMD n) ∧ State.reset.hub.is (F.misc_BUS_CTL_EN n) = false ∧
      (busOn n 0 []).hub.is (F.misc_BUS_CTL_EN n) = true ∧ (busOn n 0 []).hub.is (F.misc_BUS_CMD_GO n) = false ∧ busRunning (busOn n 0 []).hub n = 0 ∧
      busRunning (busOn n 1 []).hub n = 1 ∧ (busOn n 1 []).hub.misc.conv = [] ∧ busReads (busOn n 1 []).hub n = true ∧
      busRunning (busOn n 2 []).hub n = 2 ∧ (onHubOf (busOn n 2 []) fun h => h.fset (F.misc_BUS_CMD_GO n) 1).hub.is (F.misc_BUS_CMD_GO n) = true ∧
      Reads State.reset m0 (A.misc_BUS_RX n)) ∧
    busRunning (busOn 1 2 [11, 4]).hub 1 ≠ 0 ∧ (busOn 1 2 [11, 4]).hub.misc.conv = 11 :: [4] ∧ Writes State.reset m0 A.misc_SPI_CMD ∧
    (withF [(F.misc_SPI_CTL_EN, 1)]).hub.is F.misc_SPI_CTL_EN = true ∧ State.reset.hub.is F.misc_SPI_CMD_GO = false ∧
    (withF [(F.misc_SPI_CTL_EN, 0)]).hub.is F.misc_SPI_CTL_EN = false ∧ (withF [(F.misc_SPI_CMD_GO, 1)]).hub.is F.misc_SPI_CMD_GO = true ∧
    Writes { withF [(F.misc_UART_CTL_EN, 1)] with hub := uartSent (withF [(F.misc_UART_CTL_EN, 1)]).hub 1 } m0 A.misc_UART_TX ∧
    (withF [(F.misc_UART_CTL_EN, 1)]).hub.is F.misc_UART_CTL_EN = true ∧ (withF [(F.misc_UART_CTL_EN, 0)]).hub.is F.misc_UART_CTL_EN = false ∧
    State.reset.hub.misc.uartRx.length < 16 ∧
    16 ≤ (onHubOf State.reset fun h => { h with misc := { h.misc with uartRx := zeros 16 } }).hub.misc.uartRx.length ∧
    Reads State.reset m0 A.misc_SPI_RX ∧ Reads State.reset m0 A.misc_UART_RX ∧ (zeros 8).length = 8 ∧ (zeros 4).length = 4 := by
  unfold Reads Writes Passes; and_intros <;> decide +kernel

/-! ## Well-formedness: each check refuses an ill-formed term -/

/-- A path that a connection manager can ask for, and a sync word, a SAR frame and main stream attributes that are well formed. -/
def path0 : PathReq := ⟨0, 0, 8, 16, 9, .pcie, 0, 3, 16, 0⟩

def frame14 : SarFrame := ⟨List.replicate 14 (4095, -2048), 65535, 65535, 65535, 65535⟩

def msa0 : Msa := ⟨1, 1, 3, 0, 0, 1, 0, 0, 0⟩

def piece0 : LeatPiece := ⟨2047, 2, [zeros 256], true, some 1023⟩

theorem smoke_well_formed : ([Instr.registerWrite m0 0 8 0, .intForce m0 215 0, .pairLoRead m0 ⟨0x110000, 8⟩, .pathSetValid path0,
    .weightChange 0 23 2047 255, .linkUp 3 (.trained 0xB) 0, .linkUp 4 (.trained 0xD) 0, .linkUp 4 .hostRouter 0, .linkUp 0 (.idle 3) 0,
    .chainArrival 23 56 [zeros 1] true false 0 none, .chainArrival 20 3 [zeros 1] true false 0 none, .chainArrival 0 2047 [zeros 1, zeros 256] true true 2 (some 1023),
    .departure 0 (some 1023) ⟨[], [], []⟩, .patrolScrub 98303 3, .pathEntryWrite m0 1023 14 true 0, .profileWrite m0 0x121000 true 0,
    .turnPhaseWrite m0 7999, .auxRequest 0 (.dpcdWrite 0 (zeros 16)), .linkTraining 0 6 4, .streamUp 3 msa0, .frameStart 0 true [⟨0, 1, 0, 1⟩],
    .reelPatrol 67108863, .underrun 0 16383 16383, .ethLinkUp 0 6, .nicReceive 0 [2 ^ 64 - 1], .pcieLinkUp 0 5 4 0,
    .reelWindowRead m0 (2 ^ 32 - 1) 1, .slotReceive 0 0 0 0 5, .standardRequest 0 (.setAddress 127), .sourceCapabilities 0 [0],
    .sample frame14, .deadBatterySinkClose [3], .syncWord 0 0 (sync2 (2 ^ 40 - 1)), .leatLinkUp 0 ⟨3, 1, 3⟩ ⟨false, false, false, false, []⟩,
    .leatFrameReceive 0 none [piece0], .leatFrameReceive 0 (some (zeros 16)) [piece0], .txGo m0 0 1023, .bistDone 0 [(42, 0)], .uartTx m0 0 16, .connectChange 0 3,
    .classRequest 0 (.setRate 7), .pathSetInvalid 0 0 0] : List Instr).all Instr.wf = true := by
  decide +kernel

theorem smoke_ill_formed : ([Instr.registerWrite m0 0 9 0, .intForce m0 7 0, .commitGo m0 7 true, .blockReset m0 7,
    .blockResetComplete 7, .ownerWrite m0 7 0, .padRelease m0 7 false, .pwrPolicyWrite m0 none 7 0, .pairLoRead m0 ⟨0, 9⟩,
    .pairHiWrite m0 0 0, .pairLoWrite m0 0 0, .pathSetValid { path0 with ingress := 24 }, .pathSetValid { path0 with outHop := 2048 },
    .pathSetValid { path0 with weight := 0 }, .pathSetValid { path0 with prio := 8 }, .pathSetValid { path0 with adapter := 4 },
    .weightChange 0 0 0 0, .linkUp 3 (.trained 0xC) 0, .linkUp 4 (.trained 0xE) 0, .linkUp 4 (.trained 0) 0, .linkUp 3 .hostRouter 0, .linkUp 0 (.idle 4) 0,
    .chainArrival 23 57 [zeros 1] true false 0 none, .chainArrival 20 4 [zeros 1] true false 0 none, .chainArrival 16 3 [zeros 1] true false 0 none,
    .chainArrival 15 8 [zeros 1] true false 0 none, .chainArrival 0 2048 [] true false 0 none,
    .chainArrival 0 0 [zeros 0] true false 0 none, .chainArrival 0 0 [zeros 257] true false 0 none, .chainArrival 0 0 [] true false 3 none,
    .chainArrival 0 0 [] true false 0 (some 1024), .departure 0 (some 1024) ⟨[], [], []⟩, .patrolScrub 98304 0, .patrolScrub 0 4] ++
    [.pathEntryWrite m0 0 1 true 0, .mcastWrite m0 0 1 true 0, .profileWrite m0 0x121001 false 0, .profileWrite m0 0x120FFC false 0,
    .profileWrite m0 0x123000 false 0, .counterWrite m0 0x110004 true 0, .counterWrite m0 0x10FFFC false 0, .turnPhaseWrite m0 8000,
    .auxRequest 0 (.dpcdRead 0 17), .auxRequest 0 (.dpcdWrite 0 (zeros 17)), .auxRequest 0 (.edidRead 0 17), .linkTraining 0 7 4,
    .linkTraining 0 0 3, .streamUp 0 { msa0 with h := 0 }, .streamUp 0 { msa0 with v := 0 }, .streamUp 0 { msa0 with colour := 4 },
    .frameStart 0 false [⟨0, 1, 0, 1⟩], .reelPatrol 67108864, .underrun 0 16384 0, .outputStall 0 0 16384, .ethLinkUp 0 0, .ethLinkUp 0 7,
    .nicTransmit 0 0 (2 ^ 64) 0, .nicTransmit 0 0 0 65536, .nicReceive 0 [2 ^ 64], .pcieTlpReceive 0 0 1024 [] none,
    .pcieTlpReceive 0 0 0 [zeros 0] none, .pcieLinkUp 0 6 4 0, .pcieLinkUp 0 5 3 0, .dpTrainingComplete 0 true 7 4 ⟨false, false, false, 0, 0, 0, 30, 4, 0⟩ 0] ++
    [.reelWindowRead m0 (2 ^ 32) 1, .reelWindowWrite m0 (2 ^ 32) [none], .slotReceive 0 0 0 0 6, .standardRequest 0 (.setAddress 128),
    .standardRequest 0 (.setConfiguration 256), .standardRequest 0 (.setInterface 256 0), .standardRequest 0 (.setInterface 0 256),
    .standardRequest 0 (.get 256 0), .standardRequest 0 (.get 0 65536), .getInfo 0 65536, .regRead 0 0 65536, .regWrite 0 0 65536 0 true,
    .mailboxIn 0 65536 true, .classRequest 0 (.portPower true 10 true), .classRequest 0 (.portPower true 0 true), .classRequest 0 (.setRate 8),
    .sourceCapabilities 0 [], .sinkCapabilities 0 (List.replicate 12 0), .sample { frame14 with channels := [] },
    .sample { frame14 with channels := List.replicate 14 (4096, 0) }, .sample { frame14 with channels := List.replicate 14 (0, 2048) },
    .sample { frame14 with temp := 65536 }, .deadBatterySinkClose [], .deadBatterySinkClose [4]] ++
    [.syncWord 0 0 (sync2 (2 ^ 40)), .syncWord 0 0 { sync2 0 with phase := 8000 }, .syncWord 0 0 { sync2 0 with headId := 4 },
    .syncWord 0 0 { sync2 0 with hops := 4 }, .leatLinkUp 0 ⟨4, 0, 0⟩ ⟨false, false, false, false, []⟩,
    .leatLinkUp 0 ⟨0, 2, 0⟩ ⟨false, false, false, false, []⟩, .leatFrameReceive 0 none [{ piece0 with hop := 2048 }],
    .leatFrameReceive 0 none [{ piece0 with packets := [zeros 257] }], .leatFrameReceive 0 none [{ piece0 with colour := 3 }],
    .leatFrameReceive 0 none [{ piece0 with credit := some 1024 }], .txGo m0 0 1024, .msgRx 0 (zeros 1024), .bistDone 0 [(43, 0)],
    .bistDone 0 [(0, 2 ^ 64)], .uartTx m0 0 17, .connectChange 0 4, .pathSetInvalid 0 24 0] : List Instr).all (fun i => !i.wf) = true := by
  decide +kernel

theorem smoke_mailbox (data : Bytes) (h : data.length = 65536) : (Instr.mailboxOut 0 data true).wf = false := by
  change decide (data.length < 2 ^ 16) = false
  simp [h]

/-! ## Worked examples of the specification -/

/-- A step takes the front command alone. -/
theorem test_step_takes_the_front : ∃ t, step { State.reset with pending := [.ageOut 0, .ftimeWrap] } = .next t ∧ t.pending = [.ftimeWrap] :=
  ⟨_, rfl, rfl⟩

/-- The example of chapter 16, steps 3 to 5: T0 with GROUP_BITS 2, the four sources with their priorities. -/
def nesting (stack : List Nat) (level active : Nat) : State :=
  onHubOf (withF ([(F.cue0_CTL_EN, 1), (F.cue0_TCTL_GROUP_BITS 0, 2), (F.cue1_SRC_PRIO 64, 0x2A), (F.cue1_SRC_PRIO 100, 0x10),
      (F.cue1_SRC_PRIO 131, 0x12), (F.cue1_SRC_PRIO 113, 0x05), (F.cue0_TSTAT_DEPTH 0, stack.length),
      (F.cue0_TSTAT_TOP_PRIO 0, match stack.getLast? with | some 64 => 0x2A | some 100 => 0x10 | _ => 0)] ++
      [64, 100, 131, 113].map fun i => (F.cue1_SRC_EN i, 1))) fun h => { h with cue := { h.cue with level := level, active := active } }

theorem test_cue_nesting : cuePending (nesting [64] (2 ^ 64 + 2 ^ 100 + 2 ^ 131) (2 ^ 64)).hub 100 = true ∧
    cuePending (nesting [64] (2 ^ 64 + 2 ^ 100 + 2 ^ 131) (2 ^ 64)).hub 64 = false ∧
    cueLine (nesting [64] (2 ^ 64 + 2 ^ 100 + 2 ^ 131) (2 ^ 64)).hub 0 100 = true ∧
    cueLine (nesting [64, 100] (2 ^ 64 + 2 ^ 100 + 2 ^ 131) (2 ^ 64 + 2 ^ 100)).hub 0 131 = false ∧
    cueLine (nesting [64, 100] (2 ^ 64 + 2 ^ 100 + 2 ^ 131 + 2 ^ 113) (2 ^ 64 + 2 ^ 100)).hub 0 113 = true := by
  decide +kernel

/-- The curve of chapter 13's example at 7.2 A: the timers of steps 0 to 3 count, and step 3 trips at 10,000 µs. -/
def curveD0 : State :=
  withF (((List.range 8).zip [5500, 6000, 6500, 7000, 7500, 8000, 8500, 9000]).map (fun e => (F.weir_CURVE_T_MA 4 e.1, e.2)) ++
    ((List.range 8).zip [1000000, 200000, 50000, 10000, 2000, 500, 100, 0]).map fun e => (F.weir_CURVE_A_US 4 e.1, e.2))

theorem test_curve_of_D0 : breakerFrom curveD0.hub 4 7200 0 [0, 0, 0, 0, 0, 0, 0, 0] = ([16, 16, 16, 16, 0, 0, 0, 0], none) ∧
    (breakerFrom curveD0.hub 4 7200 0 [10000, 10000, 10000, 10000, 0, 0, 0, 0]).2 = some 3 ∧
    (breakerFrom curveD0.hub 4 5000 0 [0, 0, 0, 0, 0, 0, 0, 0]) = ([0, 0, 0, 0, 0, 0, 0, 0], none) := by
  decide +kernel

/-- The averages of chapter 6's WRED example, with K = 2 and nothing queued: 0x2CAD8 falls by a quarter. The increments of its three flows. -/
theorem test_wred_average : (wredAverage (withA [(F.wred_CTL_K 3, 2), (F.sluiceOut_WRED_AVG_AVG 15 3, 0x2CAD8)]).hub 15).fget
      (F.sluiceOut_WRED_AVG_AVG 15 3) = 183000 - 45750 ∧
    increment 512 = 256 * 128 ∧ increment 256 = 256 * 256 ∧ increment 128 = 256 * 512 := by
  decide +kernel

/-- The buckets of chapter 6's policer example after turns 1 and 3. -/
theorem test_policer_refill :
    (let h := refillPolicer (withA [(F.policer_CIR_RATE 9, 300 * 256), (F.policer_PIR_RATE 9, 600 * 256), (F.policer_CBS_PACKETS 9, 400),
        (F.policer_PBS_PACKETS 9, 800)]).hub 9
     (h.fget (F.policer_TC_TOKENS 9), h.fget (F.policer_TP_TOKENS 9)) = (300 * 256, 600 * 256)) ∧
    (let h := refillPolicer (withA [(F.policer_CIR_RATE 9, 300 * 256), (F.policer_PIR_RATE 9, 600 * 256), (F.policer_CBS_PACKETS 9, 400),
        (F.policer_PBS_PACKETS 9, 800), (F.policer_TC_TOKENS 9, 100 * 256), (F.policer_TP_TOKENS 9, 400 * 256)]).hub 9
     (h.fget (F.policer_TC_TOKENS 9), h.fget (F.policer_TP_TOKENS 9)) = (400 * 256, 800 * 256)) := by
  decide +kernel

/-- The reservations of chapter 12's example: 20 V 5 A is 100 W, and 48 V 5 A is 240 W. -/
theorem test_reservations : pdoMw (fixedPdo 20000 5000) = 100000 ∧ pdoMw (fixedPdo 48000 5000) = 240000 ∧ pdoMw (fixedPdo 20000 2250) = 45000 := by
  decide +kernel

/-- R678 to R680: the constants of the units. -/
theorem test_sample_units : sampleMv 1867 = 28005 ∧ sampleMa 1024 5000 = 4999 := by decide +kernel

/-- Balls of the map: a data line of port 7, the reset of PCIe port 1, a gate of Weir 12, a GPIO and the crystal. -/
theorem test_ball_names : [ballName 36 13, ballName 15 1, ballName 28 37, ballName 10 6, ballName 25 5] =
    ["D7_TX0P", "PCIE1_PERST_N", "W12GATE", "GPIO0", "XTAL_OUT"] := by
  decide +kernel

end Sys2Proof.Tests
end

section
/-! The store of a header word (R12, R39), and the write of INT_EN (R43). -/

namespace Sys2Proof.Machine

/-! ## Stores in the header -/

/-- Below 0x040 the word of a page with a header holds the header's fields (R36, R39). -/
theorem wordRows_header {a : Nat} {k : Kind} {i base : Nat} (hp : pageAt a = some (k, i, base)) (hk : k.hasHeader = true)
    (ho : a - base < 0x40) : wordRows a = rowsHdr.filter (·.covers (a - base)) := by
  obtain ⟨ht, he⟩ : k.isTable = false ∧ k.endpoint = false := by simpa [Kind.hasHeader] using hk
  have hlow : ¬ 0x40 ≤ a - base := by omega
  simp [wordRows, hp, ht, he, hlow]

/-- No register masks the value written to a header word. -/
theorem storeMask_header (k : Kind) {off : Nat} (ho : off < 0x40) (v : Nat) : storeMask k off v = v := by
  unfold storeMask
  split
  case h_1 => exact if_neg (by omega)
  case h_2 => exact if_neg (by omega)
  case h_3 => exact if_neg (by omega)
  case h_4 => rfl

/-- Every field that a page may not carry stands at 0x040 or above. -/
theorem fieldAbsent_header (h : Hub) (k : Kind) (i lo : Nat) {off : Nat} (ho : off < 0x40) : fieldAbsent h k i off lo = false := by
  have above : ∀ b, 0x40 ≤ b → decide (b ≤ off) = false := fun b hb => decide_eq_false (by omega)
  have ne : ∀ b, 0x40 ≤ b → (off == b) = false := fun b hb => beq_false_of_ne (by omega)
  unfold fieldAbsent
  split <;> simp [above, ne]

/-- CFG.ROLE, the one field that some pages fix, stands at 0x040. -/
theorem fieldFixed_header (k : Kind) (i lo : Nat) {off : Nat} (ho : off < 0x40) : fieldFixed k i off lo = false := by
  have ne : (off == 0x40) = false := beq_false_of_ne (by omega)
  simp [fieldFixed, ne]

/-- A header field of access type RW takes its bits of the value written (R12). -/
theorem storeField_header_rw (h : Hub) (k : Kind) (i base a v : Nat) {r : Row} (ho : a - base < 0x40) (hr : r.acc = .rw) :
    storeField h k i base a v r = h.fset ⟨a, r.lo, r.w⟩ (v / 2 ^ r.lo % 2 ^ r.w) := by
  simp [storeField, fieldAbsent_header h k i r.lo ho, fieldFixed_header k i r.lo ho, storeMask_header k ho, hr]

/-! ## INT_EN -/

/-- INT_EN is one field, EN, over the whole word (R39). -/
theorem rowsHdr_INT_EN : ∃ r : Row, rowsHdr.filter (·.covers 0x14) = [r] ∧ r.lo = 0 ∧ r.w = 32 ∧ r.acc = .rw :=
  ⟨_, rfl, rfl, rfl, rfl⟩

/-- The store of INT_EN is a write of its EN field. -/
theorem storeWord_INT_EN (h : Hub) {k : Kind} {i base : Nat} (v : Nat) (hp : pageAt (base + 0x14) = some (k, i, base))
    (hk : k.hasHeader = true) : storeWord h (base + 0x14) v = h.fset (F.hdr_INT_EN_EN base) (v % 2 ^ 32) := by
  have hoff : base + 0x14 - base = 0x14 := by omega
  obtain ⟨r, hrows, hlo, hw, hacc⟩ := rowsHdr_INT_EN
  have hword : wordRows (base + 0x14) = [r] := by rw [wordRows_header hp hk (by omega), hoff, hrows]
  have hfield := storeField_header_rw h k i base (base + 0x14) v (by omega) hacc
  simp [storeWord, hp, hword, hfield, hlo, hw, F.hdr_INT_EN_EN, A.hdr_INT_EN]

/-- After the store EN reads the word written. -/
theorem fget_storeWord_INT_EN (h : Hub) {k : Kind} {i base : Nat} (v : Word) (hp : pageAt (base + 0x14) = some (k, i, base))
    (hk : k.hasHeader = true) : (storeWord h (base + 0x14) v.toNat).fget (F.hdr_INT_EN_EN base) = v.toNat := by
  rw [storeWord_INT_EN h v.toNat hp hk, Hub.fget_fset_same]
  have := v.isLt
  simp only [F.hdr_INT_EN_EN]
  omega

/-! ## REGISTER_WRITE -/

/-- REGISTER_WRITE of a word is the write of that word on the bus. -/
theorem exec_registerWrite_word (req : Req) (addr v : Word) (s : State) :
    exec (.registerWrite req addr 4 (v.setWidth 64)) s = busWrite s req addr.toNat v.toNat := by
  rw [exec_registerWrite, execRegisterWrite, busWrite, BitVec.ofNat_toNat]

/-- No INT_EN is among the words whose write may end a self-test (R646, R662). -/
theorem endsBist_INT_EN (req : Req) (p : Nat) : endsBist (windowAccess req (4096 * p + 0x14) 4 true 0) = false := by
  have miss : ∀ r, r = 0x24 ∨ r = 0x40 → ¬ (4096 * p + 0x14 ≤ Page.bist + r ∧ Page.bist + r < 4096 * p + 0x14 + 4) := by
    unfold Page.bist
    omega
  simpa [endsBist, windowAccess] using And.intro (miss 0x24 (.inl rfl)) (miss 0x40 (.inr rfl))

/-- A write of INT_EN that passes is the store of its word. -/
theorem exec_registerWrite_INT_EN {s : State} {req : Req} {page : Fin 216} {k : Kind} {i : Nat} (v : Word)
    (hp : pageAt (4096 * page.val + 0x14) = some (k, i, 4096 * page.val)) (hk : k.hasHeader = true)
    (hw : Writes s req (4096 * page.val + 0x14)) :
    exec (.registerWrite req (BitVec.ofNat 32 (4096 * page.val + 0x14)) 4 (v.setWidth 64)) s =
      .next { s with
        hub := storeWord (invalidate s.hub false (4096 * page.val + 0x14) 4) (4096 * page.val + 0x14) v.toNat } := by
  have haddr : (BitVec.ofNat 32 (4096 * page.val + 0x14)).toNat = 4096 * page.val + 0x14 := by
    rw [BitVec.toNat_ofNat, Nat.mod_eq_of_lt (by have := page.isLt; omega)]
  have hoff : 4096 * page.val + 0x14 - 4096 * page.val = 0x14 := by omega
  rw [exec_registerWrite_word, haddr, write_header hw v.isLt hp hk (by omega) (endsBist_INT_EN req page.val), hoff]
  rfl

/-- Settles O7: INT_EN is one RW field over its word, so the write is one store there, and what Penstock does beside it
(prefetched bytes are invalidated) is no field of the window. -/
theorem registerWriteStores : Obligations.RegisterWriteStores := by
  intro s req page v k i hp hk hw
  refine ⟨_, exec_registerWrite_INT_EN v hp hk hw, ?reads, ?others, rfl⟩
  case reads => exact fget_storeWord_INT_EN _ v hp hk
  case others => exact OthersKept.trans (othersKept_invalidate _ _ _ _ _) (storeWord_others _ _ _)

end Sys2Proof.Machine
end

section
/-! Frames, takes and the catch-up of a Gate (R246–R251), ingest credit (R34), and what a head's latch leaves of a Gate (R280). -/

namespace Sys2Proof.Machine

/-! ## Fields and words -/

/-- A field stands in the word at its address. -/
theorem Fld.key_div {a lo : Nat} (w : Nat) (hl : lo < 32) : (Fld.mk a lo w).key / 32 = a := by
  rw [Fld.key_mk]
  omega

theorem keptBut_refl (l : List Nat) (h : Hub) : KeptBut l h h := fun _ _ => rfl

/-- Writes of fields of the words listed keep the others. -/
theorem KeptBut.fset {l : List Nat} {h h' : Hub} (p : KeptBut l h h') {a lo w : Nat} (v : Nat) (hl : lo < 32) (ha : a ∈ l) :
    KeptBut l h (h'.fset ⟨a, lo, w⟩ v) :=
  fun f hf => (Hub.fget_fset_other h' v fun c => hf (by rw [c, Fld.key_div w hl]; exact ha)).trans (p f hf)

/-- A field of a word that is not listed. -/
theorem KeptBut.fget {l : List Nat} {h h' : Hub} (p : KeptBut l h h') {a lo w : Nat} (hl : lo < 32) (ha : a ∉ l) :
    h'.fget ⟨a, lo, w⟩ = h.fget ⟨a, lo, w⟩ :=
  p _ (by rwa [Fld.key_div w hl])

theorem Hub.is_congr {h h' : Hub} {f : Fld} (e : h'.fget f = h.fget f) : h'.is f = h.is f := by
  rw [Hub.is, e, Hub.is]

/-! ## Ingest credit (R34) -/

theorem creditHeld_key_ne_event (g : Nat) : (F.gate_STATUS_CREDIT_HELD g).key ≠ (F.hdr_INT_STAT_EVENT (Page.gate g)).key := by
  simp only [F.gate_STATUS_CREDIT_HELD, A.gate_STATUS, F.hdr_INT_STAT_EVENT, A.hdr_INT_STAT, Page.gate, Fld.key_mk]
  omega

theorem is_setHeld (h : Hub) (g : Nat) (b : Bool) : (setHeld h g b).is (F.gate_STATUS_CREDIT_HELD g) = b := by
  have flagged := Hub.is_flag h (F.gate_STATUS_CREDIT_HELD g) b (by simp [F.gate_STATUS_CREDIT_HELD])
  unfold setHeld
  dsimp only
  split
  · rw [Hub.is, Hub.fget_event_other _ _ _ (creditHeld_key_ne_event g)]
    exact flagged
  · exact flagged

@[simp] theorem setHeld_gates (h : Hub) (g : Nat) (b : Bool) : (setHeld h g b).gates = h.gates := by
  unfold setHeld
  dsimp only
  split <;> rfl

/-- Credit that comes to be withheld is reported (R266). -/
theorem setHeld_event (h : Hub) (g : Nat) (hn : h.is (F.gate_STATUS_CREDIT_HELD g) = false) :
    (setHeld h g true).bit (F.hdr_INT_STAT_EVENT (Page.gate g)) 9 = true := by
  rw [setHeld, hn]
  exact Hub.event_set _ _ _ (by decide)

/-- An open frame without waiting pixels has its credit. -/
theorem heldNow_of_frame {h : Hub} {g : Nat} {f : GateFrame} (hf : (h.gateSt g).frame = some f) (hs : (h.gateSt g).stalled = []) :
    heldNow h g = false := by
  simp [heldNow, hf, hs]

/-- A Gate that is not DISABLED, with no frame open and no take to open, withholds its credit. -/
theorem heldNow_of_noTake {h : Hub} {g : Nat} (hst : gateState h g ≠ 0) (hf : (h.gateSt g).frame = none)
    (ht : allowedTakes h g = []) : heldNow h g = true := by
  simp [heldNow, hst, hf, ht]

/-! ## The choice of a take (R33, R246) -/

/-- The take chosen is one of those to choose from. -/
theorem chooseTake_mem {h : Hub} {g k : Nat} {ts : List Nat} (hk : chooseTake h g ts = some k) : k ∈ ts := by
  have chosen : ∀ j, chooseTake h g ts = some j → j ∈ ts := by
    unfold chooseTake
    refine List.foldlRecOn (motive := fun o : Option Nat => ∀ j, o = some j → j ∈ ts) ts _ (by simp) ?step
    intro best hbest t ht j hj
    cases best with
    | none => cases hj; exact ht
    | some b =>
      dsimp only at hj
      split at hj
      · cases hj; exact ht
      · exact hbest j hj
  exact chosen k hk

/-- A take that R33 allows is neither latched nor newest. -/
theorem allowedTakes_free {h : Hub} {g k : Nat} (hk : k ∈ allowedTakes h g) :
    takeLatched h g k = false ∧ (h.is (F.gate_STATUS_NEWEST_VALID g) = true → h.fget (F.gate_STATUS_NEWEST g) ≠ k) := by
  have free := (List.mem_filter.mp hk).2
  simp only [Bool.and_eq_true, Bool.not_eq_true', Bool.and_eq_false_iff, beq_eq_false_iff_ne] at free
  exact ⟨free.1, fun hv => free.2.resolve_left (by simp [hv])⟩

/-! ## The start of a frame (R246) -/

/-- The frame that opens: a full one writes every band of its take, a selective update those of its regions. -/
def openedFrame (h : Hub) (g : Nat) (su : Bool) (regions : List Region) : GateFrame :=
  { su := su, crc := crcStart, coded := []
    bands := if su then regions.foldl (fun n r => n ||| regionBands r) 0 else allBands h g }

/-- A take being written by a frame. -/
def openTake (h : Hub) (g k : Nat) (f : GateFrame) : Hub :=
  ((h.fset (F.gate_STATUS_WRITING g) k).flag (F.gate_STATUS_WRITE_ACTIVE g) true).setGate g { h.gateSt g with frame := some f }

theorem frameStart_opens {h : Hub} {g k : Nat} {su : Bool} (regions : List Region) (hfit : frameFits h g su = true)
    (hf : (h.gateSt g).frame = none) (hk : chooseTake h g (allowedTakes h g) = some k) :
    frameStart h g su regions = settleHeld (openTake h g k (openedFrame h g su regions)) g := by
  simp only [frameStart, hfit, hf, hk]
  rfl

theorem frameStart_waits {h : Hub} {g : Nat} {su : Bool} (regions : List Region) (hfit : frameFits h g su = true)
    (hf : (h.gateSt g).frame = none) (ht : allowedTakes h g = []) : frameStart h g su regions = settleHeld h g := by
  simp only [frameStart, hfit, hf, ht]
  rfl

/-- Frames come to a Gate that is not DISABLED. -/
theorem gateState_of_frameFits {h : Hub} {g : Nat} {su : Bool} (hfit : frameFits h g su = true) : gateState h g ≠ 0 := by
  intro hz
  cases su <;> simp [frameFits, hz] at hfit

theorem openTake_gateSt (h : Hub) (g k : Nat) (f : GateFrame) :
    (openTake h g k f).gateSt g = { h.gateSt g with frame := some f } := by
  rw [openTake, Hub.gateSt_setGate, if_pos rfl]

theorem openTake_writing (h : Hub) (g k : Nat) (f : GateFrame) : (openTake h g k f).Has (F.gate_STATUS_WRITING g) k := by
  rw [Hub.Has, openTake, Hub.setGate_fget, Hub.fget_flag, if_neg, Hub.fget_fset_same]
  simp [F.gate_STATUS_WRITING, F.gate_STATUS_WRITE_ACTIVE]

theorem openTake_active (h : Hub) (g k : Nat) (f : GateFrame) : (openTake h g k f).is (F.gate_STATUS_WRITE_ACTIVE g) = true :=
  Hub.is_flag (h.fset (F.gate_STATUS_WRITING g) k) (F.gate_STATUS_WRITE_ACTIVE g) true Nat.one_pos

theorem openTake_others (h : Hub) (g k : Nat) (f : GateFrame) : OthersKept (A.gate_STATUS g) h (openTake h g k f) :=
  OthersKept.trans (othersKept_fset h _ k (Fld.key_div _ (by decide)))
    (othersKept_flag (h.fset (F.gate_STATUS_WRITING g) k) _ true (Fld.key_div _ (by decide)))

/-- With a frame open and no pixel waiting, credit is given and no event is raised. -/
theorem settleHeld_of_frame {h : Hub} {g : Nat} {f : GateFrame} (hf : (h.gateSt g).frame = some f) (hs : (h.gateSt g).stalled = []) :
    settleHeld h g = h.flag (F.gate_STATUS_CREDIT_HELD g) false := by
  rw [settleHeld, heldNow_of_frame hf hs]
  rfl

/-! ## The clapper (R247, R249, R255) -/

/-- The dirty bands after the clapper of a frame: none in the take that it completes, in the other takes in use those of the frame too. -/
def clappedDirty (h : Hub) (g : Nat) (f : GateFrame) : List Nat :=
  (List.range 4).map fun k => if k == h.fget (F.gate_STATUS_WRITING g) || takeCount h g ≤ k then 0
    else dirtyOf (h.gateSt g) k ||| f.bands

/-- The take written becomes the newest. -/
def makeNewest (h : Hub) (g t : Nat) : Hub :=
  ((h.fset (F.gate_STATUS_NEWEST g) t).flag (F.gate_STATUS_NEWEST_VALID g) true).flag (F.gate_STATUS_WRITE_ACTIVE g) false

/-- The clapper is counted and timed (R247). -/
def timeClap (h : Hub) (g : Nat) : Hub :=
  let h := h.fset (F.gate_CLAP_COUNT_COUNT g) (h.fget (F.gate_CLAP_COUNT_COUNT g) + 1)
  h.pset (F.gate_CLAP_TIME_LO_TICKS g) h.ftime

/-- The clapper is reported with the signature of its frame (R255, R256). -/
def signClap (h : Hub) (g : Nat) (f : GateFrame) (changed : Bool) : Hub :=
  let h := h.fset (F.gate_ING_SIG_CRC g) (~~~ f.crc).toNat
  ((h.flag (F.gate_SIG_INFO_FULL g) !f.su).flag (F.gate_SIG_INFO_CHANGED g) changed).event (Page.gate g) 0

/-- The clapper of a frame that waits for neither pixels nor catch-up. -/
theorem clapper_completes {h : Hub} {g : Nat} {f : GateFrame} (hf : (h.gateSt g).frame = some f) (hs : (h.gateSt g).stalled = [])
    (hc : (f.su && dirtyOf (h.gateSt g) (h.fget (F.gate_STATUS_WRITING g)) != 0) = false) :
    ∃ (x : GateSt) (changed : Bool), x.frame = none ∧
      clapper h g = settleHeld (signClap (timeClap (makeNewest (setDirty (h.setGate g x) g (clappedDirty h g f)) g
        (h.fget (F.gate_STATUS_WRITING g))) g) g f changed) g := by
  simp only [clapper, hf, hs, hc]
  exact ⟨_, _, rfl, rfl⟩

theorem setDirty_gateSt (h : Hub) (g : Nat) (d : List Nat) : (setDirty h g d).gateSt g = { h.gateSt g with dirty := d } := by
  show (h.setGate g _).gateSt g = _
  rw [Hub.gateSt_setGate, if_pos rfl]

/-- DIRTY01 and DIRTY23 alone follow the dirty bands. -/
theorem setDirty_keptBut (h : Hub) (g : Nat) (d : List Nat) : KeptBut [A.gate_DIRTY01 g, A.gate_DIRTY23 g] h (setDirty h g d) :=
  ((((keptBut_refl _ _).fset _ (by decide) (by simp)).fset _ (by decide) (by simp)).fset _ (by decide) (by simp)).fset _ (by decide)
    (by simp)

theorem makeNewest_keptBut (h : Hub) (g t : Nat) : KeptBut [A.gate_STATUS g] h (makeNewest h g t) :=
  (((keptBut_refl _ h).fset _ (by decide) (by simp)).fset _ (by decide) (by simp)).fset _ (by decide) (by simp)

theorem makeNewest_gates (h : Hub) (g t : Nat) : (makeNewest h g t).gates = h.gates := rfl

theorem makeNewest_newest (h : Hub) (g t : Nat) : (makeNewest h g t).Has (F.gate_STATUS_NEWEST g) t := by
  simp [makeNewest, Hub.Has, Hub.fget_flag, F.gate_STATUS_NEWEST, F.gate_STATUS_NEWEST_VALID, F.gate_STATUS_WRITE_ACTIVE]

theorem makeNewest_valid (h : Hub) (g t : Nat) : (makeNewest h g t).is (F.gate_STATUS_NEWEST_VALID g) = true := by
  simp [makeNewest, Hub.is, Hub.fget_flag, F.gate_STATUS_NEWEST_VALID, F.gate_STATUS_WRITE_ACTIVE]

theorem makeNewest_inactive (h : Hub) (g t : Nat) : (makeNewest h g t).is (F.gate_STATUS_WRITE_ACTIVE g) = false :=
  Hub.is_flag ((h.fset (F.gate_STATUS_NEWEST g) t).flag (F.gate_STATUS_NEWEST_VALID g) true) (F.gate_STATUS_WRITE_ACTIVE g) false
    Nat.one_pos

theorem timeClap_keptBut (h : Hub) (g : Nat) :
    KeptBut [A.gate_CLAP_COUNT g, A.gate_CLAP_TIME_LO g, A.gate_CLAP_TIME_HI g] h (timeClap h g) := by
  have hi : A.gate_CLAP_TIME_LO g + 4 = A.gate_CLAP_TIME_HI g := by
    unfold A.gate_CLAP_TIME_LO A.gate_CLAP_TIME_HI
    omega
  refine KeptBut.fset (KeptBut.fset (KeptBut.fset (keptBut_refl _ h) _ ?_ ?count) _ ?_ ?timeLo) _ ?_ (a := A.gate_CLAP_TIME_LO g + 4)
    ?timeHi
  case timeHi => simp [hi]
  all_goals simp

theorem timeClap_count (h : Hub) (g : Nat) :
    (timeClap h g).Has (F.gate_CLAP_COUNT_COUNT g) (h.fget (F.gate_CLAP_COUNT_COUNT g) + 1) := by
  have counted : timeClap h g = (h.fset (F.gate_CLAP_COUNT_COUNT g) (h.fget (F.gate_CLAP_COUNT_COUNT g) + 1)).pset
      (F.gate_CLAP_TIME_LO_TICKS g) h.ftime := rfl
  rw [Hub.Has, counted, Hub.pset, Hub.fget_fset_other, Hub.fget_fset_other, Hub.fget_fset_same]
  all_goals
    simp only [Fld.hi, F.gate_CLAP_COUNT_COUNT, F.gate_CLAP_TIME_LO_TICKS, A.gate_CLAP_COUNT, A.gate_CLAP_TIME_LO, Fld.key_mk]
    omega

theorem timeClap_gates (h : Hub) (g : Nat) : (timeClap h g).gates = h.gates := rfl

theorem signClap_keptBut (h : Hub) (g : Nat) (f : GateFrame) (changed : Bool) :
    KeptBut [A.gate_ING_SIG g, A.gate_SIG_INFO g, A.hdr_INT_STAT (Page.gate g)] h (signClap h g f changed) :=
  ((((keptBut_refl _ h).fset _ (by decide) (by simp)).fset _ (by decide) (by simp)).fset _ (by decide) (by simp)).fset _ (by decide)
    (by simp)

/-- SIG_INFO follows ING_SIG, and leaves it. -/
theorem signClap_sig (h : Hub) (g : Nat) (f : GateFrame) (changed : Bool) :
    (signClap h g f changed).fget (F.gate_ING_SIG_CRC g) = (~~~ f.crc).toNat := by
  have later : KeptBut [A.gate_SIG_INFO g, A.hdr_INT_STAT (Page.gate g)] (h.fset (F.gate_ING_SIG_CRC g) (~~~ f.crc).toNat)
      (signClap h g f changed) :=
    (((keptBut_refl _ _).fset _ (by decide) (by simp)).fset _ (by decide) (by simp)).fset _ (by decide) (by simp)
  refine (later.fget (by decide) ?other).trans ((Hub.fget_fset_same h (F.gate_ING_SIG_CRC g) _).trans (Nat.mod_eq_of_lt (~~~ f.crc).isLt))
  case other =>
    simp only [A.gate_ING_SIG, A.gate_SIG_INFO, A.hdr_INT_STAT, Page.gate, List.mem_cons, List.not_mem_nil, or_false]
    omega

theorem signClap_full (h : Hub) (g : Nat) (f : GateFrame) (changed : Bool) :
    (signClap h g f changed).is (F.gate_SIG_INFO_FULL g) = !f.su := by
  refine (Hub.is_congr (Hub.fget_event_other _ _ _ ?event)).trans ((Hub.is_flag_other _ _ ?changed).trans
    (Hub.is_flag _ (F.gate_SIG_INFO_FULL g) _ Nat.one_pos))
  all_goals
    simp only [F.gate_SIG_INFO_FULL, F.gate_SIG_INFO_CHANGED, F.hdr_INT_STAT_EVENT, A.gate_SIG_INFO, A.hdr_INT_STAT, Page.gate, Fld.key_mk]
    omega

theorem signClap_event (h : Hub) (g : Nat) (f : GateFrame) (changed : Bool) :
    (signClap h g f changed).bit (F.hdr_INT_STAT_EVENT (Page.gate g)) 0 = true :=
  Hub.event_set _ _ _ (by decide)

theorem signClap_gates (h : Hub) (g : Nat) (f : GateFrame) (changed : Bool) : (signClap h g f changed).gates = h.gates := rfl

/-- The report of a clapper keeps the Gate's STATUS. -/
theorem signClap_timeClap_status (h : Hub) {g : Nat} (f : GateFrame) (changed : Bool) {fl : Fld} (hfl : fl.key / 32 = A.gate_STATUS g) :
    (signClap (timeClap h g) g f changed).fget fl = h.fget fl := by
  refine (signClap_keptBut _ g f changed fl ?sign).trans (timeClap_keptBut h g fl ?time)
  all_goals
    rw [hfl]
    simp only [A.gate_STATUS, A.gate_CLAP_COUNT, A.gate_CLAP_TIME_LO, A.gate_CLAP_TIME_HI, A.gate_ING_SIG, A.gate_SIG_INFO, A.hdr_INT_STAT,
      Page.gate, List.mem_cons, List.not_mem_nil, or_false]
    omega

/-- What a completed frame leaves in its Gate. -/
structure Clapped (h h' : Hub) (g : Nat) (f : GateFrame) : Prop where
  newest : h'.Has (F.gate_STATUS_NEWEST g) (h.fget (F.gate_STATUS_WRITING g))
  valid : h'.is (F.gate_STATUS_NEWEST_VALID g) = true
  inactive : h'.is (F.gate_STATUS_WRITE_ACTIVE g) = false
  frame : (h'.gateSt g).frame = none
  dirty : (h'.gateSt g).dirty = clappedDirty h g f
  count : h'.Has (F.gate_CLAP_COUNT_COUNT g) (h.fget (F.gate_CLAP_COUNT_COUNT g) + 1)
  sig : h'.fget (F.gate_ING_SIG_CRC g) = (~~~ f.crc).toNat
  full : h'.is (F.gate_SIG_INFO_FULL g) = !f.su
  event : h'.bit (F.hdr_INT_STAT_EVENT (Page.gate g)) 0 = true

/-- A frame completes where the take becomes newest, its bands dirty and its signature reported. -/
theorem clapped_report (h : Hub) {g : Nat} (f : GateFrame) {x : GateSt} (hx : x.frame = none) (changed : Bool) :
    Clapped h (signClap (timeClap (makeNewest (setDirty (h.setGate g x) g (clappedDirty h g f)) g (h.fget (F.gate_STATUS_WRITING g))) g)
      g f changed) g f := by
  generalize hd : setDirty (h.setGate g x) g (clappedDirty h g f) = d
  have hgate : d.gateSt g = { x with dirty := clappedDirty h g f } := by
    rw [← hd, setDirty_gateSt, Hub.gateSt_setGate, if_pos rfl]
  have hcount : d.fget (F.gate_CLAP_COUNT_COUNT g) = h.fget (F.gate_CLAP_COUNT_COUNT g) := by
    rw [← hd]
    exact (setDirty_keptBut _ g _).fget (by decide) (by simp [A.gate_CLAP_COUNT, A.gate_DIRTY01, A.gate_DIRTY23])
  generalize ht : h.fget (F.gate_STATUS_WRITING g) = t
  generalize hn : makeNewest d g t = n
  have hkept : n.fget (F.gate_CLAP_COUNT_COUNT g) = d.fget (F.gate_CLAP_COUNT_COUNT g) := by
    rw [← hn]
    exact (makeNewest_keptBut d g t).fget (by decide) (by simp [A.gate_CLAP_COUNT, A.gate_STATUS])
  have hreport : (signClap (timeClap n g) g f changed).gateSt g = { x with dirty := clappedDirty h g f } := by
    rw [← hgate, Hub.gateSt, signClap_gates, timeClap_gates, ← hn, makeNewest_gates, Hub.gateSt]
  have status := fun (fl : Fld) (hfl : fl.key / 32 = A.gate_STATUS g) => signClap_timeClap_status n f changed hfl
  exact {
    newest := by rw [ht]; exact (status (F.gate_STATUS_NEWEST g) (Fld.key_div _ (by decide))).trans (hn ▸ makeNewest_newest d g t)
    valid := (Hub.is_congr (status (F.gate_STATUS_NEWEST_VALID g) (Fld.key_div _ (by decide)))).trans (hn ▸ makeNewest_valid d g t)
    inactive := (Hub.is_congr (status (F.gate_STATUS_WRITE_ACTIVE g) (Fld.key_div _ (by decide)))).trans
      (hn ▸ makeNewest_inactive d g t)
    frame := by rw [hreport]; exact hx
    dirty := by rw [hreport]
    count := by
      rw [← hcount, ← hkept]
      refine ((signClap_keptBut _ g f changed).fget (by decide) ?_).trans (timeClap_count n g)
      simp only [A.gate_CLAP_COUNT, A.gate_ING_SIG, A.gate_SIG_INFO, A.hdr_INT_STAT, Page.gate, List.mem_cons, List.not_mem_nil, or_false]
      omega
    sig := signClap_sig _ g f changed
    full := signClap_full _ g f changed
    event := signClap_event _ g f changed }

/-! ## What a latch leaves of a Gate (R274, R280) -/

/-- The fields that a latch may write: those of the Projectors, and LATCHED, CREDIT_HELD and the events of the Gates. -/
def LatchField (f : Fld) : Prop :=
  (Page.proj 0 ≤ f.key / 32 ∧ f.key / 32 < Page.proj 4) ∨
  ∃ j, j < 4 ∧ (f.key = (F.gate_STATUS_LATCHED j).key ∨ f.key = (F.gate_STATUS_CREDIT_HELD j).key ∨
    f.key = (F.hdr_INT_STAT_EVENT (Page.gate j)).key)

/-- A latch keeps every other field, every event of a Gate that stands, and the frame and the dirty bands of every Gate. -/
structure LatchKeeps (h h' : Hub) : Prop where
  fields : ∀ f, ¬ LatchField f → h'.fget f = h.fget f
  events : ∀ j c, j < 4 → c < 32 → h.bit (F.hdr_INT_STAT_EVENT (Page.gate j)) c = true →
    h'.bit (F.hdr_INT_STAT_EVENT (Page.gate j)) c = true
  frame : ∀ j, (h'.gateSt j).frame = (h.gateSt j).frame
  dirty : ∀ j, (h'.gateSt j).dirty = (h.gateSt j).dirty

theorem latchKeeps_refl (h : Hub) : LatchKeeps h h := ⟨fun _ _ => rfl, fun _ _ _ _ hb => hb, fun _ => rfl, fun _ => rfl⟩

theorem LatchKeeps.trans {h h' h'' : Hub} (p : LatchKeeps h h') (q : LatchKeeps h' h'') : LatchKeeps h h'' where
  fields f hf := (q.fields f hf).trans (p.fields f hf)
  events j c hj hc hb := q.events j c hj hc (p.events j c hj hc hb)
  frame j := (q.frame j).trans (p.frame j)
  dirty j := (q.dirty j).trans (p.dirty j)

/-- A fold of steps that each keep it. -/
theorem latchKeeps_foldl {α β : Type} (hub : β → Hub) (step : β → α → β) (l : List α) (b : β)
    (each : ∀ x, ∀ a ∈ l, LatchKeeps (hub x) (hub (step x a))) : LatchKeeps (hub b) (hub (l.foldl step b)) :=
  List.foldlRecOn (motive := fun x => LatchKeeps (hub b) (hub x)) l step (latchKeeps_refl _)
    fun x hx a ha => hx.trans (each x a ha)

theorem latchKeeps_setHead (h : Hub) (p : Nat) (x : ProjSt) : LatchKeeps h (h.setHead p x) :=
  ⟨fun _ _ => rfl, fun _ _ _ _ hb => hb, fun _ => rfl, fun _ => rfl⟩

/-- What a latch notes in a Gate is neither its frame nor its dirty bands. -/
theorem latchKeeps_setGate (h : Hub) (g : Nat) {x : GateSt} (hf : x.frame = (h.gateSt g).frame) (hd : x.dirty = (h.gateSt g).dirty) :
    LatchKeeps h (h.setGate g x) where
  fields _ _ := rfl
  events _ _ _ _ hb := hb
  frame j := by
    rw [Hub.gateSt_setGate]
    split
    · next e => rw [e, hf]
    · rfl
  dirty j := by
    rw [Hub.gateSt_setGate]
    split
    · next e => rw [e, hd]
    · rfl

theorem latchKeeps_fset (h : Hub) {f : Fld} (v : Nat) (hf : LatchField f)
    (he : ∀ j, j < 4 → (F.hdr_INT_STAT_EVENT (Page.gate j)).key ≠ f.key) : LatchKeeps h (h.fset f v) where
  fields f' hf' := Hub.fget_fset_other h v fun c => hf' (by unfold LatchField at hf ⊢; rwa [c])
  events j c hj _ hb := by rw [Hub.bit, Hub.fget_fset_other h v (he j hj)]; exact hb
  frame _ := rfl
  dirty _ := rfl

theorem latchKeeps_event (h : Hub) {page : Nat} (b : Nat) (hp : LatchField (F.hdr_INT_STAT_EVENT page)) :
    LatchKeeps h (h.event page b) where
  fields f hf := Hub.fget_event_other h page b fun c => hf (by unfold LatchField at hp ⊢; rwa [c])
  events j c _ hc hb := Hub.event_keeps h page b (Page.gate j) c hc hb
  frame _ := rfl
  dirty _ := rfl

/-- Writes of a Projector's fields. -/
theorem latchKeeps_projField (h : Hub) {a lo w : Nat} (v : Nat) (hl : lo < 32) (ha : Page.proj 0 ≤ a ∧ a < Page.proj 4) :
    LatchKeeps h (h.fset ⟨a, lo, w⟩ v) := by
  refine latchKeeps_fset h v (.inl (by rwa [Fld.key_div w hl])) fun j hj c => ?_
  simp only [F.hdr_INT_STAT_EVENT, A.hdr_INT_STAT, Page.gate, Page.proj, Fld.key_mk] at c ha
  omega

theorem latchKeeps_projEvent (h : Hub) {p : Nat} (b : Nat) (hp : p < 4) : LatchKeeps h (h.event (Page.proj p) b) := by
  refine latchKeeps_event h b (.inl ?_)
  simp only [F.hdr_INT_STAT_EVENT, A.hdr_INT_STAT, Page.proj, Fld.key_mk]
  omega

theorem latchKeeps_settleHeld (h : Hub) {g : Nat} (hg : g < 4) : LatchKeeps h (settleHeld h g) := by
  have held := latchKeeps_fset h (if heldNow h g then 1 else 0) (f := F.gate_STATUS_CREDIT_HELD g) (.inr ⟨g, hg, .inr (.inl rfl)⟩) (by
    intro j _
    simp only [F.hdr_INT_STAT_EVENT, A.hdr_INT_STAT, Page.gate, F.gate_STATUS_CREDIT_HELD, A.gate_STATUS, Fld.key_mk]
    omega)
  unfold settleHeld setHeld
  dsimp only
  split
  · exact held.trans (latchKeeps_event _ 9 (.inr ⟨g, hg, .inr (.inr rfl)⟩))
  · exact held

theorem latchKeeps_noteLatched (h : Hub) : LatchKeeps h (noteLatched h) := by
  refine latchKeeps_foldl id _ (List.range 4) h fun x g hg => ?_
  have hg := List.mem_range.mp hg
  refine LatchKeeps.trans (latchKeeps_fset x _ (.inr ⟨g, hg, .inl rfl⟩) ?_) (latchKeeps_settleHeld _ hg)
  intro j _
  simp only [F.hdr_INT_STAT_EVENT, A.hdr_INT_STAT, Page.gate, F.gate_STATUS_LATCHED, A.gate_STATUS, Fld.key_mk]
  omega

theorem latchKeeps_latchPlate {p : Nat} (hp : p < 4) (x : Hub × Bool) {q : Nat} (hq : q < 4) : LatchKeeps x.1 (latchPlate p x q).1 := by
  have page : Page.proj 0 ≤ A.proj_LATCHED p ∧ A.proj_LATCHED p < Page.proj 4 := by
    simp only [A.proj_LATCHED, Page.proj]
    omega
  have valid : ∀ (h : Hub) (b : Bool), LatchKeeps h (h.flag (F.proj_LATCHED_VALID p q) b) :=
    fun h b => latchKeeps_projField h _ (by omega) page
  unfold latchPlate
  dsimp only
  split
  · exact ((latchKeeps_setHead x.1 p _).trans (latchKeeps_projField _ _ (by omega) page)).trans (valid _ true)
  · exact valid x.1 false

theorem latchKeeps_clearSeen (h : Hub) (p : Nat) : LatchKeeps h (clearSeen h p) :=
  latchKeeps_foldl id _ _ h fun x g _ => latchKeeps_setGate x g rfl rfl

/-- The arming of the continuity check by a latch (R293). -/
def armAtLatch (h : Hub) (p : Nat) : Hub :=
  if (List.range 4).any (plateArms h p) && !(h.is (F.proj_CTL_STATIC_INTENT p)) && h.fget (F.proj_CONT_LIMIT p) != 0
      && !(h.is (F.proj_CONT_STAT_ARMED p)) then
    ((h.flag (F.proj_CONT_STAT_ARMED p) true).fset (F.proj_CONT_STAT_COUNT p) 0).setHead p { h.head p with reference := (h.head p).lastSig }
  else h

/-- What the Gates note of the plates that a head has latched, and LATCH_NEW. -/
def noteLatch (r : Hub × Bool) (p : Nat) : Hub :=
  if r.2 then (clearSeen (noteLatched r.1) p).event (Page.proj p) 2 else clearSeen (noteLatched r.1) p

theorem latch_eq (h : Hub) (p : Nat) : latch h p = noteLatch ((List.range 4).foldl (latchPlate p) (armAtLatch h p, false)) p := by
  unfold latch
  dsimp only
  generalize hr : (List.range 4).foldl (latchPlate p) _ = r
  have hr' : (List.range 4).foldl (latchPlate p) (armAtLatch h p, false) = r := hr
  rw [hr']
  rfl

theorem latchKeeps_armAtLatch (h : Hub) {p : Nat} (hp : p < 4) : LatchKeeps h (armAtLatch h p) := by
  have page : Page.proj 0 ≤ A.proj_CONT_STAT p ∧ A.proj_CONT_STAT p < Page.proj 4 := by
    simp only [A.proj_CONT_STAT, Page.proj]
    omega
  unfold armAtLatch
  split
  · exact ((latchKeeps_projField h _ (by decide) page).trans (latchKeeps_projField _ _ (by decide) page)).trans (latchKeeps_setHead _ p _)
  · exact latchKeeps_refl h

theorem latchKeeps_noteLatch (r : Hub × Bool) {p : Nat} (hp : p < 4) : LatchKeeps r.1 (noteLatch r p) := by
  have seen := (latchKeeps_noteLatched r.1).trans (latchKeeps_clearSeen _ p)
  unfold noteLatch
  split
  · exact seen.trans (latchKeeps_projEvent _ 2 hp)
  · exact seen

theorem latchKeeps_latch (h : Hub) {p : Nat} (hp : p < 4) : LatchKeeps h (latch h p) := by
  have plates := latchKeeps_foldl Prod.fst (latchPlate p) (List.range 4) (armAtLatch h p, false) fun r q hq =>
    latchKeeps_latchPlate hp r (List.mem_range.mp hq)
  rw [latch_eq]
  exact (latchKeeps_armAtLatch h hp).trans (plates.trans (latchKeeps_noteLatch _ hp))

/-- A second latch leaves what a first one leaves. -/
theorem latchKeeps_endExtension (h : Hub) {p : Nat} (n : Nat) (hp : p < 4) : LatchKeeps h (endExtension h p n) :=
  ((latchKeeps_setHead h p _).trans (latchKeeps_latch _ hp)).trans (latchKeeps_projEvent _ 3 hp)

/-- The fields in which a Gate shows a completed frame, its events aside. -/
def clapFields (g : Nat) : List Fld :=
  [F.gate_STATUS_NEWEST g, F.gate_STATUS_NEWEST_VALID g, F.gate_STATUS_WRITE_ACTIVE g, F.gate_CLAP_COUNT_COUNT g, F.gate_ING_SIG_CRC g,
    F.gate_SIG_INFO_FULL g]

theorem not_latchField_of_clapFields {g : Nat} (hg : g < 4) : ∀ f ∈ clapFields g, ¬ LatchField f := by
  simp only [clapFields, List.forall_mem_cons, List.not_mem_nil, false_implies, implies_true, and_true, LatchField, Page.gate, Page.proj,
    F.gate_STATUS_NEWEST, F.gate_STATUS_NEWEST_VALID, F.gate_STATUS_WRITE_ACTIVE, F.gate_CLAP_COUNT_COUNT, F.gate_ING_SIG_CRC,
    F.gate_SIG_INFO_FULL, F.gate_STATUS_LATCHED, F.gate_STATUS_CREDIT_HELD, F.hdr_INT_STAT_EVENT, A.gate_STATUS, A.gate_CLAP_COUNT,
    A.gate_ING_SIG, A.gate_SIG_INFO, A.hdr_INT_STAT, Fld.key_mk]
  and_intros <;> rintro (⟨_, _⟩ | ⟨j, hj, h | h | h⟩) <;> omega

/-- The completed frame is as the clapper leaves it, after latches too. -/
theorem Clapped.latched {h h' h'' : Hub} {g : Nat} {f : GateFrame} (hg : g < 4) (p : Clapped h h' g f) (q : LatchKeeps h' h'') :
    Clapped h h'' g f := by
  have same := fun fl (hfl : fl ∈ clapFields g) => q.fields fl (not_latchField_of_clapFields hg fl hfl)
  exact {
    newest := (same (F.gate_STATUS_NEWEST g) (by simp [clapFields])).trans p.newest
    valid := (Hub.is_congr (same (F.gate_STATUS_NEWEST_VALID g) (by simp [clapFields]))).trans p.valid
    inactive := (Hub.is_congr (same (F.gate_STATUS_WRITE_ACTIVE g) (by simp [clapFields]))).trans p.inactive
    frame := (q.frame g).trans p.frame
    dirty := (q.dirty g).trans p.dirty
    count := (same (F.gate_CLAP_COUNT_COUNT g) (by simp [clapFields])).trans p.count
    sig := (same (F.gate_ING_SIG_CRC g) (by simp [clapFields])).trans p.sig
    full := (Hub.is_congr (same (F.gate_SIG_INFO_FULL g) (by simp [clapFields]))).trans p.full
    event := q.events g 0 hg (by decide) p.event }

/-- The state of the heads does not enter. -/
theorem Clapped.of_heads {h h' : Hub} {g : Nat} {f : GateFrame} {t : Tbl ProjSt} (p : Clapped { h with heads := t } h' g f) :
    Clapped h h' g f :=
  ⟨p.newest, p.valid, p.inactive, p.frame, p.dirty, p.count, p.sig, p.full, p.event⟩

/-! ## The heads at a clapper (R280) -/

/-- What a head notes of the time that has passed it notes in its own state. -/
theorem notePassed_eq (h : Hub) (p : Nat) : ∃ t, notePassed h p = { h with heads := t } := by
  unfold notePassed
  split
  · exact ⟨_, rfl⟩
  · exact ⟨h.heads, rfl⟩

theorem foldl_notePassed_eq (h : Hub) (l : List Nat) : ∃ t, l.foldl notePassed h = { h with heads := t } := by
  refine List.foldlRecOn (motive := fun x : Hub => ∃ t, x = { h with heads := t }) l notePassed ⟨h.heads, rfl⟩ ?_
  rintro _ ⟨t, rfl⟩ p _
  obtain ⟨t', ht'⟩ := notePassed_eq { h with heads := t } p
  exact ⟨t', ht'⟩

theorem clapped_clapperSeen {h : Hub} {g : Nat} {f : GateFrame} (hg : g < 4) (hf : (h.gateSt g).frame = some f)
    (hs : (h.gateSt g).stalled = []) (hc : (f.su && dirtyOf (h.gateSt g) (h.fget (F.gate_STATUS_WRITING g)) != 0) = false) :
    Clapped h (clapperSeen h g) g f := by
  obtain ⟨t, ht⟩ := foldl_notePassed_eq h (List.range 4)
  obtain ⟨x, changed, hx, he⟩ := clapper_completes (h := { h with heads := t }) hf hs hc
  have done : Clapped h (clapper { h with heads := t } g) g f := by
    rw [he]
    exact ((clapped_report _ f hx changed).latched hg (latchKeeps_settleHeld _ hg)).of_heads
  unfold clapperSeen
  dsimp only
  rw [ht]
  split
  · refine done.latched hg (latchKeeps_foldl id _ _ _ fun y p hp => ?_)
    exact latchKeeps_endExtension y _ (List.mem_range.mp (List.mem_filter.mp hp).1)
  · exact done

/-! ## The catch-up of a band (R250, R251) -/

theorem noteRead_gates (client : Nat) (h : Hub) (b : Nat) : (noteRead client h b).gates = h.gates := by
  unfold noteRead
  dsimp only
  split <;> split <;> simp

theorem reelRead_gates (h : Hub) (m : Memory) (client a n : Nat) : (reelRead h m client a n).1.gates = h.gates :=
  List.foldlRecOn (motive := fun x : Hub => x.gates = h.gates) _ (noteRead client) rfl
    fun x hx b _ => (noteRead_gates client x b).trans hx

theorem noteWritten_gates (as : List Nat) (h : Hub) (b : Nat) : (noteWritten as h b).gates = h.gates := by
  simp [noteWritten, setBad]

theorem reelWrite_gates (h : Hub) (m : Memory) (cells : List (Nat × Byte)) : (reelWrite h m cells).1.gates = h.gates := by
  show ((blocksOf (cells.map (·.1))).foldl (noteWritten (cells.map (·.1))) h).gates = h.gates
  exact List.foldlRecOn (motive := fun x : Hub => x.gates = h.gates) _ _ rfl fun x hx b _ => (noteWritten_gates _ x b).trans hx

/-- A band that has been copied is clean. -/
theorem copyBand_dirty (h : Hub) (m : Memory) (g t band : Nat) :
    ((copyBand h m g t band).1.gateSt g).dirty =
      (h.gateSt g).dirty.set t (withBit (dirtyOf (h.gateSt g) t) band false) := by
  have moved : ∀ (x : Hub × Bytes) (a : Nat), (reelWrite x.1 m (cellsAt a x.2)).1.gateSt g = x.1.gateSt g := fun x a => by
    rw [Hub.gateSt, reelWrite_gates, Hub.gateSt]
  unfold copyBand
  dsimp only
  rw [setDirty_gateSt, moved, Hub.gateSt, reelRead_gates, ← Hub.gateSt]

/-- The catch-up engine serves the pixels that wait first (R251). -/
theorem catchUp_waiting {h : Hub} (m : Memory) {g b : Nat} {l : List Nat} (hv : h.is (F.gate_STATUS_NEWEST_VALID g) = true)
    (hd : h.domOn 12 = true) (hb : bandsDue h g (h.gateSt g).stalled = b :: l) :
    catchUp h m g = landStalled (copyBand h m g (h.fget (F.gate_STATUS_WRITING g)) b).1
      (copyBand h m g (h.fget (F.gate_STATUS_WRITING g)) b).2 g := by
  simp [catchUp, hv, hd, hb]

/-- With no pixel waiting it brings the first take of R246 up to date, which WRITING names while no frame is open (R250). -/
theorem catchUp_static {h : Hub} (m : Memory) {g k b : Nat} (hs : gateState h g = 4) (hv : h.is (F.gate_STATUS_NEWEST_VALID g) = true)
    (hd : h.domOn 12 = true) (hn : bandsDue h g (h.gateSt g).stalled = []) (hk : chooseTake h g (catchUpTakes h g) = some k)
    (hb : firstDirty (dirtyOf (h.gateSt g) k) = some b) :
    catchUp h m g =
      copyBand (if (h.gateSt g).frame.isSome then h else h.fset (F.gate_STATUS_WRITING g) k) m g k b := by
  simp [catchUp, hs, hv, hd, hn, hk, hb]

/-! ## Frames and takes -/

/-- Settles O31. A frame opens in a take of `allowedTakes`, and its credit is given at once, as no pixel waits. At the clapper the Gate's
own fields stand (`Clapped`), and the second latches of the heads that extend for it keep them (`LatchKeeps`). A copied band is
clean as the traffic of the Reel changes no Gate. -/
theorem framesAndTakes : Obligations.FramesAndTakes := by
  intro s g
  refine ⟨fun su regions hfit hf hs => ⟨fun k hk => ?opens, fun ht => ?waits⟩, fun f hf hs hc => ?clap, fun b l hv hd hb => ?waiting,
    fun k b hst hv hd hn hk hb => ?static⟩
  case opens =>
    have opened := openTake_gateSt s.hub g k (openedFrame s.hub g su regions)
    have frame := congrArg GateSt.frame opened
    have credit := settleHeld_of_frame frame ((congrArg GateSt.stalled opened).trans hs)
    obtain ⟨unlatched, old⟩ := allowedTakes_free (chooseTake_mem hk)
    refine ⟨_, rfl, ?_⟩
    dsimp only
    rw [frameStart_opens regions hfit hf hk, credit]
    refine ⟨?writing, ?active, Hub.is_flag _ (F.gate_STATUS_CREDIT_HELD g) false Nat.one_pos, frame, unlatched, old,
      (openTake_others _ _ _ _).trans (othersKept_flag _ _ _ (Fld.key_div _ (by decide)))⟩
    case writing =>
      refine (Hub.fget_fset_other _ _ ?_).trans (openTake_writing ..)
      simp [F.gate_STATUS_WRITING, F.gate_STATUS_CREDIT_HELD]
    case active =>
      refine (Hub.is_flag_other _ _ ?_).trans (openTake_active ..)
      simp [F.gate_STATUS_WRITE_ACTIVE, F.gate_STATUS_CREDIT_HELD]
  case waits =>
    refine ⟨_, rfl, ?_⟩
    dsimp only
    rw [frameStart_waits regions hfit hf ht, settleHeld, heldNow_of_noTake (gateState_of_frameFits hfit) hf ht]
    exact ⟨is_setHeld _ _ _, by rw [Hub.gateSt, setHeld_gates]; exact hf, setHeld_event _ _⟩
  case clap =>
    obtain ⟨newest, valid, inactive, frame, dirty, count, sig, full, event⟩ := clapped_clapperSeen g.isLt hf hs hc
    exact ⟨_, rfl, newest, valid, inactive, frame, dirty, count, sig, full, event, rfl⟩
  case waiting =>
    refine ⟨_, rfl, _, rfl, ?_⟩
    exact catchUp_waiting s.reel hv hd hb
  case static =>
    have copied := catchUp_static s.reel hst hv hd hn hk hb
    have kept : (if (s.hub.gateSt g).frame.isSome then s.hub else s.hub.fset (F.gate_STATUS_WRITING g) k).gates = s.hub.gates := by
      split <;> rfl
    refine ⟨_, rfl, _, kept, copied, ?_⟩
    dsimp only
    rw [copied, copyBand_dirty, Hub.gateSt, kept, ← Hub.gateSt]

end Sys2Proof.Machine
end

section
/-! The write of TURN_PHASE (R163, R694), the tokens of the shapers (R204, R206), and the pauses that a MAC receives (R328). -/

namespace Sys2Proof.Machine

/-! ## Bits of a bitmap -/

/-- Taking away the power of two of a set bit clears that bit alone. -/
theorem testBit_sub_two_pow {x n : Nat} (hx : x.testBit n = true) (m : Nat) :
    (x - 2 ^ n).testBit m = (x.testBit m && decide (m ≠ n)) := by
  obtain ⟨q, hq⟩ : ∃ q, x / 2 ^ n = 2 * q + 1 := by
    rw [Nat.testBit_eq_decide_div_mod_eq, decide_eq_true_eq] at hx
    exact ⟨x / 2 ^ n / 2, by omega⟩
  have low := Nat.mod_lt x (Nat.two_pow_pos n)
  have whole : x = 2 ^ n * (2 * q + 1) + x % 2 ^ n := by rw [← hq, Nat.div_add_mod]
  have cleared : x - 2 ^ n = 2 ^ n * (2 * q) + x % 2 ^ n := by rw [Nat.mul_add] at whole; omega
  have before : x.testBit m = if m < n then (x % 2 ^ n).testBit m else (2 * q + 1).testBit (m - n) := by
    rw [← Nat.testBit_two_pow_mul_add _ low, ← whole]
  rw [cleared, Nat.testBit_two_pow_mul_add _ low, before]
  rcases Nat.lt_trichotomy m n with below | rfl | above
  · rw [if_pos below, if_pos below, decide_eq_true (Nat.ne_of_lt below), Bool.and_true]
  · rw [if_neg (Nat.lt_irrefl m), decide_eq_false (fun ne => ne rfl), Bool.and_false, Nat.sub_self, Nat.testBit_zero]
    exact decide_eq_false (by omega)
  · obtain ⟨k, hk⟩ : ∃ k, m - n = k + 1 := ⟨m - n - 1, by omega⟩
    have high : ¬ m < n := by omega
    have halves : 2 * q / 2 = (2 * q + 1) / 2 := by omega
    rw [if_neg high, if_neg high, decide_eq_true (Nat.ne_of_gt above), Bool.and_true, hk, Nat.testBit_add_one,
      Nat.testBit_add_one, halves]

/-- A bitmap after one of its bits is written. -/
theorem testBit_withBit (x n : Nat) (b : Bool) (m : Nat) :
    (withBit x n b).testBit m = if m = n then b else x.testBit m := by
  unfold withBit
  cases b with
  | true =>
    rw [if_pos rfl, Nat.testBit_or, Nat.testBit_two_pow]
    by_cases e : m = n
    · simp [e]
    · simp [e, Ne.symm e]
  | false =>
    rw [if_neg Bool.false_ne_true]
    split
    case isTrue set =>
      rw [testBit_sub_two_pow set]
      by_cases e : m = n <;> simp [e]
    case isFalse clear =>
      by_cases e : m = n
      · simpa [e] using clear
      · simp [e]

/-- A bitmap written bit by bit. -/
theorem testBit_foldl_withBit (f : Nat → Bool) (x n m : Nat) :
    ((List.range n).foldl (fun y p => withBit y p (f p)) x).testBit m = if m < n then f m else x.testBit m := by
  induction n with
  | zero => simp
  | succ n ih =>
    rw [List.range_succ, List.foldl_append, List.foldl_cons, List.foldl_nil, testBit_withBit, ih]
    by_cases e : m = n
    · simp [e]
    · simp [e, show m < n + 1 ↔ m < n by omega]

/-- A bit of a field that has been written. -/
theorem Hub.bit_fset_same (h : Hub) (f : Fld) (v n : Nat) (hn : n < f.w) : (h.fset f v).bit f n = v.testBit n := by
  rw [Hub.bit, Hub.fget_fset_same, Nat.testBit_mod_two_pow]
  simp [hn]

/-- A bit that has been written into a field. -/
theorem Hub.bit_putBit_same (h : Hub) (f : Fld) (n : Nat) (b : Bool) (hn : n < f.w) : (h.putBit f n b).bit f n = b := by
  rw [Hub.putBit, Hub.bit_fset_same _ _ _ _ hn, testBit_withBit, if_pos rfl]

/-! ## TURN_PHASE -/

theorem invalidate_time (h : Hub) (reel : Bool) (a n : Nat) : (invalidate h reel a n).time = h.time := by
  obtain ⟨p, hp⟩ := invalidate_eq h reel a n
  rw [hp]
  rfl

theorem setTurnPhase_below (h : Hub) {ticks : Nat} (ht : ticks < 8000) :
    (setTurnPhase h ticks).fget F.sluice_TURN_PHASE_TICKS = ticks ∧ (setTurnPhase h ticks).turn.lastBoundary = some h.time := by
  rw [setTurnPhase, if_neg (by omega)]
  have taken : (h.fset F.sluice_TURN_PHASE_TICKS ticks).fget F.sluice_TURN_PHASE_TICKS = ticks := by
    rw [Hub.fget_fset_same]
    exact Nat.mod_eq_of_lt (Nat.lt_trans ht (by decide))
  exact ⟨taken, rfl⟩

theorem setTurnPhase_others (h : Hub) (ticks : Nat) : OthersKept A.sluice_TURN_PHASE h (setTurnPhase h ticks) := by
  unfold setTurnPhase
  split
  · exact othersKept_refl _ h
  · exact othersKept_fset h F.sluice_TURN_PHASE_TICKS ticks (Fld.key_div _ (by decide))

/-- What a write of TURN_PHASE leaves: a member ignores it (R163). -/
def turnPhaseWritten (h : Hub) (ticks : Nat) : Hub :=
  if h.fget F.fabric_STATE_ROLE_NOW = 2 then h else setTurnPhase h (ticks % 2 ^ 13)

/-- A write of TURN_PHASE that passes. -/
theorem exec_turnPhaseWrite_passes {s : State} {req : Req} (ticks : Word) (hw : Writes s req A.sluice_TURN_PHASE) :
    exec (.turnPhaseWrite req ticks) s =
      .next { s with hub := turnPhaseWritten (invalidate s.hub false A.sluice_TURN_PHASE 4) ticks.toNat } := by
  rw [exec_turnPhaseWrite, execTurnPhaseWrite,
    write_block hw ticks.isLt (pageAt_sluice (by decide : 0x44 < 0x1000)) (by decide) (by decide) (by decide) rfl]
  rfl

theorem turnPhaseWritten_taken {h : Hub} {ticks : Nat} (hr : h.fget F.fabric_STATE_ROLE_NOW ≠ 2) (ht : ticks % 8192 < 8000) :
    (turnPhaseWritten h ticks).fget F.sluice_TURN_PHASE_TICKS = ticks % 8192 ∧
      (turnPhaseWritten h ticks).turn.lastBoundary = some h.time := by
  rw [turnPhaseWritten, if_neg hr]
  exact setTurnPhase_below h ht

theorem turnPhaseWritten_ignored {h : Hub} {ticks : Nat} (hi : h.fget F.fabric_STATE_ROLE_NOW = 2 ∨ 8000 ≤ ticks % 8192) :
    turnPhaseWritten h ticks = h := by
  unfold turnPhaseWritten
  split
  · rfl
  · next member => exact if_pos (hi.resolve_left member)

theorem turnPhaseWritten_others (h : Hub) (ticks : Nat) : OthersKept A.sluice_TURN_PHASE h (turnPhaseWritten h ticks) := by
  unfold turnPhaseWritten
  split
  · exact othersKept_refl _ h
  · exact setTurnPhase_others h _

/-! ## Tokens -/

/-- A flow whose accumulator has given a token, under its cap (R206). -/
def earnedFlow (f : Flow) (cap : Int) : Flow := { f with acc := f.acc - 2048000, tokens := min (f.tokens + 1) cap }

/-- A class shaper whose accumulator has given a token, under its cap (R206). -/
def earnedClass (x : ClassSt) (cap : Int) : ClassSt := { x with acc := x.acc - 2048000, tokens := min (x.tokens + 1) cap }

theorem flowToken_earns {h : Hub} {p o : Nat} (live : (h.flow p o).live = true) (whole : 2048000 ≤ (h.flow p o).acc) :
    flowToken h p o = refreshOutlet (h.setFlow p o (earnedFlow (h.flow p o) (flowCap h p o))) o :=
  if_pos ⟨live, whole⟩

theorem classToken_earns {h : Hub} {o c : Nat} (hc : c < 2) (whole : 2048000 ≤ (h.cls o c).acc) :
    classToken h o c = refreshOutlet (h.setCls o c (earnedClass (h.cls o c) (classCap h o c))) o :=
  if_pos ⟨hc, whole⟩

@[simp] theorem Hub.flow_setFlow_same (h : Hub) (p o : Nat) (f : Flow) : (h.setFlow p o f).flow p o = f := by
  rw [Hub.flow, Hub.setFlow, Tbl.get_put, if_pos rfl]

@[simp] theorem Hub.cls_setCls_same (h : Hub) (o c : Nat) (x : ClassSt) : (h.setCls o c x).cls o c = x := by
  rw [Hub.cls, Hub.setCls, Tbl.get_put, if_pos rfl]

/-! ## Pauses received -/

/-- A pause frame at a MAC is counted and reported. -/
def pauseNoted (h : Hub) (e : Nat) : Hub := (h.bump (F.ethmac_PAUSE_CNT_RX e) 1).event (Page.ethmac e) 3

/-- RX_PAUSED and the pauses of all classes take new values. -/
def pausesSet (h : Hub) (e paused all : Nat) : Hub :=
  { h.fset (F.ethmac_STATUS_RX_PAUSED e) paused with net := { h.net with pauseAll := all } }

/-- The priorities paused after a PFC frame, of those paused before it. -/
def pfcPaused (old xoff xon : Nat) : Nat :=
  (List.range 8).foldl (fun m p => withBit m p ((old.testBit p || xoff.testBit p) && !(xon.testBit p))) 0

theorem testBit_pfcPaused (old xoff xon : Nat) {p : Nat} (hp : p < 8) :
    (pfcPaused old xoff xon).testBit p = ((old.testBit p || xoff.testBit p) && !(xon.testBit p)) := by
  rw [pfcPaused, testBit_foldl_withBit (fun p => (old.testBit p || xoff.testBit p) && !(xon.testBit p)), if_pos hp]

theorem pauseNoted_kept (h : Hub) (e : Nat) :
    KeptBut [A.ethmac_PAUSE_CNT e, Page.ethmac e + 0x10] h (pauseNoted h e) :=
  ((keptBut_refl _ h).fset _ (by decide) (by simp)).fset _ (by decide) (by simp [A.hdr_INT_STAT])

theorem pauseNoted_counted (h : Hub) (e : Nat) : Counted h (pauseNoted h e) (F.ethmac_PAUSE_CNT_RX e) := by
  have apart : (F.ethmac_PAUSE_CNT_RX e).key ≠ (F.hdr_INT_STAT_EVENT (Page.ethmac e)).key := by
    simp only [F.ethmac_PAUSE_CNT_RX, A.ethmac_PAUSE_CNT, F.hdr_INT_STAT_EVENT, A.hdr_INT_STAT, Page.ethmac, Fld.key_mk]
    omega
  rw [Counted, pauseNoted, Hub.fget_event_other _ _ _ apart, Hub.fget_bump, if_pos rfl]

theorem pauseNoted_event (h : Hub) (e : Nat) : (pauseNoted h e).bit (F.hdr_INT_STAT_EVENT (Page.ethmac e)) 3 = true :=
  Hub.event_set _ _ _ (by decide)

theorem pauseNoted_honour (h : Hub) (e : Nat) :
    (pauseNoted h e).is (F.ethmac_PFC_CTL_HONOUR e) = h.is (F.ethmac_PFC_CTL_HONOUR e) :=
  Hub.is_congr ((pauseNoted_kept h e).fget (by decide) (by
    simp only [List.mem_cons, List.not_mem_nil, or_false, A.ethmac_PFC_CTL, A.ethmac_PAUSE_CNT, Page.ethmac]
    omega))

theorem pauseNoted_paused (h : Hub) (e : Nat) :
    (pauseNoted h e).fget (F.ethmac_STATUS_RX_PAUSED e) = h.fget (F.ethmac_STATUS_RX_PAUSED e) :=
  (pauseNoted_kept h e).fget (by decide) (by
    simp only [List.mem_cons, List.not_mem_nil, or_false, A.ethmac_STATUS, A.ethmac_PAUSE_CNT, Page.ethmac]
    omega)

/-- The pauses set after a frame leave it counted. -/
theorem pausesSet_counted (h : Hub) (e paused all : Nat) :
    Counted h (pausesSet (pauseNoted h e) e paused all) (F.ethmac_PAUSE_CNT_RX e) := by
  have apart : (F.ethmac_PAUSE_CNT_RX e).key ≠ (F.ethmac_STATUS_RX_PAUSED e).key := by
    simp only [F.ethmac_PAUSE_CNT_RX, A.ethmac_PAUSE_CNT, F.ethmac_STATUS_RX_PAUSED, A.ethmac_STATUS, Fld.key_mk]
    omega
  exact (Hub.fget_fset_other (pauseNoted h e) paused apart).trans (pauseNoted_counted h e)

theorem pausesSet_paused (h : Hub) (e paused all : Nat) :
    (pausesSet h e paused all).fget (F.ethmac_STATUS_RX_PAUSED e) = paused % 2 ^ 8 :=
  Hub.fget_fset_same h (F.ethmac_STATUS_RX_PAUSED e) paused

theorem pausesSet_bit (h : Hub) (e paused all : Nat) {p : Nat} (hp : p < 8) :
    (pausesSet h e paused all).bit (F.ethmac_STATUS_RX_PAUSED e) p = paused.testBit p :=
  Hub.bit_fset_same h (F.ethmac_STATUS_RX_PAUSED e) paused p hp

@[simp] theorem pausesSet_all (h : Hub) (e paused all : Nat) : (pausesSet h e paused all).net.pauseAll = all := rfl

theorem pauseReceived_ignored {h : Hub} {e : Nat} (hh : h.is (F.ethmac_PFC_CTL_HONOUR e) = false) (pfc : Bool) (xoff xon : Nat) :
    pauseReceived h e pfc xoff xon = pauseNoted h e :=
  if_pos (by rw [← pauseNoted, pauseNoted_honour, hh]; rfl)

/-- An honoured 802.3x frame pauses every class, or none with a time of 0. -/
theorem pauseReceived_pause {h : Hub} {e : Nat} (hh : h.is (F.ethmac_PFC_CTL_HONOUR e) = true) (xoff xon : Nat) :
    pauseReceived h e false xoff xon =
      settlePause (pausesSet (pauseNoted h e) e (if xoff != 0 then 0xFF else 0) (withBit h.net.pauseAll e (xoff != 0))) e :=
  if_neg (by rw [← pauseNoted, pauseNoted_honour, hh]; decide)

/-- An honoured PFC frame stops and starts priorities. -/
theorem pauseReceived_pfc {h : Hub} {e : Nat} (hh : h.is (F.ethmac_PFC_CTL_HONOUR e) = true) (xoff xon : Nat) :
    pauseReceived h e true xoff xon =
      settlePause (pausesSet (pauseNoted h e) e (pfcPaused (h.fget (F.ethmac_STATUS_RX_PAUSED e)) xoff xon) h.net.pauseAll) e := by
  rw [← pauseNoted_paused h e]
  exact if_neg (by rw [← pauseNoted, pauseNoted_honour, hh]; decide)

theorem pauseExpiry_all {h : Hub} {e : Nat} (hp : h.net.pauseAll.testBit e = true) :
    pauseExpiry h e none = settlePause (pausesSet h e 0 (withBit h.net.pauseAll e false)) e :=
  if_pos hp

theorem pauseExpiry_prio {h : Hub} {e : Nat} (hp : h.net.pauseAll.testBit e = false) {p : Nat} (h8 : p < 8) :
    pauseExpiry h e (some p) = settlePause (h.putBit (F.ethmac_STATUS_RX_PAUSED e) p false) e := by
  rw [pauseExpiry, hp, if_neg Bool.false_ne_true, Nat.mod_eq_of_lt h8]

theorem exec_pauseExpiry_prio (mac : Fin 2) (prio : Fin 8) (s : State) :
    exec (.pauseExpiry mac (some prio)) s = .next { s with hub := pauseExpiry s.hub mac.val (some prio.val) } := rfl

/-- The time of an 802.3x pause is 0 as a number just when it is as a byte. -/
theorem byte_toNat_bne_zero (x : Byte) : (x.toNat != 0) = (x != 0) := by
  rw [Bool.eq_iff_iff, bne_iff_ne, bne_iff_ne, BitVec.toNat_ne]
  exact Iff.rfl

theorem pausedMask_eq (xoff : Byte) : (if xoff.toNat != 0 then 0xFF else 0) % 2 ^ 8 = if xoff = 0 then 0 else 0xFF := by
  rw [byte_toNat_bne_zero]
  by_cases go : xoff = 0
  · subst go
    rfl
  · rw [if_pos (bne_iff_ne.mpr go), if_neg go, Nat.mod_eq_of_lt (by decide : 0xFF < 2 ^ 8)]

/-! ## The obligation -/

/-- Settles O27. Each command is the equation of its outcome above; the hub `h'` of a clause is the hub before the outlet looks at
its flows again (`refreshOutlet`, `settlePause`). -/
theorem phaseTokensAndPauses : Obligations.PhaseTokensAndPauses := by
  intro s
  refine ⟨fun req ticks hw => ?phase, fun p o live whole => ?flow, fun o c whole => ?cls, fun mac xoff xon =>
    ⟨fun hh pfc => ?ignored, fun hh => ?pause, fun hh => ?pfc, fun hp => ?expiry, fun prio hp => ?prio⟩⟩
  case phase =>
    refine ⟨_, exec_turnPhaseWrite_passes ticks hw, fun hr ht => ?_, fun hi g => ?_, ?_⟩
    · rw [← invalidate_time s.hub false A.sluice_TURN_PHASE 4]
      exact turnPhaseWritten_taken (by rwa [invalidate_fget]) ht
    · dsimp only
      rw [turnPhaseWritten_ignored (by rwa [invalidate_fget]), invalidate_fget]
    · exact (othersKept_invalidate _ _ _ _ _).trans (turnPhaseWritten_others _ _)
  case flow =>
    refine ⟨_, rfl, _, ?_, ?_, ?_, flowToken_earns live whole⟩
    · rw [Hub.flow_setFlow_same]; rfl
    · rw [Hub.flow_setFlow_same]; rfl
    · exact Hub.setFlow_regs ..
  case cls =>
    refine ⟨_, rfl, _, ?_, ?_, ?_, classToken_earns c.isLt whole⟩
    · rw [Hub.cls_setCls_same]; rfl
    · rw [Hub.cls_setCls_same]; rfl
    · exact Hub.setCls_regs ..
  case ignored =>
    refine ⟨_, rfl, ?_⟩
    dsimp only
    rw [pauseReceived_ignored hh]
    exact ⟨pauseNoted_counted _ _, pauseNoted_event _ _, pauseNoted_kept _ _⟩
  case pause =>
    refine ⟨_, rfl, _, ?_, ?_, ?_, pauseReceived_pause hh _ _⟩
    · exact pausesSet_counted _ _ _ _
    · rw [pausesSet_paused, pausedMask_eq]
    · rw [pausesSet_all, testBit_withBit, if_pos rfl, byte_toNat_bne_zero]
  case pfc =>
    refine ⟨_, rfl, _, ?_, fun p hp => ?_, ?_, pauseReceived_pfc hh _ _⟩
    · exact pausesSet_counted _ _ _ _
    · rw [pausesSet_bit _ _ _ _ hp]
      exact testBit_pfcPaused _ _ _ hp
    · exact pausesSet_all _ _ _ _
  case expiry =>
    refine ⟨_, rfl, _, ?_, ?_, pauseExpiry_all hp⟩
    · exact pausesSet_paused _ _ _ _
    · rw [pausesSet_all, testBit_withBit, if_pos rfl]
  case prio =>
    refine ⟨_, exec_pauseExpiry_prio mac prio s, s.hub.putBit (F.ethmac_STATUS_RX_PAUSED mac.val) prio.val false,
      Hub.bit_putBit_same _ _ _ _ prio.isLt, ?_⟩
    dsimp only
    exact pauseExpiry_prio hp prio.isLt

end Sys2Proof.Machine
end

section
/-! Chains that arrive at a Forebay: those that begin, those that go on and those that are refused (R111, R115–R117, R139, R367). -/

namespace Sys2Proof.Machine

/-! ## What a wake leaves -/

@[simp] theorem wake_forebays (h : Hub) (d : Nat) : (wake h d).forebays = h.forebays := by
  simp only [wake, wakeUp, apply_ite Hub.forebays, Hub.setDom_forebays, ite_self]

@[simp] theorem wakeIngress_forebays (h : Hub) (i : Nat) : (wakeIngress h i).forebays = h.forebays := by
  simp only [wakeIngress, apply_ite Hub.forebays, wake_forebays, ite_self]

@[simp] theorem wakeIngress_forebay (h : Hub) (i j : Nat) : (wakeIngress h i).forebay j = h.forebay j := by
  rw [Hub.forebay, Hub.forebay, wakeIngress_forebays]

/-! ## Forebays -/

theorem Hub.forebay_setForebay_same (h : Hub) (i : Nat) (f : Forebay) : (h.setForebay i f).forebay i = f := by
  rw [Hub.forebay_setForebay, if_pos rfl]

@[simp] theorem Hub.event_forebay (h : Hub) (page b i : Nat) : (h.event page b).forebay i = h.forebay i := rfl

/-- A Forebay holds these chains now, and its high-water mark follows. -/
def Forebay.holding (f : Forebay) (l : List FbChain) : Forebay :=
  { f with chains := l, hwm := max f.hwm (fbOcc { f with chains := l }) }

@[simp] theorem Forebay.holding_chains (f : Forebay) (l : List FbChain) : (f.holding l).chains = l := rfl

/-- No chain is under way at a Forebay: what arrives next begins one. -/
def Hub.noneOpen (h : Hub) (i : Nat) : Prop := ∀ c, (h.forebay i).chains.getLast? = some c → c.closed = true

/-- A chain as it waits at the Forebay, from its first packets. -/
def newChain (h : Hub) (i hop : Nat) (packets : List Bytes) (closed : Bool) (colour : Nat) (credit : Option Nat) : FbChain :=
  { hop := hop, packets := packets, closed := closed, bad := false, colour := preColour i colour 8 (packets.getD 0 [])
    credit := credit.filter fun p => decide (packets.length ≤ h.credOn p i), entryPort := 8, taken := 0, fate := .waiting }

/-! ## A chain that is discarded at its Forebay -/

theorem refuseChain_closed (h : Hub) (i : Nat) {c : FbChain} (hc : c.closed = true) : refuseChain h i c = h := if_pos hc

/-- What the Forebay keeps of a discarded chain whose rest is still to come. -/
def refusedRest (c : FbChain) : FbChain := { c with packets := [], taken := c.taken + c.packets.length, fate := .refused }

theorem refuseChain_open (h : Hub) (i : Nat) {c : FbChain} (hc : c.closed = false) :
    refuseChain h i c = h.setForebay i { h.forebay i with chains := (h.forebay i).chains ++ [refusedRest c] } :=
  if_neg (by rw [hc]; decide)

theorem refuseChain_drops (h : Hub) (i : Nat) (c : FbChain) : ((refuseChain h i c).forebay i).drops = (h.forebay i).drops := by
  cases hc : c.closed with
  | true => rw [refuseChain_closed h i hc]
  | false => rw [refuseChain_open h i hc, Hub.forebay_setForebay_same]

theorem refuseChain_bit (h : Hub) (i : Nat) (c : FbChain) (f : Fld) (n : Nat) : (refuseChain h i c).bit f n = h.bit f n := by
  cases hc : c.closed with
  | true => rw [refuseChain_closed h i hc]
  | false => rw [refuseChain_open h i hc, Hub.bit, Hub.setForebay_fget, Hub.bit]

/-- A drop at a Forebay is counted, up to the counter's end, and raised (R116). -/
def dropCounted (h : Hub) (i : Nat) : Hub :=
  (h.setForebay i { h.forebay i with drops := min ((h.forebay i).drops + 1) (2 ^ 32 - 1) }).event Page.mill 5

@[simp] theorem dropCounted_forebay (h : Hub) (i : Nat) :
    (dropCounted h i).forebay i = { h.forebay i with drops := min ((h.forebay i).drops + 1) (2 ^ 32 - 1) } := by
  rw [dropCounted, Hub.event_forebay, Hub.forebay_setForebay_same]

theorem dropCounted_event (h : Hub) (i : Nat) : (dropCounted h i).bit (F.hdr_INT_STAT_EVENT Page.mill) 5 = true :=
  Hub.event_set _ _ _ (by decide)

/-! ## A chain that begins -/

section
variable {h : Hub} {i hop : Nat} {packets : List Bytes} {closed : Bool} {colour : Nat} {credit : Option Nat}

/-- A chain has 1–36 packets (R111). -/
theorem chainSize_ok (hne : packets ≠ []) (h36 : packets.length ≤ 36) : ¬ (packets.isEmpty || decide (36 < packets.length)) = true := by
  simp [hne, h36]

theorem chainStart_stored (hne : packets ≠ []) (h36 : packets.length ≤ 36)
    (flush : (decide (i < 20) && (h.half (2 * i)).flush && keyLossy h i hop) = false)
    (room : (credit.filter fun p => decide (packets.length ≤ h.credOn p i)) = none → fbRoom h i = true) :
    chainStart h i hop packets closed false colour credit 8 = wake (h.setForebay i
      ((h.forebay i).holding ((h.forebay i).chains ++ [newChain h i hop packets closed colour credit]))) 3 := by
  have admitted : ¬ ((credit.filter fun p => decide (packets.length ≤ h.credOn p i)).isNone && !(fbRoom h i)) = true := by
    cases hc : credit.filter fun p => decide (packets.length ≤ h.credOn p i) with
    | none => rw [room hc]; decide
    | some p => exact Bool.false_ne_true
  rw [chainStart]
  dsimp only
  rw [if_neg (chainSize_ok hne h36), if_neg Bool.false_ne_true, if_neg (by rw [flush]; decide), if_neg admitted]
  rfl

theorem chainStart_noRoom (hne : packets ≠ []) (h36 : packets.length ≤ 36) (flush : (h.half (2 * i)).flush = false)
    (full : fbRoom h i = false) : chainStart h i hop packets closed false colour none 8 =
      refuseChain (dropCounted h i) i (newChain h i hop packets closed colour none) := by
  rw [chainStart]
  dsimp only
  rw [if_neg (chainSize_ok hne h36), if_neg Bool.false_ne_true, if_neg (by rw [flush]; simp), if_pos (by rw [full]; rfl)]
  rfl

/-- A bad chain that came whole leaves no trace (R139). -/
theorem chainStart_bad (hne : packets ≠ []) (h36 : packets.length ≤ 36) : chainStart h i hop packets true true colour none 8 = h := by
  rw [chainStart]
  dsimp only
  rw [if_neg (chainSize_ok hne h36), if_pos rfl]
  rfl

theorem chainArrival_begins (ok : ingressOk h i = true) (begins : (wakeIngress h i).noneOpen i) (bad : Bool) :
    chainArrival h i hop packets closed bad colour credit 8 = chainStart (wakeIngress h i) i hop packets closed bad colour credit 8 := by
  rw [chainArrival, if_neg (by rw [ok]; simp)]
  dsimp only
  cases last : ((wakeIngress h i).forebay i).chains.getLast? with
  | none => rfl
  | some c => exact if_pos (begins c last)

end

/-! ## A chain that goes on -/

section
variable {h : Hub} {i : Nat} {c : FbChain} {packets : List Bytes} {closed : Bool}

theorem chainGoesOn_joined (hne : packets ≠ []) (fate : c.fate ≠ .refused) (h36 : c.taken + (c.packets.length + packets.length) ≤ 36) :
    chainGoesOn h i c packets closed false = h.setForebay i ((h.forebay i).holding
      ((h.forebay i).chains.dropLast ++ [{ c with packets := c.packets ++ packets, closed := closed }])) := by
  have ends : (closed && !packets.isEmpty) = closed := by simp [hne]
  rw [chainGoesOn]
  dsimp only
  rw [ends, if_neg (by rw [List.length_append]; omega)]
  cases hf : c.fate with
  | refused => exact absurd hf fate
  | waiting => rfl
  | storing n => dsimp only; rw [Bool.or_false]; rfl
  | dropped d => dsimp only; rw [Bool.or_false]; rfl

theorem chainArrival_goesOn {hop colour : Nat} {credit : Option Nat} {bad : Bool} (ok : ingressOk h i = true)
    (last : ((wakeIngress h i).forebay i).chains.getLast? = some c) (goes : c.closed = false) :
    chainArrival h i hop packets closed bad colour credit 8 = chainGoesOn (wakeIngress h i) i c packets closed bad := by
  rw [chainArrival, if_neg (by rw [ok]; simp)]
  dsimp only
  rw [last]
  exact if_neg (by rw [goes]; decide)

end

/-! ## The command -/

/-- What follows the first packets of a chain: at ingress 22 they are Penstock's next outbound TLP, and what waited goes on (R367, R372). -/
def afterFirst (i hop : Nat) (x : Hub) (m : Memory) : Hub × Memory := if i = 22 then goOn (popOutbound x hop) m else (x, m)

/-- What follows the later packets of a chain. -/
def afterNext (i : Nat) (x : Hub) (m : Memory) : Hub × Memory := if i = 22 then goOn x m else (x, m)

/-- The hop number of a chain's key: 0 from a native USB 3.2 link (R401). -/
def keyHop (h : Hub) (i hop : Nat) : Nat := if i < 12 ∧ usb3Link h i then 0 else hop

section
variable {s : State} {i : Fin 24} {hop : Nat} {packets : List Bytes} {closed bad : Bool} {colour : Nat} {credit : Option Nat} {x : Hub}

theorem exec_chainArrival_begins (h20 : i.val ≠ 20) (ok : ingressOk s.hub i.val = true)
    (begins : (wakeIngress s.hub i.val).noneOpen i.val)
    (hx : chainStart (wakeIngress s.hub i.val) i.val (keyHop s.hub i.val hop) packets closed bad colour credit 8 = x) :
    exec (.chainArrival i hop packets closed bad colour credit) s =
      .next { s with hub := (afterFirst i.val hop x s.reel).1, reel := (afterFirst i.val hop x s.reel).2 } := by
  have hub : chainArrives s.hub s.reel i.val hop packets closed bad colour credit = if i.val = 22 then popOutbound x hop else x := by
    rw [chainArrives, if_neg h20]
    dsimp only
    rw [← keyHop, chainArrival_begins ok begins, hx]
    cases last : (s.hub.forebay i.val).chains.getLast? with
    | none => simp only [Bool.and_true, beq_iff_eq]
    | some c =>
      have ended : c.closed = true := begins c (by rw [wakeIngress_forebay, last])
      simp only [ended, Bool.and_true, beq_iff_eq]
  rw [exec_chainArrival, execChainArrival, onBoth]
  dsimp only
  rw [hub, afterFirst]
  split <;> rfl

theorem exec_chainArrival_goesOn {c : FbChain} (h20 : i.val ≠ 20) (ok : ingressOk s.hub i.val = true)
    (last : ((wakeIngress s.hub i.val).forebay i.val).chains.getLast? = some c) (goes : c.closed = false)
    (hx : chainGoesOn (wakeIngress s.hub i.val) i.val c packets closed bad = x) :
    exec (.chainArrival i hop packets closed bad colour credit) s =
      .next { s with hub := (afterNext i.val x s.reel).1, reel := (afterNext i.val x s.reel).2 } := by
  have hub : chainArrives s.hub s.reel i.val hop packets closed bad colour credit = x := by
    rw [chainArrives, if_neg h20]
    dsimp only
    rw [← wakeIngress_forebay s.hub i.val, last, chainArrival_goesOn ok last goes, hx]
    exact if_neg (by simp [goes])
  rw [exec_chainArrival, execChainArrival, onBoth]
  dsimp only
  rw [hub, afterNext]

/-- A head that may not send sends nothing (R301). -/
theorem exec_chainArrival_silent (h20 : i.val = 20) (silent : headSends s.hub hop = false) :
    exec (.chainArrival i hop packets closed bad colour credit) s = .next s := by
  have hub : chainArrives s.hub s.reel i.val hop packets closed bad colour credit = s.hub := by
    rw [chainArrives, if_pos h20, if_neg (by rw [silent]; decide)]
  rw [exec_chainArrival, execChainArrival, onBoth]
  dsimp only
  rw [hub, if_neg (by omega)]

/-- A head that sends fills its stream's packets itself (R296). -/
theorem exec_chainArrival_head (h20 : i.val = 20) (sends : headSends s.hub hop = true) :
    exec (.chainArrival i hop packets closed bad colour credit) s = .next { s with
      hub := chainArrival (headPackets s.hub s.reel hop packets).1 20 hop (headPackets s.hub s.reel hop packets).2 closed bad colour credit 8 } := by
  have hub : chainArrives s.hub s.reel i.val hop packets closed bad colour credit =
      chainArrival (headPackets s.hub s.reel hop packets).1 20 hop (headPackets s.hub s.reel hop packets).2 closed bad colour credit 8 := by
    rw [chainArrives, if_pos h20, if_pos sends, h20]
  rw [exec_chainArrival, execChainArrival, onBoth]
  dsimp only
  rw [hub, if_neg (by omega)]

end

/-! ## The obligation -/

/-- Settles O20. Each clause names the hub that the Forebay's own operation leaves (`chainStart`, `chainGoesOn`); what ingress 22 adds
is `afterFirst` and `afterNext`. -/
theorem chainArrivals : Obligations.ChainArrivals := by
  rintro s i hop packets closed colour credit w hp rfl rfl ok hne
  refine ⟨fun h20 h36 begins room flush => ?stored, fun h20 c last goes fate h36 => ?joined, fun h20 h36 begins flush full => ?dropped,
    fun h20 h36 begins => ?bad, fun h20 bad =>
      ⟨exec_chainArrival_silent h20, fun sends => ⟨_, exec_chainArrival_head h20 sends, rfl⟩⟩⟩
  case stored =>
    refine ⟨_, exec_chainArrival_begins h20 ok begins (chainStart_stored hne h36 flush room), _, ?_, ?_, rfl⟩
    · rw [Hub.forebay_setForebay_same]; rfl
    · exact Hub.setForebay_regs ..
  case joined =>
    refine ⟨_, exec_chainArrival_goesOn h20 ok last goes (chainGoesOn_joined hne fate h36), _, ?_, ?_, rfl⟩
    · rw [Hub.forebay_setForebay_same, Forebay.holding_chains]
    · exact Hub.setForebay_regs ..
  case dropped =>
    refine ⟨_, exec_chainArrival_begins h20 ok begins (chainStart_noRoom hne h36 flush full), _, fun whole => ?_, fun part => ?_, ?_, ?_, rfl⟩
    · rw [refuseChain_closed _ _ whole, dropCounted_forebay]
    · rw [refuseChain_open _ _ part, Hub.forebay_setForebay_same, dropCounted_forebay]
      exact ⟨refusedRest _, rfl, rfl, rfl⟩
    · rw [refuseChain_drops, dropCounted_forebay]
    · rw [refuseChain_bit, dropCounted_event]
  case bad =>
    exact ⟨_, exec_chainArrival_begins h20 ok begins (chainStart_bad hne h36), _, rfl, rfl, rfl⟩

end Sys2Proof.Machine
end

section
/-! The read of a cell toward an outlet (R195–R200, R512): what of it reaches the TX half, and what leaves the TX halves alone. -/

namespace Sys2Proof.Machine

/-! ## Operations that read no cell and send nothing -/

/-- The TX halves hold what they held, and no cell has been read. -/
structure TxKept (h h' : Hub) : Prop where
  txq : h'.txq = h.txq
  cellsRead : h'.cellsRead = h.cellsRead

theorem TxKept.refl (h : Hub) : TxKept h h := ⟨rfl, rfl⟩

theorem TxKept.trans {h h' h'' : Hub} (a : TxKept h h') (b : TxKept h' h'') : TxKept h h'' :=
  ⟨b.txq.trans a.txq, b.cellsRead.trans a.cellsRead⟩

theorem TxKept.txEntries {h h' : Hub} (k : TxKept h h') (o : Nat) : h'.txEntries o = h.txEntries o := by
  rw [Hub.txEntries, k.txq, Hub.txEntries]

/-- A choice between two operations that keep the TX halves. -/
theorem TxKept.ite {p : Prop} [Decidable p] {h x y : Hub} (a : TxKept h x) (b : TxKept h y) : TxKept h (if p then x else y) := by
  split
  · exact a
  · exact b

theorem TxKept.foldl {α : Type} {f : Hub → α → Hub} (step : ∀ h a, TxKept h (f h a)) (l : List α) (h : Hub) : TxKept h (l.foldl f h) :=
  List.foldlRecOn (motive := TxKept h) l f (TxKept.refl h) fun b kept a _ => kept.trans (step b a)

theorem setFlow_txKept (h : Hub) (p o : Nat) (f : Flow) : TxKept h (h.setFlow p o f) := ⟨rfl, rfl⟩

theorem setCls_txKept (h : Hub) (o c : Nat) (x : ClassSt) : TxKept h (h.setCls o c x) := ⟨rfl, rfl⟩

theorem setOutlet_txKept (h : Hub) (o : Nat) (x : OutletSt) : TxKept h (h.setOutlet o x) := ⟨rfl, rfl⟩

theorem setChain_txKept (h : Hub) (c : Chain) : TxKept h (h.setChain c) := ⟨rfl, rfl⟩

theorem countRed_txKept (h : Hub) (p n : Nat) : TxKept h (countRed h p n) := ⟨rfl, rfl⟩

theorem eccLast_txKept (h : Hub) (cell row word : Nat) (uncorr : Bool) : TxKept h (eccLast h cell row word uncorr) := ⟨rfl, rfl⟩

theorem event_txKept (h : Hub) (page b : Nat) : TxKept h (h.event page b) := ⟨rfl, rfl⟩

theorem eccCorrect_txKept (h : Hub) (cell : Nat) : TxKept h (eccCorrect h cell) :=
  have counted : TxKept h (h.pbump F.hopper_ECC_CORR_LO_COUNT 1) := ⟨rfl, rfl⟩
  counted.trans ((eccLast_txKept ..).trans (event_txKept ..))

theorem eccUncorrect_txKept (h : Hub) (c : Chain) (cell : Nat) : TxKept h (eccUncorrect h c cell) :=
  have counted : TxKept h (h.bump F.hopper_ECC_UNCORR_COUNT 1) := ⟨rfl, rfl⟩
  counted.trans ((eccLast_txKept ..).trans ((event_txKept ..).trans (setChain_txKept ..)))

theorem refreshFlow_txKept (h : Hub) (o p : Nat) : TxKept h (refreshFlow h o p) := by
  have limited : TxKept h (if !(h.flow p o).queue.isEmpty && decide ((h.flow p o).tokens < 1)
      then h.setPst p { h.pst p with limitedNow := true } else h) := .ite ⟨rfl, rfl⟩ (.refl h)
  refine .ite ?_ (limited.trans (setFlow_txKept ..))
  cases (h.flow p o).tag with
  | none => exact limited.trans (setFlow_txKept ..)
  | some t => exact limited

theorem refreshClass_txKept (h : Hub) (o c : Nat) : TxKept h (refreshClass h o c) := by
  refine .ite (setCls_txKept ..) (.ite (.refl h) (.ite ?_ (setCls_txKept ..)))
  cases (h.cls o c).tag with
  | none => exact setCls_txKept ..
  | some t => exact .refl h

theorem refreshOutlet_txKept (h : Hub) (o : Nat) : TxKept h (refreshOutlet h o) :=
  (TxKept.foldl (fun h p => refreshFlow_txKept h o p) (flowsAt h o) h).trans (.foldl (fun h c => refreshClass_txKept h o c) _ _)

theorem chargeSelection_txKept (h : Hub) (o p : Nat) : TxKept h (chargeSelection h o p) := by
  have flow := setFlow_txKept h p o { h.flow p o with fprev := (h.flow p o).tag.getD 0, lastSel := turnNo h + 1, tag := none }
  rw [chargeSelection]
  dsimp only
  exact .ite (flow.trans (setCls_txKept ..)) (flow.trans ((setCls_txKept ..).trans ((setOutlet_txKept ..).trans (setCls_txKept ..))))

theorem spendTokens_txKept (h : Hub) (o p : Nat) (n : Int) : TxKept h (spendTokens h o p n) := .ite ⟨rfl, rfl⟩ ⟨rfl, rfl⟩

theorem capClass_txKept (h : Hub) (o c : Nat) : TxKept h (capClass h o c) := .ite (setCls_txKept ..) (.refl h)

theorem endFlow_txKept (h : Hub) (p o : Nat) : TxKept h (endFlow h p o) := .ite (setFlow_txKept ..) (.refl h)

theorem unqueue_txKept (h : Hub) (p o id : Nat) : TxKept h (unqueue h p o id) := by
  have capped (f : Flow) : TxKept h (capFlow (h.setFlow p o f) p o) := (setFlow_txKept ..).trans (setFlow_txKept ..)
  rw [unqueue]
  exact .ite ((capped _).trans ((capClass_txKept ..).trans (endFlow_txKept ..))) (capped _)

/-! ## The selection -/

theorem chargeSelection_chain (h : Hub) (o p id : Nat) : (chargeSelection h o p).chain id = h.chain id := by
  simp only [Hub.chain, chargeSelection, apply_ite Hub.chains, Hub.setFlow_chains, Hub.setCls_chains, Hub.setOutlet_chains, ite_self]

/-! ## The stages of a read -/

/-- The ECC of a cell that is read is acted on (R147, R149). -/
def eccRead (h : Hub) (c : Chain) (cell : HCell) : Hub :=
  let h := if cell.single then eccCorrect h cell.num else h
  if cell.double then eccUncorrect h c cell.num else h

/-- The copy toward an outlet ends marked with the cell that is read, its link word being good (R137, R149). -/
def endsHere (k : Copy) (cell : HCell) : Bool := k.endNext || (cell.double && decide (0 < k.sent) && !k.whole)

/-- The cell that is read is the chain's last. -/
def isLastCell (c : Chain) (k : Copy) : Bool := c.complete && k.sent + 1 == c.cells.length

/-- The copy has one more cell read. -/
def copySent (h : Hub) (o id : Nat) (c : Chain) (k : Copy) (cell : HCell) : Hub :=
  let c' := (h.chain id).getD c
  h.setChain { c' with copies := c'.copies.map fun x => if x.outlet == o && !x.closed then
    { x with sent := k.sent + 1, closed := endsHere k cell || isLastCell c k, ended := x.ended || endsHere k cell } else x }

/-- What stands in the TX half for the cell. -/
def readEntry (p id : Nat) (c : Chain) (k : Copy) (cell : HCell) : XEntry :=
  { chain := id, path := p, hop := k.hop, ingress := c.ingress, inHop := c.hop, lossy := c.lossy, bytes := cell.bytes
    last := endsHere k cell || isLastCell c k, marked := endsHere k cell || (isLastCell c k && (c.tailmark || cell.double)) }

/-- What the read leaves to be done in the queue: tokens, the rest of a copy that ends, the queue of a copy that has been read whole. -/
def afterRead (h : Hub) (p o id : Nat) (c : Chain) (k : Copy) (cell : HCell) : Hub :=
  let h := spendTokens h o p 1
  let h := if endsHere k cell && !k.ended then countRed h p (c.cells.length - (k.sent + 1)) else h
  let h := if endsHere k cell || isLastCell c k then unqueue h p o id else h
  let h := if wholeChains o then h.setOutlet o { h.outlet o with busy := some id } else h
  refreshOutlet h o

/-- The hub when the cell has been read out of the Hopper, and not yet handed to the TX half. -/
def cellRead (h : Hub) (o id : Nat) (c : Chain) (k : Copy) (cell : HCell) : Hub :=
  copySent (eccRead { h with cellsRead := h.cellsRead + 1 } c cell) o id c k cell

theorem eccRead_txKept (h : Hub) (c : Chain) (cell : HCell) : TxKept h (eccRead h c cell) := by
  have corrected : TxKept h (if cell.single then eccCorrect h cell.num else h) := .ite (eccCorrect_txKept ..) (.refl h)
  exact .ite (corrected.trans (eccUncorrect_txKept ..)) corrected

theorem afterRead_txKept (h : Hub) (p o id : Nat) (c : Chain) (k : Copy) (cell : HCell) : TxKept h (afterRead h p o id c k cell) := by
  rw [afterRead]
  refine .trans ?_ (refreshOutlet_txKept _ o)
  refine .trans ?_ (.ite (setOutlet_txKept ..) (.refl _))
  refine .trans ?_ (.ite (unqueue_txKept ..) (.refl _))
  exact .trans (spendTokens_txKept ..) (.ite (countRed_txKept ..) (.refl _))

theorem cellRead_txEntries (h : Hub) (o id : Nat) (c : Chain) (k : Copy) (cell : HCell) (o' : Nat) :
    (cellRead h o id c k cell).txEntries o' = h.txEntries o' :=
  ((eccRead_txKept { h with cellsRead := h.cellsRead + 1 } c cell).trans (setChain_txKept ..)).txEntries o'

theorem cellRead_cellsRead (h : Hub) (o id : Nat) (c : Chain) (k : Copy) (cell : HCell) :
    (cellRead h o id c k cell).cellsRead = h.cellsRead + 1 :=
  ((eccRead_txKept { h with cellsRead := h.cellsRead + 1 } c cell).trans (setChain_txKept ..)).cellsRead

section
variable {h : Hub} {o id : Nat} {c : Chain} {k : Copy} {cell : HCell} (p : Nat) (hc : h.chain id = some c)
  (hk : c.copies.find? (fun k => k.outlet == o && !k.closed) = some k) (hcell : c.cells[k.sent]? = some cell)
  (link : linkFails (storedLink h c k.sent cell) = false)
include hc hk hcell link

/-- A read under a good link word, stage by stage. -/
theorem readPacket_goodLink : readPacket h p o id = afterRead ((cellRead h o id c k cell).setTx o
    ((cellRead h o id c k cell).txEntries o ++ [readEntry p id c k cell])) p o id c k cell := by
  rw [readPacket, hc]
  dsimp only
  rw [hk]
  simp only [Option.map_some, Option.getD_some, hcell, link, Bool.or_false, Bool.not_false, Bool.and_true, Bool.false_eq_true, if_false]
  rfl

theorem readPacket_txEntries : (readPacket h p o id).txEntries o = h.txEntries o ++ [readEntry p id c k cell] := by
  rw [readPacket_goodLink p hc hk hcell link, (afterRead_txKept ..).txEntries, Hub.txEntries_setTx, if_pos rfl, cellRead_txEntries]

theorem readPacket_cellsRead : (readPacket h p o id).cellsRead = h.cellsRead + 1 := by
  rw [readPacket_goodLink p hc hk hcell link, (afterRead_txKept ..).cellsRead, Hub.setTx_cellsRead, cellRead_cellsRead]

end

/-! ## The command -/

/-- An outlet as it is when it selects: its flows looked at, and the watch of R135 over. -/
def readyOutlet (h : Hub) (o : Nat) : Hub := (refreshOutlet h o).setOutlet o { (refreshOutlet h o).outlet o with dead := false }

section
variable {s : State} {o : Fin 24} {p id : Nat} {q : List Nat}

/-- An outlet with a unit, no FLUSH and no chain under way serves the flow that it selects. -/
theorem exec_outletSelect_serves
    (flush : o.val < 20 → (s.hub.half (2 * o.val + 1)).flush = false ∧ ((refreshOutlet s.hub o.val).half (2 * o.val + 1)).flush = false)
    (ok : (refreshOutlet s.hub o.val).outletOk o.val = true) (cap : (unitCap (refreshOutlet s.hub o.val) o.val).1 ≠ 0)
    (idle : ((readyOutlet s.hub o.val).outlet o.val).busy = none) (sel : select (readyOutlet s.hub o.val) o.val = some p)
    (queue : ((readyOutlet s.hub o.val).flow p o.val).queue = id :: q) :
    exec (.outletSelect o) s = .next { s with
      hub := settleXoffs (if copyAsleep (readyOutlet s.hub o.val) p o.val then wakeCopy (readyOutlet s.hub o.val) p o.val
        else readPacket (chargeSelection (readyOutlet s.hub o.val) o.val p) p o.val id) } := by
  have calm : ∀ {b : Bool}, (o.val < 20 → b = false) → ¬ (o.val < 20 ∧ b = true) := by
    rintro b off ⟨h20, on⟩
    exact Bool.false_ne_true ((off h20).symm.trans on)
  have works : ¬ (¬ (refreshOutlet s.hub o.val).outletOk o.val = true ∨ (unitCap (refreshOutlet s.hub o.val) o.val).1 = 0) := by
    rintro (absent | none)
    · exact absent ok
    · exact cap none
  rw [exec_outletSelect, execOutletSelect, onHub, selects, if_neg (calm fun h => (flush h).1), outletSelect]
  dsimp only
  rw [if_neg works, if_neg (calm fun h => (flush h).2), ← readyOutlet, idle]
  dsimp only
  rw [sel]
  dsimp only
  rw [queue]

end

/-! ## The obligation -/

/-- Settles O22: the outlet either wakes the unit's domain, or reads one cell with `readPacket`, whose entry is `readEntry`. -/
theorem outletSelectReadsCell : Obligations.OutletSelectReadsCell := by
  rintro s o w p id q c k cell rfl flush ok cap idle sel queue
  have served := exec_outletSelect_serves flush ok cap idle sel queue
  refine ⟨fun asleep => ⟨_, served, ?_⟩, fun awake hc hk hcell link => ?_⟩
  · rw [← readyOutlet] at asleep ⊢
    exact congrArg settleXoffs (if_pos asleep)
  · rw [← readyOutlet] at awake hc link ⊢
    have charged := chargeSelection_txKept (readyOutlet s.hub o.val) o.val p
    have hc' := (chargeSelection_chain _ o.val p id).trans hc
    rw [linkFails_stored, ← linkFails_stored (chargeSelection (readyOutlet s.hub o.val) o.val p) c k.sent] at link
    refine ⟨_, served, _, readEntry p id c k cell, ?_, rfl, rfl, rfl, rfl, rfl, rfl, ?_,
      congrArg settleXoffs (if_neg (by rw [awake]; decide)), rfl⟩
    · rw [readPacket_txEntries p hc' hk hcell link, charged.txEntries]
    · rw [readPacket_cellsRead p hc' hk hcell link, charged.cellsRead]

end Sys2Proof.Machine
end

section
/-! Reel memory stays in its canonical form: after reset, and along every step (R257, R345). -/

namespace Sys2Proof.Machine

/-! ## Results -/

section

/-- A result that is a next state holds Reel memory in its canonical form. -/
def NextInv (r : Result) : Prop := ∀ t, r = .next t → Inv t

theorem nextInv_next {t : State} (w : Inv t) : NextInv (.next t) := by
  rintro _ ⟨⟩
  exact w

variable {s : State}

/-- A command that leaves Reel memory as it stands. -/
theorem nextInv_hub (w : Inv s) (h : Hub) : NextInv (.next { s with hub := h }) := nextInv_next w

/-- A command whose operation keeps the form. -/
theorem nextInv_both {r : Hub × Memory} (w : Memory.wf r.2 = true) : NextInv (.next { s with hub := r.1, reel := r.2 }) := nextInv_next w

theorem access_nextInv (w : Inv s) (a : Access) : NextInv (access s a) := nextInv_both (busAccess_wf s.hub a w)

/-- The Reel window answers no access beyond 4 GiB, and no next state then (R345). -/
theorem reelAccess_nextInv (w : Inv s) (a : Access) : NextInv (reelAccess s a) := by
  unfold reelAccess
  split
  · rintro _ ⟨⟩
  · exact access_nextInv w a

/-! ## Commands with a meaning of their own on Reel memory -/

theorem bmcTarget_nextInv (w : Inv s) (bs : Bytes) (n : Nat) : NextInv (bmcTarget s bs n) := by
  unfold bmcTarget
  dsimp only
  split
  · exact access_nextInv w _
  · split
    · exact access_nextInv w _
    · exact nextInv_next w

/-- SHELF loses the content of Reel memory. -/
theorem shelfEntered_nextInv (w : Inv s) : NextInv (shelfEntered s) := by
  unfold shelfEntered
  split
  · exact nextInv_next w
  · exact nextInv_next Memory.wf_nil

theorem shelfWoken_nextInv (w : Inv s) (source : WakeSource) : NextInv (shelfWoken s source) := by
  refine nextInv_next ?_
  show Memory.wf (if _ then [] else s.reel) = true
  split
  · exact Memory.wf_nil
  · exact w

theorem powerResets_nextInv (s : State) (cause : Nat) (lost : Bool) : NextInv (powerResets s cause lost) :=
  nextInv_next Memory.wf_nil

/-- The pattern test of a BIST run leaves no content, any other run the content it finds. -/
theorem bistEnds_nextInv (w : Inv s) (ms : Nat) (signatures : List (Nat × Nat)) : NextInv (bistEnds s ms signatures) := by
  refine nextInv_both (goOn_wf _ ?_)
  split
  · exact Memory.wf_nil
  · exact w

/-- An arrival stores nothing in the Reel; what waited for Penstock's next TLP may, at ingress 22. -/
theorem chainArrival_nextInv (w : Inv s) (i : Fin 24) (hop : Nat) (packets : List Bytes) (closed bad : Bool) (colour : Nat)
    (credit : Option Nat) : NextInv (exec (.chainArrival i hop packets closed bad colour credit) s) := by
  refine nextInv_both ?_
  dsimp only
  split
  · exact goOn_wf _ w
  · exact w

/-! ## Every command -/

/-- A command touches the hub alone, is an access from its requester, the one or the other by who causes it, or one of the few that
reach Reel memory or empty it, whose operations each keep the form. -/
theorem exec_nextInv (c : Instr) (w : Inv s) : NextInv (exec c s) := by
  cases c with
  | blockResetComplete | pathSetValid | weightChange | asymmetricTransitionRequest | linkUp | linkDown | releaseDone | discHoldEnd
    | attachTimeout | routerReset | admitIngress | creditGrant | outletSelect | cutThroughTimeout | patrolScrub | auditDone
    | allotmentComputed | refillPoint | pauseReceived | pauseExpiry | hpdPulseEnd | auxRequest | linkTraining | streamUp | streamDown
    | frameStart | clapper | prEnter | prExit | bwIdleDecrease | bwGrant | reelPatrol | vblank | vTotalMaxReached | underrun
    | outputStall | frameEnd | dpTrainingComplete | hpdIrq | dpoHpdChange | ethFrameReceive | ethLinkUp | ethLinkDown | switchForward
    | ageOut | nicTransmit | nicReceive | itrExpiry | xoffRepeat | pcieTlpReceive | pciePresenceChange | pcieLinkUp | pcieLinkDown
    | perstRelease | atomicop | flrFunction1 | outboundCompletion | outboundReadTimeout | wordSample | wordSend | slotReceive
    | eventArrival | standardRequest | getInfo | mailboxOut | mailboxIn | vreqTimeout | suspend | resumeKEnd | hostResume | feedback
    | audioBlock | audLock | ccAttachSeen | terminationLost | ccDebounce | drpToggle | tryDebounce | tryPeriodEnd | ccOpen
    | vbusDischarged | dischargeSlow | errorRecoveryEnd | vbusLost | sourceCapabilities | request | amsAnswer | getSourceCap
    | getSinkCapMessage | sinkCapabilities | prSwap | drSwap | vconnSwapMessage | frSwap | softResetMessage | hardResetReceived
    | eprMode | eprKeepalive | enterUsb | structuredVdm | getRevision | notSupported | transitionTimeout | eprSinkTimeout
    | sourceCapabilitiesRepeat | responseTimeout | earlyWarning | frsReturn | sample | fastTrip | offMet | rampEnd | rampTimeout
    | deadBatterySinkClose | inputSwitchover | pfwRelease | dozeEntry | idleTimeout | wakeFail | dvfsDone | distLock | distHold
    | holdoverExpiry | refFallback | pllLock | lockLoss | muxSwitchComplete | muxRescue | meterDone | xingResync | ftimeWrap | filter
    | arbitrate | cmdDone | maskRewrite | tamper | entropyFail | reseed | syncWord | roundTrip | leatLinkUp | leatLinkDown
    | hashGraceExpiry | frameCounterLimit | leatFrameReceive | msgRx | resetN | wdtWarn | wdt | boot | recoveryImage | gpioEdge
    | busDone | spiDone | uartReceive | attention | discoveryResponse | connectChange | classRequest | audLockLoss | entropyRecovery
    | distResume | pathSetInvalid | enumerated | sinkTxOk => exact nextInv_hub w _
  | registerWrite | intForce | commitGo | blockReset | ownerWrite | padRelease | pairLoRead | pairHiWrite | pairLoWrite | release
    | attach | dpOutBind | dpInSrc | sliceReset | auditGo | injectSingle | injectDouble | injectLink | pathEntryWrite | mcastWrite
    | profileWrite | counterWrite | groupsActiveWrite | forebayHwm | freeLwm | turnPhaseWrite | computeMax | depthHwm | gateEnable
    | edidValid | reelInjectSingle | reelInjectDouble | utilHwm | projEnable | projDisable | projRetrain | dpoRetrain | sigPop
    | fdbRead | fdbWrite | fdbDelete | fdbFlushDynamic | logClear | wordWrite | inboxRead | connect | disconnect | remoteWake
    | sendSrcCap | psRdy | getSinkCap | vconnSwap | softReset | hardReset | discover | exitMode | errorRecovery | forceTrip | chEn
    | energyClr | extremes | dvfsTargetWrite | shelfEnter | bmcShelf | monExt | refSelect | domsrcWrite | meterGo | claim | complete
    | stackReset | dbSet | dbClr | extend | derive | generate | gcmEnc | gcmDec | sign | quote | pubkey | ecdh | random | clear
    | provision | endorse | measLock | tamperLock | tlogClear | cfgHashWrite | keySlotWrite | roll | txGo | wdtKick | wdtCtlWrite
    | soft | coreReset | run | loadStart | loadData | loadDone | bistGo | abort | busGo | spiGo | uartTx | busRx | spiRx | uartRx =>
    exact nextInv_both (busAccess_wf _ _ w)
  | retrain by_ | eventRaise by_ | hidSend by_ | notify by_ =>
    cases by_ with
    | none => exact nextInv_hub w _
    | some req => exact nextInv_both (busAccess_wf _ _ w)
  | pwrPolicyWrite _ group =>
    cases group with
    | none => exact nextInv_both (busAccess_wf _ _ w)
    | some g => exact nextInv_both (busAccess_wf _ _ w)
  | tokenEarned shaper =>
    cases shaper with
    | flow p o => exact nextInv_hub w _
    | cls o c => exact nextInv_hub w _
  | isochronousPacket _ p =>
    cases p with
    | play frames => exact nextInv_hub w _
    | capture n => exact nextInv_hub w _
  | bmcAccess => exact bmcTarget_nextInv w _ _
  | reelWindowRead | reelWindowWrite => exact reelAccess_nextInv w _
  | regRead => exact nextInv_both (dockRead_wf _ _ _ _ w)
  | regWrite => exact nextInv_both (dockWrite_wf _ _ _ _ _ _ w)
  | wakeTimeout => exact nextInv_both (goOn_wf _ (wakeTimeout_wf _ _ w))
  | internalTimeout => exact nextInv_both (goOn_wf _ (internalTimeout_wf _ _ w))
  | forcedGate => exact nextInv_both (goOn_wf _ (forcedGate_wf _ _ w))
  | profileReentry | flrFunction0 | busReset => exact nextInv_both (goOn_wf _ w)
  | sliceResetComplete => exact nextInv_both (sliceResetEnds_wf _ _ w)
  | turnBoundary => exact nextInv_both (turnBoundary_wf _ w)
  | chainArrival => exact chainArrival_nextInv w _ _ _ _ _ _ _
  | departure => exact nextInv_both (departs_wf _ _ _ _ w)
  | catchUpBand => exact nextInv_both (catchUp_wf _ _ w)
  | lowPowerEntryComplete => exact nextInv_both (entryComplete_wf _ _ w)
  | domainReady => exact nextInv_both (domainReady_wf _ _ w)
  | shelfEntryComplete => exact shelfEntered_nextInv w
  | shelfWake => exact shelfWoken_nextInv w _
  | por | bor => exact powerResets_nextInv s _ _
  | bistDone => exact bistEnds_nextInv w _ _

theorem tick_nextInv (w : Inv s) : NextInv (tick s) := by
  unfold tick
  split
  · exact nextInv_hub w _
  · exact nextInv_next w

end

/-! ## Reset and steps -/

/-- Settles O3: no byte is listed after reset. -/
theorem resetInv : Obligations.ResetInv := Memory.wf_nil

/-- Settles O4, by the cases of a step: a tick of TIME on an empty queue, else the command at the front. -/
theorem stepKeepsInv : Obligations.StepKeepsInv := by
  intro s t w hstep
  unfold step at hstep
  split at hstep
  · exact tick_nextInv w t hstep
  · next c rest _ => exact exec_nextInv (s := { s with pending := rest }) c w t hstep

end Sys2Proof.Machine
end

section
/-! The upkeep of the Reel controller: the patrol scrub, INJECT and the mark of its use (R12, R268). -/

namespace Sys2Proof.Machine

/-! ## The patrol scrub -/

/-- What the scrub leaves of a block that it reads. -/
def scrubbed (h : Hub) (b : Nat) : Hub :=
  moved (setBad (noteRead Client.scrub h b) b (badOf h b - badOf h b % 2)) (1 + badOf h b % 2)

theorem reelPatrol_reads {h : Hub} {b : Nat} (hp : h.fget F.reel_SCRUB_PERIOD_S ≠ 0) (hb : b < 2 ^ 26) : reelPatrol h b = scrubbed h b :=
  if_neg (not_or.mpr ⟨hp, Nat.not_le.mpr hb⟩)

theorem badOf_scrubbed (h : Hub) (b : Nat) : badOf (scrubbed h b) b = badOf h b - badOf h b % 2 := Tbl.get_put_same ..

/-! ## INJECT -/

/-- A write of INJECT arms what it names 1 and leaves the other as it stands. -/
def injectArmed (h : Hub) (single double : Nat) : Hub :=
  let h := h.fset F.reel_INJECT_SINGLE (h.fget F.reel_INJECT_SINGLE ||| single)
  h.fset F.reel_INJECT_DOUBLE (h.fget F.reel_INJECT_DOUBLE ||| double)

theorem storeWord_INJECT (h : Hub) (v : Nat) : storeWord h A.reel_INJECT v = injectArmed h (v % 2) (v / 2 % 2) := by
  have stored : storeWord h A.reel_INJECT v = injectArmed h (v / 2 ^ 0 % 2 ^ 1) (v / 2 ^ 1 % 2 ^ 1) := rfl
  simpa using stored

theorem write_INJECT {s : State} {req : Req} {v : Nat} (hw : Writes s req A.reel_INJECT) (hv : v < 2 ^ 32) :
    busWrite s req A.reel_INJECT v =
      .next { s with hub := injectArmed (invalidate s.hub false A.reel_INJECT 4) (v % 2) (v / 2 % 2) } := by
  rw [write_block hw hv (pageAt_reel (by decide : 0x68 < 0x1000)) (by decide) (by decide) (by decide) rfl, ← storeWord_INJECT]
  rfl

theorem injectArmed_others (h : Hub) (x y : Nat) : OthersKept A.reel_INJECT h (injectArmed h x y) :=
  (othersKept_fset h F.reel_INJECT_SINGLE _ rfl).trans (othersKept_fset _ F.reel_INJECT_DOUBLE _ rfl)

theorem injectArmed_single (h : Hub) (x y : Nat) : (injectArmed h x y).Has F.reel_INJECT_SINGLE (h.fget F.reel_INJECT_SINGLE ||| x) :=
  (Hub.fget_fset_other _ _ (by decide)).trans (Hub.fget_fset_same ..)

theorem injectArmed_double (h : Hub) (x y : Nat) : (injectArmed h x y).Has F.reel_INJECT_DOUBLE (h.fget F.reel_INJECT_DOUBLE ||| y) := by
  refine (Hub.fget_fset_same ..).trans ?_
  rw [Hub.fget_fset_other _ _ (by decide)]

/-- A bit that is armed reads 1. -/
theorem Hub.Has.is_or_one {h : Hub} {f : Fld} {n : Nat} (p : h.Has f (n ||| 1)) (hw : 0 < f.w) : h.is f = true := by
  have odd : h.bit f 0 = true := by
    rw [Hub.bit, p, Nat.testBit_mod_two_pow, Nat.testBit_or]
    simp [hw]
  rw [Hub.is, bne_iff_ne]
  intro zero
  rw [Hub.bit, zero] at odd
  exact absurd odd (by decide)

/-! ## UTIL_HWM -/

theorem readWord_UTIL_HWM (h : Hub) (req : Req) :
    readWord h req A.reel_UTIL_HWM = (h.fset F.reel_UTIL_HWM_BLOCKS (h.fget F.reel_UTIL_BLOCKS), wordValue h A.reel_UTIL_HWM) := rfl

/-- Settles O32: the errors of a block are no field, so the scrub notes what it read and mends beside it; INJECT is two bits that
latch; the mark is written by its own read. -/
theorem reelUpkeep : Obligations.ReelUpkeep := by
  intro s req
  refine ⟨fun b hp hb => ?patrol, fun hw => ⟨?single, ?double⟩, fun hr => ?mark⟩
  case patrol =>
    refine ⟨_, rfl, ?_⟩
    dsimp only
    rw [reelPatrol_reads hp hb]
    exact ⟨badOf_scrubbed _ b, rfl, rfl⟩
  case single =>
    refine ⟨_, write_INJECT hw (by decide), (injectArmed_single ..).is_or_one Nat.one_pos, ?keepsDouble,
      OthersKept.trans (othersKept_invalidate _ _ _ _ _) (injectArmed_others _ _ _), rfl⟩
    case keepsDouble =>
      have kept := injectArmed_double (invalidate s.hub false A.reel_INJECT 4) 1 0
      rwa [Nat.or_zero, invalidate_fget] at kept
  case double =>
    refine ⟨_, write_INJECT hw (by decide), (injectArmed_double ..).is_or_one Nat.one_pos, ?keepsSingle,
      OthersKept.trans (othersKept_invalidate _ _ _ _ _) (injectArmed_others _ _ _), rfl⟩
    case keepsSingle =>
      have kept := injectArmed_single (invalidate s.hub false A.reel_INJECT 4) 0 1
      rwa [Nat.or_zero, invalidate_fget] at kept
  case mark =>
    obtain ⟨t, ht, hout, hfget, hreel, -⟩ := busRead_answers s req A.reel_UTIL_HWM hr
    rw [readWord_UTIL_HWM] at hout hfget
    refine ⟨t, ht, hout, hreel, ?mark, fun f hf => ?others⟩
    case mark => exact (hfget _).trans (Hub.fget_fset_same ..)
    case others => exact (hfget f).trans (othersKept_fset _ F.reel_UTIL_HWM_BLOCKS _ rfl f hf)

end Sys2Proof.Machine
end

section
/-! The Gates: what their operations leave of the window, of the credit and of the stream (R34, R235–R239, R248, R253, R254). -/

namespace Sys2Proof.Machine

/-! ## Words that are kept -/

theorem KeptBut.mono {l l' : List Nat} {h h' : Hub} (p : KeptBut l h h') (sub : l ⊆ l') : KeptBut l' h h' :=
  fun f hf => p f fun c => hf (sub c)

theorem KeptBut.trans {l : List Nat} {h h' h'' : Hub} (p : KeptBut l h h') (q : KeptBut l h' h'') : KeptBut l h h'' :=
  fun f hf => (q f hf).trans (p f hf)

/-- An event writes INT_STAT of its page. -/
theorem KeptBut.event {l : List Nat} {h h' : Hub} (p : KeptBut l h h') {page : Nat} (b : Nat) (hm : page + 0x10 ∈ l) :
    KeptBut l h (h'.event page b) :=
  p.fset (a := A.hdr_INT_STAT page) _ (by decide) hm

theorem KeptBut.is {l : List Nat} {h h' : Hub} (p : KeptBut l h h') {a lo w : Nat} (hl : lo < 32) (ha : a ∉ l) :
    h'.is ⟨a, lo, w⟩ = h.is ⟨a, lo, w⟩ :=
  Hub.is_congr (p.fget hl ha)

/-- The events of a page whose INT_STAT is kept. -/
theorem KeptBut.eventBit {l : List Nat} {h h' : Hub} (p : KeptBut l h h') {page b : Nat} (ha : page + 0x10 ∉ l)
    (hb : h.bit (F.hdr_INT_STAT_EVENT page) b = true) : h'.bit (F.hdr_INT_STAT_EVENT page) b = true := by
  have same := p.fget (a := A.hdr_INT_STAT page) (lo := 0) (w := 32) (by decide) ha
  exact (congrArg (·.testBit b) same).trans hb

/-- Where INT_STAT of a Gate stands. -/
theorem gate_INT_STAT (g : Nat) : Page.gate g + 0x10 = 0x60010 + 0x1000 * g := by
  unfold Page.gate
  omega

/-! ## Ingest credit -/

/-- CREDIT_HELD and the event of its rise are all that is written. -/
theorem setHeld_other (h : Hub) (g : Nat) (b : Bool) {f : Fld} (hc : f.key ≠ (F.gate_STATUS_CREDIT_HELD g).key)
    (he : f.key ≠ (F.hdr_INT_STAT_EVENT (Page.gate g)).key) : (setHeld h g b).fget f = h.fget f := by
  unfold setHeld
  dsimp only
  split
  · rw [Hub.fget_event_other _ _ _ he]
    exact Hub.fget_fset_other _ _ hc
  · exact Hub.fget_fset_other _ _ hc

theorem settleHeld_keptBut (h : Hub) (g : Nat) : KeptBut [A.gate_STATUS g, Page.gate g + 0x10] h (settleHeld h g) := by
  intro f hf
  refine setHeld_other h g _ (fun c => hf ?_) fun c => hf ?_
  · rw [c, F.gate_STATUS_CREDIT_HELD, Fld.key_div _ (by decide)]
    simp
  · rw [c, F.hdr_INT_STAT_EVENT, Fld.key_div _ (by decide), A.hdr_INT_STAT]
    simp

theorem settleHeld_gateSt (h : Hub) (g i : Nat) : (settleHeld h g).gateSt i = h.gateSt i := by
  rw [Hub.gateSt, settleHeld, setHeld_gates, Hub.gateSt]

/-- The other fields of STATUS stand. -/
theorem setHeld_status (h : Hub) (g : Nat) (b : Bool) {lo w : Nat} (hl : lo < 32) (hc : lo ≠ 13) :
    (setHeld h g b).fget ⟨A.gate_STATUS g, lo, w⟩ = h.fget ⟨A.gate_STATUS g, lo, w⟩ := by
  refine setHeld_other h g b ?_ ?_
  all_goals
    simp only [F.gate_STATUS_CREDIT_HELD, F.hdr_INT_STAT_EVENT, A.gate_STATUS, A.hdr_INT_STAT, gate_INT_STAT, Fld.key_mk]
    omega

theorem settleHeld_state (h : Hub) (g : Nat) : gateState (settleHeld h g) g = gateState h g :=
  setHeld_status h g _ (by decide) (by decide)

/-- An event of the Gate that stands is kept. -/
theorem settleHeld_event (h : Hub) (g : Nat) {b : Nat} (hb : b < 32) (hs : h.bit (F.hdr_INT_STAT_EVENT (Page.gate g)) b = true) :
    (settleHeld h g).bit (F.hdr_INT_STAT_EVENT (Page.gate g)) b = true := by
  have flagged : (h.flag (F.gate_STATUS_CREDIT_HELD g) (heldNow h g)).bit (F.hdr_INT_STAT_EVENT (Page.gate g)) b = true := by
    rw [Hub.bit, Hub.flag, Hub.fget_fset_other _ _ (creditHeld_key_ne_event g).symm]
    exact hs
  unfold settleHeld setHeld
  dsimp only
  split
  · exact Hub.event_keeps _ _ _ _ _ hb flagged
  · exact flagged

/-- The fields of a Projector stand above those of the Gates. -/
theorem setHeld_proj (h : Hub) {g : Nat} (b : Bool) {f : Fld} (hg : g < 4) (hf : 32 * Page.proj 0 ≤ f.key) :
    (setHeld h g b).fget f = h.fget f := by
  refine setHeld_other h g b ?_ ?_
  all_goals
    simp only [F.gate_STATUS_CREDIT_HELD, F.hdr_INT_STAT_EVENT, A.gate_STATUS, A.hdr_INT_STAT, gate_INT_STAT, Page.proj, Fld.key_mk] at hf ⊢
    omega

/-- Whether a take is latched does not hang on the credit. -/
theorem takeLatched_setHeld (h : Hub) {g : Nat} (b : Bool) (hg : g < 4) (t : Nat) :
    takeLatched (setHeld h g b) g t = takeLatched h g t := by
  have valid : ∀ p q, (setHeld h g b).is (F.proj_LATCHED_VALID p q) = h.is (F.proj_LATCHED_VALID p q) := fun p q =>
    Hub.is_congr (setHeld_proj h b hg (by simp only [F.proj_LATCHED_VALID, A.proj_LATCHED, Page.proj, Fld.key_mk]; omega))
  have take : ∀ p q, (setHeld h g b).fget (F.proj_LATCHED_TAKE p q) = h.fget (F.proj_LATCHED_TAKE p q) := fun p q =>
    setHeld_proj h b hg (by simp only [F.proj_LATCHED_TAKE, A.proj_LATCHED, Page.proj, Fld.key_mk]; omega)
  have kind : ∀ f, (setHeld h g b).aget f = h.aget f := by
    intro f
    unfold setHeld
    dsimp only
    split <;> rfl
  simp only [takeLatched, valid, take, kind]

/-- What the credit follows does not hang on the credit. -/
theorem heldNow_setHeld (h : Hub) {g : Nat} (b : Bool) (hg : g < 4) : heldNow (setHeld h g b) g = heldNow h g := by
  have gate : (setHeld h g b).gateSt g = h.gateSt g := by rw [Hub.gateSt, setHeld_gates, Hub.gateSt]
  have state : gateState (setHeld h g b) g = gateState h g := setHeld_status h g b (by decide) (by decide)
  have valid : (setHeld h g b).is (F.gate_STATUS_NEWEST_VALID g) = h.is (F.gate_STATUS_NEWEST_VALID g) :=
    Hub.is_congr (setHeld_status h g b (by decide) (by decide))
  have newest : (setHeld h g b).fget (F.gate_STATUS_NEWEST g) = h.fget (F.gate_STATUS_NEWEST g) :=
    setHeld_status h g b (by decide) (by decide)
  have takes : (setHeld h g b).fget (F.gate_CTL_TAKES g) = h.fget (F.gate_CTL_TAKES g) := by
    refine setHeld_other h g b ?_ ?_
    all_goals
      simp only [F.gate_CTL_TAKES, F.gate_STATUS_CREDIT_HELD, F.hdr_INT_STAT_EVENT, A.gate_CTL, A.gate_STATUS, A.hdr_INT_STAT,
        gate_INT_STAT, Fld.key_mk]
      omega
  simp only [heldNow, allowedTakes, takeCount, gate, state, valid, newest, takes, takeLatched_setHeld h b hg]

theorem is_settleHeld (h : Hub) {g : Nat} (hg : g < 4) :
    (settleHeld h g).is (F.gate_STATUS_CREDIT_HELD g) = heldNow (settleHeld h g) g := by
  rw [settleHeld, is_setHeld, heldNow_setHeld h _ hg]

/-! ## AUX answers and training (R235–R237) -/

/-! A Gate that is not DISABLED answers. -/

theorem auxRequest_edidRead {h : Hub} {g : Nat} (hs : gateState h g ≠ 0) (off len : Nat) :
    auxRequest h g (.edidRead off len) = h.emit (.auxReply g (((edidBytes h g).drop off).take len)) := if_neg hs

theorem auxRequest_dpcdRead {h : Hub} {g : Nat} (hs : gateState h g ≠ 0) (addr len : Nat) :
    auxRequest h g (.dpcdRead addr len) = h.emit (.auxReply g ((List.range len).map fun k => dpcdByte h g (addr + k))) := if_neg hs

theorem auxRequest_dpcdWrite {h : Hub} {g : Nat} (hs : gateState h g ≠ 0) (addr : Nat) (bs : Bytes) :
    auxRequest h g (.dpcdWrite addr bs) = (dpcdStore h g addr bs).emit (.auxReply g []) := if_neg hs

/-- An address of the DPCD without a field reads 0. -/
theorem dpcdByte_noField {h : Hub} {g a : Nat} (ha : Config.dpcdField a = 0) : dpcdByte h g a = 0 := by
  unfold dpcdByte
  dsimp only
  rw [ha]
  rfl

/-- The link of a Gate after a training. -/
def trainedGate (h : Hub) (g rate lanes : Nat) : Hub :=
  (h.setGate g { h.gateSt g with rate := rate, lanes := lanes }).fset (F.gate_STATUS_STATE g) 2

theorem linkTraining_succeeds {h : Hub} {g rate lanes : Nat} (h0 : gateState h g ≠ 0) (h2 : gateState h g ≤ 2)
    (hpd : (h.gateSt g).hpd = true) (hr : rate ≤ gateMaxRate h g) (hl : lanes ≤ lanesOf (h.fget (F.gate_DP_CAP_LANES g)))
    (hw : lanes = 1 ∨ lanes = 2 ∨ lanes = 4) : linkTraining h g rate lanes = settleHeld (trainedGate h g rate lanes) g := by
  have width : (lanes == 1 || lanes == 2 || lanes == 4) = true := by simpa [or_assoc] using hw
  have noStream : ¬ 3 ≤ gateState h g := by omega
  have fits : ¬ (gateState h g = 0 ∨ (!(h.gateSt g).hpd) = true ∨ gateMaxRate h g < rate ∨
      lanesOf (h.fget (F.gate_DP_CAP_LANES g)) < lanes ∨ (!(lanes == 1 || lanes == 2 || lanes == 4)) = true) := by
    simp [h0, hpd, width, Nat.not_lt.mpr hr, Nat.not_lt.mpr hl]
  rw [linkTraining, if_neg fits, if_neg noStream]
  rfl

theorem trainedGate_keptBut (h : Hub) (g rate lanes : Nat) :
    KeptBut [A.gate_STATUS g, Page.gate g + 0x10] h (trainedGate h g rate lanes) :=
  (keptBut_refl _ h).fset _ (by decide) (by simp)

theorem trainedGate_gateSt (h : Hub) (g rate lanes : Nat) :
    (trainedGate h g rate lanes).gateSt g = { h.gateSt g with rate := rate, lanes := lanes } := by
  rw [trainedGate, Hub.gateSt, Hub.fset_gates, ← Hub.gateSt, Hub.gateSt_setGate, if_pos rfl]

/-- Settles O29: an answer is an emission beside the window; a training within the bounds is the one store of the state, after which
the credit follows. -/
theorem gateAuxAndTraining : Obligations.GateAuxAndTraining := by
  intro s g h0
  refine ⟨fun off len => ⟨_, rfl, ?edid⟩, fun addr len => ⟨_, rfl, ?dpcd⟩, fun addr bs => ⟨_, rfl, ?write⟩,
    fun rate lanes h2 hpd hr hl hw => ⟨_, rfl, ?train⟩⟩
  case edid =>
    dsimp only
    rw [auxRequest_edidRead h0]
    exact ⟨rfl, rfl⟩
  case dpcd =>
    dsimp only
    rw [auxRequest_dpcdRead h0]
    exact ⟨rfl, fun k hk => dpcdByte_noField hk, rfl⟩
  case write =>
    dsimp only
    rw [auxRequest_dpcdWrite h0]
    exact ⟨rfl, rfl⟩
  case train =>
    have trained := trainedGate_gateSt s.hub g rate lanes
    dsimp only
    rw [linkTraining_succeeds h0 h2 hpd hr hl hw, settleHeld_gateSt, trained]
    refine ⟨?state, rfl, rfl, is_settleHeld _ g.isLt, KeptBut.trans (trainedGate_keptBut _ _ _ _) (settleHeld_keptBut _ _)⟩
    case state => exact (settleHeld_state ..).trans (Hub.fget_fset_same ..)

end Sys2Proof.Machine
end

section
/-! The streams of a Gate: MSA, Panel Replay and bandwidth (R239, R248, R253, R254). -/

namespace Sys2Proof.Machine

theorem KeptBut.setGate {l : List Nat} {h h' : Hub} (p : KeptBut l h h') (g : Nat) (x : GateSt) : KeptBut l h (h'.setGate g x) := p

/-! ## Bandwidth requests (R253) -/

theorem requestBw_auto {h : Hub} {g : Nat} (ha : h.is (F.gate_CTL_BW_AUTO g) = true) (mbps : Nat) :
    requestBw h g mbps = (h.fset (F.gate_BW_REQ_MBPS g) mbps).emit (.bwRequest g (mbps % 2 ^ 17)) := if_pos ha

theorem requestBw_manual {h : Hub} {g : Nat} (ha : h.is (F.gate_CTL_BW_AUTO g) = false) (mbps : Nat) : requestBw h g mbps = h :=
  if_neg (by simp [ha])

theorem requestBw_keptBut (h : Hub) (g mbps : Nat) : KeptBut [A.gate_BW_REQ g] h (requestBw h g mbps) := by
  unfold requestBw
  split
  · exact (keptBut_refl _ h).fset (a := A.gate_BW_REQ g) mbps (by decide) (by simp)
  · exact keptBut_refl _ h

theorem requestBw_gateSt (h : Hub) (g mbps i : Nat) : (requestBw h g mbps).gateSt i = h.gateSt i := by
  unfold requestBw
  split <;> rfl

/-- STATUS and the events of the Gate stand at a request. -/
theorem requestBw_state (h : Hub) (g mbps : Nat) : gateState (requestBw h g mbps) g = gateState h g :=
  (requestBw_keptBut h g mbps).fget (by decide) (by simp [A.gate_STATUS, A.gate_BW_REQ])

theorem requestBw_event {h : Hub} {g b : Nat} (mbps : Nat) (hb : h.bit (F.hdr_INT_STAT_EVENT (Page.gate g)) b = true) :
    (requestBw h g mbps).bit (F.hdr_INT_STAT_EVENT (Page.gate g)) b = true :=
  (requestBw_keptBut h g mbps).eventBit (by simp [gate_INT_STAT, A.gate_BW_REQ]) hb

/-- What BW_AUTO requests. -/
theorem requestBw_requests {h : Hub} {g : Nat} (ha : h.is (F.gate_CTL_BW_AUTO g) = true) (mbps : Nat) :
    (requestBw h g mbps).Has (F.gate_BW_REQ_MBPS g) mbps ∧ (requestBw h g mbps).out = h.out ++ [.bwRequest g (mbps % 2 ^ 17)] := by
  rw [requestBw_auto ha]
  exact ⟨(Hub.emit_fget ..).trans (Hub.fget_fset_same ..), rfl⟩

/-! ## The start of a stream (R239) -/

/-- The registers that report a stream, and STATUS. -/
theorem noteStream_keptBut (h : Hub) (g : Nat) (m : Msa) :
    KeptBut [A.gate_FRAME_SIZE g, A.gate_SRC_FMT g, A.gate_STATUS g] h (noteStream h g m) :=
  ((((((keptBut_refl _ h).fset _ (by decide) (by simp)).fset _ (by decide) (by simp)).fset _ (by decide) (by simp)).fset _ (by decide)
    (by simp)).fset _ (by decide) (by simp)).fset (a := A.gate_STATUS g) _ (by decide) (by simp) |>.setGate g _

theorem noteStream_gateSt (h : Hub) (g : Nat) (m : Msa) : (noteStream h g m).gateSt g = { h.gateSt g with msa := some m } := by
  rw [noteStream, Hub.gateSt_setGate, if_pos rfl]
  rfl

/-- FRAME_SIZE is written before SRC_FMT and STATUS. -/
theorem noteStream_size (h : Hub) (g : Nat) (m : Msa) :
    (noteStream h g m).Has (F.gate_FRAME_SIZE_H g) m.h ∧ (noteStream h g m).Has (F.gate_FRAME_SIZE_V g) m.v := by
  have later : KeptBut [A.gate_SRC_FMT g, A.gate_STATUS g] ((h.fset (F.gate_FRAME_SIZE_H g) m.h).fset (F.gate_FRAME_SIZE_V g) m.v)
      (noteStream h g m) :=
    ((((keptBut_refl _ _).fset _ (by decide) (by simp)).fset _ (by decide) (by simp)).fset _ (by decide) (by simp)).fset
      (a := A.gate_STATUS g) _ (by decide) (by simp) |>.setGate g _
  have away : A.gate_FRAME_SIZE g ∉ [A.gate_SRC_FMT g, A.gate_STATUS g] := by
    simp [A.gate_FRAME_SIZE, A.gate_SRC_FMT, A.gate_STATUS]
  refine ⟨(later.fget (by decide) away).trans ((Hub.fget_fset_other _ _ ?_).trans (Hub.fget_fset_same ..)),
    (later.fget (by decide) away).trans (Hub.fget_fset_same ..)⟩
  simp [F.gate_FRAME_SIZE_V]

/-- A stream that fits starts. -/
def startStream (h : Hub) (g : Nat) (m : Msa) : Hub := ((noteStream h g m).fset (F.gate_STATUS_STATE g) 3).event (Page.gate g) 1

/-- A stream that does not is refused, and counted. -/
def refuseStream (h : Hub) (g : Nat) (m : Msa) : Hub :=
  (((noteStream h g m).fset (F.gate_STATUS_STATE g) 5).bump (F.gate_ABANDONED_REFUSED g) 1).event (Page.gate g) 4

theorem streamUp_starts {h : Hub} {g : Nat} {m : Msa} (hs : gateState h g = 2) (hf : streamFits h g m = true) :
    streamUp h g m = requestBw (startStream h g m) g m.mbps := by
  rw [streamUp, if_pos hs, if_pos hf]
  rfl

theorem streamUp_refuses {h : Hub} {g : Nat} {m : Msa} (hs : gateState h g = 2) (hf : streamFits h g m = false) :
    streamUp h g m = refuseStream h g m := by
  rw [streamUp, if_pos hs, hf]
  rfl

/-- A state that is stored before an event of the Gate. -/
theorem event_state (h : Hub) (g n b : Nat) : gateState ((h.fset (F.gate_STATUS_STATE g) n).event (Page.gate g) b) g = n % 2 ^ 3 := by
  have kept := (keptBut_refl [Page.gate g + 0x10] (h.fset (F.gate_STATUS_STATE g) n)).event (page := Page.gate g) b (by simp)
  exact (kept.fget (by decide) (by simp [gate_INT_STAT, A.gate_STATUS])).trans (Hub.fget_fset_same ..)

theorem startStream_keptBut (h : Hub) (g : Nat) (m : Msa) :
    KeptBut [A.gate_STATUS g, Page.gate g + 0x10] (noteStream h g m) (startStream h g m) :=
  ((keptBut_refl _ _).fset _ (by decide) (by simp)).event _ (by simp)

/-- FRAME_SIZE stands at what follows its report. -/
theorem startStream_size (h : Hub) (g : Nat) (m : Msa) :
    (startStream h g m).Has (F.gate_FRAME_SIZE_H g) m.h ∧ (startStream h g m).Has (F.gate_FRAME_SIZE_V g) m.v := by
  have kept := startStream_keptBut h g m
  have away : A.gate_FRAME_SIZE g ∉ [A.gate_STATUS g, Page.gate g + 0x10] := by
    simp [gate_INT_STAT, A.gate_FRAME_SIZE, A.gate_STATUS]
  obtain ⟨width, height⟩ := noteStream_size h g m
  exact ⟨(kept.fget (by decide) away).trans width, (kept.fget (by decide) away).trans height⟩

theorem startStream_auto (h : Hub) (g : Nat) (m : Msa) :
    (startStream h g m).is (F.gate_CTL_BW_AUTO g) = h.is (F.gate_CTL_BW_AUTO g) :=
  ((startStream_keptBut h g m).is (by decide) (by simp [gate_INT_STAT, A.gate_CTL, A.gate_STATUS])).trans
    ((noteStream_keptBut h g m).is (by decide) (by simp [A.gate_CTL, A.gate_FRAME_SIZE, A.gate_SRC_FMT, A.gate_STATUS]))

theorem refuseStream_counted (h : Hub) (g : Nat) (m : Msa) : Counted h (refuseStream h g m) (F.gate_ABANDONED_REFUSED g) := by
  have before : KeptBut [A.gate_FRAME_SIZE g, A.gate_SRC_FMT g, A.gate_STATUS g] h ((noteStream h g m).fset (F.gate_STATUS_STATE g) 5) :=
    (noteStream_keptBut h g m).fset _ (by decide) (by simp)
  have same : ((noteStream h g m).fset (F.gate_STATUS_STATE g) 5).fget (F.gate_ABANDONED_REFUSED g) = h.fget (F.gate_ABANDONED_REFUSED g) :=
    before.fget (by decide) (by simp [A.gate_ABANDONED, A.gate_FRAME_SIZE, A.gate_SRC_FMT, A.gate_STATUS])
  rw [Counted, refuseStream, Hub.fget_event_other, Hub.fget_bump, if_pos rfl, same]
  simp only [F.gate_ABANDONED_REFUSED, F.hdr_INT_STAT_EVENT, A.gate_ABANDONED, A.hdr_INT_STAT, gate_INT_STAT, Fld.key_mk]
  omega

theorem refuseStream_state (h : Hub) (g : Nat) (m : Msa) : gateState (refuseStream h g m) g = 5 := by
  have after : KeptBut [A.gate_ABANDONED g, Page.gate g + 0x10] ((noteStream h g m).fset (F.gate_STATUS_STATE g) 5) (refuseStream h g m) :=
    ((keptBut_refl _ _).fset _ (by decide) (by simp)).event _ (by simp)
  exact (after.fget (by decide) (by simp [gate_INT_STAT, A.gate_ABANDONED, A.gate_STATUS])).trans (Hub.fget_fset_same ..)

/-! ## The end of a stream (R239, R248) -/

/-- A Gate without the frame that was being written: its take is dirty in every band. -/
def dropFrame (h : Hub) (g : Nat) : Hub :=
  setDirty (h.setGate g { h.gateSt g with frame := none, stalled := [] }) g
    ((h.gateSt g).dirty.set (h.fget (F.gate_STATUS_WRITING g)) (allBands h g))

theorem abandonFrame_open {h : Hub} {g : Nat} {f : GateFrame} (hf : (h.gateSt g).frame = some f) :
    abandonFrame h g = (((dropFrame h g).flag (F.gate_STATUS_WRITE_ACTIVE g) false).bump (F.gate_ABANDONED_COUNT g) 1).event
      (Page.gate g) 3 := by
  simp only [abandonFrame, hf]
  rfl

theorem abandonFrame_none {h : Hub} {g : Nat} (hf : (h.gateSt g).frame = none) : abandonFrame h g = h := by
  simp only [abandonFrame, hf]

/-- An abandoned frame leaves the link and the stream of its Gate. -/
theorem abandonFrame_gateSt (h : Hub) (g : Nat) :
    ∃ dirty stalled, (abandonFrame h g).gateSt g = { h.gateSt g with frame := none, dirty := dirty, stalled := stalled } := by
  cases hf : (h.gateSt g).frame with
  | none => exact ⟨_, _, by rw [abandonFrame_none hf, ← hf]⟩
  | some f =>
    have dropped : (abandonFrame h g).gateSt g = (dropFrame h g).gateSt g := by
      rw [abandonFrame_open hf]
      simp only [Hub.gateSt, Hub.event_gates, Hub.bump_gates, Hub.flag_gates]
    rw [dropped, dropFrame, setDirty_gateSt, Hub.gateSt_setGate, if_pos rfl]
    exact ⟨_, _, rfl⟩

/-- The frame is abandoned, and the end of a stream that was on reported. -/
def reportEnd (h : Hub) (g : Nat) : Hub :=
  if 3 ≤ gateState h g then (abandonFrame h g).event (Page.gate g) 2 else abandonFrame h g

/-- The Gate without its stream, before the credit follows. -/
def withoutStream (h : Hub) (g next : Nat) : Hub :=
  ((h.setGate g { h.gateSt g with msa := none }).flag (F.gate_STATUS_DSC g) false).fset (F.gate_STATUS_STATE g) next

theorem endStream_eq (h : Hub) (g next : Nat) : endStream h g next = settleHeld (withoutStream (reportEnd h g) g next) g := rfl

theorem reportEnd_gateSt (h : Hub) (g : Nat) : (reportEnd h g).gateSt g = (abandonFrame h g).gateSt g := by
  unfold reportEnd
  split <;> rfl

theorem withoutStream_gateSt (h : Hub) (g next : Nat) : (withoutStream h g next).gateSt g = { h.gateSt g with msa := none } := by
  show (h.setGate g _).gateSt g = _
  rw [Hub.gateSt_setGate, if_pos rfl]

/-- What a stream leaves in its Gate. -/
theorem endStream_gateSt (h : Hub) (g next : Nat) : ∃ dirty stalled,
    (endStream h g next).gateSt g = { h.gateSt g with msa := none, frame := none, dirty := dirty, stalled := stalled } := by
  obtain ⟨dirty, stalled, he⟩ := abandonFrame_gateSt h g
  exact ⟨dirty, stalled, by rw [endStream_eq, settleHeld_gateSt, withoutStream_gateSt, reportEnd_gateSt, he]⟩

theorem endStream_state (h : Hub) (g next : Nat) : gateState (endStream h g next) g = next % 2 ^ 3 :=
  (settleHeld_state ..).trans (Hub.fget_fset_same ..)

theorem endStream_event {h : Hub} {g : Nat} (hs : 3 ≤ gateState h g) (next : Nat) :
    (endStream h g next).bit (F.hdr_INT_STAT_EVENT (Page.gate g)) 2 = true := by
  have reported : (reportEnd h g).bit (F.hdr_INT_STAT_EVENT (Page.gate g)) 2 = true := by
    rw [reportEnd, if_pos hs]
    exact Hub.event_set _ _ _ (by decide)
  have kept : KeptBut [A.gate_STATUS g] (reportEnd h g) (withoutStream (reportEnd h g) g next) :=
    (((keptBut_refl _ (reportEnd h g)).setGate g _).fset _ (by decide) (by simp)).fset _ (by decide) (by simp)
  rw [endStream_eq]
  exact settleHeld_event _ g (by decide) (kept.eventBit (by simp [gate_INT_STAT, A.gate_STATUS]) reported)

theorem streamDown_ends {h : Hub} {g : Nat} {why : StreamEnd} (hw : why ≠ .linkLost) (hs : 3 ≤ gateState h g) :
    streamDown h g why = endStream h g 2 := by
  rw [streamDown, if_neg (Nat.not_lt.mpr hs), if_neg hw]

theorem streamDown_linkLost (h : Hub) (g : Nat) : streamDown h g .linkLost = gateLinkLost h g := by
  unfold streamDown
  split <;> rfl

theorem gateLinkLost_ends {h : Hub} {g : Nat} (hs : 2 ≤ gateState h g) :
    gateLinkLost h g = endStream (h.setGate g { h.gateSt g with rate := 0, lanes := 0 }) g 1 := if_pos hs

/-! ## Panel Replay (R239) -/

/-- STREAMING again, before the payload rate is requested. -/
def leaveStatic (h : Hub) (g : Nat) : Hub := (h.fset (F.gate_STATUS_STATE g) 3).event (Page.gate g) 7

theorem prEnter_enters {h : Hub} {g : Nat} (hs : gateState h g = 3) (hp : h.is (F.gate_CTL_PR_CAP g) = true) :
    prEnter h g = (h.fset (F.gate_STATUS_STATE g) 4).event (Page.gate g) 6 := if_pos ⟨hs, hp⟩

theorem prExit_stream {h : Hub} {g : Nat} {m : Msa} (hs : gateState h g = 4) (hm : (h.gateSt g).msa = some m) :
    prExit h g = requestBw (leaveStatic h g) g m.mbps := by
  have same : (((h.fset (F.gate_STATUS_STATE g) 3).event (Page.gate g) 7).gateSt g).msa = some m := hm
  rw [prExit, if_pos hs]
  simp only [same]
  rfl

theorem prExit_noStream {h : Hub} {g : Nat} (hs : gateState h g = 4) (hm : (h.gateSt g).msa = none) : prExit h g = leaveStatic h g := by
  have same : (((h.fset (F.gate_STATUS_STATE g) 3).event (Page.gate g) 7).gateSt g).msa = none := hm
  rw [prExit, if_pos hs]
  simp only [same]
  rfl

/-! ## Grants (R254) -/

/-- BW_GRANT takes a grant, and a change is reported. -/
def noteGrant (h : Hub) (g mbps : Nat) : Hub :=
  if h.fget (F.gate_BW_GRANT_MBPS g) = mbps % 2 ^ 17 then h.fset (F.gate_BW_GRANT_MBPS g) mbps
  else (h.fset (F.gate_BW_GRANT_MBPS g) mbps).event (Page.gate g) 8

/-- RESERVED_RATE of a path is staged for a grant, with CTL last. -/
def reserveGrant (h : Hub) (p grant : Nat) : Hub :=
  (h.fset (F.path_RSV_RESERVED_RATE p) (min (256 * grantPackets grant) (2 ^ 24 - 1))).flag (F.path_CTL_PENDING p) true

theorem noteGrant_keptBut (h : Hub) (g mbps : Nat) : KeptBut [A.gate_BW_GRANT g, Page.gate g + 0x10] h (noteGrant h g mbps) := by
  unfold noteGrant
  split
  · exact (keptBut_refl _ h).fset _ (by decide) (by simp)
  · exact ((keptBut_refl _ h).fset _ (by decide) (by simp)).event _ (by simp)

theorem noteGrant_grant (h : Hub) (g mbps : Nat) : (noteGrant h g mbps).Has (F.gate_BW_GRANT_MBPS g) mbps := by
  unfold noteGrant
  split
  · exact Hub.fget_fset_same ..
  · have kept := (keptBut_refl [Page.gate g + 0x10] (h.fset (F.gate_BW_GRANT_MBPS g) mbps)).event (page := Page.gate g) 8 (by simp)
    exact (kept.fget (by decide) (by simp [gate_INT_STAT, A.gate_BW_GRANT])).trans (Hub.fget_fset_same ..)

theorem noteGrant_event {h : Hub} {g mbps : Nat} (hn : h.fget (F.gate_BW_GRANT_MBPS g) ≠ mbps % 2 ^ 17) :
    (noteGrant h g mbps).bit (F.hdr_INT_STAT_EVENT (Page.gate g)) 8 = true := by
  rw [noteGrant, if_neg hn]
  exact Hub.event_set _ _ _ (by decide)

theorem noteGrant_bind (h : Hub) (g mbps : Nat) :
    (noteGrant h g mbps).is (F.gate_BIND_BOUND g) = h.is (F.gate_BIND_BOUND g) ∧
      (noteGrant h g mbps).fget (F.gate_BIND_PATH g) = h.fget (F.gate_BIND_PATH g) := by
  have kept := noteGrant_keptBut h g mbps
  have away : A.gate_BIND g ∉ [A.gate_BW_GRANT g, Page.gate g + 0x10] := by simp [gate_INT_STAT, A.gate_BIND, A.gate_BW_GRANT]
  exact ⟨kept.is (by decide) away, kept.fget (by decide) away⟩

theorem bwGrant_eq (h : Hub) (g mbps : Nat) :
    bwGrant h g mbps = if (noteGrant h g mbps).is (F.gate_BIND_BOUND g) then
        reserveGrant (noteGrant h g mbps) ((noteGrant h g mbps).fget (F.gate_BIND_PATH g)) ((noteGrant h g mbps).fget (F.gate_BW_GRANT_MBPS g))
      else noteGrant h g mbps := by
  simp only [bwGrant, Hub.fget_fset_same]
  rfl

theorem bwGrant_bound {h : Hub} {g : Nat} (hb : h.is (F.gate_BIND_BOUND g) = true) (mbps : Nat) :
    bwGrant h g mbps = reserveGrant (noteGrant h g mbps) (h.fget (F.gate_BIND_PATH g)) (mbps % 2 ^ 17) := by
  obtain ⟨bound, path⟩ := noteGrant_bind h g mbps
  rw [bwGrant_eq, if_pos (bound.trans hb), path, noteGrant_grant h g mbps]
  rfl

theorem bwGrant_unbound {h : Hub} {g : Nat} (hb : h.is (F.gate_BIND_BOUND g) = false) (mbps : Nat) :
    bwGrant h g mbps = noteGrant h g mbps := by
  rw [bwGrant_eq, if_neg (by simp [(noteGrant_bind h g mbps).1, hb])]

theorem reserveGrant_keptBut (h : Hub) (p grant : Nat) : KeptBut [A.path_RSV p, A.path_CTL p] h (reserveGrant h p grant) :=
  ((keptBut_refl _ h).fset _ (by decide) (by simp)).fset _ (by decide) (by simp)

theorem reserveGrant_rate (h : Hub) (p grant : Nat) :
    (reserveGrant h p grant).Has (F.path_RSV_RESERVED_RATE p) (min (256 * grantPackets grant) (2 ^ 24 - 1)) := by
  refine (Hub.fget_fset_other _ _ ?_).trans (Hub.fget_fset_same ..)
  simp only [F.path_RSV_RESERVED_RATE, F.path_CTL_PENDING, A.path_RSV, A.path_CTL, Fld.key_mk]
  omega

theorem reserveGrant_pending (h : Hub) (p grant : Nat) : (reserveGrant h p grant).is (F.path_CTL_PENDING p) = true :=
  Hub.is_flag _ _ true Nat.one_pos

/-- The path table stands above the pages of the Gates. -/
theorem path_above_gate {g : Nat} (p : Nat) {a : Nat} (hg : g < 4) (ha : a < Page.gate g + 0x1000) : a ∉ [A.path_RSV p, A.path_CTL p] := by
  simp only [A.path_RSV, A.path_CTL, Page.gate, List.mem_cons, List.not_mem_nil, or_false] at ha ⊢
  omega

/-! ## The streams -/

/-- Settles O30. A stream is reported before it changes STATUS, and a request and an event stand in words of their own; what ends a
stream ends in `endStream`; a grant stages its path in the path table, above the Gates. -/
theorem gateStreams : Obligations.GateStreams := by
  intro s g
  refine ⟨fun m h2 => ⟨fun hf => ⟨_, rfl, ?starts⟩, fun hf => ⟨_, rfl, ?refused⟩⟩, fun why hw h3 => ⟨_, rfl, ?ends⟩,
    fun h2 => ⟨_, rfl, ?linkLost⟩, fun h3 hp => ⟨_, rfl, ?enters⟩, fun h4 => ⟨_, rfl, ?exits⟩, fun h4 hi ha => ⟨_, rfl, ?idle⟩,
    fun mbps => ⟨_, rfl, ?grant⟩⟩
  all_goals dsimp only
  case starts =>
    rw [streamUp_starts h2 hf]
    have kept := requestBw_keptBut (startStream s.hub g m) g m.mbps
    have msa : ((startStream s.hub g m).gateSt g).msa = some m := congrArg GateSt.msa (noteStream_gateSt s.hub g m)
    have away : A.gate_FRAME_SIZE g ∉ [A.gate_BW_REQ g] := by simp [A.gate_FRAME_SIZE, A.gate_BW_REQ]
    obtain ⟨width, height⟩ := startStream_size s.hub g m
    refine ⟨(requestBw_state ..).trans (event_state ..), (kept.fget (by decide) away).trans width, (kept.fget (by decide) away).trans height,
      by rw [requestBw_gateSt, msa], requestBw_event _ (Hub.event_set _ _ _ (by decide)), fun ha => ?auto, fun ha => ?manual⟩
    case auto => exact requestBw_requests ((startStream_auto s.hub g m).trans ha) m.mbps
    case manual =>
      rw [requestBw_manual ((startStream_auto s.hub g m).trans ha)]
      rfl
  case refused =>
    rw [streamUp_refuses h2 hf]
    exact ⟨refuseStream_state .., refuseStream_counted .., Hub.event_set _ _ _ (by decide), rfl⟩
  case ends =>
    rw [streamDown_ends hw h3]
    obtain ⟨dirty, stalled, gate⟩ := endStream_gateSt s.hub g 2
    exact ⟨endStream_state .., congrArg GateSt.msa gate, congrArg GateSt.frame gate, is_settleHeld _ g.isLt, endStream_event h3 2⟩
  case linkLost =>
    rw [streamDown_linkLost, gateLinkLost_ends h2]
    obtain ⟨dirty, stalled, gate⟩ := endStream_gateSt (s.hub.setGate g { s.hub.gateSt g with rate := 0, lanes := 0 }) g 1
    rw [Hub.gateSt_setGate, if_pos rfl] at gate
    exact ⟨endStream_state .., congrArg GateSt.msa gate, congrArg GateSt.rate gate, congrArg GateSt.lanes gate,
      congrArg GateSt.frame gate⟩
  case enters =>
    rw [prEnter_enters h3 hp]
    exact ⟨event_state .., Hub.event_set _ _ _ (by decide), ((keptBut_refl _ _).fset _ (by decide) (by simp)).event _ (by simp)⟩
  case exits =>
    have auto : (leaveStatic s.hub g).is (F.gate_CTL_BW_AUTO g) = s.hub.is (F.gate_CTL_BW_AUTO g) := by
      have kept : KeptBut [A.gate_STATUS g, Page.gate g + 0x10] s.hub (leaveStatic s.hub g) :=
        ((keptBut_refl _ _).fset _ (by decide) (by simp)).event _ (by simp)
      exact kept.is (by decide) (by simp [gate_INT_STAT, A.gate_CTL, A.gate_STATUS])
    have event : (leaveStatic s.hub g).bit (F.hdr_INT_STAT_EVENT (Page.gate g)) 7 = true := Hub.event_set _ _ _ (by decide)
    cases hm : (s.hub.gateSt g).msa with
    | none =>
      rw [prExit_noStream h4 hm]
      exact ⟨event_state .., event, nofun⟩
    | some m =>
      rw [prExit_stream h4 hm]
      refine ⟨(requestBw_state ..).trans (event_state ..), requestBw_event _ event, ?_⟩
      rintro _ ⟨⟩ ha
      exact requestBw_requests (auto.trans ha) m.mbps
  case idle =>
    have idle : bwIdleDecrease s.hub g = requestBw s.hub g (s.hub.fget (F.gate_BW_FLOOR g)) := if_pos ⟨h4, hi⟩
    rw [idle]
    obtain ⟨request, out⟩ := requestBw_requests ha (s.hub.fget (F.gate_BW_FLOOR g))
    exact ⟨request, out, fun f hf => requestBw_keptBut _ _ _ f (by simpa using hf)⟩
  case grant =>
    cases hb : s.hub.is (F.gate_BIND_BOUND g) with
    | false =>
      rw [bwGrant_unbound hb]
      exact ⟨noteGrant_grant .., noteGrant_event, nofun, fun _ => noteGrant_keptBut _ _ _⟩
    | true =>
      rw [bwGrant_bound hb]
      have staged := reserveGrant_keptBut (noteGrant s.hub g mbps) (s.hub.fget (F.gate_BIND_PATH g)) (mbps % 2 ^ 17)
      refine ⟨(staged.fget (by decide) (path_above_gate _ g.isLt ?register)).trans (noteGrant_grant ..),
        fun hn => staged.eventBit (path_above_gate _ g.isLt ?event) (noteGrant_event hn),
        fun _ => ⟨reserveGrant_rate .., reserveGrant_pending ..⟩, nofun⟩
      case register =>
        simp only [A.gate_BW_GRANT, Page.gate]
        omega
      case event => omega

end Sys2Proof.Machine
end

section
/-! The writes of GATE.CTL and GATE.EDID_CTL and the low pulse of HPD (R34, R238, R244, R245). -/

namespace Sys2Proof.Machine

/-! ## A word of a Gate that is written (R12) -/

/-- A writable field of a Gate takes its bits, as every Gate carries every field. -/
theorem storeField_gate (h : Hub) (i base a v : Nat) {r : Row} (hr : r.acc = .rw ∨ r.acc = .rwf) :
    storeField h .gate i base a v r = h.fset ⟨a, r.lo, r.w⟩ (v / 2 ^ r.lo % 2 ^ r.w) := by
  have carried : (fieldAbsent h .gate i (a - base) r.lo || fieldFixed .gate i (a - base) r.lo) = false := rfl
  have whole : storeMask .gate (a - base) v = v := rfl
  obtain hr | hr := hr <;> simp [storeField, carried, whole, hr]

/-- The stores of other fields of a word keep a field. -/
theorem foldl_storeField_other (k : Kind) (i base a v : Nat) {f : Fld} (l : List Row) (h : Hub) (n : ∀ r ∈ l, f.key ≠ a * 32 + r.lo) :
    (l.foldl (fun h r => storeField h k i base a v r) h).fget f = h.fget f :=
  List.foldlRecOn (motive := fun x : Hub => x.fget f = h.fget f) l _ rfl fun x hx r hr =>
    (storeField_other x k i base a v r (n r hr)).trans hx

/-- Stores of fields at distinct places leave each what it has taken. -/
theorem foldl_storeField_takes (i base a v : Nat) (l : List Row) (h : Hub) (apart : l.Pairwise fun r q => r.lo ≠ q.lo) :
    ∀ r ∈ l, r.acc = .rw ∨ r.acc = .rwf →
      (l.foldl (fun h r => storeField h .gate i base a v r) h).fget ⟨a, r.lo, r.w⟩ = v / 2 ^ r.lo % 2 ^ r.w := by
  induction l generalizing h with
  | nil => nofun
  | cons r l ih =>
    obtain ⟨first, rest⟩ := List.pairwise_cons.mp apart
    intro q hq hacc
    rw [List.foldl_cons]
    obtain rfl | hq := List.mem_cons.mp hq
    · rw [foldl_storeField_other _ _ _ _ _ _ _ fun p hp => by
        have := first p hp
        simp only [Fld.key_mk]
        omega, storeField_gate h i base a v hacc, Hub.fget_fset_same]
      exact Nat.mod_mod _ _
    · exact ih _ rest q hq hacc

theorem wordRows_gate {g off : Nat} (hg : g < 4) (hlow : 0x40 ≤ off) (hoff : off < 0x1000) :
    wordRows (Page.gate g + off) = rowsGate.filter (·.covers off) := by
  simp [wordRows, pageAt_gate hg hoff, hlow, rowsOf]

theorem storeWord_gate_takes (h : Hub) {g off : Nat} (v : Nat) (hg : g < 4) (hlow : 0x40 ≤ off) (hoff : off < 0x1000)
    (apart : (rowsGate.filter (·.covers off)).Pairwise fun r q => r.lo ≠ q.lo) :
    Takes (storeWord h (Page.gate g + off) v) (Page.gate g + off) v := by
  intro r hr hacc
  rw [wordRows_gate hg hlow hoff] at hr
  simp only [storeWord, pageAt_gate hg hoff, wordRows_gate hg hlow hoff]
  exact foldl_storeField_takes _ _ _ _ _ h apart r hr hacc

/-- The field of a row of a Gate's word that has taken its bits. -/
theorem Takes.gateField {h : Hub} {g off v lo w : Nat} (t : Takes h (Page.gate g + off) v) (hg : g < 4) (hlow : 0x40 ≤ off)
    (hoff : off < 0x1000) (hr : ∃ r ∈ rowsGate.filter (·.covers off), r.lo = lo ∧ r.w = w ∧ r.acc = .rw) :
    h.fget ⟨Page.gate g + off, lo, w⟩ = v / 2 ^ lo % 2 ^ w := by
  obtain ⟨r, hr, rfl, rfl, hacc⟩ := hr
  exact t r (by rwa [wordRows_gate hg hlow hoff]) (.inl hacc)

theorem gate_CTL_at (g : Nat) : A.gate_CTL g = Page.gate g + 0x40 := by
  unfold A.gate_CTL Page.gate
  omega

theorem gate_EDID_CTL_at (g : Nat) : A.gate_EDID_CTL g = Page.gate g + 0x4C := by
  unfold A.gate_EDID_CTL Page.gate
  omega

/-- No word of a Gate is one whose write may end a self-test (R646, R662). -/
theorem endsBist_gate (req : Req) (g off : Nat) : endsBist (windowAccess req (Page.gate g + off) 4 true 0) = false := by
  have miss : ∀ r, r ≤ 0x40 → decide (Page.gate g + off ≤ Page.bist + r ∧ Page.bist + r < Page.gate g + off + 4) = false :=
    fun r hr => decide_eq_false (by unfold Page.bist Page.gate; omega)
  exact Bool.or_eq_false_iff.mpr ⟨miss 0x24 (by decide), Bool.or_eq_false_iff.mpr ⟨miss 0x40 (by decide), rfl⟩⟩

/-- The hub at a write of a word of a Gate: no byte of it stays prefetched (R362). -/
def atWrite (h : Hub) (g off : Nat) : Hub := invalidate h false (Page.gate g + off) 4

theorem busWrite_gate {s : State} {req : Req} {g off v : Nat} (hw : Writes s req (Page.gate g + off)) (hv : v < 2 ^ 32) (hg : g < 4)
    (hlow : 0x40 ≤ off) (hoff : off < 0x1000) (hpair : isPairLo .gate off = false) (hhi : isPairHi .gate off = false) :
    busWrite s req (Page.gate g + off) v = .next { s with hub := writeGate (atWrite s.hub g off) g off (Page.gate g + off) v } := by
  have offset : Page.gate g + off - Page.gate g = off := by omega
  rw [write_block hw hv (pageAt_gate hg hoff) (by simp [offset, Nat.not_lt.mpr hlow]) (by simp [offset, hpair]) (by simp [offset, hhi])
    (endsBist_gate req g off), offset]
  rfl

theorem atWrite_fget (h : Hub) (g off : Nat) (f : Fld) : (atWrite h g off).fget f = h.fget f := invalidate_fget ..

/-- What the store of a word at a write leaves beside the window. -/
theorem stored_atWrite (h : Hub) (g off v : Nat) :
    (storeWord (atWrite h g off) (Page.gate g + off) v).gates = h.gates ∧ (storeWord (atWrite h g off) (Page.gate g + off) v).out = h.out := by
  obtain ⟨p, hp⟩ := invalidate_eq h false (Page.gate g + off) 4
  obtain ⟨r, hr⟩ := storeWord_eq (atWrite h g off) (Page.gate g + off) v
  rw [hr, atWrite, hp]
  exact ⟨rfl, rfl⟩

theorem stored_others (h : Hub) (g off v : Nat) :
    OthersKept (Page.gate g + off) h (storeWord (atWrite h g off) (Page.gate g + off) v) :=
  OthersKept.trans (othersKept_invalidate _ _ _ _ _) (storeWord_others _ _ _)

/-! ## GATE.CTL (R244, R245) -/

/-- FORMAT and TAKES of an enabled Gate stay, and their change is a fault (R244). -/
def keepFormat (h : Hub) (g format takes : Nat) : Hub :=
  if h.fget (F.gate_CTL_FORMAT g) != format || h.fget (F.gate_CTL_TAKES g) != takes then
    ((h.fset (F.gate_CTL_FORMAT g) format).fset (F.gate_CTL_TAKES g) takes).event (Page.gate g) 5
  else h

theorem writeGate_CTL_disabled {h : Hub} {g : Nat} (a v : Nat) (he : h.is (F.gate_CTL_EN g) = false) :
    writeGate h g 0x40 a v = gateEnabled (storeWord h a v) g false := by
  simp [writeGate, he]

theorem writeGate_CTL_enabled {h : Hub} {g : Nat} (a v : Nat) (he : h.is (F.gate_CTL_EN g) = true) :
    writeGate h g 0x40 a v =
      gateEnabled (keepFormat (storeWord h a v) g (h.fget (F.gate_CTL_FORMAT g)) (h.fget (F.gate_CTL_TAKES g))) g true := by
  simp [writeGate, he, keepFormat]

/-- PITCH and TAKE_SIZE alone follow the size of a take. -/
theorem noteTakeSize_keptBut (h : Hub) (g : Nat) : KeptBut [A.gate_PITCH g, A.gate_TAKE_SIZE g] h (noteTakeSize h g) :=
  ((keptBut_refl _ h).fset _ (by decide) (by simp)).fset _ (by decide) (by simp)

theorem noteTakeSize_size (h : Hub) (g : Nat) : (noteTakeSize h g).Has (F.gate_TAKE_SIZE_PAGES g) (takePages h g) :=
  Hub.fget_fset_same ..

/-- Whether the takes fit does not hang on what PITCH and TAKE_SIZE report. -/
theorem takesOk_noteTakeSize (h : Hub) (g : Nat) : takesOk (noteTakeSize h g) g = takesOk h g := by
  have kept := noteTakeSize_keptBut h g
  have ctl : A.gate_CTL g ∉ [A.gate_PITCH g, A.gate_TAKE_SIZE g] := by simp [A.gate_CTL, A.gate_PITCH, A.gate_TAKE_SIZE]
  have size : A.gate_MAX_SIZE g ∉ [A.gate_PITCH g, A.gate_TAKE_SIZE g] := by simp [A.gate_MAX_SIZE, A.gate_PITCH, A.gate_TAKE_SIZE]
  have format : (noteTakeSize h g).fget (F.gate_CTL_FORMAT g) = h.fget (F.gate_CTL_FORMAT g) := kept.fget (by decide) ctl
  have takes : (noteTakeSize h g).fget (F.gate_CTL_TAKES g) = h.fget (F.gate_CTL_TAKES g) := kept.fget (by decide) ctl
  have width : (noteTakeSize h g).fget (F.gate_MAX_SIZE_H g) = h.fget (F.gate_MAX_SIZE_H g) := kept.fget (by decide) size
  have height : (noteTakeSize h g).fget (F.gate_MAX_SIZE_V g) = h.fget (F.gate_MAX_SIZE_V g) := kept.fget (by decide) size
  have count : takeCount (noteTakeSize h g) g = takeCount h g := by simp only [takeCount, takes]
  have pages : takePages (noteTakeSize h g) g = takePages h g := by simp only [takePages, takePitch, maxH, maxV, gateFormat, format, width, height]
  have four : takeCount h g ≤ 4 := by
    unfold takeCount
    dsimp only
    split
    · decide
    · split <;> omega
  have base : ∀ t, t < takeCount h g → takeBase (noteTakeSize h g) g t = takeBase h g t := fun t ht =>
    kept.fget (by decide) (by
      simp only [A.gate_TAKE_BASE, A.gate_PITCH, A.gate_TAKE_SIZE, List.mem_cons, List.not_mem_nil, or_false]
      omega)
  rw [Bool.eq_iff_iff]
  simp only [takesOk, count, pages, List.all_eq_true, List.mem_range, Bool.and_eq_true]
  refine forall₂_congr fun t ht => ?_
  rw [base t ht]
  exact and_congr_right' (forall₂_congr fun u hu => by rw [base u hu])

/-- What an enable does to the takes: none is newest, and those in use keep their dirty bands. -/
def startTakes (h : Hub) (g : Nat) (was : Bool) : Hub :=
  if h.is (F.gate_CTL_EN g) && !was then
    setDirty (h.flag (F.gate_STATUS_NEWEST_VALID g) false) g
      ((List.range 4).map fun t => if t < takeCount h g then dirtyOf (h.gateSt g) t else 0)
  else h

/-- A Gate follows its CTL: its floors, its state and its credit. -/
def followCtl (h : Hub) (g : Nat) : Hub :=
  dvfsSettle (settleHeld (settleGate (enforceFloor (enforceFloor h (13 + g)) 12) g) g)

theorem noteTakeSize_ctl (h : Hub) (g : Nat) {lo w : Nat} (hl : lo < 32) :
    (noteTakeSize h g).fget ⟨A.gate_CTL g, lo, w⟩ = h.fget ⟨A.gate_CTL g, lo, w⟩ :=
  (noteTakeSize_keptBut h g).fget hl (by simp [A.gate_CTL, A.gate_PITCH, A.gate_TAKE_SIZE])

theorem noteTakeSize_enabled (h : Hub) (g : Nat) : (noteTakeSize h g).is (F.gate_CTL_EN g) = h.is (F.gate_CTL_EN g) :=
  Hub.is_congr (noteTakeSize_ctl h g (by decide))

theorem gateEnabled_refused {h : Hub} {g : Nat} (he : h.is (F.gate_CTL_EN g) = true) (hn : takesOk h g = false) :
    gateEnabled h g false = ((noteTakeSize h g).flag (F.gate_CTL_EN g) false).event (Page.gate g) 5 := by
  rw [gateEnabled]
  dsimp only
  rw [if_pos (by simp [noteTakeSize_enabled, he, takesOk_noteTakeSize, hn])]

theorem gateEnabled_follows {h : Hub} {g : Nat} {was : Bool} (ok : h.is (F.gate_CTL_EN g) = false ∨ was = true ∨ takesOk h g = true) :
    gateEnabled h g was = followCtl (startTakes (noteTakeSize h g) g was) g := by
  have fits : ¬ ((noteTakeSize h g).is (F.gate_CTL_EN g) && !was && !(takesOk (noteTakeSize h g) g)) = true := by
    rw [noteTakeSize_enabled, takesOk_noteTakeSize]
    obtain he | hw | ht := ok
    · simp [he]
    · simp [hw]
    · simp [ht]
  rw [gateEnabled]
  dsimp only
  rw [if_neg fits]
  rfl

theorem startTakes_keptBut (h : Hub) (g : Nat) (was : Bool) :
    KeptBut [A.gate_STATUS g, A.gate_DIRTY01 g, A.gate_DIRTY23 g] h (startTakes h g was) := by
  unfold startTakes
  split
  · exact ((keptBut_refl _ h).fset (a := A.gate_STATUS g) _ (by decide) (by simp)).trans ((setDirty_keptBut _ g _).mono (by simp))
  · exact keptBut_refl _ h

/-- A Gate that is enabled has no newest take. -/
theorem startTakes_notNewest {h : Hub} {g : Nat} (he : h.is (F.gate_CTL_EN g) = true) :
    (startTakes h g false).is (F.gate_STATUS_NEWEST_VALID g) = false := by
  rw [startTakes, if_pos (by simp [he])]
  refine ((setDirty_keptBut _ g _).is (by decide) ?_).trans (Hub.is_flag _ (F.gate_STATUS_NEWEST_VALID g) false Nat.one_pos)
  simp [A.gate_STATUS, A.gate_DIRTY01, A.gate_DIRTY23]

theorem startTakes_enabled (h : Hub) (g : Nat) (was : Bool) : (startTakes h g was).is (F.gate_CTL_EN g) = h.is (F.gate_CTL_EN g) :=
  (startTakes_keptBut h g was).is (by decide) (by simp [A.gate_CTL, A.gate_STATUS, A.gate_DIRTY01, A.gate_DIRTY23])

theorem startTakes_size {h : Hub} {g n : Nat} (was : Bool) (hn : h.Has (F.gate_TAKE_SIZE_PAGES g) n) :
    (startTakes h g was).Has (F.gate_TAKE_SIZE_PAGES g) n :=
  ((startTakes_keptBut h g was).fget (by decide) (by
    simp [A.gate_TAKE_SIZE, A.gate_STATUS, A.gate_DIRTY01, A.gate_DIRTY23])).trans hn

/-- The other fields of CTL stand. -/
theorem keepFormat_ctl (h : Hub) (g format takes : Nat) {lo w : Nat} (hl : lo < 32) (h1 : lo ≠ 1) (h3 : lo ≠ 3) :
    (keepFormat h g format takes).fget ⟨A.gate_CTL g, lo, w⟩ = h.fget ⟨A.gate_CTL g, lo, w⟩ := by
  unfold keepFormat
  split
  · rw [Hub.fget_event_other, Hub.fget_fset_other, Hub.fget_fset_other]
    all_goals
      simp only [F.gate_CTL_FORMAT, F.gate_CTL_TAKES, F.hdr_INT_STAT_EVENT, A.gate_CTL, A.hdr_INT_STAT, gate_INT_STAT, Fld.key_mk]
      omega
  · rfl

/-- FORMAT and TAKES read as they did. -/
theorem keepFormat_kept {h : Hub} {g format takes : Nat} (hf : h.fget (F.gate_CTL_FORMAT g) < 2 ^ 2)
    (ht : h.fget (F.gate_CTL_TAKES g) < 2 ^ 3) :
    (keepFormat h g format takes).Has (F.gate_CTL_FORMAT g) format ∧ (keepFormat h g format takes).Has (F.gate_CTL_TAKES g) takes := by
  unfold keepFormat
  split
  · have later := (keptBut_refl [Page.gate g + 0x10] ((h.fset (F.gate_CTL_FORMAT g) format).fset (F.gate_CTL_TAKES g) takes)).event
      (page := Page.gate g) 5 (by simp)
    have away : A.gate_CTL g ∉ [Page.gate g + 0x10] := by simp [gate_INT_STAT, A.gate_CTL]
    refine ⟨(later.fget (by decide) away).trans ((Hub.fget_fset_other _ _ ?_).trans (Hub.fget_fset_same ..)),
      (later.fget (by decide) away).trans (Hub.fget_fset_same ..)⟩
    simp [F.gate_CTL_TAKES]
  · next same =>
    obtain ⟨hf', ht'⟩ : h.fget (F.gate_CTL_FORMAT g) = format ∧ h.fget (F.gate_CTL_TAKES g) = takes := by simpa using same
    exact ⟨hf'.trans (Nat.mod_eq_of_lt (hf' ▸ hf)).symm, ht'.trans (Nat.mod_eq_of_lt (ht' ▸ ht)).symm⟩

theorem keepFormat_event {h : Hub} {g format takes : Nat}
    (hn : h.fget (F.gate_CTL_FORMAT g) ≠ format ∨ h.fget (F.gate_CTL_TAKES g) ≠ takes) :
    (keepFormat h g format takes).bit (F.hdr_INT_STAT_EVENT (Page.gate g)) 5 = true := by
  rw [keepFormat, if_pos (by simpa using hn)]
  exact Hub.event_set _ _ _ (by decide)

/-! ## GATE.EDID_CTL and the pulse (R238) -/

theorem writeGate_EDID_CTL (h : Hub) (g a v : Nat) :
    writeGate h g 0x4C a v = edidValid (storeWord h a v) g (h.is (F.gate_EDID_CTL_VALID g)) := by
  simp [writeGate]

/-- The low pulse of HPD begins. -/
def startPulse (h : Hub) (g : Nat) : Hub := setHpd (h.setGate g { h.gateSt g with pulse := true }) g false

theorem edidValid_pulses {h : Hub} {g : Nat} (hv : h.is (F.gate_EDID_CTL_VALID g) = true) (hp : (h.gateSt g).hpd = true) :
    edidValid h g false = gateLinkLost (startPulse h g) g := by
  simp [edidValid, hv, hp, startPulse]

theorem edidValid_settles {h : Hub} {g : Nat} {was : Bool}
    (ok : was = true ∨ h.is (F.gate_EDID_CTL_VALID g) = false ∨ (h.gateSt g).hpd = false) : edidValid h g was = settleGate h g := by
  rw [edidValid, if_neg]
  obtain hw | hv | hp := ok
  · simp [hw]
  · simp [hv]
  · simp [hp]

/-- HPD falls while the pulse runs, and the window stands. -/
theorem startPulse_falls {h : Hub} {g : Nat} (hp : (h.gateSt g).hpd = true) :
    ((startPulse h g).gateSt g).pulse = true ∧ ((startPulse h g).gateSt g).hpd = false ∧
      (startPulse h g).out = h.out ++ [.gateHpd g false] ∧ (startPulse h g).regs = h.regs := by
  have pulsing : (h.setGate g { h.gateSt g with pulse := true }).gateSt g = { h.gateSt g with pulse := true } := by
    rw [Hub.gateSt_setGate, if_pos rfl]
  have high : ((h.setGate g { h.gateSt g with pulse := true }).gateSt g).hpd = true := (congrArg GateSt.hpd pulsing).trans hp
  have falls : startPulse h g = ((h.setGate g { h.gateSt g with pulse := true }).setGate g
      { h.gateSt g with pulse := true, hpd := false }).emit (.gateHpd g false) := by
    rw [startPulse, setHpd, if_neg (by rw [high]; decide), pulsing]
  have gate : (startPulse h g).gateSt g = { h.gateSt g with pulse := true, hpd := false } := by
    rw [falls, Hub.gateSt, Hub.emit_gates, ← Hub.gateSt, Hub.gateSt_setGate, if_pos rfl]
  rw [gate, falls]
  exact ⟨rfl, rfl, rfl, rfl⟩

theorem hpdPulseEnd_settles {h : Hub} {g : Nat} (hp : (h.gateSt g).pulse = true) :
    hpdPulseEnd h g = settleGate (h.setGate g { h.gateSt g with pulse := false }) g := if_pos hp

/-! ## The commands -/

theorem Hub.is_of_bit {h : Hub} {f : Fld} {n : Nat} {x : Word} (e : h.fget f = x.toNat / 2 ^ n % 2 ^ 1) : h.is f = x.getLsbD n := by
  rw [Hub.is, e, ← BitVec.testBit_toNat, Nat.testBit_eq_decide_div_mod_eq, Nat.pow_one]
  have := Nat.mod_two_eq_zero_or_one (x.toNat / 2 ^ n)
  obtain z | o := this
  · simp [z]
  · simp [o]

/-- The hub once GATE.CTL has taken a value. -/
def ctlStored (h : Hub) (g v : Nat) : Hub := storeWord (atWrite h g 0x40) (A.gate_CTL g) v

theorem ctlStored_takes (h : Hub) {g : Nat} (v : Nat) (hg : g < 4) : Takes (ctlStored h g v) (A.gate_CTL g) v := by
  rw [ctlStored, gate_CTL_at]
  exact storeWord_gate_takes _ v hg (by decide) (by decide) (by decide)

theorem ctlStored_others (h : Hub) (g v : Nat) : OthersKept (A.gate_CTL g) h (ctlStored h g v) := by
  rw [ctlStored, gate_CTL_at]
  exact stored_others h g 0x40 v

theorem ctlStored_field (h : Hub) {g : Nat} (v : Nat) {lo w : Nat} (hg : g < 4)
    (hr : ∃ r ∈ rowsGate.filter (·.covers 0x40), r.lo = lo ∧ r.w = w ∧ r.acc = .rw) :
    (ctlStored h g v).fget ⟨A.gate_CTL g, lo, w⟩ = v / 2 ^ lo % 2 ^ w := by
  have takes := ctlStored_takes h v hg
  rw [gate_CTL_at] at takes ⊢
  exact takes.gateField hg (by decide) (by decide) hr

theorem exec_gateEnable_passes {s : State} {req : Req} {g : Fin 4} (ctl : Word) (hw : Writes s req (A.gate_CTL g)) :
    exec (.gateEnable req g ctl) s =
      .next { s with hub := writeGate (atWrite s.hub g 0x40) g 0x40 (A.gate_CTL g) ctl.toNat } := by
  rw [exec_gateEnable, execGateEnable]
  rw [gate_CTL_at] at hw ⊢
  exact busWrite_gate hw ctl.isLt g.isLt (by decide) (by decide) rfl rfl

/-- An enable that R245 refuses. -/
theorem ctlStored_refused (h : Hub) {g v : Nat} (he : (ctlStored h g v).is (F.gate_CTL_EN g) = true)
    (hn : takesOk (ctlStored h g v) g = false) :
    (gateEnabled (ctlStored h g v) g false).is (F.gate_CTL_EN g) = false ∧
      (gateEnabled (ctlStored h g v) g false).bit (F.hdr_INT_STAT_EVENT (Page.gate g)) 5 = true ∧
      KeptBut [A.gate_CTL g, A.gate_PITCH g, A.gate_TAKE_SIZE g, Page.gate g + 0x10] h (gateEnabled (ctlStored h g v) g false) := by
  rw [gateEnabled_refused he hn]
  have stored : KeptBut [A.gate_CTL g, A.gate_PITCH g, A.gate_TAKE_SIZE g, Page.gate g + 0x10] h (ctlStored h g v) :=
    fun f hf => ctlStored_others h g v f fun c => hf (by simp [c])
  refine ⟨(Hub.is_congr (Hub.fget_event_other _ _ _ ?_)).trans (Hub.is_flag _ (F.gate_CTL_EN g) false Nat.one_pos),
    Hub.event_set _ _ _ (by decide),
    ((stored.trans ((noteTakeSize_keptBut _ g).mono (by simp))).fset (a := A.gate_CTL g) _ (by decide) (by simp)).event _ (by simp)⟩
  simp only [F.gate_CTL_EN, F.hdr_INT_STAT_EVENT, A.gate_CTL, A.hdr_INT_STAT, gate_INT_STAT, Fld.key_mk]
  omega

/-- The hub once an enabled Gate's CTL has taken a value, FORMAT and TAKES excepted. -/
def rewritten (h : Hub) (g v : Nat) : Hub :=
  noteTakeSize (keepFormat (ctlStored h g v) g (h.fget (F.gate_CTL_FORMAT g)) (h.fget (F.gate_CTL_TAKES g))) g

theorem writeGate_CTL_follows (h : Hub) {g : Nat} (v : Nat) (he : h.is (F.gate_CTL_EN g) = true) :
    writeGate (atWrite h g 0x40) g 0x40 (A.gate_CTL g) v = followCtl (rewritten h g v) g := by
  have started : startTakes (rewritten h g v) g true = rewritten h g v := if_neg (by simp)
  rw [writeGate_CTL_enabled _ _ ((Hub.is_congr (atWrite_fget ..)).trans he), atWrite_fget, atWrite_fget,
    gateEnabled_follows (.inr (.inl rfl))]
  exact congrArg (followCtl · g) started

/-- The fields of CTL other than FORMAT and TAKES take their bits. -/
theorem rewritten_field (h : Hub) {g : Nat} (v : Nat) {lo w : Nat} (hg : g < 4) (hl : lo < 32) (h1 : lo ≠ 1) (h3 : lo ≠ 3)
    (hr : ∃ r ∈ rowsGate.filter (·.covers 0x40), r.lo = lo ∧ r.w = w ∧ r.acc = .rw) :
    (rewritten h g v).fget ⟨A.gate_CTL g, lo, w⟩ = v / 2 ^ lo % 2 ^ w := by
  rw [rewritten, noteTakeSize_ctl _ _ hl, keepFormat_ctl _ _ _ _ hl h1 h3, ctlStored_field h v hg hr]

theorem rewritten_enabled (h : Hub) {g : Nat} (ctl : Word) (hg : g < 4) :
    (rewritten h g ctl.toNat).is (F.gate_CTL_EN g) = ctl.getLsbD 0 :=
  Hub.is_of_bit (rewritten_field h _ hg (by decide) (by decide) (by decide) (by decide))

theorem rewritten_bwAuto (h : Hub) {g : Nat} (ctl : Word) (hg : g < 4) :
    (rewritten h g ctl.toNat).is (F.gate_CTL_BW_AUTO g) = ctl.getLsbD 9 :=
  Hub.is_of_bit (rewritten_field h _ hg (by decide) (by decide) (by decide) (by decide))

theorem ctlStored_format (h : Hub) {g : Nat} (v : Nat) (hg : g < 4) : (ctlStored h g v).fget (F.gate_CTL_FORMAT g) = v / 2 % 4 :=
  ctlStored_field h v hg (by decide)

theorem ctlStored_takeCode (h : Hub) {g : Nat} (v : Nat) (hg : g < 4) : (ctlStored h g v).fget (F.gate_CTL_TAKES g) = v / 8 % 8 :=
  ctlStored_field h v hg (by decide)

theorem rewritten_keeps (h : Hub) {g : Nat} (v : Nat) (hg : g < 4) :
    (rewritten h g v).Has (F.gate_CTL_FORMAT g) (h.fget (F.gate_CTL_FORMAT g)) ∧
      (rewritten h g v).Has (F.gate_CTL_TAKES g) (h.fget (F.gate_CTL_TAKES g)) := by
  obtain ⟨format, takes⟩ := keepFormat_kept (format := h.fget (F.gate_CTL_FORMAT g)) (takes := h.fget (F.gate_CTL_TAKES g))
    (ctlStored_format h v hg ▸ Nat.mod_lt _ (by decide)) (ctlStored_takeCode h v hg ▸ Nat.mod_lt _ (by decide))
  exact ⟨(noteTakeSize_ctl _ g (by decide)).trans format, (noteTakeSize_ctl _ g (by decide)).trans takes⟩

/-- A change of FORMAT or TAKES is a fault. -/
theorem rewritten_fault (h : Hub) {g v : Nat} (hg : g < 4)
    (hn : v / 2 % 4 ≠ h.fget (F.gate_CTL_FORMAT g) ∨ v / 8 % 8 ≠ h.fget (F.gate_CTL_TAKES g)) :
    (rewritten h g v).bit (F.hdr_INT_STAT_EVENT (Page.gate g)) 5 = true := by
  refine (noteTakeSize_keptBut _ g).eventBit (by simp [gate_INT_STAT, A.gate_PITCH, A.gate_TAKE_SIZE]) (keepFormat_event ?_)
  rwa [ctlStored_format h v hg, ctlStored_takeCode h v hg]

/-- The hub once GATE.EDID_CTL has taken a value. -/
def edidStored (h : Hub) (g v : Nat) : Hub := storeWord (atWrite h g 0x4C) (A.gate_EDID_CTL g) v

theorem edidStored_takes (h : Hub) {g : Nat} (v : Nat) (hg : g < 4) : Takes (edidStored h g v) (A.gate_EDID_CTL g) v := by
  rw [edidStored, gate_EDID_CTL_at]
  exact storeWord_gate_takes _ v hg (by decide) (by decide) (by decide)

theorem edidStored_others (h : Hub) (g v : Nat) : OthersKept (A.gate_EDID_CTL g) h (edidStored h g v) := by
  rw [edidStored, gate_EDID_CTL_at]
  exact stored_others h g 0x4C v

theorem edidStored_valid (h : Hub) {g : Nat} (ctl : Word) (hg : g < 4) :
    (edidStored h g ctl.toNat).is (F.gate_EDID_CTL_VALID g) = ctl.getLsbD 3 := by
  have takes := edidStored_takes h ctl.toNat hg
  refine Hub.is_of_bit ?_
  rw [F.gate_EDID_CTL_VALID]
  rw [gate_EDID_CTL_at] at takes ⊢
  exact takes.gateField hg (by decide) (by decide) (by decide)

theorem edidStored_beside (h : Hub) (g v : Nat) : (edidStored h g v).gates = h.gates ∧ (edidStored h g v).out = h.out := by
  rw [edidStored, gate_EDID_CTL_at]
  exact stored_atWrite h g 0x4C v

theorem exec_edidValid_passes {s : State} {req : Req} {g : Fin 4} (ctl : Word) (hw : Writes s req (A.gate_EDID_CTL g)) :
    exec (.edidValid req g ctl) s =
      .next { s with hub := edidValid (edidStored s.hub g ctl.toNat) g (s.hub.is (F.gate_EDID_CTL_VALID g)) } := by
  have valid : (atWrite s.hub g 0x4C).is (F.gate_EDID_CTL_VALID g) = s.hub.is (F.gate_EDID_CTL_VALID g) := Hub.is_congr (atWrite_fget ..)
  rw [edidStored, ← valid, ← writeGate_EDID_CTL, exec_edidValid, execEdidValid]
  rw [gate_EDID_CTL_at] at hw ⊢
  exact busWrite_gate hw ctl.isLt g.isLt (by decide) (by decide) rfl rfl

/-- Settles O28. A write of CTL is its store, and, of an enabled Gate, the restoring of FORMAT and TAKES; then the takes are checked or
started, and the Gate follows. A write of EDID_CTL is its store, and the pulse or the settling of the Gate. -/
theorem gateEnableAndHpd : Obligations.GateEnableAndHpd := by
  intro s req g ctl
  refine ⟨fun hw => ⟨fun he => ?disabled, fun he => ?enabled⟩, fun hw => ?edid, fun hp => ?pulse⟩
  case disabled =>
    have written : writeGate (atWrite s.hub g 0x40) g 0x40 (A.gate_CTL g) ctl.toNat = gateEnabled (ctlStored s.hub g ctl.toNat) g false :=
      writeGate_CTL_disabled _ _ ((Hub.is_congr (atWrite_fget ..)).trans he)
    refine ⟨_, exec_gateEnable_passes ctl hw, ctlStored s.hub g ctl.toNat, ctlStored_takes _ _ g.isLt, ctlStored_others _ _ _, ?_⟩
    dsimp only
    rw [written]
    refine ⟨ctlStored_refused s.hub, fun ok => ⟨startTakes (noteTakeSize (ctlStored s.hub g ctl.toNat) g) g false, ?_, fun on => ?_,
      startTakes_size _ (noteTakeSize_size ..), gateEnabled_follows (ok.imp_right .inr)⟩⟩
    · rw [startTakes_enabled, noteTakeSize_enabled]
    · exact startTakes_notNewest ((noteTakeSize_enabled ..).trans on)
  case enabled =>
    refine ⟨_, exec_gateEnable_passes ctl hw, rewritten s.hub g ctl.toNat, rewritten_enabled s.hub ctl g.isLt,
      rewritten_bwAuto s.hub ctl g.isLt, (rewritten_keeps s.hub _ g.isLt).1, (rewritten_keeps s.hub _ g.isLt).2,
      rewritten_fault s.hub g.isLt, writeGate_CTL_follows s.hub _ he⟩
  case edid =>
    obtain ⟨gates, out⟩ := edidStored_beside s.hub g ctl.toNat
    have gate : (edidStored s.hub g ctl.toNat).gateSt g = s.hub.gateSt g := by rw [Hub.gateSt, gates, ← Hub.gateSt]
    have valid := edidStored_valid s.hub ctl g.isLt
    refine ⟨_, exec_edidValid_passes ctl hw, edidStored s.hub g ctl.toNat, edidStored_takes _ _ g.isLt, edidStored_others _ _ _,
      fun hv up high => ?rises, fun ok => ?settles⟩
    case rises =>
      obtain ⟨pulse, low, sent, regs⟩ := startPulse_falls ((congrArg GateSt.hpd gate).trans high)
      refine ⟨startPulse (edidStored s.hub g ctl.toNat) g, pulse, low, sent.trans (by rw [out]), regs, ?_⟩
      dsimp only
      rw [hv]
      exact edidValid_pulses (valid.trans up) ((congrArg GateSt.hpd gate).trans high)
    case settles =>
      refine edidValid_settles (ok.imp_right (.imp (valid.trans ·) fun low => (congrArg GateSt.hpd gate).trans low))
  case pulse =>
    refine ⟨_, rfl, s.hub.setGate g { s.hub.gateSt g with pulse := false }, ?_, rfl, hpdPulseEnd_settles hp⟩
    rw [Hub.gateSt_setGate, if_pos rfl]

end Sys2Proof.Machine
end

section
/-! The writes of PROJ.CTL: a head that is enabled, refused, disabled, or only takes the value (R275, R277, R279, R519). -/

namespace Sys2Proof.Machine

/-! ## A block register that is written (R12, R53) -/

theorem wordRows_block {base off i : Nat} {k : Kind} (hp : pageAt (base + off) = some (k, i, base)) (hlow : 0x40 ≤ off) :
    wordRows (base + off) = (rowsOf k).filter (·.covers off) := by
  simp [wordRows, hp, hlow]

/-- A writable field that its page carries, in a word of which no bits are masked, takes its bits. -/
theorem storeField_carried {h : Hub} {k : Kind} {i base a v : Nat} {r : Row}
    (carried : (fieldAbsent h k i (a - base) r.lo || fieldFixed k i (a - base) r.lo) = false) (whole : storeMask k (a - base) v = v)
    (hr : r.acc = .rw ∨ r.acc = .rwf) : storeField h k i base a v r = h.fset ⟨a, r.lo, r.w⟩ (v / 2 ^ r.lo % 2 ^ r.w) := by
  obtain hr | hr := hr <;> simp [storeField, carried, whole, hr]

/-- The store of a word of a page that carries each of its fields: every writable field takes its bits. -/
theorem storeWord_takes (h : Hub) {base off v i : Nat} {k : Kind} (hp : pageAt (base + off) = some (k, i, base))
    (carried : ∀ (x : Hub) (lo : Nat), (fieldAbsent x k i off lo || fieldFixed k i off lo) = false) (whole : storeMask k off v = v)
    (apart : (wordRows (base + off)).Pairwise fun r q => r.lo ≠ q.lo) : Takes (storeWord h (base + off) v) (base + off) v := by
  have offset : base + off - base = off := Nat.add_sub_cancel_left ..
  simp only [Takes, storeWord, hp]
  generalize wordRows (base + off) = l at apart ⊢
  induction l generalizing h with
  | nil => nofun
  | cons r l ih =>
    obtain ⟨first, rest⟩ := List.pairwise_cons.mp apart
    intro q hq hacc
    rw [List.foldl_cons]
    obtain rfl | hq := List.mem_cons.mp hq
    · have later : ∀ p ∈ l, (Fld.mk (base + off) q.lo q.w).key ≠ (base + off) * 32 + p.lo := fun p hp => by
        have := first p hp
        rw [Fld.key_mk]
        omega
      rw [foldl_storeField_other _ _ _ _ _ _ _ later,
        storeField_carried (by rw [offset]; exact carried h q.lo) (by rw [offset]; exact whole) hacc, Hub.fget_fset_same]
      exact Nat.mod_mod _ _
    · exact ih _ rest q hq hacc

/-- A bit that requests an action, and latches nothing, stands at a store of its word (R12, R686). -/
theorem storeWord_action (h : Hub) {base off v i lo w : Nat} {k : Kind} (hp : pageAt (base + off) = some (k, i, base))
    (act : ∀ r ∈ wordRows (base + off), r.lo = lo → r.acc = .w1s) (unlatched : latchBit k off = false) :
    (storeWord h (base + off) v).fget ⟨base + off, lo, w⟩ = h.fget ⟨base + off, lo, w⟩ := by
  have offset : base + off - base = off := Nat.add_sub_cancel_left ..
  simp only [storeWord, hp]
  refine List.foldlRecOn (motive := fun x : Hub => x.fget ⟨base + off, lo, w⟩ = h.fget ⟨base + off, lo, w⟩) _ _ rfl fun x hx r hr => ?_
  by_cases hlo : r.lo = lo
  · have idle : storeField x k i base (base + off) v r = x := by simp [storeField, act r hr hlo, offset, unlatched]
    rw [idle, hx]
  · rw [storeField_other _ _ _ _ _ _ _ (by rw [Fld.key_mk]; omega), hx]

/-- A field that a word has taken. -/
theorem Takes.field {h : Hub} {a v lo w : Nat} (t : Takes h a v) (hr : ∃ r ∈ wordRows a, r.lo = lo ∧ r.w = w ∧ r.acc = .rw) :
    h.fget ⟨a, lo, w⟩ = v / 2 ^ lo % 2 ^ w := by
  obtain ⟨r, hr, rfl, rfl, hacc⟩ := hr
  exact t r hr (.inl hacc)

/-- What a word has taken it keeps where other words are written. -/
theorem Takes.kept {h h' : Hub} {a v : Nat} {l : List Nat} (t : Takes h a v) (p : KeptBut l h h') (ha : a ∉ l) : Takes h' a v :=
  fun r hr hacc => (p.fget (wordRows_lo hr) ha).trans (t r hr hacc)

theorem Hub.is_of_testBit {h : Hub} {f : Fld} {n v : Nat} (e : h.fget f = v / 2 ^ n % 2 ^ 1) : h.is f = v.testBit n := by
  rw [Hub.is, e, Nat.testBit_eq_decide_div_mod_eq, Nat.pow_one]
  obtain z | o := Nat.mod_two_eq_zero_or_one (v / 2 ^ n)
  · simp [z]
  · simp [o]

/-- The pages above the self-test's hold no word whose write may end one (R646, R662). -/
theorem endsBist_above (req : Req) {a : Nat} (ha : Page.bist + 0x44 ≤ a) : endsBist (windowAccess req a 4 true 0) = false := by
  have miss : ∀ r, r ≤ 0x40 → decide (a ≤ Page.bist + r ∧ Page.bist + r < a + 4) = false := fun r hr => decide_eq_false (by omega)
  exact Bool.or_eq_false_iff.mpr ⟨miss 0x24 (by decide), Bool.or_eq_false_iff.mpr ⟨miss 0x40 (by decide), rfl⟩⟩

/-- A write of a block register above the self-test's page that passes, by the register's offset. -/
theorem busWrite_block {s : State} {req : Req} {base off v i : Nat} {k : Kind} (hw : Writes s req (base + off)) (hv : v < 2 ^ 32)
    (hp : pageAt (base + off) = some (k, i, base)) (hlow : 0x40 ≤ off) (hlo : isPairLo k off = false) (hhi : isPairHi k off = false)
    (ha : Page.bist + 0x44 ≤ base + off) : busWrite s req (base + off) v =
      .next { s with hub := writeBlock (invalidate s.hub false (base + off) 4) req k i off (base + off) v } := by
  have offset : base + off - base = off := Nat.add_sub_cancel_left ..
  rw [write_block hw hv hp (by simp [offset, Nat.not_lt.mpr hlow]) (by simp [offset, hlo]) (by simp [offset, hhi]) (endsBist_above req ha),
    offset]

/-- The hub once the write of a word has stored it. -/
def wordTaken (h : Hub) (a v : Nat) : Hub := storeWord (invalidate h false a 4) a v

/-- The store of a write leaves all but the register table and the prefetched bytes. -/
theorem wordTaken_eq (h : Hub) (a v : Nat) : ∃ regs pen, wordTaken h a v = { h with regs := regs, pen := pen } := by
  obtain ⟨pen, hp⟩ := invalidate_eq h false a 4
  obtain ⟨regs, hr⟩ := storeWord_eq (invalidate h false a 4) a v
  exact ⟨regs, pen, by rw [wordTaken, hr, hp]⟩

theorem wordTaken_others (h : Hub) (a v : Nat) : OthersKept a h (wordTaken h a v) :=
  OthersKept.trans (othersKept_invalidate _ _ _ _ _) (storeWord_others _ _ _)

/-- The bits of a word that a mask leaves. -/
theorem Word.toNat_and_lt (x : Word) (n : Nat) : x.toNat &&& n < 2 ^ 32 := Nat.lt_of_le_of_lt Nat.and_le_left x.isLt

/-! ## The words of a Projector -/

theorem proj_CTL_at (p : Nat) : A.proj_CTL p = Page.proj p + 0x40 := by
  unfold A.proj_CTL Page.proj
  omega

theorem proj_LINK_CTL_at (p : Nat) : A.proj_LINK_CTL p = Page.proj p + 0x9C := by
  unfold A.proj_LINK_CTL Page.proj
  omega

theorem proj_INT_STAT (p : Nat) : Page.proj p + 0x10 = 0x68010 + 0x1000 * p := by
  unfold Page.proj
  omega

/-- A write of a Projector's register that passes. -/
theorem busWrite_proj {s : State} {req : Req} {p off v : Nat} (hw : Writes s req (Page.proj p + off)) (hv : v < 2 ^ 32) (hp : p < 4)
    (hlow : 0x40 ≤ off) (hoff : off < 0x1000) (hlo : isPairLo .proj off = false) (hhi : isPairHi .proj off = false) :
    busWrite s req (Page.proj p + off) v =
      .next { s with hub := writeProj (invalidate s.hub false (Page.proj p + off) 4) req p off (Page.proj p + off) v } :=
  busWrite_block hw hv (pageAt_proj hp hoff) hlow hlo hhi (by unfold Page.bist Page.proj; omega)

/-- Below its plates a word of a Projector takes every bit that it has. -/
theorem wordTaken_proj (h : Hub) {p off : Nat} (v : Nat) (hp : p < 4) (hlow : 0x40 ≤ off) (hoff : off < 0x100)
    (apart : (rowsProj.filter (·.covers off)).Pairwise fun r q => r.lo ≠ q.lo) :
    Takes (wordTaken h (Page.proj p + off) v) (Page.proj p + off) v := by
  have page := pageAt_proj (off := off) hp (by omega)
  exact storeWord_takes _ page (fun _ _ => rfl) (if_neg (by omega)) (by rw [wordRows_block page hlow]; exact apart)

/-- A word below the plates names no Gate (R288). -/
theorem plateForeign_below (h : Hub) (req : Req) (p : Nat) {off : Nat} (v : Nat) (hoff : off < 0x100) :
    plateForeign h req p off v = false := by
  have low : decide (0x100 ≤ off) = false := decide_eq_false (Nat.not_le.mpr hoff)
  unfold plateForeign
  split
  · simp [low]
  · rfl

/-! ## PROJ.CTL -/

/-- The write of STATIC_INTENT or LIMIT touches CONT_STAT alone (R295). -/
theorem contWritten_others (h : Hub) (p : Nat) : OthersKept (A.proj_CONT_STAT p) h (contWritten h p) := by
  unfold contWritten
  split
  · exact (othersKept_flag h _ false (Fld.key_div _ (by decide))).trans (othersKept_flag _ _ false (Fld.key_div _ (by decide)))
  · exact othersKept_refl _ h

theorem contWritten_eq (h : Hub) (p : Nat) : ∃ regs, contWritten h p = { h with regs := regs } := by
  unfold contWritten
  split
  · exact ⟨_, rfl⟩
  · exact ⟨h.regs, rfl⟩

/-- The hub once PROJ.CTL has taken a value, before the head follows EN. -/
def projCtlTaken (h : Hub) (p v : Nat) : Hub := contWritten (wordTaken h (A.proj_CTL p) v) p

theorem projCtlTaken_eq (h : Hub) (p v : Nat) : ∃ regs pen, projCtlTaken h p v = { h with regs := regs, pen := pen } := by
  obtain ⟨_, pen, stored⟩ := wordTaken_eq h (A.proj_CTL p) v
  obtain ⟨regs, checked⟩ := contWritten_eq (wordTaken h (A.proj_CTL p) v) p
  exact ⟨regs, pen, by rw [projCtlTaken, checked, stored]⟩

theorem projCtlTaken_beside (h : Hub) (p v : Nat) : (projCtlTaken h p v).active = h.active ∧ (projCtlTaken h p v).heads = h.heads ∧
    (projCtlTaken h p v).headRank = h.headRank := by
  obtain ⟨_, _, e⟩ := projCtlTaken_eq h p v
  rw [e]
  exact ⟨rfl, rfl, rfl⟩

theorem projCtlTaken_keptBut (h : Hub) (p v : Nat) : KeptBut [A.proj_CTL p, A.proj_CONT_STAT p] h (projCtlTaken h p v) := by
  intro f hf
  obtain ⟨hctl, hcont⟩ : f.key / 32 ≠ A.proj_CTL p ∧ f.key / 32 ≠ A.proj_CONT_STAT p := by simpa using hf
  exact (contWritten_others _ p f hcont).trans (wordTaken_others h _ v f hctl)

theorem projCtlTaken_takes (h : Hub) {p : Nat} (v : Nat) (hp : p < 4) : Takes (projCtlTaken h p v) (A.proj_CTL p) v := by
  have stored : Takes (wordTaken h (A.proj_CTL p) v) (A.proj_CTL p) v := by
    rw [proj_CTL_at]
    exact wordTaken_proj h v hp (by decide) (by decide) (by decide)
  have kept : KeptBut [A.proj_CONT_STAT p] (wordTaken h (A.proj_CTL p) v) (projCtlTaken h p v) :=
    fun f hf => contWritten_others _ p f (by simpa using hf)
  exact stored.kept kept (by simp [A.proj_CTL, A.proj_CONT_STAT])

theorem projCtlTaken_enabled (h : Hub) {p : Nat} (v : Nat) (hp : p < 4) : (projCtlTaken h p v).is (F.proj_CTL_EN p) = v.testBit 0 := by
  have rows : wordRows (A.proj_CTL p) = rowsProj.filter (·.covers 0x40) := by
    rw [proj_CTL_at]
    exact wordRows_block (pageAt_proj hp (by decide)) (by decide)
  exact Hub.is_of_testBit ((projCtlTaken_takes h v hp).field (by rw [rows]; decide))

theorem projCtlTaken_on (h : Hub) {p : Nat} (n : Nat) (hp : p < 4) : (projCtlTaken h p (n ||| 1)).is (F.proj_CTL_EN p) = true := by
  rw [projCtlTaken_enabled h _ hp, Nat.testBit_or]
  simp

theorem projCtlTaken_off (h : Hub) {p : Nat} (n : Nat) (hp : p < 4) :
    (projCtlTaken h p (n &&& 0xFFFFFFFE)).is (F.proj_CTL_EN p) = false := by
  rw [projCtlTaken_enabled h _ hp, Nat.testBit_and]
  simp

/-- The head follows a change of EN, and only takes the value where EN stays (R277, R279). -/
theorem writeProj_CTL (h : Hub) (req : Req) (p v : Nat) :
    writeProj (invalidate h false (A.proj_CTL p) 4) req p 0x40 (A.proj_CTL p) v =
      if (projCtlTaken h p v).is (F.proj_CTL_EN p) && !(h.is (F.proj_CTL_EN p)) then projEnable (projCtlTaken h p v) p
      else if !((projCtlTaken h p v).is (F.proj_CTL_EN p)) && h.is (F.proj_CTL_EN p) then projDisable (projCtlTaken h p v) p
      else projCtlTaken h p v := by
  have was : (invalidate h false (A.proj_CTL p) 4).is (F.proj_CTL_EN p) = h.is (F.proj_CTL_EN p) := Hub.is_congr (invalidate_fget ..)
  rw [writeProj, plateForeign_below _ _ _ _ (by decide), was]
  rfl

theorem busWrite_proj_CTL {s : State} {req : Req} {p v : Nat} (hw : Writes s req (A.proj_CTL p)) (hv : v < 2 ^ 32) (hp : p < 4) :
    busWrite s req (A.proj_CTL p) v =
      .next { s with hub := writeProj (invalidate s.hub false (A.proj_CTL p) 4) req p 0x40 (A.proj_CTL p) v } := by
  rw [proj_CTL_at] at hw ⊢
  exact busWrite_proj hw hv hp (by decide) (by decide) rfl rfl

/-- A write that sets EN. -/
theorem exec_projEnable_passes {s : State} {req : Req} {p : Fin 4} (ctl : Word) (hw : Writes s req (A.proj_CTL p)) :
    exec (.projEnable req p ctl) s = .next { s with
      hub := if s.hub.is (F.proj_CTL_EN p) then projCtlTaken s.hub p (ctl.toNat ||| 1)
        else projEnable (projCtlTaken s.hub p (ctl.toNat ||| 1)) p } := by
  rw [exec_projEnable, execProjEnable, busWrite_proj_CTL hw (Nat.or_lt_two_pow ctl.isLt (by decide)) p.isLt, writeProj_CTL,
    projCtlTaken_on s.hub _ p.isLt]
  cases s.hub.is (F.proj_CTL_EN p) <;> simp

/-- A write that clears EN. -/
theorem exec_projDisable_passes {s : State} {req : Req} {p : Fin 4} (ctl : Word) (hw : Writes s req (A.proj_CTL p)) :
    exec (.projDisable req p ctl) s = .next { s with
      hub := if s.hub.is (F.proj_CTL_EN p) then projDisable (projCtlTaken s.hub p (ctl.toNat &&& 0xFFFFFFFE)) p
        else projCtlTaken s.hub p (ctl.toNat &&& 0xFFFFFFFE) } := by
  rw [exec_projDisable, execProjDisable, busWrite_proj_CTL hw (Word.toNat_and_lt ctl _) p.isLt, writeProj_CTL,
    projCtlTaken_off s.hub _ p.isLt]
  cases s.hub.is (F.proj_CTL_EN p) <;> simp

/-! ## A head that is enabled (R275, R277) -/

/-- The check reads the active copy, which the write of CTL leaves. -/
theorem projCheck_projCtlTaken (h : Hub) (p v : Nat) : projCheck (projCtlTaken h p v).aget p = projCheck h.aget p := by
  obtain ⟨_, _, e⟩ := projCtlTaken_eq h p v
  rw [e]
  rfl

/-- A head whose set fails its check. -/
def refusedHead (h : Hub) (p : Nat) : Hub :=
  ((h.flag (F.proj_CTL_EN p) false).fset (F.proj_FAULT_CODE p) (projCheck h.aget p)).event (Page.proj p) 10

theorem projEnable_refused {h : Hub} {p : Nat} (hc : projCheck h.aget p ≠ 0) : projEnable h p = refusedHead h p := if_pos hc

theorem refusedHead_off (h : Hub) (p : Nat) : (refusedHead h p).is (F.proj_CTL_EN p) = false := by
  have later : KeptBut [A.proj_FAULT p, Page.proj p + 0x10] (h.flag (F.proj_CTL_EN p) false) (refusedHead h p) :=
    ((keptBut_refl _ _).fset _ (by decide) (by simp)).event _ (by simp)
  exact (later.is (by decide) (by simp [proj_INT_STAT, A.proj_CTL, A.proj_FAULT])).trans (Hub.is_flag h (F.proj_CTL_EN p) false Nat.one_pos)

theorem refusedHead_code (h : Hub) (p : Nat) : (refusedHead h p).Has (F.proj_FAULT_CODE p) (projCheck h.aget p) := by
  refine (Hub.fget_event_other _ _ _ ?_).trans (Hub.fget_fset_same ..)
  simp only [F.proj_FAULT_CODE, F.hdr_INT_STAT_EVENT, A.proj_FAULT, A.hdr_INT_STAT, proj_INT_STAT, Fld.key_mk]
  omega

theorem refusedHead_event (h : Hub) (p : Nat) : (refusedHead h p).bit (F.hdr_INT_STAT_EVENT (Page.proj p)) 10 = true :=
  Hub.event_set _ _ _ (by decide)

/-- A head that passes its check counts as the last enabled. -/
def rankedHead (h : Hub) (p : Nat) : Hub := { h.setHead p { h.head p with rank := h.headRank + 1 } with headRank := h.headRank + 1 }

theorem rankedHead_rank (h : Hub) (p : Nat) : ((rankedHead h p).head p).rank = h.headRank + 1 := by
  show ((h.setHead p { h.head p with rank := h.headRank + 1 }).head p).rank = _
  rw [Hub.head_setHead, if_pos rfl]

/-- The hub at the start of a head: its floors are in force, and at LOW the start is held (R519). -/
def awaitIsland (h : Hub) (p : Nat) : Hub := holdStart (dvfsSettle (enforceFloor (enforceFloor h (17 + p)) 12)) 2 (.head p)

theorem projEnable_starts {h : Hub} {p : Nat} (hc : projCheck h.aget p = 0) : projEnable h p =
    if lowNow (awaitIsland (rankedHead h p) p) 2 then awaitIsland (rankedHead h p) p else headStart (awaitIsland (rankedHead h p) p) p :=
  if_neg (Decidable.not_not.mpr hc)

/-! ## A head that is disabled (R279) -/

theorem Hub.is_flag_false {h : Hub} {g : Fld} (f : Fld) (hg : h.is g = false) : (h.flag f false).is g = false := by
  rw [Hub.flag, Hub.is_fset]
  split
  · simp
  · exact hg

/-- Every one of a list of flags that are cleared reads 0. -/
theorem foldl_clear_is (f : Nat → Fld) (l : List Nat) (h : Hub) {q : Nat} (hq : q ∈ l) (hw : 0 < (f q).w) :
    (l.foldl (fun h q => h.flag (f q) false) h).is (f q) = false := by
  induction l generalizing h with
  | nil => cases hq
  | cons a l ih =>
    obtain rfl | hq := List.mem_cons.mp hq
    · exact List.foldlRecOn (motive := fun x : Hub => x.is (f q) = false) l _ (Hub.is_flag h (f q) false hw)
        fun x hx a _ => Hub.is_flag_false (f a) hx
    · exact ih _ hq

/-- The takes that a head has latched are released. -/
def releaseTakes (h : Hub) (p : Nat) : Hub := (List.range 4).foldl (fun h q => h.flag (F.proj_LATCHED_VALID p q) false) h

theorem releaseTakes_keptBut (h : Hub) (p : Nat) : KeptBut [A.proj_LATCHED p] h (releaseTakes h p) :=
  List.foldlRecOn (motive := fun x : Hub => KeptBut [A.proj_LATCHED p] h x) _ _ (keptBut_refl _ h) fun x hx q hq =>
    hx.fset _ (by have := List.mem_range.mp hq; omega) (by simp)

theorem releaseTakes_invalid (h : Hub) (p : Nat) (q : Fin 4) : (releaseTakes h p).is (F.proj_LATCHED_VALID p q) = false :=
  foldl_clear_is (F.proj_LATCHED_VALID p) _ h (List.mem_range.mpr q.isLt) Nat.one_pos

/-- What a head that stops goes by until its line ends: the line, where it shows one, and the takes it showed. -/
def stoppingHead (h : Hub) (p : Nat) : ProjSt :=
  { h.head p with
    last := if !(h.power.heldStarts.contains (.head p)) && !(h.is (F.proj_STATUS_DARK p)) then some (linesSince h p) else none
    takes := (List.range 4).map (takeOf h p) }

/-- The hub at the end of a head, before the Gates, the display and the islands follow. -/
def stoppedHead (h : Hub) (p : Nat) : Hub :=
  (((releaseTakes (dropHeld h (· == .head p)) p).flag (F.proj_CONT_STAT_ARMED p) false).setHead p (stoppingHead h p)).flag
    (F.proj_STATUS_DARK p) false

theorem projDisable_eq (h : Hub) (p : Nat) : projDisable h p = dvfsSettle (settleDisplay (noteLatched (stoppedHead h p))) := rfl

theorem stoppedHead_head (h : Hub) (p : Nat) : (stoppedHead h p).head p = stoppingHead h p :=
  (Hub.head_setHead ((releaseTakes (dropHeld h (· == .head p)) p).flag (F.proj_CONT_STAT_ARMED p) false) p p _).trans (if_pos rfl)

theorem KeptBut.setHead {l : List Nat} {h h' : Hub} (k : KeptBut l h h') (p : Nat) (x : ProjSt) : KeptBut l h (h'.setHead p x) := k

theorem stoppedHead_keptBut (h : Hub) (p : Nat) : KeptBut [A.proj_LATCHED p, A.proj_CONT_STAT p, A.proj_STATUS p] h (stoppedHead h p) := by
  have dropped : KeptBut [A.proj_LATCHED p, A.proj_CONT_STAT p, A.proj_STATUS p] h (dropHeld h (· == .head p)) := fun _ _ => rfl
  have released := dropped.trans ((releaseTakes_keptBut _ p).mono (by simp))
  exact ((released.fset _ (by decide) (by simp)).setHead p (stoppingHead h p)).fset _ (by decide) (by simp)

theorem stoppedHead_off {h : Hub} {p : Nat} (he : h.is (F.proj_CTL_EN p) = false) : (stoppedHead h p).is (F.proj_CTL_EN p) = false :=
  ((stoppedHead_keptBut h p).is (by decide) (by simp [A.proj_CTL, A.proj_LATCHED, A.proj_CONT_STAT, A.proj_STATUS])).trans he

theorem stoppedHead_invalid (h : Hub) (p : Nat) (q : Fin 4) : (stoppedHead h p).is (F.proj_LATCHED_VALID p q) = false := by
  have later : KeptBut [A.proj_CONT_STAT p, A.proj_STATUS p] (releaseTakes (dropHeld h (· == .head p)) p) (stoppedHead h p) :=
    (((keptBut_refl _ _).fset _ (by decide) (by simp)).setHead p (stoppingHead h p)).fset _ (by decide) (by simp)
  exact (later.is (by omega) (by simp [A.proj_LATCHED, A.proj_CONT_STAT, A.proj_STATUS])).trans (releaseTakes_invalid _ p q)

theorem stoppedHead_unarmed (h : Hub) (p : Nat) : (stoppedHead h p).is (F.proj_CONT_STAT_ARMED p) = false :=
  Hub.is_flag_false _ ((Hub.setHead_is ..).trans (Hub.is_flag _ (F.proj_CONT_STAT_ARMED p) false Nat.one_pos))

theorem stoppedHead_lit (h : Hub) (p : Nat) : (stoppedHead h p).is (F.proj_STATUS_DARK p) = false :=
  Hub.is_flag _ (F.proj_STATUS_DARK p) false Nat.one_pos

/-- The write of CTL leaves what an enabled head goes by when it stops. -/
theorem stoppingHead_projCtlTaken {h : Hub} {p : Nat} (v : Nat) (he : h.is (F.proj_CTL_EN p) = true) :
    (stoppingHead (projCtlTaken h p v) p).takes = (List.range 4).map (takeOf h p) ∧
      (stoppingHead (projCtlTaken h p v) p).last =
        if headOn h p && !(h.is (F.proj_STATUS_DARK p)) then some (linesSince h p) else none := by
  have kept := projCtlTaken_keptBut h p v
  have dark : (projCtlTaken h p v).is (F.proj_STATUS_DARK p) = h.is (F.proj_STATUS_DARK p) :=
    kept.is (by decide) (by simp [A.proj_STATUS, A.proj_CTL, A.proj_CONT_STAT])
  have latched : A.proj_LATCHED p ∉ [A.proj_CTL p, A.proj_CONT_STAT p] := by simp [A.proj_LATCHED, A.proj_CTL, A.proj_CONT_STAT]
  have takes : (List.range 4).map (takeOf (projCtlTaken h p v) p) = (List.range 4).map (takeOf h p) := by
    refine List.map_congr_left fun q hq => ?_
    have low := List.mem_range.mp hq
    have valid : (projCtlTaken h p v).is (F.proj_LATCHED_VALID p q) = h.is (F.proj_LATCHED_VALID p q) := kept.is (by omega) latched
    have take : (projCtlTaken h p v).fget (F.proj_LATCHED_TAKE p q) = h.fget (F.proj_LATCHED_TAKE p q) := kept.fget (by omega) latched
    rw [takeOf, valid, take, takeOf]
  refine ⟨takes, ?_⟩
  obtain ⟨_, _, e⟩ := projCtlTaken_eq h p v
  have held : (projCtlTaken h p v).power = h.power := by rw [e]
  have line : linesSince (projCtlTaken h p v) p = linesSince h p := by
    rw [e]
    rfl
  rw [stoppingHead, headOn, he, held, dark, line]
  rfl

/-! ## The obligation -/

/-- Settles O38. A write of CTL is its store, and the check that STATIC_INTENT and LIMIT govern; then the head follows a change of EN.
The check of the set reads the active copy, and the stop what the head showed, neither of which the store touches. -/
theorem headEnableAndDisable : Obligations.HeadEnableAndDisable := by
  intro s req p ctl hw
  have enables := exec_projEnable_passes ctl hw
  have disables := exec_projDisable_passes ctl hw
  have check := projCheck_projCtlTaken s.hub p (ctl.toNat ||| 1)
  have beside := projCtlTaken_beside s.hub p
  refine ⟨fun he => ?disabled, fun he => ?enabled⟩
  case disabled =>
    simp only [he, Bool.false_eq_true, if_false] at enables disables
    refine ⟨fun hc => ?refused, fun hc => ?started, ?stays⟩
    case refused =>
      refine ⟨_, enables, ?_⟩
      dsimp only
      rw [projEnable_refused (by rwa [check]), ← check]
      exact ⟨refusedHead_off _ _, refusedHead_code _ _, refusedHead_event _ _, (beside _).1⟩
    case started =>
      obtain ⟨active, _, rank⟩ := beside (ctl.toNat ||| 1)
      have on := projCtlTaken_on s.hub ctl.toNat p.isLt
      rw [projEnable_starts (by rwa [check])] at enables
      generalize projCtlTaken s.hub p (ctl.toNat ||| 1) = h at enables on active rank
      exact ⟨_, enables, rankedHead h p, awaitIsland (rankedHead h p) p, on, rank ▸ rankedHead_rank h p, active, rfl, rfl⟩
    case stays => exact ⟨_, disables, projCtlTaken_takes _ _ p.isLt, (beside _).1⟩
  case enabled =>
    simp only [he, if_true] at enables disables
    refine ⟨⟨_, enables, projCtlTaken_takes _ _ p.isLt, (beside _).1, (beside _).2.1⟩, ?_⟩
    obtain ⟨takes, last⟩ := stoppingHead_projCtlTaken (ctl.toNat &&& 0xFFFFFFFE) he
    have off := projCtlTaken_off s.hub ctl.toNat p.isLt
    generalize projCtlTaken s.hub p (ctl.toNat &&& 0xFFFFFFFE) = h at disables takes last off
    have head := stoppedHead_head h p
    rw [projDisable_eq] at disables
    refine ⟨_, disables, ?_⟩
    dsimp only
    exact ⟨stoppedHead h p, stoppedHead_off off, stoppedHead_invalid h p, stoppedHead_unarmed h p, stoppedHead_lit h p,
      (congrArg ProjSt.takes head).trans takes, (congrArg ProjSt.last head).trans last, rfl⟩

end Sys2Proof.Machine
end

section
/-! The ports toward monitors: training, RETRAIN, HPD and its IRQ (R304, R310, R312, R313, R512). -/

namespace Sys2Proof.Machine

/-! ## The words of a DPO -/

theorem dpo_CTL_at (o : Nat) : A.dpo_CTL o = Page.dpo o + 0x40 := by
  unfold A.dpo_CTL Page.dpo
  omega

theorem dpo_STATUS_at (o : Nat) : A.dpo_STATUS o = Page.dpo o + 0x44 := by
  unfold A.dpo_STATUS Page.dpo
  omega

theorem dpo_INT_STAT (o : Nat) : Page.dpo o + 0x10 = 0x6C010 + 0x1000 * o := by
  unfold Page.dpo
  omega

/-- A write of a DPO's register that passes. -/
theorem busWrite_dpo {s : State} {req : Req} {o off v : Nat} (hw : Writes s req (Page.dpo o + off)) (hv : v < 2 ^ 32) (ho : o < 2)
    (hlow : 0x40 ≤ off) (hoff : off < 0x1000) : busWrite s req (Page.dpo o + off) v =
      .next { s with hub := writeDpo (invalidate s.hub false (Page.dpo o + off) 4) o off (Page.dpo o + off) v } :=
  busWrite_block hw hv (pageAt_dpo ho hoff) hlow rfl (Bool.and_false _) (by unfold Page.bist Page.dpo; omega)

/-- A counter that counts. -/
theorem Hub.bump_counted (h : Hub) (f : Fld) : Counted h (h.bump f 1) f := (Hub.fget_bump ..).trans (if_pos rfl)

/-- A count stands where its word is kept from there on. -/
theorem Counted.kept {h h' h'' : Hub} {l : List Nat} {a lo w : Nat} (c : Counted h h' ⟨a, lo, w⟩) (p : KeptBut l h' h'') (hl : lo < 32)
    (ha : a ∉ l) : Counted h h'' ⟨a, lo, w⟩ := (p.fget hl ha).trans c

/-! ## The end of a training (R304, R313) -/

/-- TRAIN_TIME and ERR are words of their own. -/
theorem dpo_TRAIN_TIME_ne_ERR (o : Nat) : (F.dpo_TRAIN_TIME_MS o).key ≠ (F.dpo_ERR_RETRAINS o).key := by
  simp only [F.dpo_TRAIN_TIME_MS, F.dpo_ERR_RETRAINS, A.dpo_TRAIN_TIME, A.dpo_ERR, Fld.key_mk]
  omega

/-- The training that ends is timed and, of a port that has trained before, counted. -/
def countTraining (h : Hub) (o ms : Nat) (before : Bool) : Hub :=
  let h := h.fset (F.dpo_TRAIN_TIME_MS o) (min ms 0xFFFF)
  if before then h.bump (F.dpo_ERR_RETRAINS o) 1 else h

/-- The loss of a link that the port had, and the outcome. -/
def raiseTraining (h : Hub) (o : Nat) (lost ok : Bool) : Hub :=
  (if lost then h.event (Page.dpo o) 2 else h).event (Page.dpo o) (if ok then 1 else 4)

/-- What a DPO reports of a training. -/
def reportTraining (h : Hub) (o : Nat) (x : DpPort) (ok : Bool) (ms : Nat) : Hub :=
  raiseTraining (countTraining h o ms x.before) o (x.trained && !ok) ok

/-- A port after a training, within its limits and those of its sink. -/
def trainedPort (x : DpPort) (limits : Nat × Nat) (ok : Bool) (rate lanes : Nat) (caps : SinkCaps) : DpPort :=
  { x with
    trained := ok, rate := if ok then min (min rate limits.1) caps.maxRate else 0
    lanes := if ok then min (min lanes limits.2) caps.maxLanes else 0, before := true, training := false, caps := caps }

/-- The hub at the end of a training, before the port's registers and the display follow. -/
def trainingEnded (h : Hub) (b : Nat) (ok : Bool) (rate lanes : Nat) (caps : SinkCaps) (ms : Nat) : Hub :=
  (if 8 ≤ b then reportTraining h (b - 8) (h.dpPort b) ok ms else h).setDpPort b
    (trainedPort (h.dpPort b) (portLimits h b) ok rate lanes caps)

theorem dpTrained_wakes {h : Hub} {b : Nat} (hb : 8 ≤ b) (hl : h.listens (33 + (b - 8)) = false) (ok : Bool) (rate lanes : Nat)
    (caps : SinkCaps) (ms : Nat) : dpTrained h b ok rate lanes caps ms = wake h (33 + (b - 8)) :=
  if_pos ⟨hb, by rw [hl]; rfl⟩

theorem dpTrained_ends {h : Hub} {b : Nat} (hl : 8 ≤ b → h.listens (33 + (b - 8)) = true) (ht : dpTrainable h b = true)
    (hw : dpWanted h b = true) (ok : Bool) (rate lanes : Nat) (caps : SinkCaps) (ms : Nat) :
    dpTrained h b ok rate lanes caps ms = settleDisplay (noteDpo (trainingEnded h b ok rate lanes caps ms) b) := by
  have awake : ¬(8 ≤ b ∧ (!h.listens (33 + (b - 8))) = true) := fun ⟨hb, hn⟩ => by simp [hl hb] at hn
  rw [dpTrained, if_neg awake, if_neg (by simp [ht, hw])]
  rfl

theorem countTraining_time (h : Hub) (o ms : Nat) (before : Bool) :
    (countTraining h o ms before).fget (F.dpo_TRAIN_TIME_MS o) = min ms 0xFFFF := by
  have timed : (h.fset (F.dpo_TRAIN_TIME_MS o) (min ms 0xFFFF)).fget (F.dpo_TRAIN_TIME_MS o) = min ms 0xFFFF :=
    (Hub.fget_fset_same ..).trans (Nat.mod_eq_of_lt (Nat.lt_succ_of_le (Nat.min_le_right ms 0xFFFF)))
  unfold countTraining
  dsimp only
  split
  · exact (Hub.fget_fset_other _ _ (dpo_TRAIN_TIME_ne_ERR o)).trans timed
  · exact timed

theorem countTraining_counted (h : Hub) (o ms : Nat) : Counted h (countTraining h o ms true) (F.dpo_ERR_RETRAINS o) := by
  have before : (h.fset (F.dpo_TRAIN_TIME_MS o) (min ms 0xFFFF)).fget (F.dpo_ERR_RETRAINS o) = h.fget (F.dpo_ERR_RETRAINS o) :=
    Hub.fget_fset_other _ _ (dpo_TRAIN_TIME_ne_ERR o).symm
  rw [Counted, ← before]
  exact Hub.bump_counted ..

theorem raiseTraining_keptBut (h : Hub) (o : Nat) (lost ok : Bool) : KeptBut [Page.dpo o + 0x10] h (raiseTraining h o lost ok) := by
  cases lost
  · exact (keptBut_refl _ h).event _ (by simp)
  · exact ((keptBut_refl _ h).event _ (by simp)).event _ (by simp)

theorem raiseTraining_outcome (h : Hub) (o : Nat) (lost ok : Bool) :
    (raiseTraining h o lost ok).bit (F.hdr_INT_STAT_EVENT (Page.dpo o)) (if ok then 1 else 4) = true :=
  Hub.event_set _ _ _ (by cases ok <;> decide)

theorem raiseTraining_lost (h : Hub) (o : Nat) (ok : Bool) :
    (raiseTraining h o true ok).bit (F.hdr_INT_STAT_EVENT (Page.dpo o)) 2 = true :=
  Hub.event_keeps _ _ _ _ _ (by decide) (Hub.event_set _ _ _ (by decide))

theorem reportTraining_time (h : Hub) (o : Nat) (x : DpPort) (ok : Bool) (ms : Nat) :
    (reportTraining h o x ok ms).fget (F.dpo_TRAIN_TIME_MS o) = min ms 0xFFFF :=
  ((raiseTraining_keptBut _ o _ ok).fget (by decide) (by simp [dpo_INT_STAT, A.dpo_TRAIN_TIME])).trans (countTraining_time ..)

theorem reportTraining_counted (h : Hub) (o : Nat) {x : DpPort} (hx : x.before = true) (ok : Bool) (ms : Nat) :
    Counted h (reportTraining h o x ok ms) (F.dpo_ERR_RETRAINS o) := by
  have counted := countTraining_counted h o ms
  rw [← hx] at counted
  exact counted.kept (raiseTraining_keptBut _ o _ ok) (by decide) (by simp [dpo_INT_STAT, A.dpo_ERR])

theorem reportTraining_lost (h : Hub) (o : Nat) {x : DpPort} (hx : x.trained = true) (ms : Nat) :
    (reportTraining h o x false ms).bit (F.hdr_INT_STAT_EVENT (Page.dpo o)) 2 = true := by
  rw [reportTraining, hx]
  exact raiseTraining_lost _ o false

/-! ## RETRAIN is done (R310, R312) -/

/-- The masters of the device ports hang on EN and PORTS of the heads. -/
theorem linkMaster_flag (h : Hub) {f : Fld} (v : Bool) (on : ∀ p, (F.proj_CTL_EN p).key ≠ f.key)
    (ports : ∀ p, (F.proj_OUT_PORTS p).key ≠ f.key) : linkMaster (h.flag f v) = linkMaster h := by
  have enabled : ∀ p, headOn (h.flag f v) p = headOn h p := fun p => by rw [headOn, Hub.is_flag_other _ _ (on p), Hub.flag_power, headOn]
  have named : ∀ p b, portNamed (h.flag f v) p b = portNamed h p b := fun p b => by
    rw [portNamed, Hub.flag, Hub.fget_fset_other _ _ (ports p), portNamed]
  funext b
  simp only [linkMaster, enabled, named]

/-- RETRAIN bits return to 0, and nothing else. -/
structure RetrainsEnd (h h' : Hub) : Prop where
  ports : h'.dpPorts = h.dpPorts
  masters : linkMaster h' = linkMaster h
  clear : ∀ f, h.is f = false → h'.is f = false

theorem retrainsEnd_refl (h : Hub) : RetrainsEnd h h := ⟨rfl, rfl, fun _ hf => hf⟩

theorem RetrainsEnd.trans {h h' h'' : Hub} (p : RetrainsEnd h h') (q : RetrainsEnd h' h'') : RetrainsEnd h h'' :=
  ⟨q.ports.trans p.ports, q.masters.trans p.masters, fun f hf => q.clear f (p.clear f hf)⟩

theorem RetrainsEnd.port {h h' : Hub} (p : RetrainsEnd h h') (b : Nat) : h'.dpPort b = h.dpPort b := by
  rw [Hub.dpPort, p.ports, ← Hub.dpPort]

theorem retrainsEnd_flag (h : Hub) {f : Fld} (on : ∀ p, (F.proj_CTL_EN p).key ≠ f.key) (ports : ∀ p, (F.proj_OUT_PORTS p).key ≠ f.key) :
    RetrainsEnd h (h.flag f false) :=
  ⟨rfl, linkMaster_flag h false on ports, fun _ hf => Hub.is_flag_false f hf⟩

theorem retrainsEnd_foldl {step : Hub → Nat → Hub} (each : ∀ x a, RetrainsEnd x (step x a)) (l : List Nat) (h : Hub) :
    RetrainsEnd h (l.foldl step h) :=
  List.foldlRecOn (motive := fun x : Hub => RetrainsEnd h x) l step (retrainsEnd_refl h) fun x hx a _ => hx.trans (each x a)

/-- A bit that one of the steps returns to 0 stays there. -/
theorem foldl_retrain_is {step : Hub → Nat → Hub} (each : ∀ x a, RetrainsEnd x (step x a)) {l : List Nat} {a : Nat} (ha : a ∈ l) {h : Hub}
    {f : Fld} (done : ∀ x, RetrainsEnd h x → (step x a).is f = false) : (l.foldl step h).is f = false := by
  obtain ⟨front, back, rfl⟩ := List.append_of_mem ha
  rw [List.foldl_append, List.foldl_cons]
  exact (retrainsEnd_foldl each back _).clear f (done _ (retrainsEnd_foldl each front h))

/-- A device port that the head masters trains. -/
def masteredTrains (h : Hub) (p : Nat) : Bool := (List.range 8).any fun c => linkMaster h c == some p && (h.dpPort c).training

/-- RETRAIN of a head returns to 0 with the last training that it masters. -/
def endHeadRetrain (h : Hub) (p : Nat) : Hub :=
  if h.is (F.proj_LINK_CTL_RETRAIN p) && !(masteredTrains h p) then h.flag (F.proj_LINK_CTL_RETRAIN p) false else h

/-- RETRAIN of a DPO returns to 0 with its training. -/
def endDpoRetrain (h : Hub) (o : Nat) : Hub :=
  if h.is (F.dpo_CTL_RETRAIN o) && !((h.dpPort (8 + o)).training) then h.flag (F.dpo_CTL_RETRAIN o) false else h

theorem settleRetrain_eq (h : Hub) : settleRetrain h = (List.range 2).foldl endDpoRetrain ((List.range 4).foldl endHeadRetrain h) := rfl

theorem retrainsEnd_endHeadRetrain (h : Hub) (p : Nat) : RetrainsEnd h (endHeadRetrain h p) := by
  unfold endHeadRetrain
  split
  · refine retrainsEnd_flag h (fun q => ?_) fun q => ?_
    all_goals
      simp only [F.proj_CTL_EN, F.proj_OUT_PORTS, F.proj_LINK_CTL_RETRAIN, A.proj_CTL, A.proj_OUT, A.proj_LINK_CTL, Fld.key_mk]
      omega
  · exact retrainsEnd_refl h

theorem retrainsEnd_endDpoRetrain (h : Hub) (o : Nat) : RetrainsEnd h (endDpoRetrain h o) := by
  unfold endDpoRetrain
  split
  · refine retrainsEnd_flag h (fun q => ?_) fun q => ?_
    all_goals
      simp only [F.proj_CTL_EN, F.proj_OUT_PORTS, F.dpo_CTL_RETRAIN, A.proj_CTL, A.proj_OUT, A.dpo_CTL, Fld.key_mk]
      omega
  · exact retrainsEnd_refl h

theorem endHeadRetrain_done {h : Hub} {p : Nat} (hn : masteredTrains h p = false) :
    (endHeadRetrain h p).is (F.proj_LINK_CTL_RETRAIN p) = false := by
  rw [endHeadRetrain, hn]
  cases hr : h.is (F.proj_LINK_CTL_RETRAIN p)
  · exact hr
  · exact Hub.is_flag h (F.proj_LINK_CTL_RETRAIN p) false Nat.one_pos

theorem endDpoRetrain_done {h : Hub} {o : Nat} (hn : (h.dpPort (8 + o)).training = false) :
    (endDpoRetrain h o).is (F.dpo_CTL_RETRAIN o) = false := by
  rw [endDpoRetrain, hn]
  cases hr : h.is (F.dpo_CTL_RETRAIN o)
  · exact hr
  · exact Hub.is_flag h (F.dpo_CTL_RETRAIN o) false Nat.one_pos

theorem masteredTrains_retrainsEnd {h h' : Hub} (e : RetrainsEnd h h') (p : Nat) : masteredTrains h' p = masteredTrains h p := by
  simp only [masteredTrains, e.masters, e.port]

/-- No device port that the head masters trains. -/
theorem masteredTrains_none {h : Hub} {p : Nat} (hn : ∀ c, c < 8 → linkMaster h c = some p → (h.dpPort c).training = false) :
    masteredTrains h p = false := by
  refine List.any_eq_false.mpr fun c hc trains => ?_
  obtain ⟨master, training⟩ := Bool.and_eq_true_iff.mp trains
  exact absurd training (by simp [hn c (List.mem_range.mp hc) (beq_iff_eq.mp master)])

theorem settleRetrain_head {h : Hub} {p : Nat} (hp : p < 4)
    (hn : ∀ c, c < 8 → linkMaster h c = some p → (h.dpPort c).training = false) :
    (settleRetrain h).is (F.proj_LINK_CTL_RETRAIN p) = false := by
  rw [settleRetrain_eq]
  refine (retrainsEnd_foldl retrainsEnd_endDpoRetrain _ _).clear _ (foldl_retrain_is retrainsEnd_endHeadRetrain (List.mem_range.mpr hp) ?_)
  exact fun x hx => endHeadRetrain_done ((masteredTrains_retrainsEnd hx p).trans (masteredTrains_none hn))

theorem settleRetrain_dpo {h : Hub} {o : Nat} (ho : o < 2) (hn : (h.dpPort (8 + o)).training = false) :
    (settleRetrain h).is (F.dpo_CTL_RETRAIN o) = false := by
  rw [settleRetrain_eq]
  refine foldl_retrain_is retrainsEnd_endDpoRetrain (List.mem_range.mpr ho) fun x hx => endDpoRetrain_done ?_
  rw [hx.port, (retrainsEnd_foldl retrainsEnd_endHeadRetrain _ _).port]
  exact hn

/-! ## HPD IRQs (R304, R312) -/

/-- The IRQ of an enabled DPO is counted and raised. -/
def noteIrq (h : Hub) (o : Nat) : Hub := (h.bump (F.dpo_ERR_HPD_IRQ o) 1).event (Page.dpo o) 3

theorem noteIrq_counted (h : Hub) (o : Nat) : Counted h (noteIrq h o) (F.dpo_ERR_HPD_IRQ o) :=
  (Hub.bump_counted ..).kept ((keptBut_refl [Page.dpo o + 0x10] _).event 3 (by simp)) (by decide) (by simp [dpo_INT_STAT, A.dpo_ERR])

theorem noteIrq_event (h : Hub) (o : Nat) : (noteIrq h o).bit (F.hdr_INT_STAT_EVENT (Page.dpo o)) 3 = true :=
  Hub.event_set _ _ _ (by decide)

/-- The hub once an IRQ has been noted. -/
def irqNoted (h : Hub) (b : Nat) : Hub := if 8 ≤ b ∧ h.is (F.dpo_CTL_EN (b - 8)) then noteIrq h (b - 8) else h

theorem hpdIrq_eq (h : Hub) (b : Nat) (lost : Bool) : hpdIrq h b lost =
    if lost && !(headsAt (irqNoted h b) b).isEmpty && dpTrainable (irqNoted h b) b then dpStop (irqNoted h b) b true else irqNoted h b := rfl

/-! ## The RETRAIN bits (R304) -/

/-- RETRAIN requests an action, and stands at the store of its word. -/
theorem wordTaken_projRetrain (h : Hub) {p : Nat} (v : Nat) (hp : p < 4) :
    (wordTaken h (A.proj_LINK_CTL p) v).is (F.proj_LINK_CTL_RETRAIN p) = h.is (F.proj_LINK_CTL_RETRAIN p) := by
  have page := pageAt_proj (off := 0x9C) hp (by decide)
  refine Hub.is_congr ?_
  rw [F.proj_LINK_CTL_RETRAIN, proj_LINK_CTL_at]
  exact (storeWord_action _ page (by rw [wordRows_block page (by decide)]; decide) rfl).trans (invalidate_fget ..)

theorem wordTaken_proj_LINK_CTL (h : Hub) {p : Nat} (v : Nat) (hp : p < 4) :
    Takes (wordTaken h (A.proj_LINK_CTL p) v) (A.proj_LINK_CTL p) v := by
  rw [proj_LINK_CTL_at]
  exact wordTaken_proj h v hp (by decide) (by decide) (by decide)

theorem writeProj_LINK_CTL (h : Hub) (req : Req) {p : Nat} (v : Nat) (hp : p < 4) :
    writeProj (invalidate h false (A.proj_LINK_CTL p) 4) req p 0x9C (A.proj_LINK_CTL p) v =
      if v.testBit 7 && !(h.is (F.proj_LINK_CTL_RETRAIN p)) then projRetrain (wordTaken h (A.proj_LINK_CTL p) v) p
      else wordTaken h (A.proj_LINK_CTL p) v := by
  rw [← wordTaken_projRetrain h v hp, writeProj, plateForeign_below _ _ _ _ (by decide)]
  rfl

/-- A write of PROJ.LINK_CTL that sets RETRAIN. -/
theorem exec_projRetrain_passes {s : State} {req : Req} {p : Fin 4} (ctl : Word) (hw : Writes s req (A.proj_LINK_CTL p))
    (hr : s.hub.is (F.proj_LINK_CTL_RETRAIN p) = false) : exec (.projRetrain req p ctl) s =
      .next { s with hub := projRetrain (wordTaken s.hub (A.proj_LINK_CTL p) (ctl.toNat ||| 0x80)) p } := by
  have asked : (ctl.toNat ||| 0x80).testBit 7 = true := by
    rw [Nat.testBit_or, Bool.or_eq_true]
    exact .inr (by decide)
  have written := writeProj_LINK_CTL s.hub req (ctl.toNat ||| 0x80) p.isLt
  rw [asked, hr] at written
  rw [exec_projRetrain, execProjRetrain, ← (written.trans (if_pos rfl))]
  rw [proj_LINK_CTL_at] at hw ⊢
  exact busWrite_proj hw (Nat.or_lt_two_pow ctl.isLt (by decide)) p.isLt (by decide) (by decide) rfl rfl

/-- The device ports that a head's RETRAIN trains. -/
def retrained (h : Hub) (p : Nat) : List Nat :=
  (List.range 8).filter fun b => linkMaster h b == some p && portEligible h p b && dpTrainable h b

theorem projRetrain_none {h : Hub} {p : Nat} (hn : retrained h p = []) : projRetrain h p = h := by
  rw [projRetrain]
  exact if_pos (by rw [← retrained, hn]; rfl)

theorem projRetrain_trains {h : Hub} {p : Nat} (hn : retrained h p ≠ []) :
    projRetrain h p = (retrained h p).foldl (fun h b => dpStop h b true) (h.flag (F.proj_LINK_CTL_RETRAIN p) true) := by
  rw [projRetrain]
  exact if_neg (by rw [← retrained]; simpa using hn)

theorem wordTaken_dpo_CTL (h : Hub) {o : Nat} (v : Nat) (ho : o < 2) : Takes (wordTaken h (A.dpo_CTL o) v) (A.dpo_CTL o) v := by
  have page := pageAt_dpo (off := 0x40) ho (by decide)
  rw [dpo_CTL_at]
  exact storeWord_takes _ page (fun _ _ => rfl) rfl (by rw [wordRows_block page (by decide)]; decide)

/-- The hub once DPO.CTL has taken a value and the DPO follows EN (R312). -/
def dpoCtlTaken (h : Hub) (o v : Nat) : Hub := dpoWritten (wordTaken h (A.dpo_CTL o) v) o

theorem writeDpo_CTL (h : Hub) (o v : Nat) : writeDpo (invalidate h false (A.dpo_CTL o) 4) o 0x40 (A.dpo_CTL o) v =
    if v.testBit 8 && !((dpoCtlTaken h o v).is (F.dpo_CTL_RETRAIN o)) then dpoRetrain (dpoCtlTaken h o v) o else dpoCtlTaken h o v := by
  rw [writeDpo]
  exact if_neg (Decidable.not_not.mpr rfl)

/-- A write of DPO.CTL that sets RETRAIN: the DPO follows EN, then trains where no RETRAIN waits. -/
theorem exec_dpoRetrain_passes {s : State} {req : Req} {o : Fin 2} (ctl : Word) (hw : Writes s req (A.dpo_CTL o)) :
    exec (.dpoRetrain req o ctl) s = .next { s with
      hub := if (dpoCtlTaken s.hub o (ctl.toNat ||| 0x100)).is (F.dpo_CTL_RETRAIN o) then dpoCtlTaken s.hub o (ctl.toNat ||| 0x100)
        else dpoRetrain (dpoCtlTaken s.hub o (ctl.toNat ||| 0x100)) o } := by
  have asked : (ctl.toNat ||| 0x100).testBit 8 = true := by
    rw [Nat.testBit_or, Bool.or_eq_true]
    exact .inr (by decide)
  have written := writeDpo_CTL s.hub o (ctl.toNat ||| 0x100)
  simp only [asked, Bool.true_and, Bool.not_eq_true', ← Bool.not_eq_true, ite_not] at written
  rw [exec_dpoRetrain, execDpoRetrain, ← written]
  rw [dpo_CTL_at] at hw ⊢
  exact busWrite_dpo hw (Nat.or_lt_two_pow ctl.isLt (by decide)) o.isLt (by decide) (by decide)

theorem dpoRetrain_trains {h : Hub} {o : Nat} (hm : h.fget (F.dpo_STATUS_MODE o) = 2) (ht : dpTrainable h (8 + o) = true) :
    dpoRetrain h o = dpStop (h.flag (F.dpo_CTL_RETRAIN o) true) (8 + o) true := if_pos ⟨hm, ht⟩

theorem dpoRetrain_unused {h : Hub} {o : Nat} (hm : h.fget (F.dpo_STATUS_MODE o) ≠ 2) : dpoRetrain h o = h := if_neg fun c => hm c.1

/-! ## The HPD ball of a DPO (R312, R512) -/

/-- The level of the ball is noted. -/
def hpdNoted (h : Hub) (o : Nat) (high : Bool) : Hub := h.setDpPort (8 + o) { h.dpPort (8 + o) with hpd := high }

theorem hpdNoted_port (h : Hub) (o : Nat) (high : Bool) : (hpdNoted h o high).dpPort (8 + o) = { h.dpPort (8 + o) with hpd := high } :=
  (Hub.dpPort_setDpPort ..).trans (if_pos rfl)

theorem dpoHpd_same {h : Hub} {o : Nat} {high : Bool} (hs : (h.dpPort (8 + o)).hpd = high ∨ h.is (F.dpo_CTL_EN o) = false) :
    dpoHpd h o high = hpdNoted h o high := by
  refine if_pos (hs.imp_right fun he => ?_)
  rw [Hub.setDpPort_is, he]
  rfl

theorem dpoHpd_changes {h : Hub} {o : Nat} {high : Bool} (hs : (h.dpPort (8 + o)).hpd ≠ high) (he : h.is (F.dpo_CTL_EN o) = true) :
    dpoHpd h o high = if high then settleDisplay (enforceFloor (wake ((hpdNoted h o high).event (Page.dpo o) 0) (33 + o)) (33 + o))
      else dpoGone ((hpdNoted h o high).event (Page.dpo o) 0) o := by
  refine if_neg (not_or.mpr ⟨hs, ?_⟩)
  rw [Hub.setDpPort_is, he]
  decide

/-- Fields above bit 0 leave the lowest bit of a word. -/
theorem foldl_fields_mod_two (f : Row → Nat) (l : List Row) (n : Nat) (above : ∀ r ∈ l, 0 < r.lo) :
    l.foldl (fun n r => n + f r * 2 ^ r.lo) n % 2 = n % 2 := by
  refine List.foldlRecOn (motive := fun x => x % 2 = n % 2) l _ rfl fun x hx r hr => ?_
  obtain ⟨m, hm⟩ := Nat.exists_eq_succ_of_ne_zero (Nat.ne_of_gt (above r hr))
  have even : f r * 2 ^ r.lo % 2 = 0 := by rw [hm, Nat.pow_succ, ← Nat.mul_assoc, Nat.mul_mod_left]
  omega

/-- Bit 0 of DPO.STATUS reads as the ball. -/
theorem wordValue_dpo_STATUS (h : Hub) {o : Nat} (ho : o < 2) :
    wordValue h (A.dpo_STATUS o) % 2 = if (h.dpPort (8 + o)).hpd then 1 else 0 := by
  have page := pageAt_dpo (off := 0x44) ho (by decide)
  obtain ⟨r, l, hrows, hlo, hw, hacc, above⟩ : ∃ r l, rowsDpo.filter (·.covers 0x44) = r :: l ∧ r.lo = 0 ∧ r.w = 1 ∧ r.acc = .ro ∧
      ∀ q ∈ l, 0 < q.lo := ⟨_, _, rfl, rfl, rfl, rfl, by decide⟩
  have level : fieldValue h .dpo o (Page.dpo o) (Page.dpo o + 0x44) r = if (h.dpPort (8 + o)).hpd then 1 else 0 := by
    have offset : Page.dpo o + 0x44 - Page.dpo o = 0x44 := Nat.add_sub_cancel_left ..
    have shown : viewBlock h .dpo o 0x44 0 = some (boolNat (h.dpPort (8 + o)).hpd) := rfl
    simp only [fieldValue, offset, hlo, hw, hacc, shown]
    cases (h.dpPort (8 + o)).hpd <;> rfl
  rw [dpo_STATUS_at, wordValue, page]
  simp only [wordRows_block page (by decide), rowsOf, hrows, List.foldl_cons]
  rw [foldl_fields_mod_two _ _ _ above, level, hlo]
  split <;> rfl

/-! ## The obligation -/

/-- Settles O40. A training ends in the port's state and a DPO's report of it; the RETRAIN bits return to 0 one by one, while masters
and trainings stand (`RetrainsEnd`); the writes that set them store their word first; and STATUS.HPD shows the ball itself. -/
theorem displayPorts : Obligations.DisplayPorts := by
  intro s
  refine ⟨fun b ok rate lanes caps ms hb hl => ?asleep, fun b ok rate lanes caps ms hl ht hw => ?trained,
    fun o hn => settleRetrain_dpo o.isLt hn, fun p hn => settleRetrain_head p.isLt hn, fun b lost => ?irq,
    fun req p ctl hw hr => ?headRetrain, fun req o ctl hw => ?dpoRetrain, fun o high => ?hpd⟩
  case asleep => exact ⟨_, rfl, dpTrained_wakes hb hl ok rate lanes caps ms, rfl⟩
  case trained =>
    refine ⟨_, rfl, trainingEnded s.hub b ok rate lanes caps ms, ?port, fun hb => ?report, dpTrained_ends hl ht hw ok rate lanes caps ms⟩
    case port => exact (Hub.dpPort_setDpPort ..).trans (if_pos rfl)
    case report =>
      rw [trainingEnded, if_pos hb]
      refine ⟨reportTraining_time .., raiseTraining_outcome .., fun up failed => ?_, fun before => reportTraining_counted _ _ before ok ms⟩
      rw [failed]
      exact reportTraining_lost _ _ up ms
  case irq =>
    refine ⟨_, rfl, irqNoted s.hub b, fun hb he => ?counts, fun hn => if_neg ?ignored, hpdIrq_eq s.hub b lost⟩
    case counts =>
      rw [irqNoted, if_pos ⟨hb, he⟩]
      exact ⟨noteIrq_counted .., noteIrq_event ..⟩
    case ignored =>
      rintro ⟨hb, he⟩
      obtain hlow | hoff := hn
      · omega
      · simp [hoff] at he
  case headRetrain =>
    refine ⟨_, exec_projRetrain_passes ctl hw hr, wordTaken s.hub (A.proj_LINK_CTL p) (ctl.toNat ||| 0x80), _,
      wordTaken_proj_LINK_CTL _ _ p.isLt, wordTaken_others _ _ _, rfl, projRetrain_none, fun hn => ⟨_, ?_, ?_, projRetrain_trains hn⟩⟩
    · exact Hub.is_flag _ (F.proj_LINK_CTL_RETRAIN p) true Nat.one_pos
    · exact othersKept_flag _ _ true (Fld.key_div _ (by decide))
  case dpoRetrain =>
    refine ⟨_, exec_dpoRetrain_passes ctl hw, wordTaken s.hub (A.dpo_CTL o) (ctl.toNat ||| 0x100), _, wordTaken_dpo_CTL _ _ o.isLt,
      wordTaken_others _ _ _, rfl, ?_⟩
    dsimp only
    rw [← dpoCtlTaken]
    generalize dpoCtlTaken s.hub o (ctl.toNat ||| 0x100) = w
    refine ⟨fun hr hm ht => ⟨w.flag (F.dpo_CTL_RETRAIN o) true, ?_, ?_, ?_⟩, fun hn => ?_⟩
    · exact Hub.is_flag _ (F.dpo_CTL_RETRAIN o) true Nat.one_pos
    · exact othersKept_flag _ _ true (Fld.key_div _ (by decide))
    · rw [hr, ← dpoRetrain_trains hm ht]
      exact if_neg (by decide)
    · obtain hr | hm := hn
      · exact if_pos hr
      · rw [dpoRetrain_unused hm, ite_self]
  case hpd =>
    have port := hpdNoted_port s.hub o high
    have level : ∀ h', h'.dpPort (8 + o.val) = { s.hub.dpPort (8 + o.val) with hpd := high } →
        wordValue h' (A.dpo_STATUS o) % 2 = if high then 1 else 0 := fun h' e => by rw [wordValue_dpo_STATUS h' o.isLt, e]
    by_cases same : (s.hub.dpPort (8 + o.val)).hpd = high ∨ s.hub.is (F.dpo_CTL_EN o) = false
    · refine ⟨_, rfl, hpdNoted s.hub o high, port, level _ port, fun _ => ⟨rfl, dpoHpd_same same⟩, fun moved on => ?_⟩
      exact absurd on (by simp [same.resolve_left moved])
    · obtain ⟨moved, enabled⟩ := not_or.mp same
      have on := eq_true_of_ne_false enabled
      refine ⟨_, rfl, (hpdNoted s.hub o high).event (Page.dpo o) 0, port, level _ port, fun c => absurd c same, fun _ _ => ⟨?_, ?_, ?_⟩⟩
      · exact Hub.event_set _ _ _ (by decide)
      · exact othersKept_fset (hpdNoted s.hub o high) (F.hdr_INT_STAT_EVENT (Page.dpo o)) _ (Fld.key_div _ (by decide))
      · exact dpoHpd_changes moved on

end Sys2Proof.Machine
end

section
/-! Outbound reads of a slice: their completions, and those that go unanswered (R323, R371–R374). -/

namespace Sys2Proof.Machine

/-! ## The fetch of a ring -/

@[simp] theorem fetchOf_setFetch_same (h : Hub) (s r : Nat) (f : Option NicFetch) : fetchOf (setFetch h s r f) s r = f :=
  Tbl.get_put_same ..

@[simp] theorem setFetch_penSt (h : Hub) (s r j : Nat) (f : Option NicFetch) : (setFetch h s r f).penSt j = h.penSt j := rfl

@[simp] theorem fetchOf_setPen (h : Hub) (s r j : Nat) (x : PenSt) : fetchOf (h.setPen j x) s r = fetchOf h s r := rfl

@[simp] theorem fetchOf_bump (h : Hub) (s r n : Nat) (f : Fld) : fetchOf (h.bump f n) s r = fetchOf h s r := rfl

@[simp] theorem fetchOf_event (h : Hub) (s r page b : Nat) : fetchOf (h.event page b) s r = fetchOf h s r := rfl

@[simp] theorem Hub.penSt_setPen_same (h : Hub) (s : Nat) (x : PenSt) : (h.setPen s x).penSt s = x := by
  rw [Hub.penSt_setPen, if_pos rfl]

/-! ## The end of a read -/

/-- A read is no longer outstanding, and its space has returned. -/
def readEnded (h : Hub) (s k : Nat) : Hub := h.setPen s { h.penSt s with reads := (h.penSt s).reads.eraseIdx k }

theorem readEnded_reads (h : Hub) (s k : Nat) : ((readEnded h s k).penSt s).reads = (h.penSt s).reads.eraseIdx k := by
  rw [readEnded, Hub.penSt_setPen_same]

/-- A read that ends for want of an answer is counted and raised. -/
def readTimedOut (h : Hub) (s k : Nat) : Hub := ((readEnded h s k).bump F.pstk_OUT_TIMEOUTS_COUNT 1).event Page.pstk 11

theorem readTimedOut_reads (h : Hub) (s k : Nat) : ((readTimedOut h s k).penSt s).reads = (h.penSt s).reads.eraseIdx k :=
  readEnded_reads h s k

theorem readTimedOut_kept (h : Hub) (s k : Nat) : KeptBut [A.pstk_OUT_TIMEOUTS, Page.pstk + 0x10] h (readTimedOut h s k) :=
  have ended : KeptBut [A.pstk_OUT_TIMEOUTS, Page.pstk + 0x10] h (readEnded h s k) := fun _ _ => rfl
  (ended.fset _ (by decide) (by simp)).event _ (by simp)

theorem readTimedOut_counted (h : Hub) (s k : Nat) : Counted h (readTimedOut h s k) F.pstk_OUT_TIMEOUTS_COUNT := by
  have counted : Counted h ((readEnded h s k).bump F.pstk_OUT_TIMEOUTS_COUNT 1) F.pstk_OUT_TIMEOUTS_COUNT :=
    Hub.bump_counted (readEnded h s k) F.pstk_OUT_TIMEOUTS_COUNT
  exact counted.kept ((keptBut_refl [Page.pstk + 0x10] _).event 11 (by simp)) (by decide) (by decide)

section
variable {h : Hub} {s k : Nat} {rd : OutRead}

/-! ## A read that is still in the queue -/

theorem outboundCompletion_unsent (out : (h.penSt s).reads[k]? = some rd) (wait : readSent (h.penSt s) k = false) (data : Bytes) :
    outboundCompletion h s k data = h := by
  simp [outboundCompletion, out, wait]

theorem outboundTimeout_unsent (out : (h.penSt s).reads[k]? = some rd) (wait : readSent (h.penSt s) k = false) :
    outboundTimeout h s k = h := by
  simp [outboundTimeout, out, wait]

/-! ## Completions -/

theorem outboundCompletion_part (out : (h.penSt s).reads[k]? = some rd) (sent : readSent (h.penSt s) k = true) {data : Bytes}
    (part : (rd.got ++ data).length < rd.len) : outboundCompletion h s k data =
      h.setPen s { h.penSt s with reads := (h.penSt s).reads.set k { rd with got := rd.got ++ data } } := by
  have all : (rd.got ++ data).take rd.len = rd.got ++ data := List.take_of_length_le (Nat.le_of_lt part)
  simp only [outboundCompletion, out, sent, all, if_pos part]
  rfl

/-- What has come of a read fills its space. -/
theorem not_short_take {l : Bytes} {n : Nat} (full : n ≤ l.length) : ¬ (l.take n).length < n := by
  rw [List.length_take, Nat.min_eq_left full]
  exact Nat.lt_irrefl n

theorem outboundCompletion_unclaimed (out : (h.penSt s).reads[k]? = some rd) (sent : readSent (h.penSt s) k = true) {data : Bytes}
    (full : rd.len ≤ (rd.got ++ data).length) (given : rd.ring < 4 → fetchOf h s rd.ring = none) :
    outboundCompletion h s k data = fetchAll (readEnded h s k) s := by
  have unclaimed : (if rd.ring < 4 then fetchOf h s rd.ring else none) = none := ite_eq_right_iff.mpr given
  simp only [outboundCompletion, out, sent, if_neg (not_short_take full), fetchOf_setPen, unclaimed]
  rfl

variable {f : NicFetch}

theorem outboundCompletion_more (out : (h.penSt s).reads[k]? = some rd) (sent : readSent (h.penSt s) k = true) {data : Bytes}
    (full : rd.len ≤ (rd.got ++ data).length) (hr : rd.ring < 4) (fetch : fetchOf h s rd.ring = some f) {parts : Tbl Bytes}
    (hp : parts = Tbl.ins f.parts rd.offset ((rd.got ++ data).take rd.len)) (more : (parts.flatMap (·.2)).length < f.len) :
    outboundCompletion h s k data =
      fetchAll (if f.asked < f.len ∧ hostReadWaits h s
        then (setFetch (readEnded h s k) s rd.ring (some { f with parts := parts })).bump F.pstk_YIELDS_COUNT 1
        else setFetch (readEnded h s k) s rd.ring (some { f with parts := parts })) s := by
  subst hp
  simp only [outboundCompletion, out, sent, if_neg (not_short_take full), fetchOf_setPen, if_pos hr, fetch, if_pos more]
  rfl

theorem outboundCompletion_whole (out : (h.penSt s).reads[k]? = some rd) (sent : readSent (h.penSt s) k = true) {data : Bytes}
    (full : rd.len ≤ (rd.got ++ data).length) (hr : rd.ring < 4) (fetch : fetchOf h s rd.ring = some f) {parts : Tbl Bytes}
    (hp : parts = Tbl.ins f.parts rd.offset ((rd.got ++ data).take rd.len)) (whole : f.len ≤ (parts.flatMap (·.2)).length) :
    outboundCompletion h s k data =
      fetchAll (txWriteBack (nicSend (setFetch (readEnded h s k) s rd.ring none) s rd.ring (parts.flatMap (·.2))) s rd.ring f.addr f.len
        false) s := by
  subst hp
  simp only [outboundCompletion, out, sent, if_neg (not_short_take full), fetchOf_setPen, if_pos hr, fetch, if_neg (Nat.not_lt.mpr whole)]
  rfl

/-! ## No answer within 50 ms -/

theorem outboundTimeout_unclaimed (out : (h.penSt s).reads[k]? = some rd) (sent : readSent (h.penSt s) k = true)
    (given : rd.ring < 4 → fetchOf h s rd.ring = none) : outboundTimeout h s k = fetchAll (readTimedOut h s k) s := by
  have unclaimed : (if rd.ring < 4 then fetchOf h s rd.ring else none) = none := ite_eq_right_iff.mpr given
  simp only [outboundTimeout, out, sent, fetchOf_event, fetchOf_bump, fetchOf_setPen, unclaimed]
  rfl

theorem outboundTimeout_claimed (out : (h.penSt s).reads[k]? = some rd) (sent : readSent (h.penSt s) k = true) (hr : rd.ring < 4)
    (fetch : fetchOf h s rd.ring = some f) :
    outboundTimeout h s k = fetchAll (txWriteBack (dropFetch (readTimedOut h s k) s rd.ring) s rd.ring f.addr f.len true) s := by
  simp only [outboundTimeout, out, sent, fetchOf_event, fetchOf_bump, fetchOf_setPen, if_pos hr, fetch]
  rfl

end

/-! ## The obligation -/

/-- Settles O36. Each outcome is its equation above: the hub `h'` of a clause is the hub at the end of the read (`readEnded`,
`readTimedOut`), with what has come of the ring's frame, before the fetches go on. -/
theorem outboundReads : Obligations.OutboundReads := by
  intro s slice k rd out
  refine ⟨fun wait => ⟨?noTimeout, fun data => ?noCompletion⟩, fun sent => ⟨fun data part => ?part, fun data full unclaimed => ?unclaimed,
    fun data f full hr fetch more => ?more, fun data f full hr fetch whole => ?whole, ?timeout⟩⟩
  case noTimeout => rw [exec_outboundReadTimeout, execOutboundReadTimeout, onHub, outboundTimeout_unsent out wait]
  case noCompletion => rw [exec_outboundCompletion, execOutboundCompletion, onHub, outboundCompletion_unsent out wait]
  case part =>
    refine ⟨_, rfl, ?_⟩
    dsimp only
    rw [outboundCompletion_part out sent part, Hub.penSt_setPen_same]
    exact ⟨rfl, rfl, rfl⟩
  case unclaimed =>
    exact ⟨_, rfl, readEnded s.hub slice k, readEnded_reads .., rfl, rfl, outboundCompletion_unclaimed out sent full unclaimed⟩
  case more =>
    exact ⟨_, rfl, setFetch (readEnded s.hub slice k) slice rd.ring _, readEnded_reads .., fetchOf_setFetch_same .., rfl,
      outboundCompletion_more out sent full hr fetch rfl more⟩
  case whole =>
    exact ⟨_, rfl, setFetch (readEnded s.hub slice k) slice rd.ring none, readEnded_reads .., fetchOf_setFetch_same .., rfl,
      outboundCompletion_whole out sent full hr fetch rfl whole⟩
  case timeout =>
    exact ⟨_, rfl, readTimedOut s.hub slice k, readTimedOut_reads .., readTimedOut_counted .., Hub.event_set _ _ _ (by decide),
      readTimedOut_kept _ _ _, rfl, outboundTimeout_unclaimed out sent, fun f hr fetch => outboundTimeout_claimed out sent hr fetch⟩

end Sys2Proof.Machine
end

section
/-! The NICs: what their posted writes leave, transmit and receive descriptors, deferred interrupts (R322–R325, R367). -/

namespace Sys2Proof.Machine

/-! ## Posted writes of a slice's outbound queues (R367) -/

/-- The TLPs that a slice has to send, those that its blocks hold back last. -/
def outbound (h : Hub) (s : Nat) : List OutTlp := (h.penSt s).outq ++ (h.penSt s).blocked.map (·.1)

/-- A slice has more TLPs to send; of the window, only the interrupts of its NIC have changed. -/
structure Posts (s : Nat) (l : List OutTlp) (h h' : Hub) : Prop where
  queue : outbound h' s = outbound h s ++ l
  kept : KeptBut [A.nic_INT_STAT s] h h'
  stalled : h'.stalled = h.stalled
  rx : h'.net.rx = h.net.rx

theorem posts_refl (s : Nat) (h : Hub) : Posts s [] h h := ⟨(List.append_nil _).symm, keptBut_refl _ h, rfl, rfl⟩

theorem Posts.trans {s : Nat} {l l' : List OutTlp} {h h' h'' : Hub} (p : Posts s l h h') (q : Posts s l' h' h'') :
    Posts s (l ++ l') h h'' :=
  ⟨by rw [q.queue, p.queue, List.append_assoc], p.kept.trans q.kept, q.stalled.trans p.stalled, q.rx.trans p.rx⟩

theorem posts_setPen {s : Nat} {l : List OutTlp} {h : Hub} {x : PenSt} (e : x.outq ++ x.blocked.map (·.1) = outbound h s ++ l) :
    Posts s l h (h.setPen s x) :=
  ⟨by rw [outbound, Hub.penSt_setPen_same, e], fun _ _ => rfl, rfl, rfl⟩

theorem Posts.waits {s : Nat} {l : List OutTlp} {h h' : Hub} (p : Posts s l h h') : hostReadWaits h' s = hostReadWaits h s := by
  rw [hostReadWaits, p.stalled, hostReadWaits]

/-- An interrupt follows a write-back that is queued already. -/
theorem ringInterrupt_posts (h : Hub) (s r : Nat) : Posts s [] h (ringInterrupt h s r) := by
  have raised : KeptBut [A.nic_INT_STAT s] h (h.putBit (F.nic_INT_STAT_RING s) r true) :=
    (keptBut_refl _ h).fset _ (by decide) (by simp)
  unfold ringInterrupt
  dsimp only
  split
  · exact ⟨(List.append_nil _).symm, keptBut_refl _ h, rfl, rfl⟩
  · split <;> exact ⟨(List.append_nil _).symm, raised, rfl, rfl⟩

theorem foldl_ringInterrupt_posts (s : Nat) (l : List Nat) (h : Hub) : Posts s [] h (l.foldl (fun h r => ringInterrupt h s r) h) :=
  List.foldlRecOn (motive := fun x => Posts s [] h x) l _ (posts_refl s h) fun x hx r _ => hx.trans (ringInterrupt_posts x s r)

/-- Entering the queue, a TLP stays behind those before it. -/
theorem admitOut_posts (h : Hub) (s : Nat) : Posts s [] h (admitOut h s) := by
  unfold admitOut
  dsimp only
  split
  · exact posts_refl s h
  · refine (posts_setPen (l := []) ?_).trans (foldl_ringInterrupt_posts s _ _)
    rw [List.append_nil, List.append_assoc, ← List.map_append, List.take_append_drop, outbound]

/-- While no read of the host waits, a write is queued without a yield. -/
theorem sendPosted_posts {h : Hub} {s : Nat} (free : hostReadWaits h s = false) (func addr : Nat) (bytes : Bytes) (ring : Option Nat) :
    Posts s [.write func addr bytes] h (sendPosted h s func addr bytes ring) := by
  rw [sendPosted, free, if_neg Bool.false_ne_true]
  refine (posts_setPen (l := [.write func addr bytes]) ?_).trans (admitOut_posts _ s)
  rw [List.map_append, ← List.append_assoc]
  rfl

theorem sendData_posts (s func : Nat) : ∀ (fuel : Nat) {h : Hub}, hostReadWaits h s = false → ∀ (addr : Nat) (bytes : Bytes),
    ∃ l, Posts s l h (sendData h s func addr bytes fuel) := by
  intro fuel
  induction fuel with
  | zero => exact fun _ _ _ => ⟨[], posts_refl s _⟩
  | succ fuel ih =>
    intro h free addr bytes
    unfold sendData
    split
    · exact ⟨[], posts_refl s h⟩
    · have first := sendPosted_posts free func addr (bytes.take 256) none
      obtain ⟨l, rest⟩ := ih (first.waits.trans free) (addr + 256) (bytes.drop 256)
      exact ⟨_, first.trans rest⟩

/-! ## Rings -/

theorem ringSize_le (h : Hub) (s r : Nat) : ringSize h s r ≤ 2 ^ 12 := Nat.pow_le_pow_right (by decide) (Nat.min_le_left ..)

theorem ringSize_pos (h : Hub) (s r : Nat) : 0 < ringSize h s r := Nat.two_pow_pos _

/-- The registers of a ring stand behind INT_STAT. -/
theorem ring_word_kept (s r : Nat) : A.nic_PTR s r ∉ [A.nic_INT_STAT s] ∧ A.nic_RING_CTL s r ∉ [A.nic_INT_STAT s] ∧
    A.nic_BASE_LO s r ∉ [A.nic_INT_STAT s] ∧ A.nic_BASE_HI s r ∉ [A.nic_INT_STAT s] := by
  simp only [List.mem_singleton, A.nic_PTR, A.nic_RING_CTL, A.nic_BASE_LO, A.nic_BASE_HI, A.nic_INT_STAT]
  omega

theorem head_kept {h h' : Hub} {s : Nat} (p : KeptBut [A.nic_INT_STAT s] h h') (r : Nat) :
    h'.fget (F.nic_PTR_HEAD s r) = h.fget (F.nic_PTR_HEAD s r) :=
  p.fget (by decide) (ring_word_kept s r).1

theorem ringSize_kept {h h' : Hub} {s : Nat} (p : KeptBut [A.nic_INT_STAT s] h h') (r : Nat) : ringSize h' s r = ringSize h s r := by
  have size : h'.fget (F.nic_RING_CTL_SIZE s r) = h.fget (F.nic_RING_CTL_SIZE s r) := p.fget (by decide) (ring_word_kept s r).2.1
  rw [ringSize, size, ringSize]

/-- An interrupt leaves the descriptors where they are. -/
theorem descAddr_kept {h h' : Hub} {s : Nat} (p : KeptBut [A.nic_INT_STAT s] h h') (r k : Nat) : descAddr h' s r k = descAddr h s r k := by
  obtain ⟨-, -, lo, hi⟩ := ring_word_kept s r
  have low : h'.fget (F.nic_BASE_LO_ADDR s r) = h.fget (F.nic_BASE_LO_ADDR s r) := p.fget (by decide) lo
  have high : h'.fget (F.nic_BASE_HI_ADDR s r) = h.fget (F.nic_BASE_HI_ADDR s r) := p.fget (by decide) hi
  rw [descAddr, low, high, head_kept p, ringSize_kept p, descAddr]

theorem ringUsed_head (h : Hub) (s r k : Nat) :
    (ringUsed h s r k).fget (F.nic_PTR_HEAD s r) = (h.fget (F.nic_PTR_HEAD s r) + k) % ringSize h s r :=
  (Hub.fget_fset_same ..).trans (Nat.mod_eq_of_lt (Nat.lt_of_lt_of_le (Nat.mod_lt _ (ringSize_pos h s r)) (ringSize_le h s r)))

/-- HEAD moves past descriptors that have been written back. -/
theorem Posts.ringUsed_head {s : Nat} {l : List OutTlp} {h h' : Hub} (p : Posts s l h h') (r k : Nat) :
    (ringUsed h' s r k).fget (F.nic_PTR_HEAD s r) = (h.fget (F.nic_PTR_HEAD s r) + k) % ringSize h s r := by
  rw [Machine.ringUsed_head, head_kept p.kept, ringSize_kept p.kept]

theorem Posts.ringUsed_outbound {s : Nat} {l : List OutTlp} {h h' : Hub} (p : Posts s l h h') (r k : Nat) :
    outbound (ringUsed h' s r k) s = outbound h s ++ l :=
  p.queue

theorem Posts.ringUsed_kept {s : Nat} {l : List OutTlp} {h h' : Hub} (p : Posts s l h h') (r k : Nat) :
    KeptBut [A.nic_PTR s r, A.nic_INT_STAT s] h (ringUsed h' s r k) :=
  (p.kept.mono (by simp)).fset _ (by decide) (by simp)

/-! ## Transmit descriptors (R323, R324) -/

section
variable {h : Hub} {s r : Nat}

/-- A descriptor whose frame cannot be sent is written back at once. -/
theorem nicTransmit_refuses (posted : ringPosted h s r ≠ 0) (idle : fetchOf h s r = none) (free : hostReadWaits h s = false) (addr : Nat)
    {len : Nat} (bad : len = 0 ∨ nicMax h < len) : nicTransmit h s r addr len = txWriteBack h s r addr len (len != 0) := by
  obtain rfl | long := bad
  · simp [nicTransmit, posted, idle, free]
  · have nonempty : len ≠ 0 := by omega
    have error : (len != 0) = true := bne_iff_ne.mpr nonempty
    simp [nicTransmit, posted, idle, free, long, nonempty, error]

theorem nicTransmit_waits (posted : ringPosted h s r ≠ 0) (idle : fetchOf h s r = none) (free : hostReadWaits h s = false) (addr : Nat)
    {len : Nat} (nonempty : 0 < len) (fits : len ≤ nicMax h)
    (full : max 1 (h.fget F.tailrace_NIC_TX_LIMIT_CELLS) ≤ nicHeld h s (h.fget (F.nic_RING_CTL_PCP s r))) :
    nicTransmit h s r addr len = h := by
  simp only [nicTransmit, posted, idle, free, Nat.not_lt.mpr fits, Nat.ne_of_gt nonempty, full, Option.isSome_none, Bool.false_eq_true,
    or_self, if_false, if_true]

/-- Within the limit of its PCP, the NIC begins to fetch the frame. -/
theorem nicTransmit_fetches (posted : ringPosted h s r ≠ 0) (idle : fetchOf h s r = none) (free : hostReadWaits h s = false) (addr : Nat)
    {len : Nat} (nonempty : 0 < len) (fits : len ≤ nicMax h)
    (room : nicHeld h s (h.fget (F.nic_RING_CTL_PCP s r)) < max 1 (h.fget F.tailrace_NIC_TX_LIMIT_CELLS)) :
    nicTransmit h s r addr len = fetchMore (setFetch h s r (some ⟨addr, len, 0, []⟩)) s r 20 := by
  simp only [nicTransmit, posted, idle, free, Nat.not_lt.mpr fits, Nat.ne_of_gt nonempty, Nat.not_le.mpr room, Option.isSome_none,
    Bool.false_eq_true, or_self, if_false]

end

/-- Asking for more of a frame, a NIC queues reads, and what it fetches stands. -/
theorem fetchMore_fetches (s r : Nat) : ∀ (fuel : Nat) {h : Hub} {f : NicFetch}, fetchOf h s r = some f → ∃ g l,
    fetchOf (fetchMore h s r fuel) s r = some g ∧ g.addr = f.addr ∧ g.len = f.len ∧
      ((fetchMore h s r fuel).penSt s).outq = (h.penSt s).outq ++ l ∧ (fetchMore h s r fuel).net.queue = h.net.queue := by
  intro fuel
  induction fuel with
  | zero => exact fun {h f} fetch => ⟨f, [], fetch, rfl, rfl, (List.append_nil _).symm, rfl⟩
  | succ fuel ih =>
    intro h f fetch
    simp only [fetchMore, fetch]
    split
    · exact ⟨f, [], fetch, rfl, rfl, (List.append_nil _).symm, rfl⟩
    · obtain ⟨g, l, fetching, addr, len, queued, switch⟩ := ih (fetchOf_setFetch_same ..)
      refine ⟨g, [.read 1 (f.addr + f.asked) (min 512 (f.len - f.asked))] ++ l, fetching, addr, len, queued.trans ?_, switch⟩
      rw [setFetch_penSt, Hub.penSt_setPen_same, List.append_assoc]

/-! ## Received frames (R325) -/

/-- The frames that wait at a NIC take a new value. -/
def setRx (h : Hub) (s : Nat) (l : List NicFrame) : Hub :=
  { h with net := { h.net with rx := Tbl.put (fun _ => []) h.net.rx s l } }

@[simp] theorem setRx_rx (h : Hub) (s : Nat) (l : List NicFrame) : Tbl.get (fun _ => []) (setRx h s l).net.rx s = l := Tbl.get_put_same ..

/-- A frame on its way to the buffers of a ring: what of it is left, the size of a buffer, and the buffers that it needs. -/
structure Scatter where
  ring : Nat
  bufs : List Nat
  left : Bytes
  size : Nat
  tci : Nat
  need : Nat

/-- A frame at a NIC, and the ring that RX_MAP gives its PCP. -/
def scatterOf (h : Hub) (s : Nat) (bufs : List Nat) (f : NicFrame) : Scatter :=
  let ring := 4 + h.fget (F.nic_RX_MAP_RING s (f.tci / 8192))
  let left := f.bytes.drop f.sent
  let size := ringBuf h s ring
  ⟨ring, bufs, left, size, f.tci, max 1 ((left.length + size - 1) / size)⟩

/-- The bytes that the k-th buffer takes. -/
def Scatter.part (x : Scatter) (k : Nat) : Bytes := (x.left.drop (k * x.size)).take x.size

/-- The write-back of the k-th descriptor. -/
def Scatter.desc (x : Scatter) (h : Hub) (s k : Nat) : OutTlp :=
  .write 1 (descAddr h s x.ring k) (descBytes (x.bufs.getD k 0) (x.part k).length x.tci (k + 1 == x.need) false)

/-- The k-th buffer is written, and its descriptor back. -/
def Scatter.fill (x : Scatter) (s : Nat) (h : Hub) (k : Nat) : Hub :=
  let h := sendData h s 1 (x.bufs.getD k 0) (x.part k) (x.part k).length
  sendPosted h s 1 (descAddr h s x.ring k) (descBytes (x.bufs.getD k 0) (x.part k).length x.tci (k + 1 == x.need) false) (some x.ring)

/-- The first n buffers are written. -/
def Scatter.fills (x : Scatter) (s n : Nat) (h : Hub) : Hub := (List.range n).foldl (x.fill s) h

theorem Scatter.fill_posts (x : Scatter) {s : Nat} {h : Hub} (free : hostReadWaits h s = false) (k : Nat) :
    ∃ l, Posts s (l ++ [x.desc h s k]) h (x.fill s h k) := by
  obtain ⟨l, data⟩ := sendData_posts s 1 (x.part k).length free (x.bufs.getD k 0) (x.part k)
  refine ⟨l, data.trans ?_⟩
  rw [Scatter.desc, ← descAddr_kept data.kept]
  exact sendPosted_posts (data.waits.trans free) ..

theorem Scatter.fills_succ (x : Scatter) (s n : Nat) (h : Hub) : x.fills s (n + 1) h = x.fill s (x.fills s n h) n := by
  rw [Scatter.fills, List.range_succ, List.foldl_append]
  rfl

/-- The last of the writes is that of the last buffer's descriptor. -/
theorem Scatter.fills_posts (x : Scatter) {s : Nat} {h : Hub} (free : hostReadWaits h s = false) (n : Nat) :
    ∃ l, Posts s l h (x.fills s n h) ∧ (0 < n → l.getLast? = some (x.desc h s (n - 1))) := by
  induction n with
  | zero => exact ⟨[], posts_refl s h, nofun⟩
  | succ n ih =>
    obtain ⟨l, before, -⟩ := ih
    obtain ⟨l', last⟩ := x.fill_posts (before.waits.trans free) n
    refine ⟨l ++ (l' ++ [x.desc (x.fills s n h) s n]), ?_, fun _ => ?_⟩
    · rw [x.fills_succ]
      exact before.trans last
    · rw [← List.append_assoc, List.getLast?_concat, Nat.add_sub_cancel, Scatter.desc, descAddr_kept before.kept, Scatter.desc]

section
variable {h : Hub} {s : Nat} {bufs : List Nat} {f : NicFrame} {l : List NicFrame}

/-- A frame for which there is no buffer is counted and raised. -/
def nobufNoted (h : Hub) (s : Nat) : Hub := (h.bump (F.nic_RX_NOBUF_COUNT s) 1).flag (F.nic_INT_STAT_RX_NOBUF s) true

theorem nobufNoted_counted (h : Hub) (s : Nat) : Counted h (nobufNoted h s) (F.nic_RX_NOBUF_COUNT s) := by
  have raised : KeptBut [A.nic_INT_STAT s] (h.bump (F.nic_RX_NOBUF_COUNT s) 1) (nobufNoted h s) :=
    (keptBut_refl _ _).fset _ (by decide) (by simp)
  refine (Hub.bump_counted h (F.nic_RX_NOBUF_COUNT s)).kept raised (by decide) ?_
  simp only [List.mem_singleton, A.nic_RX_NOBUF, A.nic_INT_STAT]
  omega

theorem nobufNoted_raised (h : Hub) (s : Nat) : (nobufNoted h s).is (F.nic_INT_STAT_RX_NOBUF s) = true := Hub.is_flag _ _ _ Nat.one_pos

theorem nicReceive_nobuf (wait : Tbl.get (fun _ => []) h.net.rx s = f :: l) (fresh : f.sent = 0)
    (missing : ringPosted h s (4 + h.fget (F.nic_RX_MAP_RING s (f.tci / 8192))) = 0) :
    nicReceive h s bufs = setRx (nobufNoted h s) s l := by
  simp only [nicReceive, wait, fresh, missing, and_self, if_true]
  rfl

/-- A frame goes to the buffers that are free, and what is left of it waits. -/
theorem nicReceive_fills (wait : Tbl.get (fun _ => []) h.net.rx s = f :: l) (free : hostReadWaits h s = false)
    (posted : ringPosted h s (scatterOf h s bufs f).ring ≠ 0) {n : Nat}
    (hn : n = min (scatterOf h s bufs f).need (min (ringPosted h s (scatterOf h s bufs f).ring) bufs.length)) :
    nicReceive h s bufs = setRx (ringUsed ((scatterOf h s bufs f).fills s n h) s (scatterOf h s bufs f).ring n) s
      (if n = (scatterOf h s bufs f).need then l else { f with sent := f.sent + n * (scatterOf h s bufs f).size } :: l) := by
  subst hn
  have nonempty : ¬(f.sent = 0 ∧ ringPosted h s (4 + h.fget (F.nic_RX_MAP_RING s (f.tci / 8192))) = 0) := fun c => posted c.2
  rw [apply_ite (setRx _ s)]
  simp only [nicReceive, wait, free, if_neg nonempty, Bool.false_eq_true, if_false]
  rfl

end

/-! ## Deferred interrupts (R325) -/

theorem itrExpiry_due {h : Hub} {s r : Nat} (runs : h.net.itrRuns.testBit (8 * s + r) = true)
    (due : h.net.itrDue.testBit (8 * s + r) = true) :
    itrExpiry h s r = { h.putBit (F.nic_INT_STAT_RING s) r true with
      net := { h.net with itrDue := withBit h.net.itrDue (8 * s + r) false } } := by
  simp only [itrExpiry, runs, due, Bool.not_true, Bool.false_eq_true, if_false, if_true]

theorem itrExpiry_idle {h : Hub} {s r : Nat} (runs : h.net.itrRuns.testBit (8 * s + r) = true)
    (due : h.net.itrDue.testBit (8 * s + r) = false) :
    itrExpiry h s r = { h with net := { h.net with itrRuns := withBit h.net.itrRuns (8 * s + r) false } } := by
  simp only [itrExpiry, runs, due, Bool.not_true, Bool.false_eq_true, if_false]

end Sys2Proof.Machine
end

section
/-! The PCIe storage ports: PERST#, presence, the link, its requests and its TLPs (R89, R331–R337, R344). -/

namespace Sys2Proof.Machine

/-! ## Operations that write few words of the window, or none -/

theorem KeptBut.ite {l : List Nat} {p : Prop} [Decidable p] {h x y : Hub} (a : KeptBut l h x) (b : KeptBut l h y) :
    KeptBut l h (if p then x else y) := by
  split
  · exact a
  · exact b

theorem keptBut_foldl {α : Type} {l : List Nat} {step : Hub → α → Hub} (each : ∀ x a, KeptBut l x (step x a)) (as : List α) (h : Hub) :
    KeptBut l h (as.foldl step h) :=
  List.foldlRecOn (motive := fun x => KeptBut l h x) as step (keptBut_refl l h) fun x hx a _ => hx.trans (each x a)

theorem wakeUp_keptBut (l : List Nat) (h : Hub) (d lvl : Nat) : KeptBut l h (wakeUp h d lvl) :=
  .ite (keptBut_refl l h) (.ite (fun _ _ => rfl) (.ite (keptBut_refl l h) fun _ _ => rfl))

theorem dropHeld_keptBut (l : List Nat) (h : Hub) (f : HeldStart → Bool) : KeptBut l h (dropHeld h f) := fun _ _ => rfl

theorem capBack_keptBut (l : List Nat) (h : Hub) : KeptBut l h (capBack h) := by
  unfold capBack
  refine keptBut_foldl (fun x o => ?_) _ h
  split
  · exact fun f _ => Hub.setOutlet_fget x o _ f
  · exact keptBut_refl l x

/-- The words that a change of an island's point writes. -/
def dvfsWords : List Nat := [A.pwr_DVFS_STATE, Page.pwr + 0x10]

theorem noteBusy_keptBut {h h' : Hub} (k : KeptBut dvfsWords h h') : KeptBut dvfsWords h (noteBusy h') :=
  k.fset _ (by decide) (by simp [dvfsWords])

theorem dvfsFinish_keptBut {h h' : Hub} (k : KeptBut dvfsWords h h') (i p : Nat) : KeptBut dvfsWords h (dvfsFinish h' i p) := by
  have moved : KeptBut dvfsWords h (setPoint h' i p) := k.fset _ (by decide) (by simp [dvfsWords])
  unfold dvfsFinish
  refine KeptBut.event (noteBusy_keptBut ?_) 0 (by simp [dvfsWords])
  exact moved

theorem dvfsSettle1_keptBut (h : Hub) (i : Nat) : KeptBut dvfsWords h (dvfsSettle1 h i) := by
  have refused := (keptBut_refl dvfsWords h).event (page := Page.pwr) 1 (by simp [dvfsWords])
  have started := KeptBut.ite (p := (pointOf h i == 2 && targetOf h i == 2 && lowBlocked h i) = true) refused (keptBut_refl _ h)
  exact .ite (keptBut_refl _ h) (.ite (dvfsFinish_keptBut started i _) (noteBusy_keptBut started))

theorem dvfsSettle_keptBut (h : Hub) : KeptBut dvfsWords h (dvfsSettle h) := keptBut_foldl dvfsSettle1_keptBut _ h

theorem foldl_emit_regs (e : Nat → Emission) (as : List Nat) (h : Hub) : (as.foldl (fun h a => h.emit (e a)) h).regs = h.regs :=
  List.foldlRecOn (motive := fun x : Hub => x.regs = h.regs) as _ rfl fun _ hx _ _ => hx

theorem foldl_emit_otp (e : Nat → Emission) (as : List Nat) (h : Hub) : (as.foldl (fun h a => h.emit (e a)) h).otp = h.otp :=
  List.foldlRecOn (motive := fun x : Hub => x.otp = h.otp) as _ rfl fun _ hx _ _ => hx

/-- A slice's reports go out, and no register changes. -/
theorem settleReport_keptBut (l : List Nat) (h : Hub) (s u : Nat) : KeptBut l h (settleReport h s u) := by
  have regs : (settleReport h s u).regs = h.regs := by
    simp only [settleReport, apply_ite Hub.regs, foldl_emit_regs, Hub.emit_regs, ite_self]
  have otp : (settleReport h s u).otp = h.otp := by
    simp only [settleReport, apply_ite Hub.otp, foldl_emit_otp, Hub.emit_otp, ite_self]
  exact fun f _ => Hub.fget_congr regs otp f

theorem settleReports_keptBut (l : List Nat) (h : Hub) : KeptBut l h (settleReports h) :=
  keptBut_foldl (fun x s => keptBut_foldl (fun y u => settleReport_keptBut l y s u) _ x) _ h

/-! ## The words of a port -/

/-- STATUS is no word of the power controller. -/
theorem pciedn_STATUS_not_dvfs (x : Nat) : A.pciedn_STATUS x ∉ dvfsWords := by
  simp only [dvfsWords, List.mem_cons, List.not_mem_nil, or_false, A.pciedn_STATUS, A.pwr_DVFS_STATE, Page.pwr]
  omega

/-- STATUS stands apart from the other words of the port. -/
theorem pciedn_STATUS_apart (x : Nat) :
    A.pciedn_STATUS x ∉ [A.pciedn_TRAIN_TIME x, A.pciedn_CTL x, A.pciedn_ERR x, Page.pciedn x + 0x10] := by
  simp only [List.mem_cons, List.not_mem_nil, or_false, A.pciedn_STATUS, A.pciedn_TRAIN_TIME, A.pciedn_CTL, A.pciedn_ERR, Page.pciedn]
  omega

/-! ## PERST# and the drive (R331, R335) -/

theorem perstRelease_released {h : Hub} {x : Nat} (free : perstHeld h x = false) :
    perstRelease h x = h.flag (F.pciedn_STATUS_PERST x) false := by
  simp [perstRelease, free]

theorem perstRelease_held {h : Hub} {x : Nat} (held : perstHeld h x = true) : perstRelease h x = h := if_pos held

/-- The drive has come or gone. -/
def presenceNoted (h : Hub) (x : Nat) (present : Bool) : Hub := (h.flag (F.pciedn_STATUS_PRESENT x) present).event (Page.pciedn x) 0

theorem pciePresence_changes {h : Hub} {x : Nat} {present : Bool} (ne : h.is (F.pciedn_STATUS_PRESENT x) ≠ present) :
    pciePresence h x present =
      settleReports (if present then wake (presenceNoted h x present) (36 + x) else pcieDown (presenceNoted h x present) x) :=
  if_neg (by simpa using ne)

theorem presenceNoted_is (h : Hub) (x : Nat) (present : Bool) : (presenceNoted h x present).is (F.pciedn_STATUS_PRESENT x) = present := by
  have raised : KeptBut [Page.pciedn x + 0x10] _ (presenceNoted h x present) := (keptBut_refl _ _).event 0 (by simp)
  have apart : A.pciedn_STATUS x ∉ [Page.pciedn x + 0x10] := fun c => pciedn_STATUS_apart x (by simp [List.mem_singleton.mp c])
  exact (raised.is (by decide) apart).trans (Hub.is_flag _ _ _ Nat.one_pos)

theorem presenceNoted_kept (h : Hub) (x : Nat) (present : Bool) :
    KeptBut [A.pciedn_STATUS x, Page.pciedn x + 0x10] h (presenceNoted h x present) :=
  ((keptBut_refl _ h).fset _ (by decide) (by simp)).event 0 (by simp)

theorem presenceNoted_event (h : Hub) (x : Nat) (present : Bool) :
    (presenceNoted h x present).bit (F.hdr_INT_STAT_EVENT (Page.pciedn x)) 0 = true :=
  Hub.event_set _ _ _ (by decide)

/-! ## A link that trains (R331, R344) -/

/-- STATUS of a link that is up. -/
def linkStatus (h : Hub) (x gen width : Nat) : Hub :=
  ((h.flag (F.pciedn_STATUS_DLL_UP x) true).fset (F.pciedn_STATUS_GEN x) gen).fset (F.pciedn_STATUS_WIDTH x) width

/-- The link is up, timed and reported. -/
def pcieLinked (h : Hub) (x gen width ms : Nat) : Hub :=
  (((linkStatus h x gen width).fset (F.pciedn_TRAIN_TIME_MS x) (min ms 0xFFFF)).flag (F.pciedn_CTL_RETRAIN x) false).event (Page.pciedn x) 1

theorem pcieMaxGen_le (h : Hub) (x : Nat) : pcieMaxGen h x ≤ 5 := by
  unfold pcieMaxGen
  split <;> omega

theorem pcieMaxWidth_le (h : Hub) (x : Nat) : pcieMaxWidth h x ≤ 4 := by
  unfold pcieMaxWidth
  split <;> decide

/-- CTL.MAX_WIDTH stands apart from STATUS. -/
theorem pcieMaxWidth_kept {h h' : Hub} {x : Nat} (p : KeptBut [A.pciedn_STATUS x] h h') : pcieMaxWidth h' x = pcieMaxWidth h x := by
  have limit : h'.fget (F.pciedn_CTL_MAX_WIDTH x) = h.fget (F.pciedn_CTL_MAX_WIDTH x) := p.fget (by decide) (by
    simp only [List.mem_singleton, A.pciedn_CTL, A.pciedn_STATUS]
    omega)
  rw [pcieMaxWidth, limit, pcieMaxWidth]

theorem linkStatus_kept (h : Hub) (x gen width : Nat) : KeptBut [A.pciedn_STATUS x] h (linkStatus h x gen width) :=
  (((keptBut_refl _ h).fset _ (by decide) (by simp)).fset _ (by decide) (by simp)).fset _ (by decide) (by simp)

theorem linkStatus_up (h : Hub) (x gen width : Nat) : (linkStatus h x gen width).is (F.pciedn_STATUS_DLL_UP x) = true := by
  simp [linkStatus, Hub.is, Hub.fget_flag, Hub.fget_fset, F.pciedn_STATUS_DLL_UP, F.pciedn_STATUS_GEN, F.pciedn_STATUS_WIDTH]

theorem linkStatus_gen (h : Hub) (x width : Nat) {gen : Nat} (hg : gen ≤ 5) :
    (linkStatus h x gen width).fget (F.pciedn_STATUS_GEN x) = gen := by
  have fits : gen % 8 = gen := Nat.mod_eq_of_lt (by omega)
  simp [linkStatus, Hub.fget_fset, F.pciedn_STATUS_GEN, F.pciedn_STATUS_WIDTH, fits]

theorem linkStatus_width (h : Hub) (x gen : Nat) {width : Nat} (hw : width ≤ 4) :
    (linkStatus h x gen width).fget (F.pciedn_STATUS_WIDTH x) = width :=
  (Hub.fget_fset_same ..).trans (Nat.mod_eq_of_lt (Nat.lt_of_le_of_lt hw (by decide : 4 < 2 ^ 3)))

section
variable (h : Hub) (x gen width ms : Nat)

theorem pcieLinked_kept :
    KeptBut [A.pciedn_STATUS x, A.pciedn_TRAIN_TIME x, A.pciedn_CTL x, Page.pciedn x + 0x10] h (pcieLinked h x gen width ms) :=
  ((((linkStatus_kept h x gen width).mono (by simp)).fset _ (by decide) (by simp)).fset _ (by decide) (by simp)).event 1 (by simp)

/-- The time and the report leave STATUS. -/
theorem pcieLinked_status : KeptBut [A.pciedn_TRAIN_TIME x, A.pciedn_CTL x, A.pciedn_ERR x, Page.pciedn x + 0x10] (linkStatus h x gen width)
    (pcieLinked h x gen width ms) :=
  (((keptBut_refl _ _).fset _ (by decide) (by simp)).fset _ (by decide) (by simp)).event 1 (by simp)

theorem pcieLinked_up : (pcieLinked h x gen width ms).is (F.pciedn_STATUS_DLL_UP x) = true :=
  ((pcieLinked_status h x gen width ms).is (by decide) (pciedn_STATUS_apart x)).trans (linkStatus_up ..)

theorem pcieLinked_gen (hg : gen ≤ 5) : (pcieLinked h x gen width ms).fget (F.pciedn_STATUS_GEN x) = gen :=
  ((pcieLinked_status h x gen width ms).fget (by decide) (pciedn_STATUS_apart x)).trans (linkStatus_gen h x width hg)

theorem pcieLinked_width (hw : width ≤ 4) : (pcieLinked h x gen width ms).fget (F.pciedn_STATUS_WIDTH x) = width :=
  ((pcieLinked_status h x gen width ms).fget (by decide) (pciedn_STATUS_apart x)).trans (linkStatus_width h x gen hw)

theorem pcieLinked_time : (pcieLinked h x gen width ms).fget (F.pciedn_TRAIN_TIME_MS x) = min ms 0xFFFF := by
  have later : KeptBut [A.pciedn_CTL x, Page.pciedn x + 0x10] _ (pcieLinked h x gen width ms) :=
    ((keptBut_refl _ ((linkStatus h x gen width).fset (F.pciedn_TRAIN_TIME_MS x) (min ms 0xFFFF))).fset _ (by decide) (by simp)).event 1
      (by simp)
  have apart : A.pciedn_TRAIN_TIME x ∉ [A.pciedn_CTL x, Page.pciedn x + 0x10] := by
    simp only [List.mem_cons, List.not_mem_nil, or_false, A.pciedn_TRAIN_TIME, A.pciedn_CTL, Page.pciedn]
    omega
  exact (later.fget (by decide) apart).trans
    ((Hub.fget_fset_same ..).trans (Nat.mod_eq_of_lt (Nat.lt_succ_of_le (Nat.min_le_right ms 0xFFFF))))

/-- RETRAIN stands in CTL, which an event leaves. -/
theorem pciedn_CTL_apart : A.pciedn_CTL x ∉ [A.pciedn_ERR x, Page.pciedn x + 0x10] := by
  simp only [List.mem_cons, List.not_mem_nil, or_false, A.pciedn_CTL, A.pciedn_ERR, Page.pciedn]
  omega

theorem pcieLinked_event : (pcieLinked h x gen width ms).bit (F.hdr_INT_STAT_EVENT (Page.pciedn x)) 1 = true :=
  Hub.event_set _ _ _ (by decide)

theorem pcieLinked_retrain : (pcieLinked h x gen width ms).is (F.pciedn_CTL_RETRAIN x) = false := by
  have later : KeptBut [A.pciedn_ERR x, Page.pciedn x + 0x10] _ (pcieLinked h x gen width ms) := (keptBut_refl _ _).event 1 (by simp)
  exact (later.is (by decide) (pciedn_CTL_apart x)).trans (Hub.is_flag _ _ _ Nat.one_pos)

end

/-- An island that is not at LOW starts the link at once. -/
theorem holdStart_awake {h : Hub} {i : Nat} (awake : lowNow h i = false) (x : HeldStart) : holdStart h i x = h := by
  simp [holdStart, awake]

theorem dropHeld_dropHeld (h : Hub) (f : HeldStart → Bool) : dropHeld (dropHeld h f) f = dropHeld h f := by
  simp [dropHeld, List.filter_filter]

/-- The link trains unless it would have to wait for its island. -/
theorem pcieUp_trains {h : Hub} {x gen : Nat} (width ms : Nat) {g : Nat}
    (attached : unitReleased h (8 + x) = true → (h.unitSt (8 + x)).attaching = true) (drive : h.is (F.pciedn_STATUS_PRESENT x) = true)
    (perst : h.is (F.pciedn_STATUS_PERST x) = false) (hg : g = min (max 1 gen) (pcieMaxGen h x)) (low : g ≤ 3 ∨ lowNow h 3 = false) :
    pcieUp h x gen width ms = settleReports (dvfsSettle (wake (enforceFloor (capBack
      (pcieLinked (dropHeld h (heldPcie x)) x g (min (pcieLanes width) (pcieMaxWidth h x)) ms)) 3) (36 + x))) := by
  have trains : (!(h.is (F.pciedn_STATUS_PRESENT x)) || h.is (F.pciedn_STATUS_PERST x) ||
      (unitReleased h (8 + x) && !(h.unitSt (8 + x)).attaching)) = false := by
    rw [drive, perst]
    cases released : unitReleased h (8 + x) with
    | false => rfl
    | true => rw [attached released]; rfl
  have awake : (lowNow h 3 && decide (3 < g)) = false := by
    obtain slow | high := low
    · rw [decide_eq_false (Nat.not_lt.mpr slow), Bool.and_false]
    · rw [high, Bool.false_and]
  have starts : (if 3 < g then holdStart (dropHeld h (heldPcie x)) 3 (.pcie x gen width ms) else dropHeld h (heldPcie x)) =
      dropHeld h (heldPcie x) := by
    obtain slow | high := low
    · exact if_neg (Nat.not_lt.mpr slow)
    · rw [holdStart_awake (h := dropHeld h (heldPcie x)) high, ite_self]
  have lanes : pcieMaxWidth (((dropHeld h (heldPcie x)).flag (F.pciedn_STATUS_DLL_UP x) true).fset
      (F.pciedn_STATUS_GEN x) g) x = pcieMaxWidth h x :=
    pcieMaxWidth_kept (KeptBut.fset (KeptBut.fset (dropHeld_keptBut _ h (heldPcie x)) _ (by decide) (by simp)) _ (by decide) (by simp))
  have awake' : (lowNow (dropHeld h (heldPcie x)) 3 && decide (3 < g)) = false := awake
  simp only [pcieUp, trains, ← hg, starts, awake', dropHeld_dropHeld, lanes, Bool.false_eq_true, if_false]
  rfl

/-- A link that has trained is up after all that follows it. -/
theorem pcieTrained_trains {h : Hub} {x gen : Nat} (width ms : Nat) {g : Nat} (awake : h.listens (36 + x) = true)
    (attached : unitReleased h (8 + x) = true → (h.unitSt (8 + x)).attaching = true) (drive : h.is (F.pciedn_STATUS_PRESENT x) = true)
    (perst : h.is (F.pciedn_STATUS_PERST x) = false) (hg : g = min (max 1 gen) (pcieMaxGen h x)) (low : g ≤ 3 ∨ lowNow h 3 = false) :
    pcieTrained h x gen width ms = attachTrained (settleReports (dvfsSettle (wake (enforceFloor (capBack
      (pcieLinked (dropHeld h (heldPcie x)) x g (min (pcieLanes width) (pcieMaxWidth h x)) ms)) 3) (36 + x))))
      (8 + x) := by
  rw [pcieTrained, awake, pcieUp_trains width ms attached drive perst hg low]
  generalize hz : pcieLinked _ x g _ ms = z
  have up : z.is (F.pciedn_STATUS_DLL_UP x) = true := hz ▸ pcieLinked_up ..
  have islands : KeptBut dvfsWords z (settleReports (dvfsSettle (wake (enforceFloor (capBack z) 3) (36 + x)))) :=
    (capBack_keptBut _ z).trans ((wakeUp_keptBut _ _ _ _).trans ((wakeUp_keptBut _ _ _ _).trans
      ((dvfsSettle_keptBut _).trans (settleReports_keptBut _ _))))
  simp only [Bool.not_true, Bool.false_eq_true, if_false]
  exact if_pos ((islands.is (by decide) (pciedn_STATUS_not_dvfs x)).trans up)

theorem pcieTrained_wakes {h : Hub} {x : Nat} (asleep : h.listens (36 + x) = false) (gen width ms : Nat) :
    pcieTrained h x gen width ms = wake h (36 + x) := by
  simp [pcieTrained, asleep]

/-! ## A link that is lost (R336) -/

/-- The link is down and reported, and its requests are still out. -/
def pcieLost (h : Hub) (x : Nat) : Hub :=
  (((((dropHeld h (heldPcie x)).flag (F.pciedn_STATUS_DLL_UP x) false).fset (F.pciedn_STATUS_GEN x) 0).fset (F.pciedn_STATUS_WIDTH x) 0).flag
    (F.pciedn_CTL_RETRAIN x) false).event (Page.pciedn x) 2

@[simp] theorem pcieLost_out (h : Hub) (x : Nat) : (pcieLost h x).out = h.out := rfl

@[simp] theorem pcieLost_outstanding (h : Hub) (x y : Nat) : outstandingAt (pcieLost h x) y = outstandingAt h y := rfl

theorem pcieLost_event (h : Hub) (x : Nat) : (pcieLost h x).bit (F.hdr_INT_STAT_EVENT (Page.pciedn x)) 2 = true :=
  Hub.event_set _ _ _ (by decide)

theorem pcieDown_up {h : Hub} {x : Nat} (up : h.is (F.pciedn_STATUS_DLL_UP x) = true) :
    pcieDown h x = settleReports (dvfsSettle (urAll (pcieLost h x) x)) := if_pos up

@[simp] theorem outstandingAt_setOutstanding (h : Hub) (x : Nat) (l : List Nat) : outstandingAt (setOutstanding h x l) x = l :=
  Tbl.get_put_same ..

/-- The words that the end of a request writes. -/
def urWords (x : Nat) : List Nat := [A.pciedn_ERR x, Page.pciedn x + 0x10]

theorem pciedn_UR_CPL_ne_event (x : Nat) : (F.pciedn_ERR_UR_CPL x).key ≠ (F.hdr_INT_STAT_EVENT (Page.pciedn x)).key := by
  simp only [F.pciedn_ERR_UR_CPL, A.pciedn_ERR, F.hdr_INT_STAT_EVENT, A.hdr_INT_STAT, Page.pciedn, Fld.key_mk]
  omega

theorem completeUr_kept (h : Hub) (x tag : Nat) : KeptBut (urWords x) h (completeUr h x tag) := by
  have counted : KeptBut (urWords x) h ((h.bump (F.pciedn_ERR_UR_CPL x) 1).emit (.urCompletion x tag)) :=
    (keptBut_refl _ h).fset (a := A.pciedn_ERR x) _ (by decide) (by simp [urWords])
  exact counted.event 3 (by simp [urWords])

theorem urAll_kept (h : Hub) (x : Nat) : KeptBut (urWords x) h (urAll h x) :=
  keptBut_foldl (fun y t => completeUr_kept y x t) (outstandingAt h x) h

theorem foldl_completeUr_out (x : Nat) (tags : List Nat) (h : Hub) :
    (tags.foldl (fun h t => completeUr h x t) h).out = h.out ++ tags.map fun t => .urCompletion x t := by
  induction tags generalizing h with
  | nil => exact (List.append_nil _).symm
  | cons t tags ih =>
    rw [List.foldl_cons, ih, List.map_cons, List.append_cons]
    rfl

/-- Each request counts once, up to the highest value. -/
theorem foldl_completeUr_count (x : Nat) {tags : List Nat} (nonempty : tags ≠ []) (h : Hub) :
    (tags.foldl (fun h t => completeUr h x t) h).fget (F.pciedn_ERR_UR_CPL x) =
      min (h.fget (F.pciedn_ERR_UR_CPL x) + tags.length) (2 ^ (F.pciedn_ERR_UR_CPL x).w - 1) := by
  induction tags generalizing h with
  | nil => exact absurd rfl nonempty
  | cons t tags ih =>
    have one : (completeUr h x t).fget (F.pciedn_ERR_UR_CPL x) =
        min (h.fget (F.pciedn_ERR_UR_CPL x) + 1) (2 ^ (F.pciedn_ERR_UR_CPL x).w - 1) :=
      (Hub.fget_event_other _ _ _ (pciedn_UR_CPL_ne_event x)).trans (Hub.bump_counted h (F.pciedn_ERR_UR_CPL x))
    rw [List.foldl_cons]
    by_cases last : tags = []
    · subst last
      exact one
    · rw [ih last, one, List.length_cons]
      omega

theorem urAll_out (h : Hub) (x : Nat) : (urAll h x).out = h.out ++ (outstandingAt h x).map fun t => .urCompletion x t :=
  foldl_completeUr_out x _ h

theorem urAll_count {h : Hub} {x : Nat} (nonempty : outstandingAt h x ≠ []) : (urAll h x).fget (F.pciedn_ERR_UR_CPL x) =
    min (h.fget (F.pciedn_ERR_UR_CPL x) + (outstandingAt h x).length) (2 ^ (F.pciedn_ERR_UR_CPL x).w - 1) :=
  foldl_completeUr_count x nonempty h

theorem urAll_outstanding (h : Hub) (x : Nat) : outstandingAt (urAll h x) x = [] := outstandingAt_setOutstanding ..

/-- The end of a request keeps the events raised before it. -/
theorem completeUr_event {h : Hub} {x b : Nat} (tag : Nat) (hb : b < 32) (e : h.bit (F.hdr_INT_STAT_EVENT (Page.pciedn x)) b = true) :
    (completeUr h x tag).bit (F.hdr_INT_STAT_EVENT (Page.pciedn x)) b = true := by
  refine Hub.event_keeps _ _ _ _ _ hb (Eq.trans ?_ e)
  exact congrArg (·.testBit b) (Hub.fget_fset_other h _ (pciedn_UR_CPL_ne_event x).symm)

theorem urAll_event {h : Hub} {x b : Nat} (hb : b < 32) (e : h.bit (F.hdr_INT_STAT_EVENT (Page.pciedn x)) b = true) :
    (urAll h x).bit (F.hdr_INT_STAT_EVENT (Page.pciedn x)) b = true :=
  List.foldlRecOn (motive := fun y : Hub => y.bit (F.hdr_INT_STAT_EVENT (Page.pciedn x)) b = true) (outstandingAt h x) _ e
    fun _ hy t _ => completeUr_event t hb hy

/-- STATUS of a link that is down. -/
def downStatus (h : Hub) (x : Nat) : Hub :=
  ((h.flag (F.pciedn_STATUS_DLL_UP x) false).fset (F.pciedn_STATUS_GEN x) 0).fset (F.pciedn_STATUS_WIDTH x) 0

theorem downStatus_reads (h : Hub) (x : Nat) : (downStatus h x).is (F.pciedn_STATUS_DLL_UP x) = false ∧
    (downStatus h x).fget (F.pciedn_STATUS_GEN x) = 0 ∧ (downStatus h x).fget (F.pciedn_STATUS_WIDTH x) = 0 := by
  simp [downStatus, Hub.is, Hub.fget_flag, Hub.fget_fset, F.pciedn_STATUS_DLL_UP, F.pciedn_STATUS_GEN, F.pciedn_STATUS_WIDTH]

/-- The loss of the link and the end of its requests write no STATUS beyond it. -/
theorem lost_status (h : Hub) (x : Nat) : KeptBut [A.pciedn_TRAIN_TIME x, A.pciedn_CTL x, A.pciedn_ERR x, Page.pciedn x + 0x10]
    (downStatus (dropHeld h (heldPcie x)) x) (urAll (pcieLost h x) x) :=
  (((keptBut_refl _ _).fset _ (by decide) (by simp)).event 2 (by simp)).trans ((urAll_kept _ x).mono (by simp [urWords]))

theorem lost_retrain (h : Hub) (x : Nat) : (urAll (pcieLost h x) x).is (F.pciedn_CTL_RETRAIN x) = false := by
  have later : KeptBut (urWords x) _ (urAll (pcieLost h x) x) :=
    ((keptBut_refl (urWords x) _).event 2 (by simp [urWords])).trans (urAll_kept (pcieLost h x) x)
  exact (later.is (by decide) (pciedn_CTL_apart x)).trans (Hub.is_flag _ _ _ Nat.one_pos)

theorem pcieLost_count (h : Hub) (x : Nat) : (pcieLost h x).fget (F.pciedn_ERR_UR_CPL x) = h.fget (F.pciedn_ERR_UR_CPL x) := by
  have kept : KeptBut [A.pciedn_STATUS x, A.pciedn_CTL x, Page.pciedn x + 0x10] h (pcieLost h x) :=
    (((((dropHeld_keptBut _ h (heldPcie x)).fset _ (by decide) (by simp)).fset _ (by decide) (by simp)).fset _ (by decide)
      (by simp)).fset _ (by decide) (by simp)).event 2 (by simp)
  refine kept.fget (by decide) ?_
  simp only [List.mem_cons, List.not_mem_nil, or_false, A.pciedn_STATUS, A.pciedn_CTL, A.pciedn_ERR, Page.pciedn]
  omega

/-! ## TLPs from the endpoint (R89, R332, R337) -/

section
variable {h : Hub} {x : Nat} {packets : List Bytes} {credit : Option Nat}

theorem tlpReceive_request (up : h.is (F.pciedn_STATUS_DLL_UP x) = true) {kind : Nat} (hk : kind < 2) (tag : Nat) :
    tlpReceive h x kind tag packets credit = chainArrival h (16 + x) kind packets true false 0 credit 8 := by
  have request : kind ≠ 2 := by omega
  simp [tlpReceive, up, hk, request]

/-- The last completion of a request ends it. -/
def answered (h : Hub) (x tag : Nat) (packets : List Bytes) : Hub :=
  if lastCompletion packets.flatten then setOutstanding h x ((outstandingAt h x).erase tag) else h

theorem answered_outstanding (h : Hub) (x tag : Nat) (packets : List Bytes) : outstandingAt (answered h x tag packets) x =
    if lastCompletion packets.flatten then (outstandingAt h x).erase tag else outstandingAt h x := by
  rw [answered, apply_ite (outstandingAt · x), outstandingAt_setOutstanding]

theorem answered_regs (h : Hub) (x tag : Nat) (packets : List Bytes) : (answered h x tag packets).regs = h.regs := by
  rw [answered, apply_ite Hub.regs]
  exact ite_self _

theorem answered_forebays (h : Hub) (x tag : Nat) (packets : List Bytes) : (answered h x tag packets).forebays = h.forebays := by
  rw [answered, apply_ite Hub.forebays]
  exact ite_self _

theorem tlpReceive_completion (up : h.is (F.pciedn_STATUS_DLL_UP x) = true) {tag : Nat} (out : (outstandingAt h x).contains tag = true) :
    tlpReceive h x 2 tag packets credit = chainArrival (answered h x tag packets) (16 + x) 2 packets true false 0 credit 8 := by
  simp only [tlpReceive, up, out, Bool.not_true, Bool.false_eq_true, if_false, if_true]
  rfl

theorem tlpReceive_unexpected (up : h.is (F.pciedn_STATUS_DLL_UP x) = true) {tag : Nat} (missing : (outstandingAt h x).contains tag = false) :
    tlpReceive h x 2 tag packets credit = returnCredit h (16 + x) 2 credit packets.length := by
  simp only [tlpReceive, up, missing, Bool.not_true, Bool.false_eq_true, if_false, if_true]

/-- What comes after the release of the port is discarded. -/
theorem tlpReceive_released (down : h.is (F.pciedn_STATUS_DLL_UP x) = false) {o : Nat} (ho : o < 4)
    (released : h.bit (F.slice_RELEASE_UNITS o) (8 + x) = true) {kind p : Nat} (path : lookup h (16 + x) kind = some p) (tag : Nat) :
    tlpReceive h x kind tag packets credit = returnCredit (countRed h p packets.length) (16 + x) kind credit packets.length := by
  have nonempty : ((List.range 4).any fun s => h.bit (F.slice_RELEASE_UNITS s) (8 + x)) = true :=
    List.any_eq_true.mpr ⟨o, List.mem_range.mpr ho, released⟩
  simp only [tlpReceive, down, nonempty, path, Bool.not_false, if_true]

end

end Sys2Proof.Machine
end

section
/-! What the NICs and the PCIe storage ports do (R89, R323–R325, R331–R337, R512). -/

namespace Sys2Proof.Machine

/-- Settles O42. Each clause is the equation of its command: of a NIC, its writes are queued one behind the other (`Posts`), and HEAD
moves past the descriptors written back; of a port, the hub `h'` is that of the report (`presenceNoted`, `pcieLinked`, `pcieLost`), before
islands and reports follow. -/
theorem nicsAndPcieStorage : Obligations.NicsAndPcieStorage := by
  intro s
  refine ⟨fun slice ring addr len posted idle free => ⟨fun bad => ?refuses, fun nonempty fits => ⟨fun full => ?waits, fun room => ?fetches⟩⟩,
    fun slice bufs f l q left need n wait hq hleft hneed hn => ⟨fun fresh missing => ?nobuf, fun nonempty free => ?fills⟩,
    fun slice ring runs => ⟨fun due => ?due, fun idle => ?idle⟩,
    fun port => ⟨fun free => ?released, fun held => ?held, fun present ne => ?presence, fun gen width ms asleep => ?asleep,
      fun gen width ms g awake attached drive perst hg low => ?trains, fun up => ?lost,
      fun kind tag packets credit up => ⟨fun hk => ?request, fun hk out => ?completion, fun hk missing => ?unexpected⟩,
      fun kind tag packets credit o p down released path => ?discarded⟩⟩
  case refuses =>
    refine ⟨_, rfl, ?_⟩
    dsimp only
    rw [nicTransmit_refuses posted idle free addr bad, txWriteBack]
    have written := sendPosted_posts free 1 (descAddr s.hub slice ring 0) (descBytes addr len 0 false (len != 0)) (some ring.val)
    exact ⟨written.ringUsed_outbound ring 1, written.ringUsed_head ring 1, written.ringUsed_kept ring 1⟩
  case waits => exact ⟨_, rfl, by dsimp only; rw [nicTransmit_waits posted idle free addr nonempty fits full]⟩
  case fetches =>
    refine ⟨_, rfl, ?_⟩
    dsimp only
    rw [nicTransmit_fetches posted idle free addr nonempty fits room]
    exact fetchMore_fetches slice ring 20 (fetchOf_setFetch_same ..)
  case nobuf =>
    subst hq
    refine ⟨_, rfl, ?_⟩
    dsimp only
    rw [nicReceive_nobuf wait fresh missing]
    exact ⟨nobufNoted_counted s.hub slice, nobufNoted_raised s.hub slice, setRx_rx .., rfl⟩
  case fills =>
    subst hq hleft hneed
    have posted : ringPosted s.hub slice (scatterOf s.hub slice bufs f).ring ≠ 0 := fun c => by
      have : n ≤ ringPosted s.hub slice (scatterOf s.hub slice bufs f).ring :=
        hn ▸ Nat.le_trans (Nat.min_le_right ..) (Nat.min_le_left ..)
      omega
    obtain ⟨posts, written, last⟩ := (scatterOf s.hub slice bufs f).fills_posts free n
    refine ⟨_, rfl, posts, ?_⟩
    dsimp only
    rw [nicReceive_fills wait free posted hn]
    refine ⟨written.ringUsed_outbound (scatterOf s.hub slice bufs f).ring n, ?_, written.ringUsed_head _ n, setRx_rx ..⟩
    rw [last nonempty, Scatter.desc, Nat.sub_add_cancel nonempty]
    rfl
  case due =>
    refine ⟨_, rfl, ?_⟩
    dsimp only
    rw [itrExpiry_due runs due]
    refine ⟨Hub.bit_putBit_same s.hub (F.nic_INT_STAT_RING slice) _ _ ring.isLt, rfl, ?_, ?_⟩
    · rw [testBit_withBit, if_pos rfl]
    · exact othersKept_fset s.hub (F.nic_INT_STAT_RING slice) _ (Fld.key_div _ (by decide))
  case idle =>
    refine ⟨_, rfl, ?_⟩
    dsimp only
    rw [itrExpiry_idle runs idle, testBit_withBit, if_pos rfl]
    exact ⟨rfl, rfl⟩
  case released =>
    refine ⟨_, rfl, ?_⟩
    dsimp only
    rw [perstRelease_released free]
    exact ⟨Hub.is_flag _ _ _ Nat.one_pos, othersKept_flag _ _ _ (Fld.key_div _ (by decide))⟩
  case held => exact ⟨_, rfl, by dsimp only; rw [perstRelease_held held]⟩
  case presence =>
    exact ⟨_, rfl, presenceNoted s.hub port present, presenceNoted_is .., presenceNoted_event .., presenceNoted_kept _ _ _,
      pciePresence_changes ne⟩
  case asleep => exact ⟨_, rfl, pcieTrained_wakes asleep gen width ms, rfl⟩
  case trains =>
    have gen5 : g ≤ 5 := hg ▸ Nat.le_trans (Nat.min_le_right ..) (pcieMaxGen_le ..)
    have lanes4 : min (pcieLanes width) (pcieMaxWidth s.hub port) ≤ 4 := Nat.le_trans (Nat.min_le_right ..) (pcieMaxWidth_le ..)
    exact ⟨_, rfl, pcieLinked (dropHeld s.hub (heldPcie port)) port g (min (pcieLanes width) (pcieMaxWidth s.hub port)) ms,
      pcieLinked_up .., pcieLinked_gen _ _ _ _ _ gen5, pcieLinked_width _ _ _ _ _ lanes4, pcieLinked_time .., pcieLinked_retrain ..,
      pcieLinked_event .., (dropHeld_keptBut _ _ _).trans (pcieLinked_kept _ _ _ _ _),
      pcieTrained_trains width ms awake attached drive perst hg low⟩
  case lost =>
    have status := lost_status s.hub port
    obtain ⟨down, gen, width⟩ := downStatus_reads (dropHeld s.hub (heldPcie port)) port
    refine ⟨_, rfl, urAll (pcieLost s.hub port) port, ?_, ?_, ?_, lost_retrain .., urAll_outstanding .., ?_, ?_, fun nonempty => ?_,
      pcieDown_up up⟩
    · exact (status.is (by decide) (pciedn_STATUS_apart port)).trans down
    · exact (status.fget (by decide) (pciedn_STATUS_apart port)).trans gen
    · exact (status.fget (by decide) (pciedn_STATUS_apart port)).trans width
    · rw [urAll_out, pcieLost_out, pcieLost_outstanding]
    · exact urAll_event (by decide) (pcieLost_event ..)
    · rw [urAll_count (h := pcieLost s.hub port) nonempty, pcieLost_count, pcieLost_outstanding]
  case request => exact ⟨_, rfl, tlpReceive_request up hk tag⟩
  case completion =>
    refine ⟨_, rfl, answered s.hub port tag packets, answered_outstanding .., answered_regs .., answered_forebays .., ?_⟩
    dsimp only
    rw [hk]
    exact tlpReceive_completion up out
  case unexpected =>
    refine ⟨_, rfl, ?_⟩
    dsimp only
    rw [hk]
    exact tlpReceive_unexpected up missing
  case discarded => exact ⟨_, rfl, tlpReceive_released down o.isLt released path tag⟩

end Sys2Proof.Machine
end

section
/-! Which commands answer a next state (R345). -/

namespace Sys2Proof.Machine

/-- A result is a next state. -/
def IsNext (r : Result) : Prop := ∃ t, r = .next t

/-- An access that fails a check of R53 is answered all the same. -/
theorem access_isNext (s : State) (a : Access) : IsNext (access s a) := ⟨_, rfl⟩

theorem bmcTarget_isNext (s : State) (bs : Bytes) (n : Nat) : IsNext (bmcTarget s bs n) := by
  unfold bmcTarget
  dsimp only
  split
  · exact access_isNext s _
  · split
    · exact access_isNext s _
    · exact ⟨_, rfl⟩

theorem shelfEntered_isNext (s : State) : IsNext (shelfEntered s) := by
  unfold shelfEntered
  split
  · exact ⟨_, rfl⟩
  · exact ⟨_, rfl⟩

theorem reelAccess_beyond {s : State} {a : Access} (beyond : 2 ^ 32 < a.addr + a.size) : reelAccess s a = .fault .outsideReel :=
  if_pos beyond

theorem reelAccess_within {s : State} {a : Access} (within : a.addr + a.size ≤ 2 ^ 32) : reelAccess s a = access s a :=
  if_neg (Nat.not_lt.mpr within)

/-- The one fault of the machine (R345). -/
theorem reelAccess_isNext_or_outside (s : State) (a : Access) :
    IsNext (reelAccess s a) ∨ (reelAccess s a = .fault .outsideReel ∧ 2 ^ 32 < a.addr + a.size) := by
  by_cases beyond : 2 ^ 32 < a.addr + a.size
  · exact .inr ⟨reelAccess_beyond beyond, beyond⟩
  · exact .inl (reelAccess_within (Nat.le_of_not_lt beyond) ▸ access_isNext s a)

/-- Settles O5. Commands of the hub alone, accesses of the register window and operations over Reel memory end in a next state whatever they
do; the BMC's target and the entry into SHELF choose among such; only the Reel window is judged by its addresses first. -/
theorem onlyReelWindowFaults : Obligations.OnlyReelWindowFaults := by
  intro c s
  cases c with
  | reelWindowRead req addr len =>
    exact (reelAccess_isNext_or_outside s _).imp_right fun ⟨faults, beyond⟩ => ⟨faults, .inl ⟨req, addr, len, rfl, beyond⟩⟩
  | reelWindowWrite req addr data =>
    exact (reelAccess_isNext_or_outside s _).imp_right fun ⟨faults, beyond⟩ => ⟨faults, .inr ⟨req, addr, data, rfl, beyond⟩⟩
  | bmcAccess bytes n => exact .inl (bmcTarget_isNext s bytes n)
  | shelfEntryComplete => exact .inl (shelfEntered_isNext s)
  | retrain by_ | eventRaise by_ | hidSend by_ | notify by_ => cases by_ <;> exact .inl ⟨_, rfl⟩
  | pwrPolicyWrite _ group => cases group <;> exact .inl ⟨_, rfl⟩
  | tokenEarned shaper => cases shaper <;> exact .inl ⟨_, rfl⟩
  | isochronousPacket _ p => cases p <;> exact .inl ⟨_, rfl⟩
  | _ => exact .inl ⟨_, rfl⟩

end Sys2Proof.Machine
end

section
/-! Reads and writes of the Reel window: their bytes, part by part (R345, R350, R351). -/

namespace Sys2Proof.Machine

/-! ## Reads of words without errors (R257, R350) -/

section

variable {h : Hub} (clean : h.reelBad = [])
include clean

theorem badOf_clean (b : Nat) : badOf h b = 0 := by
  rw [badOf, clean]
  rfl

theorem noteRead_clean (client b : Nat) : noteRead client h b = h := by
  simp [noteRead, badOf_clean clean b]

theorem reelRead_clean (m : Memory) (client a n : Nat) : ∃ k, reelRead h m client a n = ({ h with reelBlocks := k }, m.bytes a n) := by
  have noted : ∀ bs : List Nat, bs.foldl (noteRead client) h = h := fun bs =>
    List.foldlRecOn (motive := fun x : Hub => x = h) bs (noteRead client) rfl fun x same b _ => by rw [same, noteRead_clean clean]
  refine ⟨h.reelBlocks + (blocksOf ((List.range n).map (a + ·))).length, ?_⟩
  rw [reelRead, noted]
  rfl

theorem partPoisoned_clean (p : Nat × Nat) : partPoisoned h p = false := by
  simp [partPoisoned, badOf_clean clean]

theorem fetchReel_clean (m : Memory) (bs : List Nat) : ∃ k, (fetchReel h m bs).1 = { h with reelBlocks := k } := by
  induction bs generalizing h with
  | nil => exact ⟨h.reelBlocks, rfl⟩
  | cons b bs ih =>
    obtain ⟨k, read⟩ := reelRead_clean clean m Client.penstock (64 * b) 64
    obtain ⟨k', rest⟩ := ih (h := { h with reelBlocks := k }) clean
    refine ⟨k', ?_⟩
    simp only [fetchReel, read, rest]

/-- The read ahead of the Reel window changes the prefetch buffers and the count of blocks alone. -/
theorem readAhead_clean (m : Memory) {a : Access} (reel : a.reel = true) :
    ∃ p k, readAhead h m a = { h with pen := p, reelBlocks := k } := by
  unfold readAhead
  split
  · split
    · exact ⟨h.pen, h.reelBlocks, rfl⟩
    · split
      · exact ⟨h.pen, h.reelBlocks, rfl⟩
      · dsimp only
        split
        · exact ⟨h.pen, h.reelBlocks, rfl⟩
        · split
          · obtain ⟨k, fetched⟩ := fetchReel_clean clean m (aheadBlocks a.reel (a.addr + a.size) ‹Nat›)
            rw [fetched]
            exact ⟨_, k, rfl⟩
          · exact ⟨h.pen, h.reelBlocks, rfl⟩
  · exact ⟨h.pen, h.reelBlocks, rfl⟩

end

/-- A slice's read is told of poison, a Miller's is not (R353). -/
def fromSlice : Req → Bool
  | .slice _ => true
  | _ => false

/-- The read of one part of the Reel window, behind those already read. -/
def readPart (m : Memory) (slice : Bool) (x : Hub × List (Bytes × Bool)) (p : Nat × Nat) : Hub × List (Bytes × Bool) :=
  ((reelRead x.1 m Client.penstock p.1 p.2).1, x.2 ++ [((reelRead x.1 m Client.penstock p.1 p.2).2, partPoisoned x.1 p && slice)])

theorem readReel_eq (h : Hub) (m : Memory) (a : Access) : readReel h m a =
    reelAnswer (if (reelParts a.addr a.size).any (partPoisoned h)
        then npError ((reelParts a.addr a.size).foldl (readPart m (fromSlice a.req)) (h, [])).1 (reqCode a.req) a.addr Cause.reel true
        else ((reelParts a.addr a.size).foldl (readPart m (fromSlice a.req)) (h, [])).1) a
      ((reelParts a.addr a.size).foldl (readPart m (fromSlice a.req)) (h, [])).2 := rfl

theorem foldl_readPart_clean {h : Hub} (clean : h.reelBad = []) (m : Memory) (slice : Bool) (ps : List (Nat × Nat)) (done : List (Bytes × Bool)) :
    ∃ k, ps.foldl (readPart m slice) (h, done) = ({ h with reelBlocks := k }, done ++ ps.map fun p => (m.bytes p.1 p.2, false)) := by
  induction ps generalizing h done with
  | nil => exact ⟨h.reelBlocks, by rw [List.map_nil, List.append_nil]; rfl⟩
  | cons p ps ih =>
    obtain ⟨k, read⟩ := reelRead_clean clean m Client.penstock p.1 p.2
    obtain ⟨k', rest⟩ := ih (h := { h with reelBlocks := k }) clean (done ++ [(m.bytes p.1 p.2, false)])
    refine ⟨k', ?_⟩
    rw [List.foldl_cons, readPart, read, partPoisoned_clean clean, Bool.false_and, rest, List.map_cons, List.append_assoc]
    rfl

/-- What is answered goes out, and enters a slice's outbound queue. -/
theorem reelAnswer_eq (h : Hub) (a : Access) (parts : List (Bytes × Bool)) :
    ∃ p, reelAnswer h a parts = { h with pen := p, out := h.out ++ [.reelData a.req a.addr parts] } := by
  obtain ⟨p, queued⟩ := queueCompletion_eq h a (((reelParts a.addr a.size).zip parts).map fun q => (q.1.1, q.2))
  exact ⟨p, by rw [reelAnswer, queued]; rfl⟩

theorem readReel_clean {h : Hub} (clean : h.reelBad = []) (m : Memory) (a : Access) :
    ∃ p k, readReel h m a = { h with
      pen := p, reelBlocks := k
      out := h.out ++ [.reelData a.req a.addr ((reelParts a.addr a.size).map fun p => (m.bytes p.1 p.2, false))] } := by
  have sound : (reelParts a.addr a.size).any (partPoisoned h) = false :=
    List.any_eq_false.mpr fun p _ => by rw [partPoisoned_clean clean p]; decide
  obtain ⟨k, read⟩ := foldl_readPart_clean clean m (fromSlice a.req) (reelParts a.addr a.size) []
  obtain ⟨p, answered⟩ := reelAnswer_eq { h with reelBlocks := k } a ((reelParts a.addr a.size).map fun p => (m.bytes p.1 p.2, false))
  refine ⟨p, k, ?_⟩
  rw [readReel_eq, sound, if_neg Bool.false_ne_true, read, List.nil_append, answered]

/-- A read of sound words: beside the answer, nothing but the queues, the prefetch buffers and the count of blocks changes. -/
theorem performAccess_reelRead {h : Hub} (clean : h.reelBad = []) (m : Memory) {a : Access} (reel : a.reel = true) (read : a.write = false) :
    ∃ p k, performAccess h m a = ({ h with
      pen := p, reelBlocks := k
      out := h.out ++ [.reelData a.req a.addr ((reelParts a.addr a.size).map fun p => (m.bytes p.1 p.2, false))] }, m) := by
  obtain ⟨p, k, answered⟩ := readReel_clean clean m a
  rw [performAccess, if_neg (by rw [read]; decide), if_pos reel, answered]
  obtain ⟨p', k', ahead⟩ := readAhead_clean (h := { h with
    pen := p, reelBlocks := k
    out := h.out ++ [.reelData a.req a.addr ((reelParts a.addr a.size).map fun p => (m.bytes p.1 p.2, false))] }) clean m reel
  exact ⟨p', k', by rw [ahead]⟩

/-! ## Writes while no double-bit error stands (R350, R351, R354) -/

/-- No word of Reel memory has a double-bit error, and none is armed (R268). -/
def NoDouble (h : Hub) : Prop := h.is F.reel_INJECT_DOUBLE = false ∧ ∀ b, (badOf h b).testBit 1 = false

theorem partBad_noDouble {h : Hub} (n : NoDouble h) (as : List Nat) (b : Nat) : partBad h as b = false := by
  rw [partBad, n.2 b, Bool.false_and, Bool.false_and]

/-- A write leaves a block without a double-bit error without one. -/
theorem badLeft_testBit {old : Nat} (n : old.testBit 1 = false) (as : List Nat) (b : Nat) : (badLeft old as b).testBit 1 = false := by
  have high : old / 2 % 2 = 0 := by
    rw [Nat.testBit_eq_decide_div_mod_eq, decide_eq_false_iff_not] at n
    omega
  have low : badLeft old as b ≤ 1 := by
    unfold badLeft
    split
    · omega
    · rw [high, Nat.zero_mul, ite_self]
      split <;> omega
  exact Nat.testBit_lt_two_pow (by omega)

theorem noteWritten_noDouble {h : Hub} (n : NoDouble h) (as : List Nat) (b : Nat) : NoDouble (noteWritten as h b) := by
  obtain ⟨unarmed, sound⟩ := n
  refine ⟨Hub.is_flag _ _ _ Nat.one_pos, fun c => ?_⟩
  have single : ((if h.is F.reel_INJECT_SINGLE then 1 else 0) + if h.is F.reel_INJECT_DOUBLE then 2 else 0).testBit 1 = false := by
    rw [unarmed]
    cases h.is F.reel_INJECT_SINGLE <;> rfl
  show (Tbl.get (fun _ => 0) (Tbl.put (fun _ => 0) h.reelBad b _) c).testBit 1 = false
  rw [Tbl.get_put]
  split
  · rw [Nat.testBit_or, badLeft_testBit (sound b), single, Bool.or_false]
  · exact sound c

theorem noteWritten_out (as : List Nat) (h : Hub) (b : Nat) : (noteWritten as h b).out = h.out := rfl

theorem foldl_noteWritten_noDouble {h : Hub} (n : NoDouble h) (as bs : List Nat) :
    NoDouble (bs.foldl (noteWritten as) h) ∧ (bs.foldl (noteWritten as) h).out = h.out :=
  List.foldlRecOn (motive := fun x : Hub => NoDouble x ∧ x.out = h.out) bs (noteWritten as) ⟨n, rfl⟩
    fun x hx b _ => ⟨noteWritten_noDouble hx.1 as b, (noteWritten_out as x b).trans hx.2⟩

/-- A write then stores its cells as they are. -/
theorem reelWrite_noDouble {h : Hub} (n : NoDouble h) (m : Memory) (cells : List (Nat × Byte)) :
    NoDouble (reelWrite h m cells).1 ∧ (reelWrite h m cells).1.out = h.out ∧ (reelWrite h m cells).2 = m.store cells := by
  have whole : (cells.filter fun c => !(c.1 % 64 / 8 == 1 && partBad h (cells.map (·.1)) (c.1 / 64))) = cells :=
    List.filter_eq_self.mpr fun c _ => by rw [partBad_noDouble n, Bool.and_false]; rfl
  obtain ⟨sound, out⟩ := foldl_noteWritten_noDouble n (cells.map (·.1)) (blocksOf (cells.map (·.1)))
  refine ⟨sound, out, ?_⟩
  simp only [reelWrite, whole, n.1, Bool.false_eq_true, if_false]
  split <;> rfl

/-- A write of one part stores the bytes that it enables. -/
theorem writePart_noDouble {x : Hub × Memory} (n : NoDouble x.1) (a : Access) (p : Nat × Nat) :
    NoDouble (writePart a x p).1 ∧ (writePart a x p).1.out = x.1.out ∧ (writePart a x p).2 = x.2.store (partCells a p) := by
  unfold writePart
  dsimp only
  split
  · next empty =>
    rw [List.isEmpty_iff.mp empty]
    exact ⟨n, rfl, rfl⟩
  · obtain ⟨q, left⟩ := invalidate_eq x.1 true p.1 p.2
    rw [left]
    exact reelWrite_noDouble (h := { x.1 with pen := q }) n x.2 (partCells a p)

theorem foldl_writePart_noDouble {x : Hub × Memory} (n : NoDouble x.1) (a : Access) (ps : List (Nat × Nat)) :
    (ps.foldl (writePart a) x).1.out = x.1.out ∧ (ps.foldl (writePart a) x).2 = x.2.store (ps.flatMap (partCells a)) := by
  induction ps generalizing x with
  | nil => exact ⟨rfl, rfl⟩
  | cons p ps ih =>
    obtain ⟨sound, out, stored⟩ := writePart_noDouble n a p
    obtain ⟨restOut, rest⟩ := ih sound
    refine ⟨restOut.trans out, ?_⟩
    rw [List.foldl_cons, rest, stored, List.flatMap_cons, Memory.store, Memory.store, Memory.store, List.foldl_append]

/-- The byte that an access enables at an address. -/
def enabledByte (a : Access) (x : Nat) : Option Byte := a.bytes.getD (x - a.addr) none

def enabledCell (a : Access) (x : Nat) : Option (Nat × Byte) := (enabledByte a x).map fun b => (x, b)

theorem partCells_eq (a : Access) {p : Nat × Nat} (above : a.addr ≤ p.1) : partCells a p = (List.range' p.1 p.2).filterMap (enabledCell a) := by
  rw [partCells, List.range'_eq_map_range, List.filterMap_map]
  refine congrArg (fun cell => (List.range p.2).filterMap cell) (funext fun j => ?_)
  have offset : p.1 + j - a.addr = p.1 - a.addr + j := by omega
  simp only [Function.comp, enabledCell, enabledByte, offset]

theorem partsOf_succ (x fuel n : Nat) : partsOf x (fuel + 1) (n + 1) =
    (x, min (n + 1) (64 - x % 64)) :: partsOf (x + min (n + 1) (64 - x % 64)) fuel (n + 1 - min (n + 1) (64 - x % 64)) := rfl

/-- The parts of a run hold its bytes, each once and in their order. -/
theorem flatMap_partCells (a : Access) {fuel : Nat} : ∀ {x n : Nat}, n ≤ fuel → a.addr ≤ x →
    (partsOf x fuel n).flatMap (partCells a) = (List.range' x n).filterMap (enabledCell a) := by
  induction fuel with
  | zero =>
    intro x n fits _
    rw [Nat.le_zero.mp fits]
    rfl
  | succ fuel ih =>
    intro x n fits above
    cases n with
    | zero => rfl
    | succ n =>
      obtain ⟨k, first⟩ : ∃ k, min (n + 1) (64 - x % 64) = k := ⟨_, rfl⟩
      have cut : n + 1 = k + (n + 1 - k) := by omega
      rw [partsOf_succ, first, List.flatMap_cons, ih (by omega) (by omega), partCells_eq a above, ← List.filterMap_append, cut,
        Nat.add_sub_cancel_left, List.range'_append_1]

/-- A byte after the store of the enabled bytes of a run. -/
theorem read_store_enabled (a : Access) (b : Nat) : ∀ (n : Nat) {x : Nat} (m : Memory), x + n ≤ reelSize →
    Memory.read (Memory.store m ((List.range' x n).filterMap (enabledCell a))) b =
      if x ≤ b ∧ b < x + n then (enabledByte a b).getD (Memory.read m b) else Memory.read m b := by
  intro n
  induction n with
  | zero =>
    intro x m _
    rw [if_neg (by omega)]
    rfl
  | succ n ih =>
    intro x m within
    have later : ∀ m', Memory.read (Memory.store m' ((List.range' (x + 1) n).filterMap (enabledCell a))) b = _ :=
      fun m' => ih m' (by omega)
    rw [List.range'_succ, List.filterMap_cons]
    cases enabled : enabledByte a x with
    | none =>
      simp only [enabledCell, enabled, Option.map_none]
      refine (later m).trans ?_
      by_cases here : b = x
      · rw [here, if_neg (by omega), if_pos (by omega), enabled, Option.getD_none]
      · exact ite_congr (propext (by omega)) (fun _ => rfl) (fun _ => rfl)
    | some v =>
      simp only [enabledCell, enabled, Option.map_some]
      refine (later (m.write x v)).trans ?_
      by_cases here : b = x
      · rw [here, if_neg (by omega), if_pos (by omega), Memory.read_write, if_pos (by omega), enabled, Option.getD_some]
      · have unwritten : Memory.read (m.write x v) b = Memory.read m b := (Memory.read_write ..).trans (if_neg fun c => here c.1)
        rw [unwritten]
        exact ite_congr (propext (by omega)) (fun _ => rfl) (fun _ => rfl)

/-- A write within the 4 GiB: what goes out stands, and each enabled byte is stored. -/
theorem performAccess_reelWrite {h : Hub} (n : NoDouble h) (m : Memory) {a : Access} (reel : a.reel = true) (write : a.write = true)
    (within : a.addr + a.size ≤ reelSize) (named : a.bytes.length ≤ a.size) :
    (performAccess h m a).1.out = h.out ∧ ∀ b, Memory.read (performAccess h m a).2 b =
      if a.addr ≤ b then (enabledByte a b).getD (Memory.read m b) else Memory.read m b := by
  have whole : ((reelParts a.addr a.size).any fun p => partBad h ((partCells a p).map (·.1)) (p.1 / 64)) = false :=
    List.any_eq_false.mpr fun p _ => by rw [partBad_noDouble n]; decide
  obtain ⟨out, stored⟩ := foldl_writePart_noDouble (x := (h, m)) n a (reelParts a.addr a.size)
  rw [performAccess, if_pos write, if_pos reel, writeReel, whole, if_neg Bool.false_ne_true]
  refine ⟨out, fun b => ?_⟩
  rw [stored, reelParts, flatMap_partCells a (Nat.le_refl _) (Nat.le_refl _), read_store_enabled a b a.size m within]
  by_cases below : b < a.addr + a.size
  · exact ite_congr (propext (by omega)) (fun _ => rfl) (fun _ => rfl)
  · rw [if_neg fun c => below c.2]
    by_cases above : a.addr ≤ b
    · rw [if_pos above, enabledByte, List.getD_eq_getElem?_getD, List.getElem?_eq_none (by omega), Option.getD_none, Option.getD_none]
    · rw [if_neg above]

/-! ## The commands -/

theorem bufferHit_noStreams {h : Hub} {a : Access} (empty : ∀ k : Fin 4, a.req = .slice k → (h.penSt k.val).streams = []) :
    bufferHit h a = none := by
  unfold bufferHit
  split
  · next k sent => rw [empty k sent, List.isEmpty_nil, Bool.or_true, Bool.true_or, if_pos rfl]
  · rfl

/-- Nothing in the hub holds back an access of the Reel window (R53, R263). -/
structure ReelOpen (h : Hub) : Prop where
  shelf : h.power.shelf ≠ 2
  idle : h.stalled = []
  present : h.present .reel 0 = true
  ready : h.ready 12 = true

section

variable {s : State} {a : Access}

/-- An access that some byte is asked of is performed, if the prefetch buffer does not answer it. -/
theorem access_reel_performed (open_ : ReelOpen s.hub) (wide : narrow a.req = false) (reel : a.reel = true) (sized : a.size ≠ 0)
    (room : mayAnswer s.hub a = true) (miss : bufferHit s.hub a = none) :
    access s a = .next { s with hub := (performAccess s.hub s.reel a).1, reel := (performAccess s.hub s.reel a).2 } := by
  have judged : judgeAccess s.hub a = .go := by
    rw [judgeAccess, if_pos reel, judgeReel, open_.present, awaitDomain, open_.ready]
    rfl
  have arrived : arrive s.hub s.reel a = performAccess s.hub s.reel a := by
    rw [arrive, if_neg open_.shelf, open_.idle, room, List.any_nil, Bool.not_true, Bool.or_self, if_neg Bool.false_ne_true, startAccess, judged]
    dsimp only
    rw [miss]
  have quiet : endsBist a = false := by
    rw [endsBist, reel, Bool.not_true, Bool.and_false, Bool.false_and]
  simp only [access, onBoth, busAccess, sized, if_false, wide, Bool.false_and, Bool.false_eq_true, arrived, quiet]

/-- A write with no byte enabled performs nothing (R351). -/
theorem access_nothing_enabled (empty : a.size = 0) (write : a.write = true) : access s a = .next s := by
  rw [access, onBoth, busAccess, if_pos empty, if_pos write]

end

theorem mayAnswer_of_write (h : Hub) {a : Access} (write : a.write = true) : mayAnswer h a = true := by
  unfold mayAnswer completionRoom
  split
  · simp [write]
  · rfl

/-- The bytes enabled lie within the run. -/
theorem add_enabledLength_le {data : List (Option Byte)} {addr : Nat} (within : addr + data.length ≤ 2 ^ 32) :
    addr + enabledLength data ≤ 2 ^ 32 := by
  unfold enabledLength
  split <;> omega

/-- No byte is enabled: each position is `none`. -/
theorem getD_of_enabledLength_eq_zero {data : List (Option Byte)} (zero : enabledLength data = 0) (j : Nat) : data.getD j none = none := by
  unfold enabledLength at zero
  split at zero
  · rw [List.eq_nil_of_length_eq_zero zero, List.getD_nil]
  · next unset =>
    rw [List.getD_eq_getElem?_getD]
    cases at_ : data[j]? with
    | none => rfl
    | some c =>
      cases c with
      | none => rfl
      | some v => exact absurd (List.any_eq_true.mpr ⟨some v, List.mem_of_getElem? at_, rfl⟩) unset

theorem enabledLength_of_ne_zero {data : List (Option Byte)} (ne : enabledLength data ≠ 0) : enabledLength data = data.length := by
  unfold enabledLength at ne ⊢
  split
  · rfl
  · next unset => exact absurd (if_neg unset) ne

/-- An access of the Reel window, as it comes to Penstock. -/
def reelReading (req : Req) (addr len : Nat) : Access := { windowAccess req addr len false 0 with reel := true }

def reelWriting (req : Req) (addr : Nat) (data : List (Option Byte)) : Access :=
  { windowAccess req addr (enabledLength data) true 0 with reel := true, bytes := data }

theorem exec_reelWindowRead_within {req : Req} {addr len : Nat} {s : State} (within : addr + len ≤ 2 ^ 32) :
    exec (.reelWindowRead req addr len) s = access s (reelReading req addr len) := reelAccess_within within

theorem exec_reelWindowWrite_within {req : Req} {addr : Nat} {data : List (Option Byte)} {s : State} (within : addr + data.length ≤ 2 ^ 32) :
    exec (.reelWindowWrite req addr data) s = access s (reelWriting req addr data) :=
  reelAccess_within (add_enabledLength_le within)

/-- Settles O34. A read adds to what goes out the bytes of its parts, as no word of them is bad; a write is the store of its enabled bytes,
which the parts hold once each, and with none enabled it is no access at all. -/
theorem reelWindowMovesBytes : Obligations.ReelWindowMovesBytes := by
  intro s req addr wide shelf idle present ready clean
  have open_ : ReelOpen s.hub := ⟨shelf, idle, present, ready⟩
  refine ⟨fun len positive within streams room => ?reads, fun data within unarmed => ?writes, fun len beyond => reelAccess_beyond beyond⟩
  case reads =>
    obtain ⟨p, k, performed⟩ := performAccess_reelRead clean s.reel (a := reelReading req addr len) rfl rfl
    refine ⟨_, (exec_reelWindowRead_within within).trans (access_reel_performed open_ wide rfl (Nat.ne_of_gt positive) room
      (bufferHit_noStreams streams)), ?_⟩
    rw [performed]
    exact ⟨rfl, rfl, fun _ => rfl⟩
  case writes =>
    by_cases empty : enabledLength data = 0
    · refine ⟨s, (exec_reelWindowWrite_within within).trans (access_nothing_enabled empty rfl), rfl, fun b => ?_⟩
      rw [getD_of_enabledLength_eq_zero empty, Option.getD_none, ite_self]
    · have whole := enabledLength_of_ne_zero empty
      obtain ⟨out, bytes⟩ := performAccess_reelWrite (a := reelWriting req addr data)
        ⟨unarmed, fun b => by rw [badOf_clean clean, Nat.zero_testBit]⟩ s.reel rfl rfl (add_enabledLength_le within)
        (Nat.le_of_eq whole.symm)
      exact ⟨_, (exec_reelWindowWrite_within within).trans (access_reel_performed open_ wide rfl empty
        (mayAnswer_of_write _ rfl) (bufferHit_write _ _ rfl)), out, bytes⟩

end Sys2Proof.Machine
end

section
/-! Function-level resets, accesses that end unperformed, and the log (R343, R346, R347, R355, R364). -/


namespace Sys2Proof.Machine

/-! ## Fields that return to reset (R18) -/

theorem Tbl.get_keep {α : Type} (d : Nat → α) (p : Nat → Bool) (t : Tbl α) (k : Nat) :
    Tbl.get d (Tbl.keep p t) k = if p k then Tbl.get d t k else d k := by
  induction t with
  | nil => exact (ite_self _).symm
  | cons e t ih =>
    obtain ⟨a, v⟩ := e
    simp only [Tbl.keep, List.filter_cons]
    rw [Tbl.keep] at ih
    by_cases same : a = k
    · subst same
      cases kept : p a with
      | true => simp [Tbl.get]
      | false => simp [ih, kept]
    · cases p a with
      | true => simp [Tbl.get, same, ih]
      | false => simp [Tbl.get, same, ih]

theorem clearRange_fget (h : Hub) (lo hi : Nat) (cs : List Cls) (f : Fld) : (clearRange h lo hi cs).fget f =
    if decide (32 * lo ≤ f.key) && decide (f.key < 32 * hi) && cs.contains (clsOf f.key) then resetOf h.otp f.key else h.fget f := by
  rw [Hub.fget, clearRange, clearKeys, Tbl.get_keep]
  cases decide (32 * lo ≤ f.key) && decide (f.key < 32 * hi) && cs.contains (clsOf f.key) <;> rfl

/-- A field of a class that is cleared returns to reset within the range. -/
theorem clearRange_cleared (h : Hub) {lo hi : Nat} {cs : List Cls} {f : Fld} (low : lo ≤ f.key / 32) (high : f.key / 32 < hi)
    (cls : clsOf f.key ∈ cs) : (clearRange h lo hi cs).fget f = resetOf h.otp f.key := by
  rw [clearRange_fget, decide_eq_true (by omega : 32 * lo ≤ f.key), decide_eq_true (by omega : f.key < 32 * hi),
    List.contains_iff_mem.mpr cls]
  rfl

theorem clearRange_kept (h : Hub) {lo hi : Nat} (cs : List Cls) {f : Fld} (beside : f.key / 32 < lo ∨ hi ≤ f.key / 32) :
    (clearRange h lo hi cs).fget f = h.fget f := by
  have without : ¬ (32 * lo ≤ f.key ∧ f.key < 32 * hi) := by omega
  rw [clearRange_fget, ← Bool.decide_and, decide_eq_false without, Bool.false_and, if_neg Bool.false_ne_true]

/-- The class and the reset value of a field are those of its row, where its page or its unit gives no value of its own. -/
theorem clsOf_row {key : Nat} {r : Row} (hr : rowAt key = some r) : clsOf key = r.cls := by
  rw [clsOf, hr]

theorem resetOf_row {o : Otp} {key base i : Nat} {k : Kind} {r : Row} (hp : pageAt (key / 32) = some (k, i, base))
    (common : specialReset o k i (key / 32 - base) (key % 32) = none) (hr : rowAt key = some r) : resetOf o key = r.reset := by
  simp only [resetOf, hp, common, hr]

theorem rowAt_field {a lo : Nat} (w : Nat) (hl : lo < 32) : rowAt (Fld.mk a lo w).key = (wordRows a).find? (·.lo == lo) := by
  have low : (Fld.mk a lo w).key % 32 = lo := by rw [Fld.key_mk]; omega
  rw [rowAt, Fld.key_div w hl, low]

/-- A field of class N that is cleared reads the reset value of its row. -/
theorem clearRange_row (h : Hub) {lo hi a l base i : Nat} (w : Nat) {k : Kind} {r : Row} (hl : l < 32) (low : lo ≤ a) (high : a < hi)
    (page : pageAt a = some (k, i, base)) (common : specialReset h.otp k i (a - base) l = none)
    (row : (wordRows a).find? (·.lo == l) = some r) (cls : r.cls = .n) : (clearRange h lo hi [.n]).fget ⟨a, l, w⟩ = r.reset := by
  have found : rowAt (Fld.mk a l w).key = some r := (rowAt_field w hl).trans row
  have word : (Fld.mk a l w).key / 32 = a := Fld.key_div w hl
  have place : (Fld.mk a l w).key % 32 = l := by rw [Fld.key_mk]; omega
  rw [clearRange_cleared h (word.symm ▸ low) (word.symm ▸ high) (by rw [clsOf_row found, cls]; exact List.mem_singleton_self _)]
  exact resetOf_row (by rw [word]; exact page) (by rw [word, place]; exact common) found

/-! ## The MSI-X table of function 0 (R579) -/

theorem pageAt_msix {i off : Nat} (hi : i < 4) (ho : off < 0x10000) : pageAt (Page.msix i + off) = some (.msix, i, Page.msix i) := by
  obtain ⟨q, hq⟩ : ∃ q, off / 0x1000 = q := ⟨_, rfl⟩
  have page : (Page.msix i + off) / 0x1000 = 0x2100 + 16 * i + q := by unfold Page.msix; omega
  have unit : (0x2100 + 16 * i + q - 0x2100) / 16 = i := by omega
  have base : (0x2100 + 16 * i + q - (0x2100 + 16 * i + q - 0x2100) % 16) * 0x1000 = Page.msix i := by unfold Page.msix; omega
  simp only [pageAt, page]
  repeat rw [if_neg (by omega)]
  rw [if_pos (by omega), unit, base]

theorem wordRows_msix {i off : Nat} (hi : i < 4) (ho : off < 0x10000) : wordRows (Page.msix i + off) = rowsMsix.filter (·.covers off) := by
  simp [wordRows, pageAt_msix hi ho, Kind.endpoint, rowsOf]

theorem specialReset_msix (o : Otp) (i off lo : Nat) : specialReset o .msix i off lo = none := by
  unfold specialReset
  rfl

/-- MASK of every vector. -/
theorem rowsMsix_MASK : ∀ v : Fin 32, (rowsMsix.filter (·.covers (0xC + 0x10 * v.val))).find? (·.lo == 0) =
    some ⟨0xC, 32, 0x10, 0, 1, .rw, .n, 1, false⟩ := by
  decide

/-- The pending bits. -/
theorem rowsMsix_PENDING : (rowsMsix.filter (·.covers 0x8000)).find? (·.lo == 0) = some ⟨0x8000, 1, 4, 0, 32, .ro, .n, 0, false⟩ := by
  decide

/-- A field of the table after it is cleared. -/
theorem clearMsix_fget (h : Hub) {i off lo : Nat} (w : Nat) {r : Row} (hi : i < 4) (ho : off < 0x10000) (hl : lo < 32)
    (hr : (rowsMsix.filter (·.covers off)).find? (·.lo == lo) = some r) (cls : r.cls = .n) :
    (clearRange h (Page.msix i) (Page.msix i + 0x10000) [.n]).fget ⟨Page.msix i + off, lo, w⟩ = r.reset :=
  clearRange_row h w hl (by omega) (by omega) (pageAt_msix hi ho) (specialReset_msix ..) (by rw [wordRows_msix hi ho, hr]) cls

/-! ## FLR of function 0 (R347) -/

theorem dropInbound_stalled (h : Hub) (s : Fin 4) : ∀ a ∈ (dropInbound h s.val).stalled, a.req ≠ .slice s := by
  intro a ha mine
  have other := (List.mem_filter.mp ha).2
  rw [mine] at other
  exact absurd other (by simp)

theorem dropOutbound_penSt (h : Hub) (s func : Nat) : (dropOutbound h s func).penSt s =
    { h.penSt s with
      outq := (h.penSt s).outq.filter (·.func != func), blocked := (h.penSt s).blocked.filter (·.1.func != func)
      reads := if func = 1 then [] else (h.penSt s).reads } :=
  (Hub.penSt_setPen ..).trans (if_pos rfl)

theorem flr0_stalled (h : Hub) (s : Nat) : (flr0 h s).stalled = (dropInbound h s).stalled := by
  rw [flr0, Hub.setPen_stalled]
  rfl

/-- The prefetch buffer is emptied, and the requests of the function are discarded. -/
theorem flr0_penSt (h : Hub) (s : Nat) : (flr0 h s).penSt s =
    { h.penSt s with
      outq := (h.penSt s).outq.filter (·.func != 0), blocked := (h.penSt s).blocked.filter (·.1.func != 0), streams := [] } := by
  have dropped : (dropOutbound (dropInbound h s) s 0).penSt s = _ := dropOutbound_penSt ..
  refine ((Hub.penSt_setPen ..).trans (if_pos rfl)).trans ?_
  show { (dropOutbound (dropInbound h s) s 0).penSt s with streams := [] } = _
  rw [dropped]
  rfl

theorem flr0_fget (h : Hub) (s : Nat) (f : Fld) : (flr0 h s).fget f =
    (clearRange (dropOutbound (dropInbound h s) s 0) (Page.msix s) (Page.msix s + 0x10000) [.n]).fget f := rfl

theorem flr0_kept (h : Hub) {s : Nat} {f : Fld} (beside : f.key / 32 < Page.msix s ∨ Page.msix s + 0x10000 ≤ f.key / 32) :
    (flr0 h s).fget f = h.fget f := (flr0_fget h s f).trans (clearRange_kept _ _ beside)

theorem flr0_mask (h : Hub) (s : Fin 4) (v : Fin 32) : (flr0 h s.val).is (F.msix_VECTOR_CTL_MASK s.val v.val) = true := by
  have at_ : A.msix_VECTOR_CTL s.val v.val = Page.msix s.val + (0xC + 0x10 * v.val) := by unfold A.msix_VECTOR_CTL Page.msix; omega
  rw [Hub.is, flr0_fget, F.msix_VECTOR_CTL_MASK, at_, clearMsix_fget _ 1 s.isLt (by omega) (by decide) (rowsMsix_MASK v) rfl]
  rfl

theorem flr0_pending (h : Hub) (s : Fin 4) : (flr0 h s.val).fget (F.msix_PBA_PENDING s.val) = 0 := by
  have at_ : A.msix_PBA s.val = Page.msix s.val + 0x8000 := by unfold A.msix_PBA Page.msix; omega
  rw [flr0_fget, F.msix_PBA_PENDING, at_, clearMsix_fget _ 32 s.isLt (by decide) (by decide) rowsMsix_PENDING rfl]

/-! ## FLR of function 1 (R343, R376) -/

/-- The hub before what the NIC has under way is dropped. -/
def nicCleared (h : Hub) (s : Nat) : Hub := dropOutbound (clearRange h (Page.nic s) (Page.nic s + 0x1000) [.n, .s, .d, .l]) s 1

theorem flr1_eq (h : Hub) (s : Nat) : flr1 h s = nicDrop (nicCleared h s) s := rfl

/-- A NIC keeps no field in the Vault's class. -/
theorem rowsNic_cls : ∀ r ∈ rowsNic, r.cls ≠ .a → r.cls ∈ [Cls.n, .s, .d, .l] := by decide

theorem clsOf_nic {key i base : Nat} (hp : pageAt (key / 32) = some (.nic, i, base)) (reset : clsOf key ≠ .a) :
    clsOf key ∈ [Cls.n, .s, .d, .l] := by
  unfold clsOf at reset ⊢
  split
  · next r found =>
    rw [found] at reset
    have row : r ∈ wordRows (key / 32) := List.mem_of_find?_eq_some found
    rw [wordRows, hp] at row
    exact rowsNic_cls r (List.mem_filter.mp row).1 reset
  · next missing =>
    rw [missing] at reset
    exact absurd rfl reset

theorem nicCleared_fget (h : Hub) {s : Nat} {f : Fld} (hs : s < 4) (low : Page.nic s ≤ f.key / 32) (high : f.key / 32 < Page.nic s + 0x1000)
    (reset : clsOf f.key ≠ .a) : (nicCleared h s).fget f = resetOf (nicCleared h s).otp f.key := by
  have page : pageAt (f.key / 32) = some (.nic, s, Page.nic s) := by
    have := pageAt_nic hs (off := f.key / 32 - Page.nic s) (by omega)
    rwa [Nat.add_sub_cancel' low] at this
  exact clearRange_cleared h low high (clsOf_nic page reset)

theorem nicCleared_penSt (h : Hub) (s : Nat) : (nicCleared h s).penSt s =
    { h.penSt s with
      outq := (h.penSt s).outq.filter (·.func != 1), blocked := (h.penSt s).blocked.filter (·.1.func != 1), reads := [] } :=
  dropOutbound_penSt ..

/-! ## Accesses that end without being performed (R53, R355) -/

theorem reelAnswer_stalled (h : Hub) (a : Access) (parts : List (Bytes × Bool)) : (reelAnswer h a parts).stalled = h.stalled := by
  obtain ⟨p, answered⟩ := reelAnswer_eq h a parts
  rw [answered]

theorem answerWord_stalled (h : Hub) (a : Access) (v : Nat) : (answerWord h a v).stalled = h.stalled := by
  unfold answerWord
  split
  · exact reelAnswer_stalled ..
  · split
    · split <;> rfl
    · obtain ⟨p, queued⟩ := queueCompletion_eq h a [(a.addr, leBytes a.size v, false)]
      rw [queued]
      rfl

/-- Entry n of the log is written, and counted. -/
def logEntered (h : Hub) (n req addr size cause : Nat) (reel : Bool) : Hub :=
  let h := (h.fset F.pstk_LOG_CTL_COUNT (n + 1)).fset (F.pstk_LOG_ADDR_ADDR n) addr
  let h := ((h.fset (F.pstk_LOG_INFO_CAUSE n) cause).flag (F.pstk_LOG_INFO_WINDOW n) reel).fset (F.pstk_LOG_INFO_REQ n) req
  let h := h.fset (F.pstk_LOG_INFO_SIZE n) size
  (h.fset (F.pstk_LOG_TIME_LO_TICKS n) (h.ftime % 2 ^ 32)).fset (F.pstk_LOG_TIME_HI_TICKS n) (h.ftime / 2 ^ 32)

/-- What finds the log full is counted as lost. -/
def logLost (h : Hub) : Hub := (h.flag F.pstk_STAT_LOG_OVERFLOW true).bump F.pstk_LOG_LOST_COUNT 1

theorem logWrite_eq (h : Hub) (req addr size cause : Nat) (reel : Bool) : logWrite h req addr size cause reel =
    if 16 ≤ (h.event Page.pstk 0).fget F.pstk_LOG_CTL_COUNT then logLost (h.event Page.pstk 0)
    else logEntered (h.event Page.pstk 0) ((h.event Page.pstk 0).fget F.pstk_LOG_CTL_COUNT) req addr size cause reel := rfl

theorem logWrite_stalled (h : Hub) (req addr size cause : Nat) (reel : Bool) : (logWrite h req addr size cause reel).stalled = h.stalled := by
  rw [logWrite_eq, apply_ite Hub.stalled]
  exact ite_self _

theorem endAccess_stalled (h : Hub) (a : Access) (cause : Nat) : (endAccess h a cause).stalled = h.stalled := by
  unfold endAccess
  split
  · exact logWrite_stalled ..
  · exact answerWord_stalled ..

/-- The read of a word of the register window is answered with ones, and no field changes beside the record of the error. -/
theorem endAccess_read {h : Hub} {a : Access} (cause : Nat) (read : a.write = false) (window : a.reel = false) (bus : a.dock = false)
    (word : a.size = 4) : (endAccess h a cause).out = h.out ++ [.readDone a.req a.addr 0xFFFFFFFF] ∧
      ∀ f, (endAccess h a cause).fget f = (npError h (reqCode a.req) a.addr cause a.reel).fget f := by
  obtain ⟨p, queued⟩ := queueCompletion_eq (npError h (reqCode a.req) a.addr cause a.reel) a [(a.addr, leBytes a.size (allOnes a), false)]
  have ones : allOnes a = 2 ^ 32 - 1 := if_neg (by rw [word]; decide)
  rw [endAccess, if_neg (by rw [read]; decide), answerWord, if_neg (by rw [window]; decide), if_neg (by rw [bus]; decide), queued, ones]
  exact ⟨rfl, fun _ => rfl⟩

/-- NP_LAST holds the cause (R357, R365). -/
theorem npError_cause (h : Hub) (req addr cause : Nat) (reel : Bool) :
    (npError h req addr cause reel).Has F.pstk_NP_LAST_CAUSE cause := by
  have apart : F.pstk_NP_LAST_CAUSE.key ≠ F.pstk_NP_LAST_WINDOW.key ∧ F.pstk_NP_LAST_CAUSE.key ≠ F.pstk_NP_LAST_REQ.key := by decide
  rw [Hub.Has, npError, Hub.fget_event_other _ _ _ (by decide), Hub.fget_fset_other _ _ apart.2, Hub.flag, Hub.fget_fset_other _ _ apart.1,
    Hub.fget_fset_same]

theorem logEntered_kept (h : Hub) (n req addr size cause : Nat) (reel : Bool) :
    KeptBut [A.pstk_LOG_CTL, A.pstk_LOG_ADDR n, A.pstk_LOG_INFO n, A.pstk_LOG_TIME_LO n, A.pstk_LOG_TIME_HI n] h
      (logEntered h n req addr size cause reel) :=
  ((((((((keptBut_refl _ h).fset _ (by decide) (by simp)).fset _ (by decide) (by simp)).fset _ (by decide) (by simp)).fset _ (by decide)
    (by simp)).fset _ (by decide) (by simp)).fset _ (by decide) (by simp)).fset _ (by decide) (by simp)).fset _ (by decide) (by simp)

theorem logLost_kept (h : Hub) : KeptBut [A.pstk_STAT, A.pstk_LOG_LOST] h (logLost h) :=
  ((keptBut_refl _ h).fset _ (by decide) (by decide)).fset _ (by decide) (by decide)

/-- PWERR is raised, whether the log has room or not (R364). -/
theorem logWrite_event (h : Hub) (req addr size cause : Nat) (reel : Bool) :
    (logWrite h req addr size cause reel).bit (F.hdr_INT_STAT_EVENT Page.pstk) 0 = true := by
  have raised : (h.event Page.pstk 0).bit (F.hdr_INT_STAT_EVENT Page.pstk) 0 = true := Hub.event_set h Page.pstk 0 (by decide)
  rw [logWrite_eq]
  split
  · exact (logLost_kept _).eventBit (by decide) raised
  · refine KeptBut.eventBit (logEntered_kept _ _ req addr size cause reel) ?_ raised
    simp only [Page.pstk, A.pstk_LOG_CTL, A.pstk_LOG_ADDR, A.pstk_LOG_INFO, A.pstk_LOG_TIME_LO, A.pstk_LOG_TIME_HI, List.mem_cons,
      List.not_mem_nil, or_false]
    omega

/-- A stalled access of a domain that runs ends with cause internal, and those it kept back go on (R355). -/
theorem internalTimeout_ends {h : Hub} {k d : Nat} {a : Access} (m : Memory) (ha : h.stalled[k]? = some a) (waits : a.await = .ready d)
    (on : h.domOn d = true) :
    internalTimeout h m k = pump (endAccess { h with stalled := h.stalled.eraseIdx k } a Cause.internal) m := by
  simp only [internalTimeout, ha, waits, on, if_true, endStalled]

/-! ## LOG_CTL.CLEAR (R364) -/

theorem write_LOG_CTL_CLEAR {s : State} {req : Req} (hw : Writes s req A.pstk_LOG_CTL) :
    busWrite s req A.pstk_LOG_CTL 0x100 = .next { s with hub := logClear (invalidate s.hub false A.pstk_LOG_CTL 4) } := by
  rw [write_block hw (by decide) (pageAt_pstk (by decide : 0x48 < 0x1000)) (by decide) (by decide) (by decide) rfl]
  rfl

/-- CAUSE of every log entry. -/
theorem rowsPstk_LOG_CAUSE : ∀ n : Fin 16, (rowsPstk.filter (·.covers (0x204 + 0x10 * n.val))).find? (·.lo == 0) =
    some ⟨0x204, 16, 0x10, 0, 3, .ro, .n, 0, false⟩ := by
  decide

/-- Penstock's block registers have the reset values of their rows. -/
theorem specialReset_pstk (o : Otp) (i lo : Nat) {off : Nat} (block : 0x40 ≤ off) : specialReset o .pstk i off lo = none := by
  unfold specialReset
  rw [if_neg fun header => Nat.not_lt.mpr block header.2.2]

theorem logClear_cause (h : Hub) (n : Fin 16) : (logClear h).fget (F.pstk_LOG_INFO_CAUSE n.val) = 0 := by
  have at_ : A.pstk_LOG_INFO n.val = Page.pstk + (0x204 + 0x10 * n.val) := by unfold A.pstk_LOG_INFO Page.pstk; omega
  have page : pageAt (Page.pstk + (0x204 + 0x10 * n.val)) = some (.pstk, 0, Page.pstk) := pageAt_pstk (by omega)
  have row : (wordRows (Page.pstk + (0x204 + 0x10 * n.val))).find? (·.lo == 0) = some ⟨0x204, 16, 0x10, 0, 3, .ro, .n, 0, false⟩ := by
    rw [wordRows_block page (by omega), rowsOf, rowsPstk_LOG_CAUSE n]
  rw [logClear, Hub.fget_fset_other _ _ (by simp [F.pstk_LOG_INFO_CAUSE, F.pstk_LOG_CTL_COUNT, A.pstk_LOG_INFO, A.pstk_LOG_CTL]; omega),
    F.pstk_LOG_INFO_CAUSE, at_]
  exact clearRange_row h 3 (by decide) (by omega) (by omega) page (specialReset_pstk _ _ _ (by omega)) row rfl

theorem logClear_kept (h : Hub) {f : Fld} (beside : ¬(Page.pstk + 0x200 ≤ f.key / 32 ∧ f.key / 32 < Page.pstk + 0x300))
    (other : f.key ≠ F.pstk_LOG_CTL_COUNT.key) : (logClear h).fget f = h.fget f := by
  rw [logClear, Hub.fget_fset_other _ _ other, clearRange_kept _ _ (by omega)]

/-- Settles O35. An AtomicOp is answered with a completion without data. What an FLR clears it clears before the stack, the doorbells and the
NIC's work follow: `flr0` and `nicCleared` are the hubs then. An internal timeout ends its access (`endAccess`) before those that it kept back go
on, and the log is cleared within its own words. -/
theorem functionResetsAndLog : Obligations.FunctionResetsAndLog := by
  intro s slice
  refine ⟨?atomic, ?flr0, ?flr1, fun k a d ha waits on => ?timeout, fun req hw => ?clear⟩
  case atomic =>
    refine ⟨_, rfl, rfl, ?_, rfl, rfl⟩
    exact congrArg PenSt.outq ((Hub.penSt_setPen ..).trans (if_pos rfl))
  case flr0 =>
    have pen := flr0_penSt s.hub slice.val
    refine ⟨_, rfl, flr0 s.hub slice.val, ?_, by rw [pen], by rw [pen], by rw [pen], fun g => flr0_kept s.hub, flr0_mask s.hub slice,
      flr0_pending s.hub slice, by dsimp only⟩
    rw [flr0_stalled]
    exact dropInbound_stalled s.hub slice
  case flr1 =>
    have pen := nicCleared_penSt s.hub slice.val
    exact ⟨_, rfl, nicCleared s.hub slice.val, fun g => nicCleared_fget s.hub slice.isLt, by rw [pen], by rw [pen], flr1_eq ..⟩
  case timeout =>
    refine ⟨_, rfl, endAccess { s.hub with stalled := s.hub.stalled.eraseIdx k } a Cause.internal, endAccess_stalled .., ?_,
      fun read window bus word => ?_, fun write => ?_⟩
    · dsimp only
      rw [internalTimeout_ends s.reel ha waits on]
    · obtain ⟨out, fields⟩ := endAccess_read (h := { s.hub with stalled := s.hub.stalled.eraseIdx k }) Cause.internal read window bus word
      exact ⟨out, (fields _).trans (npError_cause ..)⟩
    · rw [endAccess, if_pos write]
      exact logWrite_event ..
  case clear =>
    refine ⟨_, write_LOG_CTL_CLEAR hw, Hub.fget_fset_same .., logClear_cause _, fun g beside other => ?_⟩
    exact (logClear_kept _ beside other).trans (invalidate_fget ..)

end Sys2Proof.Machine
end

section
/-! A Tally entry whose source is never sampled (R378). -/

namespace Sys2Proof.Machine

/-- The entry is named in MAP_FAULT beside the event. -/
theorem wordSample_unsourced {h : Hub} {w : Nat} (on : wordOn h w = true) (kind : h.fget (F.tallyTab_MAP_CTL_KIND w) = 1)
    (unsourced : sampleOk h w = none) : wordSample h w = (h.fset F.tally_MAP_FAULT_WORD w).event Page.tally 18 := by
  simp only [wordSample, on, kind, unsourced, bne_self_eq_false, Bool.not_true, Bool.or_self, Bool.false_eq_true, if_false]

theorem wordSample_unsourced_word {h : Hub} {w : Nat} (on : wordOn h w = true) (kind : h.fget (F.tallyTab_MAP_CTL_KIND w) = 1)
    (unsourced : sampleOk h w = none) : (wordSample h w).Has F.tally_MAP_FAULT_WORD w := by
  rw [wordSample_unsourced on kind unsourced, Hub.Has, Hub.fget_event_other _ _ _ (by decide), Hub.fget_fset_same]

/-- MAP_FAULT stands in a word of its own, beside INT_STAT. -/
theorem not_othersKept_unsourced {h : Hub} {w : Nat} (on : wordOn h w = true) (kind : h.fget (F.tallyTab_MAP_CTL_KIND w) = 1)
    (unsourced : sampleOk h w = none) (new : ¬ h.Has F.tally_MAP_FAULT_WORD w) : ¬ OthersKept (Page.tally + 0x10) h (wordSample h w) :=
  fun kept => new ((kept F.tally_MAP_FAULT_WORD (by decide)).symm.trans (wordSample_unsourced_word on kind unsourced))

/-- After reset, entry 7 is made a KIND 1 entry; its source is address 0, which is never sampled, and MAP_FAULT still names entry 0. -/
def unsourcedEntry : State := { State.reset with hub := Hub.reset.fset (F.tallyTab_MAP_CTL_KIND 7) 1 }

/-- Refutes O37: at a KIND 1 entry whose source R378 excludes, the statement keeps every word but INT_STAT of TALLY, while the entry's number
goes to MAP_FAULT as well (R378, R393). In `unsourcedEntry` WORD_SAMPLE of entry 7 changes MAP_FAULT.WORD from 0 to 7. -/
theorem not_tallyWordsAndEvents : ¬ Obligations.TallyWordsAndEvents := by
  rintro ⟨words, _⟩
  have on : wordOn unsourcedEntry.hub 7 = true := by decide
  have kind : unsourcedEntry.hub.fget (F.tallyTab_MAP_CTL_KIND 7) = 1 := Hub.fget_fset_same ..
  have unsourced : sampleOk unsourcedEntry.hub 7 = none := by decide
  have new : ¬ unsourcedEntry.hub.fget F.tally_MAP_FAULT_WORD = 7 % 2 ^ 8 := by decide
  obtain ⟨_, faults, _⟩ := words unsourcedEntry 7
  obtain ⟨t, sampled, _, kept⟩ := faults on kind unsourced
  have after : t.hub = wordSample unsourcedEntry.hub 7 := by
    cases sampled
    rfl
  exact not_othersKept_unsourced on kind unsourced new (after ▸ kept)

end Sys2Proof.Machine
end
